-- ==== Sys2Proof/Word.lean ====
section
/-! DEFINITION. The word types of the TM3264 as the spec names them (R8, R9): bytes, 32-bit register
words, 64-bit ring times. -/

namespace Sys2Proof

/-- One byte. -/
abbrev Byte := BitVec 8

/-- A 32-bit register or descriptor word (R9, R281). -/
abbrev Word := BitVec 32

/-- Ring time: unsigned 64-bit, LSB 5 ns (R8, Table SCOPE-6; R255). -/
abbrev Time := BitVec 64

end Sys2Proof
end

