-- ==== Sys2Proof/Syntax.lean ====
section
/-! DEFINITION. The commands of the TM3264 block: one constructor of `Instr` per row of the opcode table, with
the operands that the outside (host pins, ring ports, analog inputs, clocks) supplies with it. A command
that belongs to a moment of ring time carries that moment `t` first. -/

namespace Sys2Proof

/-- A link port of the device (R219). -/
inductive Port where
  | north | south
deriving DecidableEq, Repr

/-- A lane group (R67): lane A or lane B of every cell. -/
inductive LaneGroup where
  | a | b
deriving DecidableEq, Repr

/-- A safety output (R314). -/
inductive Out where
  | soa | sob
deriving DecidableEq, Repr

/-- A master of the register space (R335). The host is the head's host port or a position's executor. -/
inductive Master where
  | belvedere | hostPort | executor | engine
deriving DecidableEq, Repr

/-- Who reads a word of memory (R363, R364): the scrubber, the host port, or the device for the command of a handle. -/
inductive Reader where
  | scrubber | hostPort | command (h : Nat)
deriving DecidableEq, Repr

/-- Parity (R342), by register offset: committed copies that the scan sees at fault, those whose fault a block's use of them shows, and shadows
that have been upset. -/
structure ParitySeen where
  scan : List Nat
  uses : List Nat
  shadows : List Nat
deriving DecidableEq, Repr

/-- The sixteen words of a 64-byte submission descriptor (R281). -/
abbrev Desc := List Word

/-- One part of a window whose samples the same two layers correct (R101, R109): how long before the instant its last sample lies, in
ring-time LSBs; the sum of its window weights, and of its raw samples x (0.1 uV) and of x squared so weighted, weights in 1/65536. -/
structure RawPart where
  age : Nat
  share : Nat
  m1 : Int
  m2 : Int
deriving DecidableEq, Repr

/-- The span that a signal covers over some time: its least and its greatest value. -/
structure Span where
  lo : Int
  hi : Int
deriving DecidableEq, Repr

/-- One lane reading over the window of R71: the parts of its raw 50 kS/s stream, the later parts first, the span of the modulator's input,
referred to the cell, in uV (R428), and the window-weighted conduction of the switches n-1, n, n+1 in 1/65536 (R83). A window holds more than
one part where the modulator or a correction changes within it. -/
structure LaneSample where
  cell : Nat
  parts : List RawPart
  input : Span
  wLow : Nat
  wOwn : Nat
  wHigh : Nat
deriving DecidableEq, Repr

/-- One part of a current window that the same words correct (R131): how long before the instant its last sample lies, the sum of its window
weights, that of its raw samples so weighted (nV of shunt voltage, weights in 1/65536), and the span of those samples. -/
structure CurPart where
  age : Nat
  share : Nat
  m1 : Int
  raw : Span
deriving DecidableEq, Repr

/-- One current reading over its window: the parts of the raw 50 kS/s stream, and the span of the modulator's input, referred to the shunt, in
nV (R428). -/
structure CurSample where
  parts : List CurPart
  input : Span
deriving DecidableEq, Repr

/-- One raw 50 kS/s sample of ISA and of ISB, shunt voltage in nV before R131's correction, and the spans of their modulators' inputs that it
takes in. -/
structure CurRaw where
  a : Int
  b : Int
  inA : Span
  inB : Span
deriving DecidableEq, Repr

/-- Coefficient estimates of R82 in LSB of 2 uV at 3.000 V: own = aj + bj from cell j; up = aj from cell j+1;
down = bj from cell j-1. -/
structure CoefEst where
  own : Nat
  up : Nat
  down : Nat
deriving DecidableEq, Repr

/-- What one spare's slot measures (R107 to R115): the takeover and hand-back steps in uV, the spans of the inputs of both modulators over the
two overlaps, referred to the cell, in uV (R428), the fit (offset 0.1 uV, gain 0.01 ppm), the worst point residual in 0.1 uV, and the gain
ratio BGB/BGA less 1 in 0.01 ppm. -/
structure ReliefOutcome where
  spare : Nat
  stepIn : Int
  stepOut : Int
  inputIn : Span
  inputOut : Span
  off : Int
  gain : Int
  residual : Nat
  bgRatio : Int
deriving DecidableEq, Repr

/-- A current sample frame (Table SENS-3). -/
structure CurFrame where
  t0 : Time
  shunt : Word
  seq : Nat
  idx : Nat
  words : List Word
deriving DecidableEq, Repr

/-- The levels of a Daroth wire line around one attention, true for high (R150): before it begins, in the two halves of the two cells of the
presence pattern, and 80 us after release. -/
structure WireAttention where
  idle : Bool
  first : Bool × Bool
  second : Bool × Bool
  at80 : Bool
deriving DecidableEq, Repr

/-- What a Daroth wire port meets in one transaction (R148 to R156): VWIRE in mV, the attention, the cells of the reply as the port samples
their halves (none: the line stays high), and the attention that follows a reply broken off (R156). -/
structure WireReply where
  mv : Nat
  att : WireAttention
  cells : List (Bool × Bool)
  again : WireAttention
deriving DecidableEq, Repr

/-- The measurements of one Gazebo cycle (R215): the raw lane B stream of each cell over its average, the M-die sensor and the ambient
channel in 1/64 degree, and per cell the sensed switch current in mA and on-resistance in mohm. -/
structure GazeboReading where
  cells : List RawPart
  tdie : Int
  amb : Int
  ambBad : Bool
  ma : List Nat
  mohm : List Nat
deriving DecidableEq, Repr

/-- One bank's fail map as found by a memory self-test (R386, R387): failing (word address, bit) pairs, and
whether its retest failed or its decoder failed. -/
structure BankFails where
  mem : Nat
  fails : List (Nat × Nat)
  retestFail : Bool
  decoderFail : Bool
deriving DecidableEq, Repr

/-- What a self-test measures (R384 to R389, Table BIST-2): the banks' failures, patterns completed, the signature as its difference from the golden
value, the extremes seen, whether every zeroed secret read back zero, and, where the conditions of R384 were lost, whether they held throughout the
memory test or throughout the logic test. -/
structure SelfTestRun where
  banks : List BankFails
  patterns : Nat
  misr : BitVec 64
  vcoreMin : Nat
  vcoreMax : Nat
  clkMin : Nat
  clkMax : Nat
  tHigh : Int
  tLow : Int
  cleared : Bool
  memHeld : Bool
  logicHeld : Bool
deriving DecidableEq, Repr

/-- What a comparator pair shows in its online test (R394, Table BIST-5): microseconds until its OV and UV outputs assert and release, and
whether each agrees with the stand-in for the 5 ms. -/
structure PairSeen where
  cell : Nat
  ovUp : Nat
  ovDown : Nat
  uvUp : Nat
  uvDown : Nat
  ovAgree : Bool
  uvAgree : Bool
deriving DecidableEq, Repr

/-- What a start meets outside (R2, R60, R61, R395): the MODE level as reset ends, whether the reset cause has ended, the self-test of a full
start, verification of the firmware banks, and what the analog start check measures: the ratio of the band-gap comparison less 1 in
0.01 ppm (R99), per comparator pair the cell's mean voltage in uV and what the pair shows, and per tap the changes of lane B of cells k and
k + 1 in uV (R87). -/
structure StartEnv where
  mode : Bool
  ended : Bool
  test : SelfTestRun
  bankA : Bool
  bankB : Bool
  bgRatio : Int
  pairs : List (Int × PairSeen)
  taps : List (Nat × Int × Int)
deriving DecidableEq, Repr

/-- One engine-grid sample of a cell (R160): its instant, the lane A stream over the engine filter's window with the conduction of the switches,
and the sensed switch current in uA. -/
structure EngSample where
  inst : Time
  x : LaneSample
  sw : Nat
deriving DecidableEq, Repr

/-- Spectra at one frequency, in mHz, each scaled so that an auto-spectrum is a mean square (R177): of the cell voltage v (nV), the
shunt voltage p (nV) and the switch current s (uA), with the cross-spectra as real and imaginary parts of v p*, v s* and p s*. -/
structure SpecBin where
  mHz : Nat
  vv : Nat
  pp : Nat
  ss : Nat
  vp : Int × Int
  vs : Int × Int
  ps : Int × Int
deriving DecidableEq, Repr

/-- The spectra of a cell over the time of a point. -/
structure CellSpectra where
  cell : Nat
  point : Nat
  bins : List SpecBin
deriving DecidableEq, Repr

/-- Spectral lines of pack current in one step of 1 s (R172): frequency in mHz and shunt voltage in nV rms. -/
abbrev RippleStep := List (Nat × Nat)

/-- What one switch senses over the time since the last update of the thermal manager (R205, R208, R209): on-current in mA,
on-resistance in mohm, on time in ms, whether it had an on phase of at least 2 ms, and the largest current sensed in such
phases. -/
structure SwitchReading where
  j : Nat
  ma : Nat
  mohm : Nat
  onMs : Nat
  onPhase : Bool
  maxMa : Nat
deriving DecidableEq, Repr

/-- One delay exchange (R238): the instants t1 to t4, in 0.625 ns. -/
structure DlyStamps where
  t1 : Nat
  t2 : Nat
  t3 : Nat
  t4 : Nat
deriving DecidableEq, Repr

/-- An ENUM payload (R253). -/
structure EnumMsg where
  op : Nat
  next : Nat
  count : Nat
  overflow : Bool
  entries : List (Byte × Byte)
deriving DecidableEq, Repr

/-- A BEACON payload (Table RING-4), with the part of 5 ns, in 0.625 ns, by which its TMARK came after t. -/
structure Beacon where
  t0 : Time
  corr : Nat
  hops : Nat
  locked : Bool
  num : Nat
  frac : Nat
deriving DecidableEq, Repr

/-- A HEARTBEAT payload (R262): slots list (first byte, second byte) for positions 0 to 62. -/
structure Heartbeat where
  num : Nat
  unassigned : Bool
  turned : Bool
  slots : List (Byte × Byte)
deriving DecidableEq, Repr

/-- A SWEEP_TRIGGER payload (Table RING-6). -/
structure Trigger where
  T : Time
  h : Nat
  first : Nat
  last : Nat
  retrig : Bool
deriving DecidableEq, Repr

/-- A REQUEST payload (Table RING-2): kind 0 a command, 1 re-send held results, 2 drive the wake stream. -/
structure Request where
  h : Nat
  kind : Nat
  d : Desc
  port : Nat
deriving DecidableEq, Repr

/-- A RESPONSE payload (Table RING-2): kind 0 accept, 1 final. -/
structure Response where
  h : Nat
  kind : Nat
  code : Nat
  total : Nat
  off : Nat
  data : List Byte
deriving DecidableEq, Repr

/-- A STREAM frame (Table RING-2). -/
structure StreamFrame where
  h : Nat
  first : Nat
  t0 : Time
  pos : Nat
  records : List (List Byte)
deriving DecidableEq, Repr

/-- What the current channel meets at a requested instant (R73, R136): the results of its channels, where there are any, and the raw 50 kS/s
samples since those that came last, as in `currentGridResult`. -/
structure CurNow where
  res : List CurSample
  raw : List CurRaw
deriving DecidableEq, Repr

/-- What the engines have of an ESTIMATE's interval (R172, R186): the ripple lines of its steps of 1 s, and the spectra of the cells. -/
structure EstSpectra where
  lines : List RippleStep
  cells : List CellSpectra
deriving DecidableEq, Repr

/-- A transaction that is neither a read nor a write (R274, R275): its opcode, the bytes clocked out before HCS_N rises, and its extension. -/
structure StatusRead where
  op : Byte
  n : Nat
  ext : Byte
deriving DecidableEq, Repr

/-- How a non-volatile operation ends (R367, R368): whether it verified, and the sectors that failed. -/
structure NvmEnd where
  ok : Bool
  bad : List Nat
deriving DecidableEq, Repr

/-- What the end of a CAL_USER job meets (R126): the raw current samples since those that came last, and for mode 3 the parts of the raw streams
of lanes A and B over the measurement interval, for the means of u of R101. -/
structure CalUserRun where
  raw : List CurRaw
  uA : List RawPart
  uB : List RawPart
deriving DecidableEq, Repr

/-- What an on-demand self-test finds (R392, R394, R396). -/
structure OnlineTest where
  spareOk : Bool
  stageOk : Bool
  pairs : List PairSeen
  bank : List BankFails
deriving DecidableEq, Repr

/-- Non-volatile operations whose completion continues a procedure (R367). -/
inductive NvmOp where
  | calImage | calMarker | calErase | calCleanup | cfgStore | cfgCleanup | fwErase | fwProgram | fwMarker
  | repairRecord | selfTestRecord | minsec | refresh | histMark
deriving DecidableEq, Repr

/-- The commands of the block, one constructor per row of the opcode table. -/
inductive Instr where
  /-- VSTK_POWER_ON, R50, R36: VSTK passes 5.8 V from OFF and VREG reaches the warning rising threshold. -/
  | vstkPowerOn
  /-- SUPPLY_WARNING, R37: VREG falls below the warning level. -/
  | supplyWarning (t : Time)
  /-- SUPPLY_WARNING_CLEAR, R37: VREG rises above the warning rising threshold. -/
  | supplyWarningClear (t : Time)
  /-- SUPPLY_LOW_SHED, R38: the warning has lasted 10 ms. -/
  | supplyLowShed (t : Time)
  /-- SHED_END, R38: 100 ms after the warning cleared. -/
  | shedEnd (t : Time)
  /-- BROWN_OUT_RESET, R40: VREG falls below the reset level. -/
  | brownOutReset (t : Time)
  /-- RAIL_RESET, R35: VA33 or VCORE has been outside its window for `us` microseconds (resets above 5). -/
  | railReset (t : Time) (us : Nat)
  /-- EXTERNAL_RESET, R47: an external driver holds RST_N low for `ns` nanoseconds. -/
  | externalReset (t : Time) (ns : Nat)
  /-- CLOCK_MONITOR_FAULT, R44: the root is outside 190 to 210 MHz for 100 us, or stopped. -/
  | clockMonitorFault (t : Time)
  /-- LOCKSTEP_MISMATCH, R308: the two Belvedere cores differ. -/
  | lockstepMismatch (t : Time)
  /-- THERMAL_RESET, R46: the die reads `celsius` degrees (resets above 140; ends below 120). -/
  | thermalReset (t : Time) (celsius : Int)
  /-- SYS_RESET, R408: a write of `key` to SYS_RESET by master `m`. -/
  | sysReset (t : Time) (m : Master) (key : Word)
  /-- SW_RESET_EXPIRE, R408: 10 ms after the key write. -/
  | swResetExpire (t : Time)
  /-- RESET_RELEASE, R61: the reset cause ends and the start begins; `env` is what the start meets outside. -/
  | resetRelease (env : StartEnv)
  /-- START_COMPLETE, R61, R427: the start reaches READY. -/
  | startComplete
  /-- ACTIVE_IDLE_TIMEOUT, R51: 10 ms with the STANDBY floor and no engine work. -/
  | activeIdleTimeout (t : Time)
  /-- CLOSING_COMPLETE, R53: the closing sequence ends; `r` is what its self-test measured. -/
  | closingComplete (t : Time) (r : SelfTestRun)
  /-- WAKE_PIN, R58: WAKE above 2.0 V for 100 us; `dt` ms since the last low-power command. -/
  | wakePin (t : Time) (dt : Nat)
  /-- LINK_WAKE, R59, R243: the wake stream is heard on the north and/or the south port. -/
  | linkWake (t : Time) (dt : Nat) (nth : Bool) (sth : Bool)
  /-- WAKE_TIMER_EXPIRE, R58: SYS_WAKE_TIMER seconds have elapsed. -/
  | wakeTimerExpire (dt : Nat)
  /-- SLEEP_CMP_SAMPLE, R57: comparator sample in SLEEP or GAZEBO; cell voltages in 0.25 mV. -/
  | sleepCmpSample (dt : Nat) (mv : List Int)
  /-- SLEEP_CMP_CONFIRM, R57: the second sample, 1 ms later. -/
  | sleepCmpConfirm (mv : List Int)
  /-- SEAL_TEST, R31, R349: one seal-loop test; `ohms` is the loop resistance. -/
  | sealTest (t : Time) (dt : Nat) (ohms : Nat)
  /-- GAZEBO_CYCLE, R215: one Gazebo cycle with its measurements. -/
  | gazeboCycle (dt : Nat) (g : GazeboReading)
  /-- LANE_GRID_RESULT, R72, R89: grid results of lane group `g` at instant t; `other` evaluates the other group at t for the comparison. -/
  | laneGridResult (t : Time) (g : LaneGroup) (own : List LaneSample) (other : List LaneSample)
  /-- REQUESTED_INSTANT, R73, R138: the instant requested for `req` is served at t; `cur` holds what the current channel meets there. -/
  | requestedInstant (t : Time) (req : Time) (a : List LaneSample) (b : List LaneSample) (cur : CurNow)
  /-- SYNC_INPUT_EDGE, R259: a rising edge on SYNC. -/
  | syncInputEdge (t : Time)
  /-- COMPARATOR_TRIP_CONFIRM, R93, R96: `samples` consecutive 1 us samples of pair `cell` lie outside its OV (or UV) threshold; `uv` is the
  least far outside in uV, and `standIn` says the stand-in of R96 reports it. -/
  | comparatorTripConfirm (t : Time) (cell : Nat) (ov : Bool) (samples : Nat) (uv : Int) (standIn : Bool)
  /-- COMPARATOR_TRIP_RELEASE, R93: `samples` consecutive samples lie inside by the hysteresis; `uv` is the least far inside, in uV. -/
  | comparatorTripRelease (t : Time) (cell : Nat) (ov : Bool) (samples : Nat) (uv : Int)
  /-- OPEN_WIRE_TEST, R86, R87: the slot of tap C`tap`; dk, dk1: the lane B change of cells k and k+1 in uV. -/
  | openWireTest (t : Time) (tap : Nat) (dk : Int) (dk1 : Int)
  /-- STEP_TEST_COMPLETE, R82: the step test of switch `j` ends with estimates `e` and the sensed switch current in mA. -/
  | stepTestComplete (t : Time) (j : Nat) (e : CoefEst) (ma : Nat)
  /-- BAL_PWM_EDGE, R200, R82: an edge of switch `j` at ring time t, its estimate, and the sensed switch current in mA. -/
  | balPwmEdge (t : Time) (j : Nat) (e : CoefEst) (ma : Nat)
  /-- TRACKING_GAP, R200: switch `j` has given no estimate for 10 s. -/
  | trackingGap (t : Time) (j : Nat)
  /-- RELIEF_SLOT_START, R106: a 250 ms slot; per spare, what its relief or self-calibration measures. -/
  | reliefSlotStart (t : Time) (slot : Nat) (r : List ReliefOutcome)
  /-- CURRENT_GRID_RESULT, R132, R134, R136: one current grid result; `raw` holds the raw 50 kS/s samples since those that came last, oldest first,
  20 us apart, the last of them 20 us before t. Off the grid it brings the samples alone. -/
  | currentGridResult (t : Time) (a : CurSample) (b : CurSample) (raw : List CurRaw)
  /-- CURRENT_LIMIT_TRIP, R135: consecutive raw 50 kS/s samples of ISA and ISB in nV, up to t, held against the positive (or negative) limit. -/
  | currentLimitTrip (t : Time) (pos : Bool) (raw : List (Int × Int))
  /-- CURRENT_LIMIT_RELEASE, R135: consecutive raw samples of ISA and ISB in nV, up to t, held against the limit less the hysteresis. -/
  | currentLimitRelease (t : Time) (pos : Bool) (raw : List (Int × Int))
  /-- CURRENT_FRAME_SEND, R139: the 32 results of the frame from ring time `m0`, as the second ISA filter meets them. -/
  | currentFrameSend (t : Time) (m0 : Time) (samples : List CurSample)
  /-- CURRENT_SAMPLES_RX, R140: a current sample frame from position `src`. -/
  | currentSamplesRx (t : Time) (src : Nat) (f : CurFrame)
  /-- AUX_SCAN, R143: step 4 of a scan, with the 16 conversions of each of AUX0 to AUX7 and the two die sensors (1/64 degree). -/
  | auxScan (t : Time) (codes : List (List Nat)) (mdie : Int) (cdie : Int)
  /-- WIRE_PRESENCE_SEARCH, R155: the presence search of port `p` meets `r`. -/
  | wirePresenceSearch (t : Time) (p : Nat) (r : WireReply)
  /-- WIRE_TRANSACTION, R157: the transfer queued first on port `p` runs and meets `r`. -/
  | wireTransaction (t : Time) (p : Nat) (r : WireReply)
  /-- WIRE_SPU_END, R154: SPU_MS elapses on port `p`. -/
  | wireSpuEnd (t : Time) (p : Nat)
  /-- WIRE_SPU_OVERLOAD, R154: the strong pull-up of port `p` exceeds 25 mA. -/
  | wireSpuOverload (t : Time) (p : Nat)
  /-- ENGINE_CHECKPOINT, R163: the engines that write a checkpoint at this 100 ms multiple, and the engine-grid samples up to it. -/
  | engineCheckpoint (t : Time) (engines : List Nat) (samples : List EngSample)
  /-- ENGINE_CHECKPOINT_MISSED, R166: engine `k` fails; cause 1 self-test, 2 memory, 3 checkpoint. -/
  | engineCheckpointMissed (t : Time) (k : Nat) (cause : Nat)
  /-- REBALANCE_REPLAY_DONE, R165: the replay of `cell` ends, with the engine-grid samples up to it. -/
  | rebalanceReplayDone (t : Time) (cell : Nat) (samples : List EngSample)
  /-- TRACKER_UPDATE, R182 to R185: the 1 s tracker update, with the engine-grid samples up to it and the engine load fractions. -/
  | trackerUpdate (t : Time) (samples : List EngSample) (load : List Nat)
  /-- TRACKER_STATE_SAVE, R182: the tracker state is logged every 600 s. -/
  | trackerStateSave (t : Time)
  /-- IMPEDANCE_START, R169: the job of handle `h` begins. -/
  | impedanceStart (t : Time) (h : Nat)
  /-- EXCITATION_PHASE, R173, R174: sub-phase `sub` of a half of `point` begins. -/
  | excitationPhase (t : Time) (h : Nat) (point : Nat) (odd : Bool) (sub : Nat)
  /-- IMPEDANCE_END, R177, R180: integration ends, with the lines of each 1 s step, the spectra, and the engine-grid samples up to the end. -/
  | impedanceEnd (t : Time) (h : Nat) (lines : List RippleStep) (spectra : List CellSpectra) (samples : List EngSample)
  /-- ESTIMATE_END, R186, R187, R190: the ESTIMATE job ends, with the lines of each 1 s step and the spectra of each cell over its interval, as
  point 0. -/
  | estimateEnd (t : Time) (h : Nat) (spectra : EstSpectra)
  /-- THERMAL_MANAGER_UPDATE, R209, R205: K is computed from the sensed currents. -/
  | thermalManagerUpdate (t : Time) (r : List SwitchReading)
  /-- BAL_TARGET_CHECK, R203: the target check of the awake plan with lane A at t. -/
  | balTargetCheck (t : Time) (a : List LaneSample)
  /-- BAL_OVERCURRENT, R205: switch `j` carries `ma` mA for `us` us. -/
  | balOvercurrent (t : Time) (j : Nat) (ma : Nat) (us : Nat)
  /-- BAL_HOLD_EXPIRE, R205: the 10 s hold of cell `j` ends. -/
  | balHoldExpire (t : Time) (j : Nat)
  /-- BAL_TLIMIT_EXPIRE, R204: the running time of cell `j` reaches TLIMIT. -/
  | balTlimitExpire (t : Time) (j : Nat)
  /-- BURST_RX, R223 to R233: a burst ends with TURN on port `p`: the code groups of it that have come since its frame, or all. -/
  | burstRx (t : Time) (p : Port) (groups : List Nat)
  /-- FRAME_RX, R232, R248: a frame has arrived on port `p`: the code groups from the burst's SYNC to the frame's end. -/
  | frameRx (t : Time) (p : Port) (groups : List Nat)
  /-- LINE_RECLAIM, R224: 2.0 us without a valid character at the north end. -/
  | lineReclaim (t : Time)
  /-- TRAIN_RATE_TIMEOUT, R236: no reply by 1.0 ms, or the code groups that came in the check, at the present rate. -/
  | trainRateTimeout (t : Time) (p : Port) (groups : List Nat)
  /-- LINK_UP, R236, R238: training and 64 delay exchanges complete. -/
  | linkUp (t : Time) (p : Port) (ex : List DlyStamps)
  /-- TRAIN_RETRY, R236: a BROKEN port tries again. -/
  | trainRetry (t : Time) (p : Port)
  /-- HOP_DOWN_TIMEOUT, R237: no valid burst for 100 us. -/
  | hopDownTimeout (t : Time) (p : Port)
  /-- LINK_RETRAIN, R237: a write to LINK_CMD. -/
  | linkRetrain (t : Time) (v : Word)
  /-- DELAY_EXCHANGE, R238: one TMARK exchange. -/
  | delayExchange (t : Time) (p : Port) (e : DlyStamps)
  /-- FAULT_TONE_REPEAT, R240: the next 20 us burst of the schedule. -/
  | faultToneRepeat (t : Time)
  /-- TONE_RX, R241: a FAULT character arrives on port `p`. -/
  | toneRx (t : Time) (p : Port)
  /-- TONE_CONFIRM, R242: the tone has lasted 2.0 us on port `p`. -/
  | toneConfirm (t : Time) (p : Port)
  /-- TONE_END, R241, R242: the tone ends on port `p`. -/
  | toneEnd (t : Time) (p : Port)
  /-- TONE_HOLDOFF_END, R241: 100 us of holdoff expire. -/
  | toneHoldoffEnd (t : Time)
  /-- TONE_LINE_RETAKE, R242: 2.0 us after the tone ended on the hop. -/
  | toneLineRetake (t : Time) (p : Port)
  /-- WAKE_STREAM_ON_UP, R244: an UP port has received the wake stream for 20 us. -/
  | wakeStreamOnUp (t : Time) (p : Port)
  /-- WAKE_STREAM_END, R243: the 2.0 ms wake stream ends. -/
  | wakeStreamEnd (t : Time)
  /-- ENUM_RX, R253: an ENUM frame is taken on port `p`. -/
  | enumRx (t : Time) (p : Port) (e : EnumMsg)
  /-- ENUM_TIMEOUT, R253: the northward ENUM has not returned after 20 ms. -/
  | enumTimeout (t : Time)
  /-- BEACON_SEND, R256: the head sends a BEACON. -/
  | beaconSend (t : Time)
  /-- BEACON_RX, R256, R257: a beacon arrives on port `p` at own ring time t. -/
  | beaconRx (t : Time) (p : Port) (b : Beacon)
  /-- TIMEBASE_HOLDOVER, R257: no beacon for 3 ms. -/
  | timebaseHoldover (t : Time)
  /-- TIMEBASE_LOST, R257: HOLDOVER for more than 50 ms. -/
  | timebaseLost (t : Time)
  /-- HEARTBEAT_SEND, R262: the head sends a HEARTBEAT. -/
  | heartbeatSend (t : Time)
  /-- HEARTBEAT_RX, R262: a heartbeat arrives on port `p`. -/
  | heartbeatRx (t : Time) (p : Port) (hb : Heartbeat)
  /-- COMMIT_FRAME_RX, R260: a broadcast COMMIT arrives. -/
  | commitFrameRx (t : Time) (apply : Time) (mask : Nat) (h : Nat)
  /-- COMMIT_APPLY, R337, R338, R261: the commit due is applied at ring time t. -/
  | commitApply (t : Time)
  /-- SWEEP_TRIGGER_RX, R264, R265: a trigger arrives on port `p`. -/
  | sweepTriggerRx (t : Time) (p : Port) (tr : Trigger)
  /-- SWEEP_HOLD_EXPIRE, R265: 100 ms after T the held sweep frames of handle `h` are discarded. -/
  | sweepHoldExpire (t : Time) (h : Nat)
  /-- SWEEP_DEADLINE, R266: T + 100 ms of sweep `h`. -/
  | sweepDeadline (t : Time) (h : Nat)
  /-- BREAK_DETECT_TIMEOUT, R268: no heartbeat has returned for 5 ms. -/
  | breakDetectTimeout (t : Time)
  /-- CASTLE, R269: the break has lasted CASTLE_MS. -/
  | castle (t : Time)
  /-- RING_RESTORE, R269: every hop has been UP for 1 s. -/
  | ringRestore (t : Time)
  /-- REQUEST_RX, R251: a REQUEST for this position is taken. -/
  | requestRx (t : Time) (p : Port) (r : Request)
  /-- RESPONSE_RX, R251: a RESPONSE fragment reaches the head. -/
  | responseRx (t : Time) (src : Nat) (r : Response)
  /-- REQ_ACCEPT_TIMEOUT, R251: REQ_TIMEOUT has passed without an accept for `h`. -/
  | reqAcceptTimeout (t : Time) (h : Nat)
  /-- EVENT_RX, R292: the 32 bytes of an EVENT frame reach the head on port `p`. -/
  | eventRx (t : Time) (e : List Byte) (p : Port)
  /-- BULK_RX, R288: a BULK chunk of command `h`. -/
  | bulkRx (t : Time) (h : Nat) (off : Nat) (data : List Byte)
  /-- STREAM_RECORD, R302: a decimated grid instant of stream `h`. -/
  | streamRecord (t : Time) (h : Nat)
  /-- STREAM_FRAME_FLUSH, R302: 10 ms after the first record of a partial STREAM frame. -/
  | streamFrameFlush (t : Time) (h : Nat)
  /-- STREAM_FRAME_RX, R302: the head takes a STREAM frame. -/
  | streamFrameRx (t : Time) (f : StreamFrame)
  /-- READ_STATUS, R275: the port command 0x05, with the bytes read and, in octal mode, its extension byte (R273). An opcode that Table HOST-2
  does not list makes it an unknown command (R274). -/
  | readStatus (x : StatusRead)
  /-- READ_ID, R274: the port command 0x9F, `n` bytes read; in octal mode `ext` is its extension byte (R273), as in the commands below. -/
  | readId (n : Nat) (ext : Byte)
  /-- READ, R276: the port command 0x0C from `addr`, `n` bytes. -/
  | read (addr : Nat) (n : Nat) (ext : Byte)
  /-- WRITE, R276: the port command 0x12. -/
  | write (t : Time) (addr : Nat) (data : List Byte) (ext : Byte)
  /-- ENTER_OCTAL, R272, R274: the port command 0xE8. -/
  | enterOctal
  /-- EXIT_OCTAL, R272, R274: the port command 0xFF. -/
  | exitOctal (ext : Byte)
  /-- HCS_LOW_IDLE, R272: HCS_N low for 1 us without HCLK, then high. -/
  | hcsLowIdle
  /-- SQ_DOORBELL, R281 to R286: a write to HOST_SQ_TAILp. -/
  | sqDoorbell (t : Time) (pair : Nat) (tail : Word)
  /-- COMMAND_DISPATCH, R286: command `h` is dispatched if its fence and target allow. -/
  | commandDispatch (t : Time) (h : Nat)
  /-- CQ_HEAD_DOORBELL, R290: a write to HOST_CQ_HEADp. -/
  | cqHeadDoorbell (t : Time) (pair : Nat) (head : Word)
  /-- EQ_HEAD_DOORBELL, R290: a write to HOST_EQ_HEAD. -/
  | eqHeadDoorbell (t : Time) (head : Word)
  /-- COMMAND_DEADLINE, R287: the deadline of `h`. -/
  | commandDeadline (t : Time) (h : Nat)
  /-- INT_TIME_EXPIRE, R307: the oldest unserved entry of ring 0 to 3 (pairs) or 4 (events) reaches TIME. -/
  | intTimeExpire (t : Time) (ring : Nat)
  /-- REG_READ, R297: the opcode executes under handle `h` with descriptor `d`. -/
  | regRead (t : Time) (h : Nat) (d : Desc)
  /-- REG_WRITE, R298: the opcode executes under handle `h` with descriptor `d`. -/
  | regWrite (t : Time) (h : Nat) (d : Desc)
  /-- REG_MODIFY, R299: the opcode executes under handle `h` with descriptor `d`. -/
  | regModify (t : Time) (h : Nat) (d : Desc)
  /-- COMMIT, R300, R260: the opcode executes under handle `h` with descriptor `d`. -/
  | commit (t : Time) (h : Nat) (d : Desc)
  /-- SWEEP, R263, R264: the opcode executes under handle `h` with descriptor `d`. -/
  | sweep (t : Time) (h : Nat) (d : Desc)
  /-- STREAM_START, R302, R303: the opcode executes under handle `h` with descriptor `d`. -/
  | streamStart (t : Time) (h : Nat) (d : Desc)
  /-- STREAM_STOP, R304: the opcode executes under handle `h` with descriptor `d`. -/
  | streamStop (t : Time) (h : Nat) (d : Desc)
  /-- BAL_PLAN, R196 to R198: the plan table of command `h` is checked and installed. -/
  | balPlan (t : Time) (h : Nat) (d : Desc)
  /-- BAL_STOP, R199: the opcode executes under handle `h` with descriptor `d`. -/
  | balStop (t : Time) (h : Nat) (d : Desc)
  /-- IMPEDANCE, R169, R170, R181: the opcode executes under handle `h` with descriptor `d`. -/
  | impedance (t : Time) (h : Nat) (d : Desc)
  /-- ESTIMATE, R188, R190: the opcode executes under handle `h` with descriptor `d`. -/
  | estimate (t : Time) (h : Nat) (d : Desc)
  /-- MODEL_LOAD, R191 to R193: the model table of command `h` is checked and loaded. -/
  | modelLoad (t : Time) (h : Nat) (d : Desc)
  /-- HIST_READ, R377: the opcode executes under handle `h` with descriptor `d`. -/
  | histRead (t : Time) (h : Nat) (d : Desc)
  /-- HIST_MARK, R378: the opcode executes under handle `h` with descriptor `d`. -/
  | histMark (t : Time) (h : Nat) (d : Desc)
  /-- CAL_READ, R123: the opcode executes under handle `h` with descriptor `d`. -/
  | calRead (t : Time) (h : Nat) (d : Desc)
  /-- CAL_STORE, R120, R123: the opcode executes under handle `h` with descriptor `d`. -/
  | calStore (t : Time) (h : Nat) (d : Desc)
  /-- CAL_USER, R125 to R127: the opcode executes under handle `h` with descriptor `d`. -/
  | calUser (t : Time) (h : Nat) (d : Desc)
  /-- CAL_USER_END, R126, R128: the measurement interval ends, or a precondition has failed. -/
  | calUserEnd (t : Time) (r : CalUserRun)
  /-- WIRE_XFER, R157: the transfer is queued on its port. -/
  | wireXfer (t : Time) (h : Nat) (d : Desc)
  /-- SELFTEST, R396: the test runs; `r` is what it finds. -/
  | selftest (t : Time) (h : Nat) (d : Desc) (r : OnlineTest)
  /-- REPAIR, R399: soft repairs are fused; `bad` lists (memory, spare) words that fail verification. -/
  | repair (t : Time) (h : Nat) (d : Desc) (bad : List (Nat × Nat))
  /-- RING_ENUM, R253: the opcode executes under handle `h` with descriptor `d`. -/
  | ringEnum (t : Time) (h : Nat) (d : Desc)
  /-- RING_STATUS, R305: the opcode executes under handle `h` with descriptor `d`. -/
  | ringStatus (t : Time) (h : Nat) (d : Desc)
  /-- POWER, R51, R52, R301: the opcode executes under handle `h` with descriptor `d`. -/
  | power (t : Time) (h : Nat) (d : Desc)
  /-- FW_UPDATE, R382, R383: the image of command `h`, as far as its checks see it. -/
  | fwUpdate (t : Time) (h : Nat) (d : Desc)
  /-- ECHO, R306: the opcode executes under handle `h` with descriptor `d`. -/
  | echo (t : Time) (h : Nat) (d : Desc)
  /-- SAFETY_CYCLE, R310, R315: the 1 ms safety cycle, with the readback of SOA and SOB and VSTK, in mV. -/
  | safetyCycle (t : Time) (serviced : Bool) (rbA : Nat) (rbB : Nat) (vstk : Nat)
  /-- SUPERVISOR_WATCHDOG_EXPIRE, R310: two services missed. -/
  | supervisorWatchdogExpire (t : Time)
  /-- SAFE_RESET, R313: a write to SAFE_RESET. -/
  | safeReset (t : Time) (key : Word)
  /-- SAFE_RESET_WINDOW_END, R313: 20 ms after the key write. -/
  | safeResetWindowEnd (t : Time)
  /-- OUTPUT_ON, R314: ON_A and/or ON_B written. -/
  | outputOn (t : Time) (a : Bool) (b : Bool)
  /-- OUTPUT_OFF, R314: OFF_A and/or OFF_B written. -/
  | outputOff (t : Time) (a : Bool) (b : Bool)
  /-- OUTPUT_OFF_TEST, R316: the 2 s slot of output `o`. -/
  | outputOffTest (t : Time) (o : Out)
  /-- OUTPUT_OFF_TEST_END, R316: the readback in mV, sampled every 10 us from 20 us on, up to the first below 2.0 V or to 280 us. -/
  | outputOffTestEnd (t : Time) (o : Out) (mv : List Nat)
  /-- OUTPUT_STUCK, R317: an output commanded off has read at least `mv` for `us`. -/
  | outputStuck (t : Time) (o : Out) (mv : Nat) (us : Nat)
  /-- OUTPUT_OVERLOAD, R317: for `us` an output commanded on has been in its current limit, or has read at most `mv` with VSTK at `vstk`. -/
  | outputOverload (t : Time) (o : Out) (limit : Bool) (mv : Nat) (vstk : Nat) (us : Nat)
  /-- TEST_PULSE_CYCLE, R319, R321: the check instant of a pulse, with the four channel samples 10 us before the pulse and now. -/
  | testPulseCycle (t : Time) (before : List Bool) (during : List Bool)
  /-- INPUT_FILTER_CHANGE, R320, R322: every unmasked sample of channel `ch` from ring time `begun` on has been at `level`. -/
  | inputFilterChange (t : Time) (ch : Nat) (level : Bool) (begun : Time)
  /-- REGISTER_WRITE, R335, R350: a write of `size` bytes, 1 to 4, at offset `off`. -/
  | registerWrite (t : Time) (m : Master) (off : Nat) (size : Nat) (v : Word)
  /-- ALIAS_WRITE, R352: a host-port write in the bit alias region. -/
  | aliasWrite (t : Time) (addr : Nat) (size : Nat) (v : Word)
  /-- PROT_COMMIT, R337: a write to PROT_COMMIT. -/
  | protCommit (t : Time) (m : Master) (v : Word)
  /-- POSTED_WRITE_LAND, R353: the posted write of the M-die (or always-on) domain lands. -/
  | postedWriteLand (t : Time) (aon : Bool)
  /-- PARITY_SCAN, R342: the scan, what uses of committed copies find, and upsets of shadows. -/
  | parityScan (t : Time) (x : ParitySeen)
  /-- PROT_CFG_STORE, R343: a write to PROT_CFG_STORE. -/
  | protCfgStore (t : Time) (m : Master) (key : Word)
  /-- SERVICE_WINDOW_OPEN, R346: `samples` consecutive low SVC_N samples of the present hold; 0: SVC_N reads high. -/
  | serviceWindowOpen (t : Time) (samples : Nat)
  /-- SERVICE_WINDOW_TIMEOUT, R346: MINUTES elapse. -/
  | serviceWindowTimeout (t : Time)
  /-- PROT_SVC_CLOSE, R348: a write to PROT_SVC_CLOSE. -/
  | protSvcClose (t : Time) (v : Word)
  /-- SVC_HEAD_TIMEOUT, R347: no heartbeat for 10 ms. -/
  | svcHeadTimeout (t : Time)
  /-- BUCKET_LEAK, R355: the W timer of an instance expires. -/
  | bucketLeak (t : Time) (src : Nat) (inst : Nat)
  /-- CHK_DATA, R359: a write to the DATA8, DATA16 or DATA32 port (`bytes` 1, 2 or 4) of unit n. -/
  | chkData (n : Nat) (bytes : Nat) (v : Word)
  /-- CHK_RESTART, R358: CTRL.RESTART of unit n. -/
  | chkRestart (n : Nat)
  /-- CHK_COMPARE, R360: CTRL.COMPARE of unit n. -/
  | chkCompare (t : Time) (n : Nat)
  /-- CHK_ALV_SYNC, R361: CTRL.ALV_SYNC of unit n. -/
  | chkAlvSync (n : Nat)
  /-- CHK_ALV, R361: a write to CHKn_ALV. -/
  | chkAlv (t : Time) (n : Nat) (v : Word)
  /-- SRAM_SCRUB, R363 to R365: a word of memory index `mem` is read; `err` marks the bits of its code word that have changed since it was
  written; `reader` says who read it. -/
  | sramScrub (t : Time) (mem : Nat) (addr : Nat) (err : BitVec 79) (reader : Reader)
  /-- NV_SWEEP_SECTOR, R366: the next sector is read; `found` gives its changed words, by number in the sector, and their changed bits. -/
  | nvSweepSector (t : Time) (found : List (Nat × BitVec 79))
  /-- NVM_OPERATION_DONE, R367, R368: a program or erase completes and its procedure continues; `x` says how it ended, after remapping of the
  sectors that failed. -/
  | nvmOperationDone (t : Time) (op : NvmOp) (x : NvmEnd)
  /-- LIFETIME_RECORD, R370: 3,600 s have passed. -/
  | lifetimeRecord (t : Time)
  /-- SUMMARY_CHECKPOINT, R372: 21,600 s have passed. -/
  | summaryCheckpoint (t : Time)
  /-- SUMMARY_CLOSE, R372: 90,000 lifetime seconds after opening. -/
  | summaryClose (t : Time)
  /-- LANE_STAGE_TEST, R392, R393: the online test of one lane stage begins; what its two comparisons will show. -/
  | laneStageTest (t : Time) (g : LaneGroup) (cell : Nat) (spareOk : Bool) (stageOk : Bool)
  /-- CMP_GROUP_TEST, R394: the online test of comparator group `k` begins; what its pairs will show. -/
  | cmpGroupTest (t : Time) (k : Nat) (pairs : List PairSeen)
  /-- TAP_RESET, R400: Test-Logic-Reset. -/
  | tapReset (t : Time)
  /-- TAP_UPDATE_IR, R400, R402: instruction `ir` takes effect. -/
  | tapUpdateIr (t : Time) (ir : Nat) (cells : List Bool)
  /-- CLOCK_LOCK, R42: the PLL reaches (or loses) lock. -/
  | clockLock (t : Time) (locked : Bool)
  /-- BUCK_DROPOUT, R34: the buck enters dropout. -/
  | buckDropout (t : Time)
  /-- BUCK_DROPOUT_END, R34: the buck regulates again. -/
  | buckDropoutEnd (t : Time)
  /-- POWER_ACK_TIMEOUT, R52: 1 ms after a broadcast POWER. -/
  | powerAckTimeout (t : Time)
  /-- COMMIT_ANSWER_TIMEOUT, R260: REQ_TIMEOUT after the apply time of broadcast COMMIT `h`. -/
  | commitAnswerTimeout (t : Time) (h : Nat)
  /-- RESPONSE_HOLD_EXPIRE, R251: 100 ms after the final RESPONSE of `h`. -/
  | responseHoldExpire (t : Time) (h : Nat)
  /-- FAULT_TONE_BURST_END, R240: the 20 us burst ends. -/
  | faultToneBurstEnd (t : Time)
  /-- TRAIN_LISTEN_RATE, R236: the listening south end moves to the next rate. -/
  | trainListenRate (t : Time) (p : Port)
  /-- NV_SWEEP_START, R366: 30 days of MEM_LIFE after the last sweep started. -/
  | nvSweepStart (t : Time)
deriving DecidableEq, Repr

end Sys2Proof
end

