-- ==== Sys2Proof/Config.lean ====
section
/-! DEFINITION. Values that the spec leaves to the die, to the factory or to no one. Each is an uninterpreted
constant, so a claim holds whatever it is. Where a value may differ from one occasion to the next, the constant is
applied to `Dev.free`, a counter that each use advances. -/

namespace Sys2Proof.Config

/-- C-die revision (R274, R407). -/
opaque crev : BitVec 4
/-- M-die revision (R274, R407). -/
opaque mrev : BitVec 4
/-- The device's P-256 private key, which the factory generates on chip and nothing reads (R374). -/
opaque privateKey : Nat
/-- The sequence field of an event log sector header, which Table MEM-5 gives every slot and no rule fills. -/
opaque headerSeq : Nat → Nat
/-- Bytes of the identity record that Table MEM-9 reserves. -/
opaque identity : Nat → Byte
/-- UTC of the device's manufacture in its identity record (Table MEM-9). -/
opaque factoryUtc : Nat
/-- The device certificate as the factory programs it (Table MEM-9). -/
opaque deviceCert : List Byte
/-- The Qorhorn intermediate certificate (Table MEM-9). -/
opaque qorhornCert : List Byte
/-- What a memory test that an abort followed had found, which no rule gives: memory, failing words and bits, and whether its retest and its decoder
failed. -/
opaque freeFails : Nat → List (Nat × List (Nat × Nat) × Bool × Bool)
/-- Golden MISR signature of the logic self-test (R389). -/
opaque goldenMisr : BitVec 64
/-- A free bit: which of two allowed outcomes happens (R47's pulse of 200 ns to 1 us, R323's band). -/
opaque freeBit : Nat → Bool
/-- A free word: a value that the spec does not state. -/
opaque freeWord : Nat → Word
/-- Rounding of an inexact quotient where no rule states it: whether the quotient is taken up. -/
opaque roundUp : Int → Int → Bool
/-- A free number that is not negative: a standard deviation or its growth, which no rule states (R183 to R186). -/
opaque freeRat : Nat → NNRat
/-- How the two estimates of R185 combine, in mA: no rule states it. -/
opaque selfDischarge : Option Rat → Option Rat → Rat
/-- Fixed internal latency of a link port at a rate code, as the factory calibrated it, LSB 0.0125 ns (R238). -/
opaque linkLatency : Nat → Nat
/-- Firmware banks as the factory left them: version of a bank. -/
opaque factoryVersion : Bool → Word
/-- Bytes of an erased or never programmed summary area that no rule fills. -/
opaque freeByte : Nat → Byte

/-- The Qorhorn key in Belvedere's ROM that verifies a firmware image's signature, as its coordinates: it is published nowhere (R380). -/
opaque romKey : Nat × Nat

end Sys2Proof.Config
end

