-- ==== Sys2Proof/Machine/Bits.lean ====
section
/-! DEFINITION. Bit-field, sign, byte-order and check-value helpers, and the canonical sparse map that
holds register files, the host window and per-item tables. -/

namespace Sys2Proof.Machine

/-- Field [hi:lo] of a register word as a number. -/
def fld (w : Word) (hi lo : Nat) : Nat := (w.toNat >>> lo) % 2 ^ (hi + 1 - lo)

/-- Bit i of a register word. -/
def bit (w : Word) (i : Nat) : Bool := w.getLsbD i

/-- The word with field [hi:lo] replaced by v (v taken modulo the field's width). -/
def setFld (w : Word) (hi lo v : Nat) : Word :=
  let m := 2 ^ (hi + 1 - lo)
  let old := (w.toNat >>> lo) % m
  BitVec.ofNat 32 (w.toNat - old * 2 ^ lo + (v % m) * 2 ^ lo)

/-- 1 for true, 0 for false. -/
def b2n (b : Bool) : Nat := if b then 1 else 0

/-- A word made of (value, position) parts; parts do not overlap. -/
def pack : List (Nat × Nat) → Nat
  | [] => 0
  | (v, lo) :: r => v * 2 ^ lo + pack r

/-- A word from parts. -/
def packW (l : List (Nat × Nat)) : Word := BitVec.ofNat 32 (pack l)

/-- Two's complement value of an n-bit number. -/
def signed (n v : Nat) : Int :=
  let x := v % 2 ^ n
  if x < 2 ^ (n - 1) then Int.ofNat x else Int.ofNat x - Int.ofNat (2 ^ n)

/-- n-bit two's complement image of an integer. -/
def unsigned (n : Nat) (z : Int) : Nat := (z % Int.ofNat (2 ^ n)).toNat

/-- Clamp an integer into [lo, hi]. -/
def clampInt (lo hi z : Int) : Int := if z < lo then lo else if hi < z then hi else z

/-- Clamp a number to at most hi. -/
def satNat (hi n : Nat) : Nat := if hi < n then hi else n

/-- Little-endian bytes of v, k of them. -/
def leBytes : Nat → Nat → List Byte
  | 0, _ => []
  | k + 1, v => BitVec.ofNat 8 v :: leBytes k (v / 256)

/-- Value of little-endian bytes. -/
def leNat : List Byte → Nat
  | [] => 0
  | b :: r => b.toNat + 256 * leNat r

/-- k zero bytes. -/
def zeros (k : Nat) : List Byte := List.replicate k 0

/-- The first k bytes of l, filled with zeros to k. -/
def padTo (k : Nat) (l : List Byte) : List Byte := (l ++ zeros k).take k

/-- Four bytes of a word, least significant first. -/
def wordBytes (w : Word) : List Byte := leBytes 4 w.toNat

/-- The bytes of a list of words. -/
def wordsBytes : List Word → List Byte
  | [] => []
  | w :: r => wordBytes w ++ wordsBytes r

/-! ### Check values (R119, R151, R228, R358) -/

/-- One bit of the check-value register of R358. -/
def crcBit (w poly state d i : Nat) : Nat :=
  let fb := ((state >>> (w - 1)) ^^^ (d >>> i)) % 2
  let st := (state * 2) % 2 ^ w
  if fb = 1 then st ^^^ (poly % 2 ^ w) else st

/-- Reflect the low n bits of v. -/
def reflect : Nat → Nat → Nat
  | 0, _ => 0
  | n + 1, v => (v % 2) * 2 ^ n + reflect n (v / 2)

/-- Bits 7 to 0 of one byte through the register (R358). -/
def crcByte (w poly state d : Nat) : Nat :=
  let s7 := crcBit w poly state d 7
  let s6 := crcBit w poly s7 d 6
  let s5 := crcBit w poly s6 d 5
  let s4 := crcBit w poly s5 d 4
  let s3 := crcBit w poly s4 d 3
  let s2 := crcBit w poly s3 d 2
  let s1 := crcBit w poly s2 d 1
  crcBit w poly s1 d 0

/-- The register after a byte string, with or without reflection of each byte. -/
def crcFeed (w poly : Nat) (refin : Bool) : Nat → List Byte → Nat
  | st, [] => st
  | st, b :: r =>
    crcFeed w poly refin (crcByte w poly st (if refin then reflect 8 b.toNat else b.toNat)) r

/-- The result read from the register (R358). -/
def crcResult (w state : Nat) (refout : Bool) (xorout : Nat) : Nat :=
  ((if refout then reflect w state else state) ^^^ xorout) % 2 ^ w

/-- CRC-32 of R119. -/
def crc32 (l : List Byte) : Nat :=
  crcResult 32 (crcFeed 32 0x04C11DB7 true 0xFFFFFFFF l) true 0xFFFFFFFF

/-- CRC-32C of R228, used by frames and the safety image (R340). -/
def crc32c (l : List Byte) : Nat :=
  crcResult 32 (crcFeed 32 0x1EDC6F41 true 0xFFFFFFFF l) true 0xFFFFFFFF

/-- HCRC of R228: CRC-8, polynomial 0x2F. -/
def crc8h (l : List Byte) : Nat := crcResult 8 (crcFeed 8 0x2F false 0xFF l) false 0xFF

/-- Daroth wire CRC-8 of R151. -/
def crc8w (l : List Byte) : Nat := crcResult 8 (crcFeed 8 0x07 false 0 l) false 0

/-! ### Canonical sparse maps

A map lists (key, value) pairs with strictly rising keys and never lists a value equal to the default of
its key, so equal maps are equal lists. -/

/-- What key k holds: the value of its first entry, else its default. -/
def mget {α : Type} (d : Nat → α) : List (Nat × α) → Nat → α
  | [], k => d k
  | (j, v) :: r, k => if k = j then v else mget d r k

/-- The map without key k. -/
def mdrop {α : Type} (k : Nat) : List (Nat × α) → List (Nat × α)
  | [] => []
  | (j, u) :: r => if k = j then mdrop k r else (j, u) :: mdrop k r

/-- The map with an entry of key k put before the first higher key. -/
def mput {α : Type} (k : Nat) (v : α) : List (Nat × α) → List (Nat × α)
  | [] => [(k, v)]
  | (j, u) :: r => if k < j then (k, v) :: (j, u) :: r else (j, u) :: mput k v r

/-- Put value v at key k, keeping the canonical form. -/
def mset {α : Type} [DecidableEq α] (d : Nat → α) (m : List (Nat × α)) (k : Nat) (v : α) : List (Nat × α) :=
  if v = d k then mdrop k m else mput k v (mdrop k m)

/-- The canonical form: keys rise strictly from above lo, no listed value equals its key's default. -/
def mwfFrom {α : Type} [DecidableEq α] (d : Nat → α) : Nat → List (Nat × α) → Bool
  | _, [] => true
  | lo, (j, v) :: r => decide (lo ≤ j) && decide (v ≠ d j) && mwfFrom d (j + 1) r

/-- The canonical form of a whole map. -/
def mwf {α : Type} [DecidableEq α] (d : Nat → α) (m : List (Nat × α)) : Bool := mwfFrom d 0 m

/-- Put a list of values at consecutive keys, step apart. -/
def msetList {α : Type} [DecidableEq α] (d : Nat → α) (m : List (Nat × α)) (k step : Nat) :
    List α → List (Nat × α)
  | [] => m
  | v :: r => msetList d (mset d m k v) (k + step) step r

/-- Read n values at consecutive keys, step apart. -/
def mgetList {α : Type} (d : Nat → α) (m : List (Nat × α)) (k step : Nat) : Nat → List α
  | 0 => []
  | n + 1 => mget d m k :: mgetList d m (k + step) step n

/-! ### Per-item maps with one default -/

/-- Read with one default for every key. -/
def kget {α : Type} (d : α) (m : List (Nat × α)) (k : Nat) : α := mget (fun _ => d) m k

/-- Write with one default for every key. -/
def kset {α : Type} [DecidableEq α] (d : α) (m : List (Nat × α)) (k : Nat) (v : α) : List (Nat × α) :=
  mset (fun _ => d) m k v

/-! ### Small list and number helpers -/

/-- The numbers lo, lo+1, …, lo+n-1. -/
def upFrom (lo : Nat) : Nat → List Nat
  | 0 => []
  | n + 1 => lo :: upFrom (lo + 1) n

/-- Sum of a list of integers. -/
def sumInt : List Int → Int
  | [] => 0
  | x :: r => x + sumInt r

/-- Sum of a list of numbers. -/
def sumNat : List Nat → Nat
  | [] => 0
  | x :: r => x + sumNat r

/-- A bit map whose bit i says p (lo + i), for n bits. -/
def mapBits (p : Nat → Bool) (lo : Nat) : Nat → Nat
  | 0 => 0
  | n + 1 => b2n (p lo) + 2 * mapBits p (lo + 1) n

/-- A 32-bit map over items 1 to 32: bit i says p (i + 1). -/
def cellMap (p : Nat → Bool) : Word := BitVec.ofNat 32 (mapBits p 1 32)

/-- Set or clear bit i of a word. -/
def putBit (w : Word) (i : Nat) (b : Bool) : Word := setFld w i i (b2n b)

/-- Insert into a rising list of integers. -/
def insertInt (x : Int) : List Int → List Int
  | [] => [x]
  | y :: r => if x ≤ y then x :: y :: r else y :: insertInt x r

/-- Rising order. -/
def sortInt : List Int → List Int
  | [] => []
  | x :: r => insertInt x (sortInt r)

/-- Keep the last n items of a list. -/
def lastN {α : Type} (n : Nat) (l : List α) : List α := l.drop (l.length - n)

/-- Fold a state change over a list. -/
def each {α σ : Type} (f : α → σ → σ) : List α → σ → σ
  | [], s => s
  | x :: r, s => each f r (f x s)

end Sys2Proof.Machine
end

