-- ==== Sys2Proof/Machine/Sha256.lean ====
section
/-! DEFINITION. SHA-256 (FIPS 180-4), which R369, R373 and R375 name for the chain of sectors and summaries. -/

namespace Sys2Proof.Machine

/-- Big-endian bytes of v, k of them. -/
def beBytes (k v : Nat) : List Byte := (leBytes k v).reverse

/-- The n 32-bit words of a number, the most significant first. -/
def beWords : Nat → Nat → List Word
  | 0, _ => []
  | n + 1, v => beWords n (v / 2 ^ 32) ++ [BitVec.ofNat 32 v]

/-- The constants of the 64 rounds, as four numbers of sixteen words each. -/
def shaConst : List Nat :=
  [0x428a2f9871374491b5c0fbcfe9b5dba53956c25b59f111f1923f82a4ab1c5ed5d807aa9812835b01243185be550c7dc372be5d7480deb1fe9bdc06a7c19bf174,
   0xe49b69c1efbe47860fc19dc6240ca1cc2de92c6f4a7484aa5cb0a9dc76f988da983e5152a831c66db00327c8bf597fc7c6e00bf3d5a7914706ca635114292967,
   0x27b70a852e1b21384d2c6dfc53380d13650a7354766a0abb81c2c92e92722c85a2bfe8a1a81a664bc24b8b70c76c51a3d192e819d6990624f40e3585106aa070,
   0x19a4c1161e376c082748774c34b0bcb5391c0cb34ed8aa4a5b9cca4f682e6ff3748f82ee78a5636f84c878148cc7020890befffaa4506cebbef9a3f7c67178f2]

/-- The chaining words at the start of a message, as one number. -/
def shaSeed : Nat := 0x6a09e667bb67ae853c6ef372a54ff53a510e527f9b05688c1f83d9ab5be0cd19

/-- Exclusive or of a word's rotations right by three amounts. -/
def turn3 (x : Word) (i j k : Nat) : Word := x.rotateRight i ^^^ (x.rotateRight j ^^^ x.rotateRight k)

/-- The eight working words after one round whose constant and schedule word add up to `kw`. -/
def shaStep (kw : Word) : List Word → List Word
  | [a, b, c, d, e, f, g, h] =>
    let t := kw + h + turn3 e 6 11 25 + (g ^^^ (e &&& (f ^^^ g)))
    [t + turn3 a 2 13 22 + (((b ||| c) &&& a) ||| (b &&& c)), a, b, c, d + t, e, f, g]
  | v => v

/-- The window of sixteen schedule words moves on by one; its first word has been used. -/
def shaSlide : List Word → List Word
  | [] => []
  | w :: r =>
    let p := r.getD 0 0
    let q := r.getD 13 0
    r ++ [w + r.getD 8 0 + (p.rotateRight 7 ^^^ (p.rotateRight 18 ^^^ p >>> 3)) +
      (q.rotateRight 17 ^^^ (q.rotateRight 19 ^^^ q >>> 10))]

/-- The rounds of a block over the constants that remain: window of the schedule, working words. -/
def shaRounds : List Word → List Word → List Word → List Word
  | [], _, v => v
  | k :: ks, w, v => shaRounds ks (shaSlide w) (shaStep (k + w.headD 0) v)

/-- The value of big-endian bytes. -/
def beNat (l : List Byte) : Nat := leNat l.reverse

/-- One block of 64 bytes into the chaining words. -/
def shaAbsorb (v : List Word) (block : List Byte) : List Word :=
  List.zipWith (· + ·) v (shaRounds (shaConst.flatMap (beWords 16)) (beWords 16 (beNat block)) v)

/-- The first n blocks of a padded message. -/
def shaBlocks : Nat → List Byte → List Word → List Word
  | 0, _, v => v
  | n + 1, l, v => shaBlocks n (l.drop 64) (shaAbsorb v (l.take 64))

/-- A message with its padding: 0x80, zeros, and the bit length in the last eight bytes of a block. -/
def shaPad (l : List Byte) : List Byte :=
  l ++ 0x80 :: zeros (63 - (l.length + 8) % 64) ++ beBytes 8 (8 * l.length)

/-- SHA-256 of a byte string, 32 bytes. -/
def sha256 (l : List Byte) : List Byte :=
  (shaBlocks ((l.length + 72) / 64) (shaPad l) (beWords 8 shaSeed)).flatMap (fun w => beBytes 4 w.toNat)

end Sys2Proof.Machine
end

