-- ==== Sys2Proof/Machine/Ecdsa.lean ====
section
/-! DEFINITION. ECDSA over P-256 with SHA-256 and the nonces of RFC 6979, which R374 to R376 and R380 name. The curve's constants and the
steps are those of FIPS 186 and RFC 6979 (PRESUMED, log 120). -/

namespace Sys2Proof.Machine

/-! ### The curve -/

/-- The prime of the field. -/
def ecP : Nat := 2 ^ 256 - 2 ^ 224 + 2 ^ 192 + 2 ^ 96 - 1

/-- The order of the base point. -/
def ecN : Nat := 0xffffffff00000000ffffffffffffffffbce6faada7179e84f3b9cac2fc632551

/-- The coefficient b of y^2 = x^3 - 3x + b. -/
def ecB : Nat := 0x5ac635d8aa3a93e7b3ebbd55769886bc651d06b0cc53b0f63bce3c3e27d2604b

/-- A point in affine coordinates; none is the point at infinity. -/
abbrev EcPoint := Option (Nat × Nat)

/-- The base point. -/
def ecG : EcPoint :=
  some (0x6b17d1f2e12c4247f8bce6e563a440f277037d812deb33a0f4a13945d898c296,
    0x4fe342e2fe1a7f9b8ee7eb4a7c0f9e162bce33576b315ececbb6406837bf51f5)

/-- x to the power of the n low bits of e, modulo m. -/
def powMod (m x e : Nat) : Nat → Nat
  | 0 => 1
  | n + 1 =>
    let h := powMod m x (e / 2) n
    h * h % m * (if e % 2 = 1 then x else 1) % m

/-- The inverse of x modulo a prime below 2^256. -/
def invMod (m x : Nat) : Nat := powMod m (x % m) (m - 2) 256

/-- a - b modulo m, for b below m. -/
def subMod (m a b : Nat) : Nat := (a + m - b) % m

/-- The third point on the line of slope k through two points, mirrored. -/
def ecThird (k x1 y1 x2 : Nat) : EcPoint :=
  let x := subMod ecP (subMod ecP (k * k) x1) x2
  some (x, subMod ecP (k * subMod ecP x1 x) y1)

/-- The sum of two points. -/
def ecAdd (p q : EcPoint) : EcPoint :=
  match p, q with
  | none, q => q
  | p, none => p
  | some (x1, y1), some (x2, y2) =>
    if x1 ≠ x2 then ecThird (subMod ecP y2 y1 * invMod ecP (subMod ecP x2 x1) % ecP) x1 y1 x2
    else if y1 ≠ y2 ∨ y1 = 0 then none
    else ecThird (subMod ecP (3 * x1 * x1) 3 * invMod ecP (2 * y1) % ecP) x1 y1 x1

/-- The multiple of a point by the n low bits of k. -/
def ecMul (p : EcPoint) (k : Nat) : Nat → EcPoint
  | 0 => none
  | n + 1 =>
    let h := ecMul p (k / 2) n
    let d := ecAdd h h
    if k % 2 = 1 then ecAdd d p else d

/-- Does a point with coordinates below p lie on the curve? -/
def onCurve (x y : Nat) : Bool :=
  decide (x < ecP) && decide (y < ecP) && decide ((y * y + 3 * x) % ecP = (x * x % ecP * x + ecB) % ecP)

/-! ### RFC 6979 -/

/-- HMAC with SHA-256 under a key of at most 64 bytes. -/
def hmac (key msg : List Byte) : List Byte :=
  let k := padTo 64 key
  sha256 (k.map (· ^^^ 0x5C) ++ sha256 (k.map (· ^^^ 0x36) ++ msg))

/-- The generator of nonces: its key and its value. -/
structure NonceGen where
  key : List Byte
  val : List Byte

/-- The generator takes in further data. -/
def NonceGen.mix (g : NonceGen) (data : List Byte) : NonceGen :=
  let k := hmac g.key (g.val ++ data)
  ⟨k, hmac k g.val⟩

/-- The generator for a private key and the hash of a message. -/
def NonceGen.start (key : Nat) (hash : List Byte) : NonceGen :=
  let seed := beBytes 32 key ++ beBytes 32 (beNat hash % ecN)
  (NonceGen.mix ⟨zeros 32, List.replicate 32 0x01⟩ (0x00 :: seed)).mix (0x01 :: seed)

/-- The signature r, s over a hash with a nonce, where the nonce gives one. -/
def signWith (key e k : Nat) : Option (Nat × Nat) :=
  if k = 0 ∨ ecN ≤ k then none
  else
    match ecMul ecG k 256 with
    | none => none
    | some (x, _) =>
      let r := x % ecN
      let s := invMod ecN k * ((e + r * key) % ecN) % ecN
      if r = 0 ∨ s = 0 then none else some (r, s)

/-- The signature with the first nonce of the generator that gives one, within n nonces. One nonce in 2^32 gives none. -/
def signNext (key e : Nat) : Nat → NonceGen → Nat × Nat
  | 0, _ => (0, 0)
  | n + 1, g =>
    let v := hmac g.key g.val
    match signWith key e (beNat v) with
    | some x => x
    | none => signNext key e n (NonceGen.mix ⟨g.key, v⟩ [0x00])

/-- The signature over a message under a private key: r and s, 32 bytes each, big-endian (R373, R375). -/
def ecSign (key : Nat) (msg : List Byte) : List Byte :=
  let h := sha256 msg
  let x := signNext key (beNat h % ecN) 16 (NonceGen.start key h)
  beBytes 32 x.1 ++ beBytes 32 x.2

/-- Does a signature over a hash verify under a public key (R376, R380)? -/
def ecVerify (pub : Nat × Nat) (hash sig : List Byte) : Bool :=
  let r := beNat (sig.take 32)
  let s := beNat ((sig.drop 32).take 32)
  let w := invMod ecN s
  onCurve pub.1 pub.2 && decide (1 ≤ r) && decide (r < ecN) && decide (1 ≤ s) && decide (s < ecN) &&
  (match ecAdd (ecMul ecG (beNat hash * w % ecN) 256) (ecMul (some pub) (r * w % ecN) 256) with
    | some (x, _) => decide (x % ecN = r)
    | none => false)

/-! ### The device's keys (R374) -/

/-- The private key, in the range of the curve's order. -/
def deviceKey : Nat := 1 + Config.privateKey % (ecN - 1)

/-- The device's signature over bytes (R375). -/
def deviceSign (msg : List Byte) : List Byte := ecSign deviceKey msg

/-- The device's public key X and Y, big-endian (Table MEM-9). -/
def publicKey : List Byte :=
  match ecMul ecG deviceKey 256 with
  | some (x, y) => beBytes 32 x ++ beBytes 32 y
  | none => zeros 64

end Sys2Proof.Machine
end

