-- ==== Sys2Proof/Machine/RegTable.lean ====
section
/-! DEFINITION. The register map: one row per register or run of registers of Tables MAP-3 to MAP-19 (R403),
with offset, class (R333), commit group (R334), privilege (R335), reset value and writable bits. -/

namespace Sys2Proof.Machine

/-- Register classes of Table REG-1 (R333). -/
inductive RegClass where
  | safety | parity | direct | trigger | status
deriving DecidableEq, Repr

/-- Privileges of Table REG-3 (R335). No register of the device carries the Belvedere privilege (R410's
closing text), so it has no value here. -/
inductive Priv where
  | any | read | dangerous
deriving DecidableEq, Repr

/-- One row of the register map: `count` registers from `base`, `step` apart. `group` is 8 for "none";
`wmask` holds the bits that software may write (RW, WO and SUM fields). -/
structure RegRow where
  base : Nat
  count : Nat
  step : Nat
  cls : RegClass
  group : Nat
  priv : Priv
  reset : Nat
  wmask : Nat
deriving DecidableEq, Repr

namespace R
/-- Register offset, Tables MAP-3 to MAP-19: `sysId`. -/
abbrev sysId : Nat := 0x0000
/-- Register offset, Tables MAP-3 to MAP-19: `sysSerialLo`. -/
abbrev sysSerialLo : Nat := 0x0004
/-- Register offset, Tables MAP-3 to MAP-19: `sysSerialHi`. -/
abbrev sysSerialHi : Nat := 0x0008
/-- Register offset, Tables MAP-3 to MAP-19: `sysPwrState`. -/
abbrev sysPwrState : Nat := 0x0040
/-- Register offset, Tables MAP-3 to MAP-19: `sysRstCause`. -/
abbrev sysRstCause : Nat := 0x0044
/-- Register offset, Tables MAP-3 to MAP-19: `sysSupply`. -/
abbrev sysSupply : Nat := 0x0048
/-- Register offset, Tables MAP-3 to MAP-19: `sysWakeCfg`. -/
abbrev sysWakeCfg : Nat := 0x004C
/-- Register offset, Tables MAP-3 to MAP-19: `sysWakeTimer`. -/
abbrev sysWakeTimer : Nat := 0x0050
/-- Register offset, Tables MAP-3 to MAP-19: `sysQsCfg`. -/
abbrev sysQsCfg : Nat := 0x0054
/-- Register offset, Tables MAP-3 to MAP-19: `sysXdomBusy`. -/
abbrev sysXdomBusy : Nat := 0x0058
/-- Register offset, Tables MAP-3 to MAP-19: `sysReset`. -/
abbrev sysReset : Nat := 0x0060
/-- Register offset, Tables MAP-3 to MAP-19: `protCommit`. -/
abbrev protCommit : Nat := 0x0800
/-- Register offset, Tables MAP-3 to MAP-19: `protScrcRef`. -/
abbrev protScrcRef : Nat := 0x0804
/-- Register offset, Tables MAP-3 to MAP-19: `protScrcRun`. -/
abbrev protScrcRun : Nat := 0x0808
/-- Register offset, Tables MAP-3 to MAP-19: `protStat`. -/
abbrev protStat : Nat := 0x080C
/-- Register offset, Tables MAP-3 to MAP-19: `protCfgFault`. -/
abbrev protCfgFault : Nat := 0x0810
/-- Register offset, Tables MAP-3 to MAP-19: `protCfgBlk`. -/
abbrev protCfgBlk : Nat := 0x0814
/-- Register offset, Tables MAP-3 to MAP-19: `protErrCnt`. -/
abbrev protErrCnt : Nat := 0x0818
/-- Register offset, Tables MAP-3 to MAP-19: `protSvcCfg`. -/
abbrev protSvcCfg : Nat := 0x0820
/-- Register offset, Tables MAP-3 to MAP-19: `protSvcStat`. -/
abbrev protSvcStat : Nat := 0x0824
/-- Register offset, Tables MAP-3 to MAP-19: `protSvcClose`. -/
abbrev protSvcClose : Nat := 0x0828
/-- Register offset, Tables MAP-3 to MAP-19: `protSealStat`. -/
abbrev protSealStat : Nat := 0x0830
/-- Register offset, Tables MAP-3 to MAP-19: `protCfgStore`. -/
abbrev protCfgStore : Nat := 0x0834
/-- Register offset, Tables MAP-3 to MAP-19: `measCtrl`. -/
abbrev measCtrl : Nat := 0x1000
/-- Register offset, Tables MAP-3 to MAP-19: `measCells`. -/
abbrev measCells : Nat := 0x1004
/-- Register offset, Tables MAP-3 to MAP-19: `measDisCfg`. -/
abbrev measDisCfg : Nat := 0x1008
/-- Register offset, Tables MAP-3 to MAP-19: `measOwCfg`. -/
abbrev measOwCfg : Nat := 0x100C
/-- Register offset, Tables MAP-3 to MAP-19: `measTaprLim`. -/
abbrev measTaprLim : Nat := 0x1010
/-- Register offset, Tables MAP-3 to MAP-19: `measStat`. -/
abbrev measStat : Nat := 0x1020
/-- Register offset, Tables MAP-3 to MAP-19: `measOwStat`. -/
abbrev measOwStat : Nat := 0x1024
/-- Register offset, Tables MAP-3 to MAP-19: `measDisStat`. -/
abbrev measDisStat : Nat := 0x1028
/-- Register offset, Tables MAP-3 to MAP-19: `measDisFault`. -/
abbrev measDisFault : Nat := 0x102C
/-- Register offset, Tables MAP-3 to MAP-19: `measUncomp`. -/
abbrev measUncomp : Nat := 0x1030
/-- Register offset, Tables MAP-3 to MAP-19: `measResA`, first of 32, 4 bytes apart. -/
abbrev measResA : Nat := 0x1100
/-- Register offset, Tables MAP-3 to MAP-19: `measResB`, first of 32, 4 bytes apart. -/
abbrev measResB : Nat := 0x1180
/-- Register offset, Tables MAP-3 to MAP-19: `measTapr`, first of 33, 4 bytes apart. -/
abbrev measTapr : Nat := 0x1200
/-- Register offset, Tables MAP-3 to MAP-19: `measBcoef`, first of 32, 4 bytes apart. -/
abbrev measBcoef : Nat := 0x1300
/-- Register offset, Tables MAP-3 to MAP-19: `calCtrl`. -/
abbrev calCtrl : Nat := 0x1800
/-- Register offset, Tables MAP-3 to MAP-19: `calBgCfg`. -/
abbrev calBgCfg : Nat := 0x1804
/-- Register offset, Tables MAP-3 to MAP-19: `calStat`. -/
abbrev calStat : Nat := 0x1820
/-- Register offset, Tables MAP-3 to MAP-19: `calBgDis`. -/
abbrev calBgDis : Nat := 0x1824
/-- Register offset, Tables MAP-3 to MAP-19: `calRotStat`. -/
abbrev calRotStat : Nat := 0x1828
/-- Register offset, Tables MAP-3 to MAP-19: `calHoLast`. -/
abbrev calHoLast : Nat := 0x182C
/-- Register offset, Tables MAP-3 to MAP-19: `calLapsedA`. -/
abbrev calLapsedA : Nat := 0x1830
/-- Register offset, Tables MAP-3 to MAP-19: `calLapsedB`. -/
abbrev calLapsedB : Nat := 0x1834
/-- Register offset, Tables MAP-3 to MAP-19: `calSeq`. -/
abbrev calSeq : Nat := 0x1840
/-- Register offset, Tables MAP-3 to MAP-19: `calSetCrc`. -/
abbrev calSetCrc : Nat := 0x1844
/-- Register offset, Tables MAP-3 to MAP-19: `calWsCrc`. -/
abbrev calWsCrc : Nat := 0x1848
/-- Register offset, Tables MAP-3 to MAP-19: `calBgref`. -/
abbrev calBgref : Nat := 0x1850
/-- Register offset, Tables MAP-3 to MAP-19: `calOff`, first of 64, 4 bytes apart. -/
abbrev calOff : Nat := 0x1900
/-- Register offset, Tables MAP-3 to MAP-19: `calGain`, first of 64, 4 bytes apart. -/
abbrev calGain : Nat := 0x1A00
/-- Register offset, Tables MAP-3 to MAP-19: `calK2`, first of 64, 4 bytes apart. -/
abbrev calK2 : Nat := 0x1B00
/-- Register offset, Tables MAP-3 to MAP-19: `calBoff`, first of 68, 4 bytes apart. -/
abbrev calBoff : Nat := 0x1C00
/-- Register offset, Tables MAP-3 to MAP-19: `calBgain`, first of 68, 4 bytes apart. -/
abbrev calBgain : Nat := 0x1D40
/-- Register offset, Tables MAP-3 to MAP-19: `calCmpt`, first of 32, 4 bytes apart. -/
abbrev calCmpt : Nat := 0x1E80
/-- Register offset, Tables MAP-3 to MAP-19: `calIsaOff`. -/
abbrev calIsaOff : Nat := 0x1F00
/-- Register offset, Tables MAP-3 to MAP-19: `calIsaGain`. -/
abbrev calIsaGain : Nat := 0x1F04
/-- Register offset, Tables MAP-3 to MAP-19: `calIsbOff`. -/
abbrev calIsbOff : Nat := 0x1F08
/-- Register offset, Tables MAP-3 to MAP-19: `calIsbGain`. -/
abbrev calIsbGain : Nat := 0x1F0C
/-- Register offset, Tables MAP-3 to MAP-19: `calAuxOff`. -/
abbrev calAuxOff : Nat := 0x1F10
/-- Register offset, Tables MAP-3 to MAP-19: `calAuxGain`. -/
abbrev calAuxGain : Nat := 0x1F14
/-- Register offset, Tables MAP-3 to MAP-19: `calTdieOff`. -/
abbrev calTdieOff : Nat := 0x1F18
/-- Register offset, Tables MAP-3 to MAP-19: `cmpThr`, first of 32, 4 bytes apart. -/
abbrev cmpThr : Nat := 0x2000
/-- Register offset, Tables MAP-3 to MAP-19: `cmpCfg`. -/
abbrev cmpCfg : Nat := 0x2080
/-- Register offset, Tables MAP-3 to MAP-19: `cmpStatOv`. -/
abbrev cmpStatOv : Nat := 0x2090
/-- Register offset, Tables MAP-3 to MAP-19: `cmpStatUv`. -/
abbrev cmpStatUv : Nat := 0x2094
/-- Register offset, Tables MAP-3 to MAP-19: `cmpTestStat`. -/
abbrev cmpTestStat : Nat := 0x2098
/-- Register offset, Tables MAP-3 to MAP-19: `curCtrl`. -/
abbrev curCtrl : Nat := 0x2400
/-- Register offset, Tables MAP-3 to MAP-19: `curShunt`. -/
abbrev curShunt : Nat := 0x2404
/-- Register offset, Tables MAP-3 to MAP-19: `curSrc`. -/
abbrev curSrc : Nat := 0x2408
/-- Register offset, Tables MAP-3 to MAP-19: `curLim`. -/
abbrev curLim : Nat := 0x2410
/-- Register offset, Tables MAP-3 to MAP-19: `curLimCfg`. -/
abbrev curLimCfg : Nat := 0x2414
/-- Register offset, Tables MAP-3 to MAP-19: `curDisCfg`. -/
abbrev curDisCfg : Nat := 0x2418
/-- Register offset, Tables MAP-3 to MAP-19: `curStat`. -/
abbrev curStat : Nat := 0x2420
/-- Register offset, Tables MAP-3 to MAP-19: `curResA`. -/
abbrev curResA : Nat := 0x2424
/-- Register offset, Tables MAP-3 to MAP-19: `curResB`. -/
abbrev curResB : Nat := 0x2428
/-- Register offset, Tables MAP-3 to MAP-19: `curQaccLo`. -/
abbrev curQaccLo : Nat := 0x2430
/-- Register offset, Tables MAP-3 to MAP-19: `curQaccHi`. -/
abbrev curQaccHi : Nat := 0x2434
/-- Register offset, Tables MAP-3 to MAP-19: `curQsnapLo`. -/
abbrev curQsnapLo : Nat := 0x2438
/-- Register offset, Tables MAP-3 to MAP-19: `curQsnapHi`. -/
abbrev curQsnapHi : Nat := 0x243C
/-- Register offset, Tables MAP-3 to MAP-19: `curOvrMs`. -/
abbrev curOvrMs : Nat := 0x2440
/-- Register offset, Tables MAP-3 to MAP-19: `curRxStat`. -/
abbrev curRxStat : Nat := 0x2444
/-- Register offset, Tables MAP-3 to MAP-19: `auxCfg`. -/
abbrev auxCfg : Nat := 0x2800
/-- Register offset, Tables MAP-3 to MAP-19: `auxCh`. -/
abbrev auxCh : Nat := 0x2804
/-- Register offset, Tables MAP-3 to MAP-19: `auxNtcCfg`. -/
abbrev auxNtcCfg : Nat := 0x2808
/-- Register offset, Tables MAP-3 to MAP-19: `auxNtcPull`. -/
abbrev auxNtcPull : Nat := 0x280C
/-- Register offset, Tables MAP-3 to MAP-19: `auxTlim`, first of 8, 4 bytes apart. -/
abbrev auxTlim : Nat := 0x2810
/-- Register offset, Tables MAP-3 to MAP-19: `auxRes`, first of 8, 4 bytes apart. -/
abbrev auxRes : Nat := 0x2840
/-- Register offset, Tables MAP-3 to MAP-19: `auxTdie`. -/
abbrev auxTdie : Nat := 0x2860
/-- Register offset, Tables MAP-3 to MAP-19: `auxStat`. -/
abbrev auxStat : Nat := 0x2864
/-- Register offset, Tables MAP-3 to MAP-19: `auxWireCfg`. -/
abbrev auxWireCfg : Nat := 0x2880
/-- Register offset, Tables MAP-3 to MAP-19: `auxWireStat`. -/
abbrev auxWireStat : Nat := 0x2884
/-- Register offset, Tables MAP-3 to MAP-19: `auxWireId`, first of 8, 4 bytes apart. -/
abbrev auxWireId : Nat := 0x2890
/-- Register offset, Tables MAP-3 to MAP-19: `balCtrl`. -/
abbrev balCtrl : Nat := 0x3000
/-- Register offset, Tables MAP-3 to MAP-19: `balRext`. -/
abbrev balRext : Nat := 0x3004
/-- Register offset, Tables MAP-3 to MAP-19: `balTherm`. -/
abbrev balTherm : Nat := 0x3008
/-- Register offset, Tables MAP-3 to MAP-19: `balPcap`. -/
abbrev balPcap : Nat := 0x300C
/-- Register offset, Tables MAP-3 to MAP-19: `balStat`. -/
abbrev balStat : Nat := 0x3020
/-- Register offset, Tables MAP-3 to MAP-19: `balThermStat`. -/
abbrev balThermStat : Nat := 0x3024
/-- Register offset, Tables MAP-3 to MAP-19: `balPwr`. -/
abbrev balPwr : Nat := 0x3028
/-- Register offset, Tables MAP-3 to MAP-19: `balHold`. -/
abbrev balHold : Nat := 0x3030
/-- Register offset, Tables MAP-3 to MAP-19: `balDone`. -/
abbrev balDone : Nat := 0x3034
/-- Register offset, Tables MAP-3 to MAP-19: `balExp`. -/
abbrev balExp : Nat := 0x3038
/-- Register offset, Tables MAP-3 to MAP-19: `balGzResult`. -/
abbrev balGzResult : Nat := 0x3040
/-- Register offset, Tables MAP-3 to MAP-19: `balGzDone`. -/
abbrev balGzDone : Nat := 0x3044
/-- Register offset, Tables MAP-3 to MAP-19: `balGzExp`. -/
abbrev balGzExp : Nat := 0x3048
/-- Register offset, Tables MAP-3 to MAP-19: `balCell`, first of 32, 4 bytes apart. -/
abbrev balCell : Nat := 0x3100
/-- Register offset, Tables MAP-3 to MAP-19: `balQbal`, first of 32, 4 bytes apart. -/
abbrev balQbal : Nat := 0x3200
/-- Register offset, Tables MAP-3 to MAP-19: `engCtrl`. -/
abbrev engCtrl : Nat := 0x3800
/-- Register offset, Tables MAP-3 to MAP-19: `engAnomCfg`. -/
abbrev engAnomCfg : Nat := 0x3804
/-- Register offset, Tables MAP-3 to MAP-19: `engAssign0`. -/
abbrev engAssign0 : Nat := 0x3808
/-- Register offset, Tables MAP-3 to MAP-19: `engAssign1`. -/
abbrev engAssign1 : Nat := 0x380C
/-- Register offset, Tables MAP-3 to MAP-19: `engAssign2`. -/
abbrev engAssign2 : Nat := 0x3810
/-- Register offset, Tables MAP-3 to MAP-19: `engAssign3`. -/
abbrev engAssign3 : Nat := 0x3814
/-- Register offset, Tables MAP-3 to MAP-19: `engModelMap`, first of 2, 4 bytes apart. -/
abbrev engModelMap : Nat := 0x3818
/-- Register offset, Tables MAP-3 to MAP-19: `engStat`. -/
abbrev engStat : Nat := 0x3820
/-- Register offset, Tables MAP-3 to MAP-19: `engLoad`, first of 16, 4 bytes apart. -/
abbrev engLoad : Nat := 0x3840
/-- Register offset, Tables MAP-3 to MAP-19: `engToff`, first of 32, 4 bytes apart. -/
abbrev engToff : Nat := 0x3900
/-- Register offset, Tables MAP-3 to MAP-19: `linkCtrl`. -/
abbrev linkCtrl : Nat := 0x4000
/-- Register offset, Tables MAP-3 to MAP-19: `linkCmd`. -/
abbrev linkCmd : Nat := 0x4004
/-- Register offset, Tables MAP-3 to MAP-19: `linkStat`, first of 2, 4 bytes apart. -/
abbrev linkStat : Nat := 0x4010
/-- Register offset, Tables MAP-3 to MAP-19: `linkDly`, first of 2, 4 bytes apart. -/
abbrev linkDly : Nat := 0x4018
/-- Register offset, Tables MAP-3 to MAP-19: `linkCntN`, first of 3, 4 bytes apart. -/
abbrev linkCntN : Nat := 0x4020
/-- Register offset, Tables MAP-3 to MAP-19: `linkCntS`, first of 3, 4 bytes apart. -/
abbrev linkCntS : Nat := 0x4030
/-- Register offset, Tables MAP-3 to MAP-19: `linkDataErr`. -/
abbrev linkDataErr : Nat := 0x4040
/-- Register offset, Tables MAP-3 to MAP-19: `linkTone`. -/
abbrev linkTone : Nat := 0x4044
/-- Register offset, Tables MAP-3 to MAP-19: `linkToneCnt`. -/
abbrev linkToneCnt : Nat := 0x4048
/-- Register offset, Tables MAP-3 to MAP-19: `ringCfg`. -/
abbrev ringCfg : Nat := 0x4800
/-- Register offset, Tables MAP-3 to MAP-19: `ringPos`. -/
abbrev ringPos : Nat := 0x4804
/-- Register offset, Tables MAP-3 to MAP-19: `ringStat`. -/
abbrev ringStat : Nat := 0x4808
/-- Register offset, Tables MAP-3 to MAP-19: `ringTimeLo`. -/
abbrev ringTimeLo : Nat := 0x4810
/-- Register offset, Tables MAP-3 to MAP-19: `ringTimeHi`. -/
abbrev ringTimeHi : Nat := 0x4814
/-- Register offset, Tables MAP-3 to MAP-19: `ringTimeStat`. -/
abbrev ringTimeStat : Nat := 0x4818
/-- Register offset, Tables MAP-3 to MAP-19: `ringTimeCnt`. -/
abbrev ringTimeCnt : Nat := 0x481C
/-- Register offset, Tables MAP-3 to MAP-19: `ringCnt`. -/
abbrev ringCnt : Nat := 0x4820
/-- Register offset, Tables MAP-3 to MAP-19: `ringSweep`. -/
abbrev ringSweep : Nat := 0x4824
/-- Register offset, Tables MAP-3 to MAP-19: `ringSweepOfs`. -/
abbrev ringSweepOfs : Nat := 0x4828
/-- Register offset, Tables MAP-3 to MAP-19: `hostIfStat`. -/
abbrev hostIfStat : Nat := 0x5000
/-- Register offset, Tables MAP-3 to MAP-19: `hostErr`. -/
abbrev hostErr : Nat := 0x5004
/-- Register offset, Tables MAP-3 to MAP-19: `hostRingEn`. -/
abbrev hostRingEn : Nat := 0x5010
/-- Register offset, Tables MAP-3 to MAP-19: `hostStat`. -/
abbrev hostStat : Nat := 0x5014
/-- Register offset, Tables MAP-3 to MAP-19: `hostEvtLost`. -/
abbrev hostEvtLost : Nat := 0x501C
/-- Register offset, Tables MAP-3 to MAP-19: `hostEqCfg`. -/
abbrev hostEqCfg : Nat := 0x5020
/-- Register offset, Tables MAP-3 to MAP-19: `hostEqMod`. -/
abbrev hostEqMod : Nat := 0x5024
/-- Register offset, Tables MAP-3 to MAP-19: `hostEqHead`. -/
abbrev hostEqHead : Nat := 0x5028
/-- Register offset, Tables MAP-3 to MAP-19: `hostEqTail`. -/
abbrev hostEqTail : Nat := 0x502C
/-- Register offset, Tables MAP-3 to MAP-19: `hostSqCfg`, first of 4, 32 bytes apart. -/
abbrev hostSqCfg : Nat := 0x5100
/-- Register offset, Tables MAP-3 to MAP-19: `hostCqCfg`, first of 4, 32 bytes apart. -/
abbrev hostCqCfg : Nat := 0x5104
/-- Register offset, Tables MAP-3 to MAP-19: `hostResCfg`, first of 4, 32 bytes apart. -/
abbrev hostResCfg : Nat := 0x5108
/-- Register offset, Tables MAP-3 to MAP-19: `hostImod`, first of 4, 32 bytes apart. -/
abbrev hostImod : Nat := 0x510C
/-- Register offset, Tables MAP-3 to MAP-19: `hostSqTail`, first of 4, 32 bytes apart. -/
abbrev hostSqTail : Nat := 0x5110
/-- Register offset, Tables MAP-3 to MAP-19: `hostSqHead`, first of 4, 32 bytes apart. -/
abbrev hostSqHead : Nat := 0x5114
/-- Register offset, Tables MAP-3 to MAP-19: `hostCqHead`, first of 4, 32 bytes apart. -/
abbrev hostCqHead : Nat := 0x5118
/-- Register offset, Tables MAP-3 to MAP-19: `hostCqTail`, first of 4, 32 bytes apart. -/
abbrev hostCqTail : Nat := 0x511C
/-- Register offset, Tables MAP-3 to MAP-19: `hostStrWr`, first of 4, 8 bytes apart. -/
abbrev hostStrWr : Nat := 0x5200
/-- Register offset, Tables MAP-3 to MAP-19: `hostStrCnt`, first of 4, 8 bytes apart. -/
abbrev hostStrCnt : Nat := 0x5204
/-- Register offset, Tables MAP-3 to MAP-19: `safeInCfg`. -/
abbrev safeInCfg : Nat := 0x5800
/-- Register offset, Tables MAP-3 to MAP-19: `safeOutCfg`. -/
abbrev safeOutCfg : Nat := 0x5804
/-- Register offset, Tables MAP-3 to MAP-19: `safeHbCfg`. -/
abbrev safeHbCfg : Nat := 0x5808
/-- Register offset, Tables MAP-3 to MAP-19: `safeOutCmd`. -/
abbrev safeOutCmd : Nat := 0x5810
/-- Register offset, Tables MAP-3 to MAP-19: `safeReset`. -/
abbrev safeReset : Nat := 0x5814
/-- Register offset, Tables MAP-3 to MAP-19: `safeStat`. -/
abbrev safeStat : Nat := 0x5820
/-- Register offset, Tables MAP-3 to MAP-19: `safeInStat`. -/
abbrev safeInStat : Nat := 0x5824
/-- Register offset, Tables MAP-3 to MAP-19: `safeFault`. -/
abbrev safeFault : Nat := 0x5828
/-- Register offset, Tables MAP-3 to MAP-19: `safeHbMiss`, first of 2, 4 bytes apart. -/
abbrev safeHbMiss : Nat := 0x5830
/-- Register offset, Tables MAP-3 to MAP-19: `safeLast`. -/
abbrev safeLast : Nat := 0x5838
/-- Register offset, Tables MAP-3 to MAP-19: `safeLastTimeLo`. -/
abbrev safeLastTimeLo : Nat := 0x583C
/-- Register offset, Tables MAP-3 to MAP-19: `safeLastTimeHi`. -/
abbrev safeLastTimeHi : Nat := 0x5840
/-- Register offset, Tables MAP-3 to MAP-19: `safeCnt`. -/
abbrev safeCnt : Nat := 0x5848
/-- Register offset, Tables MAP-3 to MAP-19: `chkCfg`, first of 2, 64 bytes apart. -/
abbrev chkCfg : Nat := 0x6000
/-- Register offset, Tables MAP-3 to MAP-19: `chkPoly`, first of 2, 64 bytes apart. -/
abbrev chkPoly : Nat := 0x6004
/-- Register offset, Tables MAP-3 to MAP-19: `chkInit`, first of 2, 64 bytes apart. -/
abbrev chkInit : Nat := 0x6008
/-- Register offset, Tables MAP-3 to MAP-19: `chkXorout`, first of 2, 64 bytes apart. -/
abbrev chkXorout : Nat := 0x600C
/-- Register offset, Tables MAP-3 to MAP-19: `chkData8`, first of 2, 64 bytes apart. -/
abbrev chkData8 : Nat := 0x6010
/-- Register offset, Tables MAP-3 to MAP-19: `chkData16`, first of 2, 64 bytes apart. -/
abbrev chkData16 : Nat := 0x6014
/-- Register offset, Tables MAP-3 to MAP-19: `chkData32`, first of 2, 64 bytes apart. -/
abbrev chkData32 : Nat := 0x6018
/-- Register offset, Tables MAP-3 to MAP-19: `chkCtrl`, first of 2, 64 bytes apart. -/
abbrev chkCtrl : Nat := 0x601C
/-- Register offset, Tables MAP-3 to MAP-19: `chkExpect`, first of 2, 64 bytes apart. -/
abbrev chkExpect : Nat := 0x6024
/-- Register offset, Tables MAP-3 to MAP-19: `chkAlvCfg`, first of 2, 64 bytes apart. -/
abbrev chkAlvCfg : Nat := 0x602C
/-- Register offset, Tables MAP-3 to MAP-19: `chkAlv`, first of 2, 64 bytes apart. -/
abbrev chkAlv : Nat := 0x6030
/-- Register offset, Tables MAP-3 to MAP-19: `chkResult`, first of 2, 64 bytes apart. -/
abbrev chkResult : Nat := 0x6020
/-- Register offset, Tables MAP-3 to MAP-19: `chkStat`, first of 2, 64 bytes apart. -/
abbrev chkStat : Nat := 0x6028
/-- Register offset, Tables MAP-3 to MAP-19: `chkAlvExp`, first of 2, 64 bytes apart. -/
abbrev chkAlvExp : Nat := 0x6034
/-- Register offset, Tables MAP-3 to MAP-19: `chkAcnt`, first of 2, 64 bytes apart. -/
abbrev chkAcnt : Nat := 0x6038
/-- Register offset, Tables MAP-3 to MAP-19: `memCeCnt`. -/
abbrev memCeCnt : Nat := 0x6800
/-- Register offset, Tables MAP-3 to MAP-19: `memUeCnt`. -/
abbrev memUeCnt : Nat := 0x6804
/-- Register offset, Tables MAP-3 to MAP-19: `memLastErr`. -/
abbrev memLastErr : Nat := 0x6808
/-- Register offset, Tables MAP-3 to MAP-19: `memLastAddr`. -/
abbrev memLastAddr : Nat := 0x680C
/-- Register offset, Tables MAP-3 to MAP-19: `memNvStat`. -/
abbrev memNvStat : Nat := 0x6810
/-- Register offset, Tables MAP-3 to MAP-19: `memWear`. -/
abbrev memWear : Nat := 0x6814
/-- Register offset, Tables MAP-3 to MAP-19: `memHistSeq`. -/
abbrev memHistSeq : Nat := 0x6818
/-- Register offset, Tables MAP-3 to MAP-19: `memSumNo`. -/
abbrev memSumNo : Nat := 0x681C
/-- Register offset, Tables MAP-3 to MAP-19: `memStartNo`. -/
abbrev memStartNo : Nat := 0x6820
/-- Register offset, Tables MAP-3 to MAP-19: `memLifeLo`. -/
abbrev memLifeLo : Nat := 0x6828
/-- Register offset, Tables MAP-3 to MAP-19: `memLifeHi`. -/
abbrev memLifeHi : Nat := 0x682C
/-- Register offset, Tables MAP-3 to MAP-19: `memFwStat`. -/
abbrev memFwStat : Nat := 0x6830
/-- Register offset, Tables MAP-3 to MAP-19: `memFwVerA`. -/
abbrev memFwVerA : Nat := 0x6834
/-- Register offset, Tables MAP-3 to MAP-19: `memFwVerB`. -/
abbrev memFwVerB : Nat := 0x6838
/-- Register offset, Tables MAP-3 to MAP-19: `bistStat`. -/
abbrev bistStat : Nat := 0x7000
/-- Register offset, Tables MAP-3 to MAP-19: `bistRecSeq`. -/
abbrev bistRecSeq : Nat := 0x7004
/-- Register offset, Tables MAP-3 to MAP-19: `bistAge`. -/
abbrev bistAge : Nat := 0x7008
/-- Register offset, Tables MAP-3 to MAP-19: `bistMisrLo`. -/
abbrev bistMisrLo : Nat := 0x700C
/-- Register offset, Tables MAP-3 to MAP-19: `bistMisrHi`. -/
abbrev bistMisrHi : Nat := 0x7010
/-- Register offset, Tables MAP-3 to MAP-19: `bistPatcnt`. -/
abbrev bistPatcnt : Nat := 0x7014
/-- Register offset, Tables MAP-3 to MAP-19: `bistOnline`. -/
abbrev bistOnline : Nat := 0x7020
/-- Register offset, Tables MAP-3 to MAP-19: `bistLaneFailA`. -/
abbrev bistLaneFailA : Nat := 0x7024
/-- Register offset, Tables MAP-3 to MAP-19: `bistLaneFailB`. -/
abbrev bistLaneFailB : Nat := 0x7028
/-- Register offset, Tables MAP-3 to MAP-19: `bistCmpFail`. -/
abbrev bistCmpFail : Nat := 0x702C
/-- Register offset, Tables MAP-3 to MAP-19: `bistUnrep`, first of 3, 4 bytes apart. -/
abbrev bistUnrep : Nat := 0x7030
/-- Register offset, Tables MAP-3 to MAP-19: `bistRepair`. -/
abbrev bistRepair : Nat := 0x703C
/-- Register offset, Tables MAP-3 to MAP-19: `bistJtag`. -/
abbrev bistJtag : Nat := 0x7040
/-- Register offset, Tables MAP-3 to MAP-19: `evtCfgSafe`, first of 6, 4 bytes apart. -/
abbrev evtCfgSafe : Nat := 0x7800
/-- Register offset, Tables MAP-3 to MAP-19: `evtCfg`, first of 37, 4 bytes apart. -/
abbrev evtCfg : Nat := 0x7818
/-- Register offset, Tables MAP-3 to MAP-19: `evtQuiet`, first of 2, 4 bytes apart. -/
abbrev evtQuiet : Nat := 0x7900
/-- Register offset, Tables MAP-3 to MAP-19: `evtLasting`, first of 2, 4 bytes apart. -/
abbrev evtLasting : Nat := 0x7910
/-- Register offset, Tables MAP-3 to MAP-19: `evtLvl`, first of 125, 4 bytes apart. -/
abbrev evtLvl : Nat := 0x7A00

end R

/-- Rows of the SYS block (0x0000 to 0x07FF). -/
def rowsSYS : List RegRow :=
  [⟨R.sysId, 1, 4, .status, 8, .read, 0x3264, 0x0⟩,
   ⟨R.sysSerialLo, 1, 4, .status, 8, .read, 0x0, 0x0⟩,
   ⟨R.sysSerialHi, 1, 4, .status, 8, .read, 0x0, 0x0⟩,
   ⟨R.sysPwrState, 1, 4, .status, 8, .read, 0x7, 0x0⟩,
   ⟨R.sysRstCause, 1, 4, .status, 8, .read, 0x0, 0x0⟩,
   ⟨R.sysSupply, 1, 4, .status, 8, .read, 0x0, 0x0⟩,
   ⟨R.sysWakeCfg, 1, 4, .parity, 0, .any, 0x3, 0xF⟩,
   ⟨R.sysWakeTimer, 1, 4, .parity, 0, .any, 0xE10, 0x1FFFF⟩,
   ⟨R.sysQsCfg, 1, 4, .parity, 0, .dangerous, 0x7, 0x11F⟩,
   ⟨R.sysXdomBusy, 1, 4, .status, 8, .read, 0x0, 0x0⟩,
   ⟨R.sysReset, 1, 4, .trigger, 8, .dangerous, 0x0, 0xFFFFFFFF⟩]

/-- Rows of the PROT block (0x0800 to 0x0FFF). -/
def rowsPROT : List RegRow :=
  [⟨R.protCommit, 1, 4, .trigger, 8, .any, 0x0, 0xFF⟩,
   ⟨R.protScrcRef, 1, 4, .safety, 2, .dangerous, 0x0, 0xFFFFFFFF⟩,
   ⟨R.protScrcRun, 1, 4, .status, 8, .read, 0x0, 0x0⟩,
   ⟨R.protStat, 1, 4, .status, 8, .read, 0x0, 0x0⟩,
   ⟨R.protCfgFault, 1, 4, .status, 8, .read, 0x0, 0x0⟩,
   ⟨R.protCfgBlk, 1, 4, .status, 8, .read, 0x0, 0x0⟩,
   ⟨R.protErrCnt, 1, 4, .status, 8, .any, 0x0, 0xFFFFFFFF⟩,
   ⟨R.protSvcCfg, 1, 4, .parity, 0, .dangerous, 0xF, 0x3F⟩,
   ⟨R.protSvcStat, 1, 4, .status, 8, .read, 0x0, 0x0⟩,
   ⟨R.protSvcClose, 1, 4, .trigger, 8, .any, 0x0, 0x1⟩,
   ⟨R.protSealStat, 1, 4, .status, 8, .read, 0x0, 0x0⟩,
   ⟨R.protCfgStore, 1, 4, .trigger, 8, .dangerous, 0x0, 0xFFFFFFFF⟩]

/-- Rows of the MEAS block (0x1000 to 0x17FF). -/
def rowsMEAS : List RegRow :=
  [⟨R.measCtrl, 1, 4, .parity, 1, .any, 0x44, 0x777⟩,
   ⟨R.measCells, 1, 4, .safety, 2, .dangerous, 0x0, 0x3F⟩,
   ⟨R.measDisCfg, 1, 4, .safety, 2, .dangerous, 0x1F401F4, 0xFFFFFFFF⟩,
   ⟨R.measOwCfg, 1, 4, .safety, 2, .dangerous, 0xA, 0xFF⟩,
   ⟨R.measTaprLim, 1, 4, .parity, 1, .any, 0x271007D0, 0xFFFFFFFF⟩,
   ⟨R.measStat, 1, 4, .status, 8, .read, 0x1, 0x0⟩,
   ⟨R.measOwStat, 1, 4, .status, 8, .read, 0x0, 0x0⟩,
   ⟨R.measDisStat, 1, 4, .status, 8, .read, 0x0, 0x0⟩,
   ⟨R.measDisFault, 1, 4, .status, 8, .read, 0x0, 0x0⟩,
   ⟨R.measUncomp, 1, 4, .status, 8, .read, 0x0, 0x0⟩,
   ⟨R.measResA, 32, 4, .status, 8, .read, 0x80, 0x0⟩,
   ⟨R.measResB, 32, 4, .status, 8, .read, 0x80, 0x0⟩,
   ⟨R.measTapr, 33, 4, .status, 8, .read, 0xFFFF, 0x0⟩,
   ⟨R.measBcoef, 32, 4, .status, 8, .read, 0xFFFFFFFF, 0x0⟩]

/-- Rows of the CAL block (0x1800 to 0x1FFF). -/
def rowsCAL : List RegRow :=
  [⟨R.calCtrl, 1, 4, .parity, 3, .dangerous, 0x1E01, 0xFF01⟩,
   ⟨R.calBgCfg, 1, 4, .safety, 2, .dangerous, 0x190, 0x3FF⟩,
   ⟨R.calStat, 1, 4, .status, 8, .read, 0x0, 0x0⟩,
   ⟨R.calBgDis, 1, 4, .status, 8, .read, 0x0, 0x0⟩,
   ⟨R.calRotStat, 1, 4, .status, 8, .read, 0x0, 0x0⟩,
   ⟨R.calHoLast, 1, 4, .status, 8, .read, 0x0, 0x0⟩,
   ⟨R.calLapsedA, 1, 4, .status, 8, .read, 0x0, 0x0⟩,
   ⟨R.calLapsedB, 1, 4, .status, 8, .read, 0x0, 0x0⟩,
   ⟨R.calSeq, 1, 4, .status, 8, .read, 0x0, 0x0⟩,
   ⟨R.calSetCrc, 1, 4, .status, 8, .read, 0x0, 0x0⟩,
   ⟨R.calWsCrc, 1, 4, .status, 8, .read, 0x0, 0x0⟩,
   ⟨R.calBgref, 1, 4, .parity, 3, .dangerous, 0x0, 0xFFFFFFFF⟩,
   ⟨R.calOff, 64, 4, .parity, 3, .dangerous, 0x0, 0xFFFFFF⟩,
   ⟨R.calGain, 64, 4, .parity, 3, .dangerous, 0x0, 0xFFFFFF⟩,
   ⟨R.calK2, 64, 4, .parity, 3, .dangerous, 0x0, 0xFFFF⟩,
   ⟨R.calBoff, 68, 4, .status, 8, .read, 0x0, 0x0⟩,
   ⟨R.calBgain, 68, 4, .status, 8, .read, 0x0, 0x0⟩,
   ⟨R.calCmpt, 32, 4, .safety, 2, .dangerous, 0x0, 0xFF00FF⟩,
   ⟨R.calIsaOff, 1, 4, .parity, 3, .dangerous, 0x0, 0xFFFFFF⟩,
   ⟨R.calIsaGain, 1, 4, .parity, 3, .dangerous, 0x0, 0xFFFFFF⟩,
   ⟨R.calIsbOff, 1, 4, .parity, 3, .dangerous, 0x0, 0xFFFFFF⟩,
   ⟨R.calIsbGain, 1, 4, .parity, 3, .dangerous, 0x0, 0xFFFFFF⟩,
   ⟨R.calAuxOff, 1, 4, .parity, 3, .dangerous, 0x0, 0xFFFF⟩,
   ⟨R.calAuxGain, 1, 4, .parity, 3, .dangerous, 0x0, 0xFFFFFF⟩,
   ⟨R.calTdieOff, 1, 4, .parity, 3, .dangerous, 0x0, 0xFFFF⟩]

/-- Rows of the CMP block (0x2000 to 0x23FF). -/
def rowsCMP : List RegRow :=
  [⟨R.cmpThr, 32, 4, .safety, 2, .dangerous, 0x3FF, 0x3FF03FF⟩,
   ⟨R.cmpCfg, 1, 4, .safety, 2, .dangerous, 0x2064, 0x73FF⟩,
   ⟨R.cmpStatOv, 1, 4, .status, 8, .read, 0x0, 0x0⟩,
   ⟨R.cmpStatUv, 1, 4, .status, 8, .read, 0x0, 0x0⟩,
   ⟨R.cmpTestStat, 1, 4, .status, 8, .read, 0x0, 0x0⟩]

/-- Rows of the CUR block (0x2400 to 0x27FF). -/
def rowsCUR : List RegRow :=
  [⟨R.curCtrl, 1, 4, .parity, 4, .any, 0x140, 0x773⟩,
   ⟨R.curShunt, 1, 4, .parity, 4, .any, 0x186A0, 0xFFFFFFFF⟩,
   ⟨R.curSrc, 1, 4, .parity, 4, .any, 0x3F, 0x3F⟩,
   ⟨R.curLim, 1, 4, .safety, 2, .dangerous, 0xFFFFFFFF, 0xFFFFFFFF⟩,
   ⟨R.curLimCfg, 1, 4, .safety, 2, .dangerous, 0x2032, 0xF1FF⟩,
   ⟨R.curDisCfg, 1, 4, .safety, 2, .dangerous, 0x1F43232, 0xFFFFFFFF⟩,
   ⟨R.curStat, 1, 4, .status, 8, .read, 0x1, 0x0⟩,
   ⟨R.curResA, 1, 4, .status, 8, .read, 0x80, 0x0⟩,
   ⟨R.curResB, 1, 4, .status, 8, .read, 0x80, 0x0⟩,
   ⟨R.curQaccLo, 1, 4, .status, 8, .read, 0x0, 0x0⟩,
   ⟨R.curQaccHi, 1, 4, .status, 8, .read, 0x0, 0x0⟩,
   ⟨R.curQsnapLo, 1, 4, .status, 8, .read, 0x0, 0x0⟩,
   ⟨R.curQsnapHi, 1, 4, .status, 8, .read, 0x0, 0x0⟩,
   ⟨R.curOvrMs, 1, 4, .status, 8, .read, 0x0, 0x0⟩,
   ⟨R.curRxStat, 1, 4, .status, 8, .read, 0x0, 0x0⟩]

/-- Rows of the AUX block (0x2800 to 0x2FFF). -/
def rowsAUX : List RegRow :=
  [⟨R.auxCfg, 1, 4, .parity, 5, .any, 0x20A, 0x77F⟩,
   ⟨R.auxCh, 1, 4, .parity, 5, .any, 0x0, 0xFFFF⟩,
   ⟨R.auxNtcCfg, 1, 4, .parity, 5, .any, 0xD6B2710, 0xFFFFFFFF⟩,
   ⟨R.auxNtcPull, 1, 4, .parity, 5, .any, 0x2710, 0xFFFF⟩,
   ⟨R.auxTlim, 8, 4, .safety, 2, .dangerous, 0x80007FFF, 0xFFFFFFFF⟩,
   ⟨R.auxRes, 8, 4, .status, 8, .read, 0x0, 0x0⟩,
   ⟨R.auxTdie, 1, 4, .status, 8, .read, 0x0, 0x0⟩,
   ⟨R.auxStat, 1, 4, .status, 8, .read, 0x0, 0x0⟩,
   ⟨R.auxWireCfg, 1, 4, .parity, 5, .any, 0x2EEF0, 0x3FFFF⟩,
   ⟨R.auxWireStat, 1, 4, .status, 8, .read, 0x0, 0x0⟩,
   ⟨R.auxWireId, 8, 4, .status, 8, .read, 0x0, 0x0⟩]

/-- Rows of the BAL block (0x3000 to 0x37FF). -/
def rowsBAL : List RegRow :=
  [⟨R.balCtrl, 1, 4, .parity, 7, .any, 0x0, 0xD⟩,
   ⟨R.balRext, 1, 4, .parity, 7, .any, 0x0, 0xFFFF⟩,
   ⟨R.balTherm, 1, 4, .parity, 7, .any, 0x73691800, 0xFFFFFF0F⟩,
   ⟨R.balPcap, 1, 4, .parity, 7, .any, 0x5DC, 0x7FF⟩,
   ⟨R.balStat, 1, 4, .status, 8, .read, 0x0, 0x0⟩,
   ⟨R.balThermStat, 1, 4, .status, 8, .read, 0x100, 0x0⟩,
   ⟨R.balPwr, 1, 4, .status, 8, .read, 0x5DC, 0x0⟩,
   ⟨R.balHold, 1, 4, .status, 8, .read, 0x0, 0x0⟩,
   ⟨R.balDone, 1, 4, .status, 8, .read, 0x0, 0x0⟩,
   ⟨R.balExp, 1, 4, .status, 8, .read, 0x0, 0x0⟩,
   ⟨R.balGzResult, 1, 4, .status, 8, .read, 0x0, 0x0⟩,
   ⟨R.balGzDone, 1, 4, .status, 8, .read, 0x0, 0x0⟩,
   ⟨R.balGzExp, 1, 4, .status, 8, .read, 0x0, 0x0⟩,
   ⟨R.balCell, 32, 4, .status, 8, .read, 0x0, 0x0⟩,
   ⟨R.balQbal, 32, 4, .status, 8, .read, 0x0, 0x0⟩]

/-- Rows of the ENG block (0x3800 to 0x3FFF). -/
def rowsENG : List RegRow :=
  [⟨R.engCtrl, 1, 4, .parity, 6, .any, 0x2, 0x7⟩,
   ⟨R.engAnomCfg, 1, 4, .parity, 6, .any, 0xE, 0xFF⟩,
   ⟨R.engAssign0, 1, 4, .parity, 6, .any, 0x33221100, 0xFFFFFFFF⟩,
   ⟨R.engAssign1, 1, 4, .parity, 6, .any, 0x77665544, 0xFFFFFFFF⟩,
   ⟨R.engAssign2, 1, 4, .parity, 6, .any, 0xBBAA9988, 0xFFFFFFFF⟩,
   ⟨R.engAssign3, 1, 4, .parity, 6, .any, 0xFFEEDDCC, 0xFFFFFFFF⟩,
   ⟨R.engModelMap, 2, 4, .parity, 6, .any, 0x0, 0xFFFFFFFF⟩,
   ⟨R.engStat, 1, 4, .status, 8, .read, 0x0, 0x0⟩,
   ⟨R.engLoad, 16, 4, .status, 8, .read, 0x0, 0x0⟩,
   ⟨R.engToff, 32, 4, .parity, 6, .any, 0x8000, 0xFFFF⟩]

/-- Rows of the LINK block (0x4000 to 0x47FF). -/
def rowsLINK : List RegRow :=
  [⟨R.linkCtrl, 1, 4, .parity, 0, .any, 0x0, 0xF⟩,
   ⟨R.linkCmd, 1, 4, .trigger, 8, .any, 0x0, 0x3⟩,
   ⟨R.linkStat, 2, 4, .status, 8, .read, 0x0, 0x0⟩,
   ⟨R.linkDly, 2, 4, .status, 8, .read, 0x0, 0x0⟩,
   ⟨R.linkCntN, 3, 4, .status, 8, .any, 0x0, 0xFFFFFFFF⟩,
   ⟨R.linkCntS, 3, 4, .status, 8, .any, 0x0, 0xFFFFFFFF⟩,
   ⟨R.linkDataErr, 1, 4, .status, 8, .any, 0x0, 0xFFFF⟩,
   ⟨R.linkTone, 1, 4, .status, 8, .read, 0x0, 0x0⟩,
   ⟨R.linkToneCnt, 1, 4, .status, 8, .any, 0x0, 0xFFFFFFFF⟩]

/-- Rows of the RING block (0x4800 to 0x4FFF). -/
def rowsRING : List RegRow :=
  [⟨R.ringCfg, 1, 4, .parity, 0, .any, 0xA0C802, 0x3FFFFFF⟩,
   ⟨R.ringPos, 1, 4, .status, 8, .read, 0x3F003F, 0x0⟩,
   ⟨R.ringStat, 1, 4, .status, 8, .read, 0x3F3F, 0x0⟩,
   ⟨R.ringTimeLo, 1, 4, .status, 8, .read, 0x0, 0x0⟩,
   ⟨R.ringTimeHi, 1, 4, .status, 8, .read, 0x0, 0x0⟩,
   ⟨R.ringTimeStat, 1, 4, .status, 8, .read, 0x0, 0x0⟩,
   ⟨R.ringTimeCnt, 1, 4, .status, 8, .any, 0x0, 0xFFFFFFFF⟩,
   ⟨R.ringCnt, 1, 4, .status, 8, .any, 0x0, 0xFFFFFFFF⟩,
   ⟨R.ringSweep, 1, 4, .status, 8, .read, 0x0, 0x0⟩,
   ⟨R.ringSweepOfs, 1, 4, .status, 8, .read, 0x0, 0x0⟩]

/-- Rows of the HOST block (0x5000 to 0x57FF). -/
def rowsHOST : List RegRow :=
  [⟨R.hostIfStat, 1, 4, .status, 8, .read, 0x0, 0x0⟩,
   ⟨R.hostErr, 1, 4, .status, 8, .any, 0x0, 0xFFFFFFFF⟩,
   ⟨R.hostRingEn, 1, 4, .parity, 0, .any, 0x0, 0x1F⟩,
   ⟨R.hostStat, 1, 4, .status, 8, .read, 0x0, 0x0⟩,
   ⟨R.hostEvtLost, 1, 4, .status, 8, .any, 0x0, 0xFFFF⟩,
   ⟨R.hostEqCfg, 1, 4, .parity, 0, .any, 0x0, 0x7FF3FFF⟩,
   ⟨R.hostEqMod, 1, 4, .parity, 0, .any, 0x1, 0xFFFF00FF⟩,
   ⟨R.hostEqHead, 1, 4, .trigger, 8, .any, 0x0, 0x3FF⟩,
   ⟨R.hostEqTail, 1, 4, .status, 8, .read, 0x10000, 0x0⟩,
   ⟨R.hostSqCfg, 4, 32, .parity, 0, .any, 0x0, 0x7FF3FFF⟩,
   ⟨R.hostCqCfg, 4, 32, .parity, 0, .any, 0x0, 0x7FF3FFF⟩,
   ⟨R.hostResCfg, 4, 32, .parity, 0, .any, 0x0, 0x1FFF0FFF⟩,
   ⟨R.hostImod, 4, 32, .parity, 0, .any, 0x1, 0xFFFF00FF⟩,
   ⟨R.hostSqTail, 4, 32, .trigger, 8, .any, 0x0, 0x3FF⟩,
   ⟨R.hostSqHead, 4, 32, .status, 8, .read, 0x0, 0x0⟩,
   ⟨R.hostCqHead, 4, 32, .trigger, 8, .any, 0x0, 0x3FF⟩,
   ⟨R.hostCqTail, 4, 32, .status, 8, .read, 0x10000, 0x0⟩,
   ⟨R.hostStrWr, 4, 8, .status, 8, .read, 0x0, 0x0⟩,
   ⟨R.hostStrCnt, 4, 8, .status, 8, .read, 0x0, 0x0⟩]

/-- Rows of the SAFE block (0x5800 to 0x5FFF). -/
def rowsSAFE : List RegRow :=
  [⟨R.safeInCfg, 1, 4, .safety, 2, .dangerous, 0x68646864, 0x7FFF7FFF⟩,
   ⟨R.safeOutCfg, 1, 4, .safety, 2, .dangerous, 0x3, 0x3⟩,
   ⟨R.safeHbCfg, 1, 4, .safety, 2, .dangerous, 0x14, 0x7F⟩,
   ⟨R.safeOutCmd, 1, 4, .trigger, 8, .any, 0x0, 0xF⟩,
   ⟨R.safeReset, 1, 4, .trigger, 8, .any, 0x0, 0xFFFFFFFF⟩,
   ⟨R.safeStat, 1, 4, .status, 8, .read, 0x0, 0x0⟩,
   ⟨R.safeInStat, 1, 4, .status, 8, .read, 0x0, 0x0⟩,
   ⟨R.safeFault, 1, 4, .status, 8, .read, 0x0, 0x0⟩,
   ⟨R.safeHbMiss, 2, 4, .status, 8, .read, 0x0, 0x0⟩,
   ⟨R.safeLast, 1, 4, .status, 8, .read, 0x0, 0x0⟩,
   ⟨R.safeLastTimeLo, 1, 4, .status, 8, .read, 0x0, 0x0⟩,
   ⟨R.safeLastTimeHi, 1, 4, .status, 8, .read, 0x0, 0x0⟩,
   ⟨R.safeCnt, 1, 4, .status, 8, .any, 0x0, 0xFFFFFFFF⟩]

/-- Rows of the CHK block (0x6000 to 0x67FF). -/
def rowsCHK : List RegRow :=
  [⟨R.chkCfg, 2, 64, .direct, 8, .any, 0x320, 0x3033F⟩,
   ⟨R.chkPoly, 2, 64, .direct, 8, .any, 0x1EDC6F41, 0xFFFFFFFF⟩,
   ⟨R.chkInit, 2, 64, .direct, 8, .any, 0xFFFFFFFF, 0xFFFFFFFF⟩,
   ⟨R.chkXorout, 2, 64, .direct, 8, .any, 0xFFFFFFFF, 0xFFFFFFFF⟩,
   ⟨R.chkData8, 2, 64, .trigger, 8, .any, 0x0, 0xFFFFFFFF⟩,
   ⟨R.chkData16, 2, 64, .trigger, 8, .any, 0x0, 0xFFFFFFFF⟩,
   ⟨R.chkData32, 2, 64, .trigger, 8, .any, 0x0, 0xFFFFFFFF⟩,
   ⟨R.chkCtrl, 2, 64, .trigger, 8, .any, 0x0, 0x7⟩,
   ⟨R.chkExpect, 2, 64, .direct, 8, .any, 0x0, 0xFFFFFFFF⟩,
   ⟨R.chkAlvCfg, 2, 64, .direct, 8, .any, 0x401, 0x1FFF⟩,
   ⟨R.chkAlv, 2, 64, .trigger, 8, .any, 0x0, 0xFFFF⟩,
   ⟨R.chkResult, 2, 64, .status, 8, .read, 0x0, 0x0⟩,
   ⟨R.chkStat, 2, 64, .status, 8, .read, 0x0, 0x0⟩,
   ⟨R.chkAlvExp, 2, 64, .status, 8, .read, 0x0, 0x0⟩,
   ⟨R.chkAcnt, 2, 64, .status, 8, .any, 0x0, 0xFFFFFFFF⟩]

/-- Rows of the MEM block (0x6800 to 0x6FFF). -/
def rowsMEM : List RegRow :=
  [⟨R.memCeCnt, 1, 4, .status, 8, .any, 0x0, 0xFFFFFFFF⟩,
   ⟨R.memUeCnt, 1, 4, .status, 8, .any, 0x0, 0xFFFFFFFF⟩,
   ⟨R.memLastErr, 1, 4, .status, 8, .read, 0x0, 0x0⟩,
   ⟨R.memLastAddr, 1, 4, .status, 8, .read, 0x0, 0x0⟩,
   ⟨R.memNvStat, 1, 4, .status, 8, .read, 0x0, 0x0⟩,
   ⟨R.memWear, 1, 4, .status, 8, .read, 0x0, 0x0⟩,
   ⟨R.memHistSeq, 1, 4, .status, 8, .read, 0x0, 0x0⟩,
   ⟨R.memSumNo, 1, 4, .status, 8, .read, 0x0, 0x0⟩,
   ⟨R.memStartNo, 1, 4, .status, 8, .read, 0x0, 0x0⟩,
   ⟨R.memLifeLo, 1, 4, .status, 8, .read, 0x0, 0x0⟩,
   ⟨R.memLifeHi, 1, 4, .status, 8, .read, 0x0, 0x0⟩,
   ⟨R.memFwStat, 1, 4, .status, 8, .read, 0x0, 0x0⟩,
   ⟨R.memFwVerA, 1, 4, .status, 8, .read, 0x0, 0x0⟩,
   ⟨R.memFwVerB, 1, 4, .status, 8, .read, 0x0, 0x0⟩]

/-- Rows of the BIST block (0x7000 to 0x77FF). -/
def rowsBIST : List RegRow :=
  [⟨R.bistStat, 1, 4, .status, 8, .read, 0x0, 0x0⟩,
   ⟨R.bistRecSeq, 1, 4, .status, 8, .read, 0x0, 0x0⟩,
   ⟨R.bistAge, 1, 4, .status, 8, .read, 0x0, 0x0⟩,
   ⟨R.bistMisrLo, 1, 4, .status, 8, .read, 0x0, 0x0⟩,
   ⟨R.bistMisrHi, 1, 4, .status, 8, .read, 0x0, 0x0⟩,
   ⟨R.bistPatcnt, 1, 4, .status, 8, .read, 0x0, 0x0⟩,
   ⟨R.bistOnline, 1, 4, .status, 8, .read, 0x0, 0x0⟩,
   ⟨R.bistLaneFailA, 1, 4, .status, 8, .read, 0x0, 0x0⟩,
   ⟨R.bistLaneFailB, 1, 4, .status, 8, .read, 0x0, 0x0⟩,
   ⟨R.bistCmpFail, 1, 4, .status, 8, .read, 0x0, 0x0⟩,
   ⟨R.bistUnrep, 3, 4, .status, 8, .read, 0x0, 0x0⟩,
   ⟨R.bistRepair, 1, 4, .status, 8, .read, 0x0, 0x0⟩,
   ⟨R.bistJtag, 1, 4, .status, 8, .read, 0x2, 0x0⟩]

/-- Rows of the EVT block (0x7800 to 0x7FFF). -/
def rowsEVT : List RegRow :=
  [⟨R.evtCfgSafe, 6, 4, .safety, 2, .dangerous, 0x0, 0xFFFFFFFF⟩,
   ⟨R.evtCfg, 37, 4, .parity, 0, .any, 0x0, 0xFFFFFFFF⟩,
   ⟨R.evtQuiet, 2, 4, .parity, 0, .any, 0x0, 0xFFFFFFFF⟩,
   ⟨R.evtLasting, 2, 4, .status, 8, .read, 0x0, 0x0⟩,
   ⟨R.evtLvl, 125, 4, .status, 8, .read, 0x0, 0x0⟩]

/-- The rows of the block that holds an offset. -/
def rowsOf (off : Nat) : List RegRow :=
  if off < 0x0800 then rowsSYS
  else if off < 0x1000 then rowsPROT
  else if off < 0x1800 then rowsMEAS
  else if off < 0x2000 then rowsCAL
  else if off < 0x2400 then rowsCMP
  else if off < 0x2800 then rowsCUR
  else if off < 0x3000 then rowsAUX
  else if off < 0x3800 then rowsBAL
  else if off < 0x4000 then rowsENG
  else if off < 0x4800 then rowsLINK
  else if off < 0x5000 then rowsRING
  else if off < 0x5800 then rowsHOST
  else if off < 0x6000 then rowsSAFE
  else if off < 0x6800 then rowsCHK
  else if off < 0x7000 then rowsMEM
  else if off < 0x7800 then rowsBIST
  else if off < 0x8000 then rowsEVT
  else []

/-- Does the row hold a register at this offset? -/
def RegRow.has (r : RegRow) (off : Nat) : Bool :=
  decide (r.base ≤ off) && decide (off < r.base + r.count * r.step) && decide ((off - r.base) % r.step = 0)

/-- First row of a list that holds the offset. -/
def findRow : List RegRow → Nat → Option RegRow
  | [], _ => none
  | r :: l, off => if r.has off then some r else findRow l off

/-- The register at an offset, if there is one (R404). -/
def regInfo (off : Nat) : Option RegRow := findRow (rowsOf off) off

/-- Reset value of EVT_CFGs for source s, Table MAP-20 (R409). -/
def evtCfgReset (s : Nat) : Nat :=
  if s ∈ [0] then 0x00177002
  else if s ∈ [6, 19, 34, 42] then 0x00177003
  else if s ∈ [10, 16] then 0x00177004
  else if s ∈ [20] then 0x00177005
  else if s ∈ [9] then 0x00177008
  else if s ∈ [17] then 0x0017700A
  else if s ∈ [7, 22, 37, 38, 39, 40, 41] then 0x00EA6001
  else if s ∈ [21, 26] then 0x00EA6002
  else if s ∈ [11, 12, 13, 14, 24, 27, 32, 36] then 0x00EA6003
  else if s ∈ [1, 2, 3, 8, 18, 28, 29, 33, 35] then 0x057E4001
  else if s ∈ [15, 23, 25] then 0x83D60001
  else if s ∈ [4] then 0x0003E802
  else if s ∈ [5] then 0x00006402
  else if s ∈ [31] then 0x00006404
  else 0x00000520

/-- Reset value of the register at an offset (R403, R409); 0 where no register is (R404). -/
def regReset (off : Nat) : Word :=
  if 0x7800 ≤ off ∧ off ≤ 0x78A8 then BitVec.ofNat 32 (evtCfgReset ((off - 0x7800) / 4))
  else if off = 0x7900 then 0x40000000#32
  else match regInfo off with
    | some r => BitVec.ofNat 32 r.reset
    | none => 0

/-- Is the register kept as shadow and committed copy (safety or parity class, R333)? -/
def RegRow.shadowed (r : RegRow) : Bool :=
  match r.cls with
  | .safety | .parity => true
  | .direct | .trigger | .status => false

/-- Does the register's committed copy sit on the M-die (Table MAP-2)? -/
def onMdie (off : Nat) : Bool := decide (0x1000 ≤ off) && decide (off < 0x3800)

/-- Is the register in the always-on domain (Table MAP-2)? -/
def onAon (off : Nat) : Bool := decide (off = R.sysWakeCfg) || decide (off = R.sysWakeTimer)

/-- All offsets of one row. -/
def RegRow.offsets (r : RegRow) : List Nat := (upFrom 0 r.count).map (fun i => r.base + i * r.step)

/-- Every row of the map, in rising block order. -/
def allRows : List RegRow :=
  rowsSYS ++ rowsPROT ++ rowsMEAS ++ rowsCAL ++ rowsCMP ++ rowsCUR ++ rowsAUX ++
  rowsBAL ++ rowsENG ++ rowsLINK ++ rowsRING ++ rowsHOST ++ rowsSAFE ++
  rowsCHK ++ rowsMEM ++ rowsBIST ++ rowsEVT

/-- Offsets of the shadowed registers of a commit group (R334). -/
def groupOffsets (g : Nat) : List Nat :=
  (allRows.filter (fun r => r.shadowed && decide (r.group = g))).flatMap RegRow.offsets

/-- Offsets of the 89 words of the safety image, in CRC order (R340, Table REG-4). -/
def imageOffsets : List Nat :=
  [R.measCells, R.measDisCfg, R.measOwCfg, R.calBgCfg] ++
  (upFrom 0 32).map (fun i => R.calCmpt + 4 * i) ++
  (upFrom 0 32).map (fun i => R.cmpThr + 4 * i) ++
  [R.cmpCfg, R.curLim, R.curLimCfg, R.curDisCfg] ++
  (upFrom 0 8).map (fun i => R.auxTlim + 4 * i) ++
  [R.safeInCfg, R.safeOutCfg, R.safeHbCfg] ++
  (upFrom 0 6).map (fun i => R.evtCfgSafe + 4 * i)

/-- Offsets recorded by the protected configuration record (R344). -/
def recordOffsets : List Nat :=
  [R.sysQsCfg, R.protSvcCfg, R.measCells, R.measDisCfg, R.measOwCfg, R.calCtrl, R.calBgCfg] ++
  (upFrom 0 32).map (fun i => R.cmpThr + 4 * i) ++
  [R.cmpCfg, R.curLim, R.curLimCfg, R.curDisCfg] ++
  (upFrom 0 8).map (fun i => R.auxTlim + 4 * i) ++
  [R.safeInCfg, R.safeOutCfg, R.safeHbCfg] ++
  (upFrom 0 6).map (fun i => R.evtCfgSafe + 4 * i)

/-- Offsets of the working set in the order of Table CAL-5, 0x020 to 0x3BF: 232 words (R103, R118). -/
def worksetOffsets : List Nat :=
  (upFrom 0 64).map (fun i => R.calOff + 4 * i) ++ (upFrom 0 64).map (fun i => R.calGain + 4 * i) ++
  (upFrom 0 64).map (fun i => R.calK2 + 4 * i) ++ (upFrom 0 32).map (fun i => R.calCmpt + 4 * i) ++
  [R.calIsaOff, R.calIsaGain, R.calIsbOff, R.calIsbGain, R.calAuxOff, R.calAuxGain, R.calTdieOff,
   R.calBgref]

end Sys2Proof.Machine
end

