-- ==== Sys2Proof/Machine/State.lean ====
section
/-! DEFINITION. The state of one TM3264, the reasons a step can stop, and the state after power comes on.

`Dev` holds the device (registers, non-volatile records, link, ring, engines, safety), `Hst` the head's host
port with its host window and descriptor rings, and `State` joins them with the queue of waiting commands. -/

namespace Sys2Proof.Machine

/-- No command of this block stops the machine with a fault: wherever the spec gives a command no effect in the
present state, the command leaves the device as it is. Hence no constructor. -/
inductive Fault
deriving DecidableEq, Repr

/-- Reasons for having no meaning. -/
inductive Refusal where
  /-- Raised only by an arm of `exec` whose command has no meaning yet. Safe: the machine stops. -/
  | notModelled (mnemonic : String)
deriving DecidableEq, Repr

/-! ### Power (file 02) -/

/-- Power states of Table PWR-6 (R49). -/
inductive PowerState where
  | off | shutdown | sleep | gazebo | standby | active | closing | starting
deriving DecidableEq, Repr

/-- Supply, clocks, reset and power state (R33 to R62). -/
structure Power where
  st : PowerState          -- R49
  target : PowerState      -- where the present closing leads (R53)
  held : Bool              -- reset asserted, its cause not yet ended (R46)
  cause : Nat              -- causes gathered for the next start, bits [8:0] of SYS_RST_CAUSE (R48)
  wakeSrc : Nat            -- WAKE_SRC of the next start (R48)
  rstCause : Word          -- SYS_RST_CAUSE (R48)
  fullSince : Bool         -- a reset with a Full entry since the record was written (R60)
  aborted : Bool           -- the closing was aborted (R54)
  closeAt : Time           -- ring time at which closing began (Table PWR-8)
  floorActive : Bool       -- FLOOR (R51)
  workAt : Time            -- last ring time at which the floor was ACTIVE or engine work ran (R51)
  locked : Bool            -- CLK_LOCKED (R42)
  quick : Bool             -- QUICK (R60)
  fullReason : Nat         -- FULL_REASON (R60)
  mode : Bool              -- MODE as sampled when reset ended (R2)
  warn : Bool              -- WARN (R37)
  warnAt : Time            -- ring time of the warning assertion (R37)
  dip : Option (Time × Time)  -- the last warning that cleared: its assertion and its clearing (R37)
  persist : Bool           -- PERSIST, the load shed (R38)
  shedAt : Time            -- ring time at which the load was shed (R38, R168)
  nvmSusp : Bool           -- NVM_SUSP (R37)
  dropout : Bool           -- DROPOUT (R34)
  secs : Nat               -- 32-bit seconds counter of the always-on domain (R45)
  secSub : Nat             -- ring-time LSBs below one second of that counter
  secValid : Bool          -- the counter has not been lost (R45)
  entryMs : Nat            -- milliseconds since closing entered SLEEP or GAZEBO (R58)
  cmpMs : Nat              -- that count when the comparators were last due a sample, or the state was entered (R57)
  swReset : Option Time    -- a key write of SYS_RESET waits its 10 ms: when it was made (R408)
  tripSeen : List (Nat × Bool)  -- comparator samples outside, awaiting confirmation (R57): cell, OV
  tripWake : List (Nat × Bool)  -- confirmed in SLEEP or GAZEBO, to latch once the link is up (R57)
  sealEarly : Bool         -- a seal opening woke the device (R31)
deriving DecidableEq, Repr

/-! ### Register protection (file 12) -/

/-- Who asked for a commit: a PROT_COMMIT write, a COMMIT to one target (its handle), or a broadcast. -/
inductive CommitSource where
  | register
  | single (h : Nat)
  | broadcast (h : Nat)
deriving DecidableEq, Repr

/-- What a commit's snapshot took: the shadows of its groups, and the registers whose check failed with the kinds of their faults (R338). -/
structure Snap where
  words : List (Nat × Word)
  bad : List (Nat × Nat)
deriving DecidableEq, Repr

/-- A commit that waits for its ring time (R337, R260). While `snap` is none, the snapshot is taken when the posted writes it waits for
have landed (`waitM`, `waitA`, R337), or, of a `timed` one, as it applies (R260). `late` is how far its apply time lay back when it
arrived, in ring-time LSBs; `after`: it was made while a reversion waited (R348). -/
structure PendCommit where
  due : Time
  mask : Nat
  src : CommitSource
  waitM : Bool
  waitA : Bool
  late : Nat
  timed : Bool
  after : Bool
  snap : Option Snap
deriving DecidableEq, Repr

/-- A posted write in flight (R353): the bits that it writes of a shadow, and the word it takes them from. -/
structure Posted where
  off : Nat
  mask : Word
  v : Word
deriving DecidableEq, Repr

/-- The protected configuration record of one slot (R344). -/
structure CfgRec where
  seq : Nat
  serial : Nat
  life : Nat
  ref : Word
  entries : List (Nat × Word)
deriving DecidableEq, Repr

/-- One slot of the protected configuration record, as a calibration slot. -/
structure CfgSlot where
  data : Option CfgRec
  mark : Option Nat
  blank : Bool
deriving DecidableEq, Repr

/-- A store in progress: the slot it writes, its record, and the step of the scheme of Table CAL-6. -/
structure CfgStore where
  slot : Nat
  data : CfgRec
  step : Nat
  at0 : Time
deriving DecidableEq, Repr

/-- Protection, posted writes, record store, service window and seal (R333 to R354). -/
structure Prot where
  scrcBad : Bool                    -- SCRC_MISMATCH (R341)
  recValid : Bool                   -- REC_VALID (R345)
  c0 : CfgSlot                      -- slots of the protected configuration record (R343, R344)
  c1 : CfgSlot
  cfgActive : Nat                   -- slot holding the active record, while REC_VALID
  storing : Option CfgStore         -- STORE_BUSY (R343)
  cfgCleanup : Option Nat           -- slot that background work erases after READY
  cfgFaults : List (Nat × Nat × Nat) -- configuration faults present: offset, kind, group (R339)
  svcUntil : Option Time            -- the local window closes at this ring time (R346)
  svcHead : Bool                    -- window open through the head (R347)
  svcLow : Bool                     -- SVC_N reads low (R346)
  svcSpent : Bool                   -- the present hold has already opened the window (R346)
  svcFrom : Option Time             -- the latest high sample of SVC_N, or the start of its sampling (R346)
  revert : Option Nat               -- a closing waits for posted writes, with its reason (R348)
  xM : Option Posted                -- posted M-die write in flight (R353)
  xA : Option Posted                -- posted always-on write in flight (R353)
  commits : List PendCommit         -- R337, R260
  seen : List (Nat × Time)          -- broadcast commits already taken: handle, apply time (R260)
  parBad : List Nat                 -- copies whose parity mismatch has been found (R342)
  parShad : List (Nat × Bool)       -- shadows upset, and whether a commit has found their parity at fault (R342)
  parAt : Time                      -- the latest scan of the committed copies (R342)
  sealOpen : Bool                   -- PROT_SEAL_STAT.OPEN
  sealValid : Bool                  -- PROT_SEAL_STAT.VALID
  sealLast : Option Nat             -- the latest test in this state: ring time awake, time since entry in SLEEP and GAZEBO (R31)
deriving DecidableEq, Repr

/-! ### Safety (file 11) -/

/-- One safety output (R314 to R318). -/
structure OutState where
  on : Bool              -- commanded on
  rb : Bool              -- readback high: at or above half of VSTK (R315)
  low : Bool             -- readback below 2.0 V (R315)
  test : Bool            -- off-test running (R316)
  discard : Bool         -- the running test's readback is to be discarded (R318)
  onAt : Time            -- ring time of the last switch-on
  offAt : Time           -- ring time of the last switch-off (R317)
  testAt : Time          -- start of the last off-test (R316)
  enable : Nat           -- which enable the next test opens (R316)
deriving DecidableEq, Repr

/-- One dual-channel input pair (R320 to R324). -/
structure PairState where
  rawA : Bool
  rawB : Bool
  filtA : Bool
  filtB : Bool
  disc : Nat             -- discrepancy count, ms (R323)
  agreed : Bool          -- both filtered channels have read high since observation began (R324)
  fresh : Bool           -- the present demand began after that (R324)
  pend : Bool            -- restart pending (R324)
  passA : Nat            -- consecutive passing checks of channel A (bit 10's release)
  passB : Nat
  both : Bool            -- both channels have been in demand at once since the discrepancy latched
deriving DecidableEq, Repr

/-- Safety functions (R308 to R332). A cause is (bit of Table SAFE-1, item it names). -/
structure Safe where
  causes : List (Nat × Nat)      -- latched causes
  present : List (Nat × Nat)     -- causes that are still present, so cannot arise again (R311)
  outA : OutState
  outB : OutState
  wdog : Bool                    -- supervisor watchdog expired (R310)
  missed : Nat                   -- consecutive services missed (R310)
  cycleAt : Time                 -- the last safety cycle (R310)
  servAt : Time                  -- the last service of the watchdog (R310)
  armed : Bool                   -- release window open (R313)
  armedTo : Time                 -- its end
  armedSet : List (Nat × Nat)    -- latches present at the key write
  p0 : PairState
  p1 : PairState
  lastBit : Nat                  -- SAFE_LAST [4:0]
  lastPos : Nat                  -- SAFE_LAST [13:8]
  lastTime : Time                -- SAFE_LAST_TIME
  lost : List Nat                -- positions lost (R328)
  hbSeen : List (Nat × Nat)      -- consecutive heartbeats in which a lost position was seen
  hbRx : Time                    -- a stack device's latest HEARTBEAT (R328)
  hbEver : Bool                  -- a HEARTBEAT has been received since the start
  toneQuiet : Time               -- ring time at which a tone last ended (bit 3's release)
  fltHeld : Bool                 -- FLT_N kept asserted in SLEEP and GAZEBO (Table PWR-6's text)
  extest : Bool                  -- EXTEST in force (R330)
deriving DecidableEq, Repr

/-! ### Memory, history and identity (file 13) -/

/-- An event log record (Table MEM-5). A record that a reset cut off fails its check value and is discarded at the
start (R370). -/
structure LogRec where
  kind : Nat
  part : Nat
  seq : Nat
  start : Nat
  pay : List Byte
  cut : Bool
deriving DecidableEq, Repr

/-- A sector of the event log ring (R369): records of slots 1 to 62, and whether slot 63 seals it. -/
structure LogSector where
  seq : Nat
  prevHash : List Byte
  recs : List LogRec
  sig : Option (List Byte)
deriving DecidableEq, Repr

/-- What the open summary gathers of one cell (Table MEM-8). -/
structure CellAcc where
  lo : Int
  hi : Int
  sum : Int
  n : Nat
  dis : Nat
  flags : Nat
  q0 : Nat
  tsum : Int
  tn : Nat
deriving DecidableEq, Repr

/-- The open daily summary (R372, Table MEM-7). -/
structure Summary where
  flags : Nat
  num : Nat
  first : Nat
  last : Nat
  starts : Nat
  fulls : Nat
  utc : Nat
  secs : Nat
  awake : Nat
  pos : Int
  neg : Int
  latches : Nat
  seals : Nat
  occ : List (Nat × Nat)
  cells : List (Nat × CellAcc)
  aux : List (Nat × (Int × Int))
  die : List (Nat × (Int × Int))
  recs : Nat
  ce : List Nat
deriving DecidableEq, Repr

/-- The commit marker in the last sector of a firmware bank (R380). -/
structure FwMarker where
  magic : Word
  seq : Nat
  hash : Option (List Byte)   -- copy of the image hash; none of an image that the factory programmed
  superseded : Word           -- 0xFFFF_FFFF until it is programmed to 0
deriving DecidableEq, Repr

/-- A firmware bank (R380, R381): whether its image and signature verify, SEC, version and hash of its header, and its marker; none erased. -/
structure FwBank where
  image : Bool
  sec : Nat
  version : Word
  hash : Option (List Byte)   -- SHA-256 of the image; none of one that the factory programmed, which the spec does not give
  marker : Option FwMarker
deriving DecidableEq, Repr

/-- A firmware install in progress (R382). -/
structure Install where
  h : Nat
  bankB : Bool
  len : Nat
  off : Nat
  ver : Word
  sec : Nat
  hash : List Byte
  step : Nat
  at0 : Time
deriving DecidableEq, Repr

/-- A HIST_MARK whose record is being programmed (R378): handle, UTC, KIND, and the payloads of its two parts. -/
structure MarkJob where
  h : Nat
  utc : Nat
  kind : Nat
  p0 : List Byte
  p1 : List Byte
  at0 : Time
deriving DecidableEq, Repr

/-- Non-volatile writes that wait for a supply warning to clear (R37): event log records (kind, part, payload), entries of the seal record,
a close of the open summary (its flags, and the UTC and flags of the next), and whether a checkpoint of it and a lifetime record wait. -/
structure NvDue where
  recs : List (Nat × Nat × List Byte)
  seals : List (Nat × Nat × Nat)
  close : Option (Nat × Nat × Nat)
  check : Bool
  life : Bool
deriving DecidableEq, Repr

/-- Memories, history, lifetime, firmware (R363 to R383). -/
structure Mem where
  life : Nat                      -- MEM_LIFE, seconds (R370)
  sub : Nat                       -- ring-time LSBs below one second
  startNo : Nat                   -- MEM_START_NO (R370)
  nextSeq : Nat                   -- MEM_HIST_SEQ
  sectors : List LogSector        -- event log, oldest first (R369)
  lastHash : List Byte            -- first 8 bytes of the SHA-256 of the last sealed sector
  sums : List (Nat × List Byte)   -- closed summaries: number, 1,024 bytes
  sumHash : List Byte             -- first 8 bytes of the SHA-256 of the last summary
  summ : Summary                  -- the open summary
  sumClose : Nat                  -- MEM_LIFE at the last close
  lastUtc : Nat                   -- UTC of the previous mark
  checkpoint : Option Summary     -- last checkpoint of the open summary (R372)
  checkPrev : Option Summary      -- the one before it
  lifeRec : Nat                   -- last stored lifetime record
  lifePrev : Nat                  -- the one before it
  due : NvDue                     -- writes that wait for a supply warning to clear (R37)
  ceSec : List (Nat × Nat)        -- memory index: ring time of its last "ECC corrected" (R364), plus 1
  overBudget : Bool                   -- over budget (R371)
  lastErr : Word                  -- MEM_LAST_ERR
  lastAddr : Word                 -- MEM_LAST_ADDR
  bad : List (Nat × Nat)          -- uncorrectable words: memory index, word address
  sweepOn : Bool                  -- sweep running (R366)
  sweepAt : Nat                   -- sweep progress, sectors
  sweepStart : Nat                -- MEM_LIFE at the last sweep's start
  refresh : Option (Nat × Nat)    -- refresh in progress: word address, step of R366
  refreshAt : Time                -- when that step began
  refreshQ : List Nat             -- word addresses of further sectors to be refreshed
  bgAt : Time                     -- from when the background erasures after READY run (R122)
  sweepLast : Time                -- when the sweep read its latest sector (R366)
  checkLife : Nat                 -- MEM_LIFE at the latest summary checkpoint (R372)
  marks : List MarkJob            -- HIST_MARKs in progress, oldest first (R378)
  wear : List (Nat × Nat)         -- erases of the areas that are erased as a whole (R368)
  remap : List (Nat × Nat)        -- remap table: retired sector and the reserve sector that replaces it (R368)
  minsec : Nat                    -- rollback floor (R381)
  bankA : FwBank
  bankB : FwBank
  bootB : Bool                    -- bank booted
  install : Option Install        -- R382
  seals : List (Nat × Nat × Nat)  -- seal record: ring time, start number, MEM_LIFE low word (R349)
  sealCount : Nat                 -- lifetime openings, saturating
  serial : Nat                    -- serial number
  recAt : Time                    -- ring time at which the latest record was written (R370)
  cutSeq : Option Nat             -- sequence number of a record that a reset cut off, to be reported at the start (R370)
deriving DecidableEq, Repr

/-! ### Events (R355 to R357, R292) -/

/-- An event entry (Table HOST-6) before its PHASE, URGENT and LOST bits are set by the writer of the ring. -/
structure EvRec where
  code : Nat
  pos : Nat
  urgent : Bool
  count : Nat
  time : Time
  data : List Byte
deriving DecidableEq, Repr

/-- Event accounting: bucket levels by level byte (R355), the source's event count, and the head's own events that
wait for the end of the command to enter the event ring. -/
structure Events where
  lvl : List (Nat × Nat)
  leakAt : List (Nat × Time × Nat)  -- running leak timers: level byte, start, and the W taken then (R355, R356)
  count : Nat
  out : List EvRec
deriving DecidableEq, Repr

/-! ### Link and ring (files 08 and 09) -/

/-- A frame as its source built it (R226): ALIVE, HCRC and CRC-32C belong to the sending port of each hop. `turned`
says the frame has been turned once (R250). -/
structure Frame where
  dest : Nat
  loc : Bool
  src : Nat
  typ : Nat
  seq : Nat
  stat : Nat
  pay : List Byte
  turned : Bool
  stamp : Nat                 -- BEACON: arrival of its TMARK, LSB 0.625 ns (R256)
deriving DecidableEq, Repr

/-- States of a link port. The states TONE and WAKE of LINK_STAT_x.STATE show while the tone or the wake stream is
on the port, over one of these. -/
inductive PortState where
  | bypass | training | up | broken
deriving DecidableEq, Repr

/-- The ACK or NAK of a burst (R232): `nak` none for ACK, else the reason. -/
structure Answer where
  nak : Option Nat
  src : Nat
  alive : Nat
deriving DecidableEq, Repr

/-- A burst as sent (R223): link-state byte, the answer in it, the frame's bytes, whether a TMARK precedes them (R256), whether ABORT
ends them (R231), and the running disparity the burst began with. `burstSyms` gives its characters. -/
structure Burst where
  ls : Nat
  ans : Option (Bool × Nat × Nat)    -- ACK or NAK (true ACK), SRC byte, second byte (R232)
  frame : Option (List Byte)
  mark : Bool
  aborted : Bool
  train : Bool                -- a training burst: 60 TRAIN in place of answer and frame (R236)
  rd : Bool
deriving DecidableEq, Repr

/-- A frame in the receive buffer (R232): its type, its STATUS (R226), and when the last character of its header came (R231). -/
structure RxSlot where
  typ : Nat
  stat : Nat
  th : Time
deriving DecidableEq, Repr

/-- One link port (R219 to R245). -/
structure LinkPort where
  st : PortState
  rate : Nat                  -- rate code in use, or last trained
  trial : Nat                 -- rate code of the present attempt
  cap : Nat                   -- slowest-start bound set by link errors (R237): rate code 0, 1 or 2
  cycles : Nat                -- training cycles without UP (R236)
  ownFrom : Time              -- start of the own burst last sent (R224)
  ownTo : Time                -- end of its TURN: this end owns the line before it (R224)
  ups : Nat                   -- times UP was reached
  dly : List Int              -- delays of the last exchanges, 0.0125 ns, newest last (R238)
  alive : Nat                 -- ALIVE of the frame sent or to be sent (R234)
  lastAlive : Option Nat      -- ALIVE of the last frame accepted
  queue : List Frame          -- frames waiting (R225, R248)
  out : Option Frame          -- the frame outstanding on the hop (R233)
  retries : Nat
  ackDue : Option (Bool × Nat × Nat)   -- the answer for the next burst
  sent : Option Burst         -- the burst last sent
  txRd : Bool                 -- running disparity of the transmitter (R220): true positive
  rxRd : Bool                 -- running disparity of the receiver
  rxHead : Option (Nat × Option Answer)   -- link-state byte and answer of the burst that arrives, once a frame of it has come
  rxBad : Bool                -- a code violation has come in that burst outside frames (R222)
  peerLs : Nat                -- link-state byte of the peer's latest valid burst (R222)
  lineAt : Time               -- when the last valid character came (R224)
  burstAt : Time              -- when the last valid burst ended (R237)
  rxBuf : List RxSlot         -- the frames in the receive buffer of four (R232), oldest first
  cut : Bool                  -- the outstanding frame was cut off by the fault tone (R242)
  trainAt : Time              -- start of the present training attempt, or when the port read BROKEN (R236)
  dlyAt : Time                -- latest delay exchange (R238)
  quietAt : Option Time       -- the tone has ended on the hop and the line is not yet taken (R242)
  wakeAt : Time               -- start of the wake stream on the port (R243)
  wakeRx : Bool               -- the wake stream arrives at the port, whose hop it took down (R244)
  rxTone : Bool               -- tone arriving (R241)
  rxAt : Time                 -- when its first FAULT character arrived
  rxOk : Bool                 -- the tone has been confirmed (R242)
  rxStat : Nat                -- STATUS of the frame last taken out of the receive buffer (R226, R227)
  rxTh : Time                 -- and when the last character of its header came (R231)
  wakeTx : Bool               -- driving the wake stream (R243)
  toneDue : Bool              -- a tone latched during a start waits for this hop (R427)
  toneTx : Bool               -- a burst of this device's own tone is driven on the port (R240)
  toneLeft : Nat              -- bursts still to come on it
  toneFrom : Time             -- start of the burst last driven on it
  again : Bool                -- the peer has answered: the outstanding frame goes out again (R233)
  waitAt : Time               -- end of the own burst that answered a valid burst (R237)
  locked : Bool               -- the receiver has locked in this training (R236)
  rxN : Nat                   -- characters received since, and
  txN : Nat                   -- sent, in training bursts
  tries : Nat                 -- rates that have failed in this cycle (R236)
  listenAt : Time             -- when the south end began to listen at the present rate (R236)
deriving DecidableEq, Repr

/-- Fault tone (R240 to R242); what the device originates stands in each port. -/
structure Tone where
  fwd : Option Port           -- forwarding out of this port
  hold : Bool                 -- holdoff
  holdAt : Time               -- start of the holdoff (R241)
deriving DecidableEq, Repr

/-- What the head records of one position (R262, R305, R56). -/
structure PosRec where
  ncells : Nat
  rate : Nat
  advAt : Time                -- ring time at which its slot counter last advanced
  seen : Bool                 -- it advanced in the latest heartbeat that returned
  nib : Nat
  second : Nat
  low : Bool                  -- sent to a low-power state (R56)
  missed : Nat                -- consecutive heartbeats missed (R305)
deriving DecidableEq, Repr

/-- A heartbeat of the head that is not over: its number, when it was sent, the positions seen in it so far (R268, R305). -/
structure OpenHb where
  num : Nat
  at0 : Time
  seen : List Nat
deriving DecidableEq, Repr

/-- Position, routes, enumeration, breaks and heartbeats (R246 to R254, R262, R268, R269). -/
structure Ring where
  pos : Nat                   -- RING_POS.POS
  n : Nat                     -- enumerated stack devices
  b : Nat                     -- B of R249, 0x3F while intact
  castled : Bool
  enumDone : Bool             -- a RING_ENUM has completed since the start (R314)
  enumH : Option Nat          -- handle of the RING_ENUM running
  enumPass : Nat              -- its pass
  overflow : Bool
  second : Bool               -- a second pass ran
  brk : Bool                  -- a break is recognised
  brkAt : Time                -- since when (R269)
  upAt : Option Time          -- in the head: since when every hop has been UP, as far as it knows (R269)
  lo : Nat                    -- BREAK_LO
  hi : Nat                    -- BREAK_HI
  loEv : Bool                 -- BREAK_LO comes from an event (R268)
  hiEv : Bool
  enumAt : Time               -- ring time at which the present pass was sent (R253)
  inN : List Nat              -- positions seen in the latest heartbeat that returned at the north port (R268)
  inS : List Nat              -- positions seen in the latest one that returned at the south port
  ctrs : List (Nat × Nat)     -- per position: the last slot counter that came back
  unas : Bool                 -- UNASSIGNED seen in the latest HEARTBEAT
  recs : List (Nat × PosRec)  -- positions 0 to 62
  hbNum : Nat                 -- next heartbeat number
  hbOpen : List OpenHb        -- heartbeats that are not over, oldest first
  hbCtr : Nat                 -- own slot counter
  hbBack : Time               -- ring time at which a heartbeat last returned
  hbLast : Option Nat         -- number of the last heartbeat that this position wrote its slot into
  beNum : Nat                 -- next beacon number
deriving DecidableEq, Repr

/-- States of the timebase, codes of R257. -/
inductive TimeState where
  | none | acquiring | locked | holdover | lost
deriving DecidableEq, Repr

/-- Timebase of the device (R255 to R257). -/
structure Timebase where
  st : TimeState
  hops : Nat
  fromS : Bool
  err : Int                   -- latest e, 0.125 ns
  good : Nat                  -- consecutive beacons with |e| <= 10 ns
  rxAt : Time                 -- ring time of the latest beacon
  num : Option Nat            -- number of the latest beacon used
  heard : Option Nat          -- number of the latest beacon received
  hopsN : Option Nat          -- HOPS of the latest copy that came by the north port (R249)
deriving DecidableEq, Repr

/-- A sampled sweep held for 100 ms (R265). -/
structure SweepHeld where
  h : Nat
  T : Time
  f0 : List Byte
  f1 : List Byte
deriving DecidableEq, Repr

/-- A requested sample instant that waits (R73): a sweep's handle, or a SYNC edge. -/
structure Wanted where
  T : Time
  h : Option Nat
  got : Time                  -- when the request reached the device (R206)
  mode : Nat                  -- MEAS_MODE when it was requested (R207)
  soon : Bool                 -- asked for with RETRIG: sampled on arrival, with LATE (R265)
deriving DecidableEq, Repr

/-- What the head has of one position of a collecting sweep (Table RING-8). -/
structure SweepSlot where
  pos : Nat
  f0 : Option (List Byte)
  f1 : Option (List Byte)
  viaS : Bool
  missing : Nat               -- reason, 0 while not missing
deriving DecidableEq, Repr

/-- A sweep that the head collects (R266). -/
structure Collect where
  h : Nat
  T : Time
  slots : List SweepSlot
  castled : Bool
deriving DecidableEq, Repr

/-- Sweeps, as sampling position and as head (R263 to R267, R270). -/
structure Sweeps where
  wanted : List Wanted
  held : List SweepHeld
  lastH : Nat                 -- RING_SWEEP [15:0]
  lastLate : Bool
  lastOfs : Int               -- RING_SWEEP_OFS
  collect : List Collect
  syncAt : Option Time        -- ring time at which SYNC last went high as an output (R259)
deriving DecidableEq, Repr

/-! ### Commands at this device (R251, R286, R302) -/

/-- A command held at this device: handle, descriptor, ring time at receipt of the request (R306). -/
structure ExecCmd where
  h : Nat
  d : Desc
  at0 : Time
deriving DecidableEq, Repr

/-- A final result held for 100 ms (R251). -/
structure HeldResult where
  h : Nat
  status : Nat
  res : List Byte
  at0 : Time                  -- when the final result was sent
deriving DecidableEq, Repr

/-- A stream at its source (R302, R303). -/
structure StreamSrc where
  h : Nat
  src : Nat
  decim : Nat
  size : Nat
  next : Nat
  first : Nat
  t0 : Time
  buf : List (List Byte)
  lost : Bool
  started : Bool
  put : Nat                   -- number after the last record put into a frame (R304)
deriving DecidableEq, Repr

/-- A completion of this device's own command that waits for the end of the step to be posted by the head. -/
structure Done where
  h : Nat
  status : Nat
  res : List Byte
deriving DecidableEq, Repr

/-- Commands, results and streams at this device. -/
structure Exec where
  cmds : List ExecCmd         -- at most 8 in a stack device
  results : List HeldResult
  departed : List (Nat × Time)   -- in the head: handles of REQUESTs and when each left on its burst (R251)
  bulk : List (Nat × (Nat × List Byte))   -- BULK chunks: handle, offset, bytes
  streams : List StreamSrc
  done : List Done
deriving DecidableEq, Repr

/-! ### Measurement and calibration (files 03 and 04) -/

/-- What a commit replaced (R261): its ring time, and the configuration by register and the starts of windows that were in force before it. -/
structure ConfWas where
  at0 : Time
  words : List (Nat × Word)
  lanes : List (Nat × Time)         -- `since` of the lanes
  cur : Time                        -- `since` of the current channels
  bc : Time                         -- and of the second ISA filter
deriving DecidableEq, Repr

/-- Results and tests of the lanes (R63 to R97). Lanes are numbered as in Table CAL-1: 0 to 31 lane A, 32 to 63 lane B
of cells 1 to 32. -/
structure Meas where
  since : List (Nat × Time)         -- per lane: the last instant whose straddling makes a result stale (R76)
  good : List (Nat × Int)           -- per lane: VALUE of the last result that was not stale, uV
  grid : List (Nat × (Time × Int))  -- per cell: instant and VALUE of the latest lane A grid result
  gridOld : List (Nat × (Time × Int)) -- the one before it (R83)
  disOk : List (Nat × Time)         -- per cell: last comparison within the limit, plus 1 LSB (R90)
  disEx : List (Nat × Time)         -- per cell: last comparison beyond it, plus 1 LSB
  est : List (Nat × List CoefEst)   -- per switch: the last 64 estimates (R82)
  swMa : List (Nat × Nat)           -- per switch: sensed current normalised to 3.000 V, mA (R85)
  ovrOn : List (Nat × Bool)         -- per lane: the latest result carried OVR
  flagAt : List (Nat × Time)        -- per lane: instant of the latest result with OVR or OW, plus 1 LSB (R111)
  estAt : List (Nat × Time)         -- per switch: when it last yielded an estimate, or began to wait for one (R200)
  owPeriod : Nat                    -- PERIOD of the open-wire test in use, 100 ms (R86)
  owFrom : List (Time × Nat)        -- committed PERIODs still to apply, each with its first multiple, from which it does (R86)
  owAt : List (Nat × Time)          -- per tap: start of its latest injection, plus 1 LSB (R162)
  dead : List Nat                   -- lanes left without a stage (R393)
  was : List ConfWas                -- what commits of the last second replaced, newest first (R261)
deriving DecidableEq, Repr

/-- A calibration set as a slot stores it (Table CAL-5). -/
structure CalSet where
  origin : Nat
  serial : Nat
  time : Nat
  seq : Nat
  words : List Word
deriving DecidableEq, Repr

/-- One calibration slot: the set when image and marker are valid, and whether the slot is blank. A marker that
checks over an image that does not is kept as `mark`. -/
structure CalSlot where
  set : Option CalSet
  mark : Option Nat
  blank : Bool
deriving DecidableEq, Repr

/-- A CAL_STORE in progress (Table CAL-6). -/
structure CalStore where
  h : Nat
  slot : Nat
  set : CalSet
  step : Nat
  again : Bool          -- the repeat of R121 has been used
  at0 : Time            -- when the present step began
deriving DecidableEq, Repr

/-- What a CAL_USER job has gathered of a channel (R126): the number of 1 ms samples or lane grid results, their sum, and the sum of their
squares. A 1 ms sample counts as the sum of its 50 corrected samples in 10^-8 nV, a lane result in uV. -/
structure UserAcc where
  n : Nat
  s1 : Int
  s2 : Int
deriving DecidableEq, Repr

/-- A CAL_USER job in progress (R126). -/
structure CalUser where
  h : Nat
  mode : Nat
  cell : Nat
  ref : Int
  start : Time
  oldA : Word           -- register word of channel A at the start
  oldB : Word
  bad : Nat             -- detail code of a precondition that has failed, 0 while none has (R126)
  meas : Bool           -- the measurement interval has begun
  accA : UserAcc        -- channel A over the present interval
  accB : UserAcc
  ms : Nat × (Int × Int) -- the present 1 ms: its samples, and their sums in channels A and B
deriving DecidableEq, Repr

/-- What a comparator group test shows (R394, R396): masks over cells 1 to 32 of OV and UV failures and of skipped pairs, and the handle of
the SELFTEST that asked for it. -/
structure CmpFound where
  ov : Nat
  uv : Nat
  skip : Nat
  h : Option Nat
deriving DecidableEq, Repr

/-- What acts at its own time after the command that began it: the steps of a relief slot (Table CAL-3), the ends of online tests (Tables
BIST-4 to BIST-6), and the fuse words of a REPAIR (R399). -/
inductive CalStep where
  | checkIn (lane : Nat) (o : ReliefOutcome)          -- step 5 of Table CAL-3
  | fit (lane : Option Nat) (o : ReliefOutcome)       -- step 8, of a lane's modulator or of the spare itself
  | apply (lane : Option Nat) (o : ReliefOutcome)     -- step 9
  | checkOut (lane : Nat) (o : ReliefOutcome)         -- step 13
  | cmpEnd (k : Nat) (r : CmpFound)                   -- step 5 of Table BIST-5: the group, and what its pairs showed
  | stageEnd (g : LaneGroup)                          -- step 5 of Table BIST-4, or step 2 where the spare stage fails
  | stageTry (g : LaneGroup)                          -- a relief slot ends: a waiting test of its lane may start (R392)
  | engEnd (h k : Nat) (l : List BankFails)           -- the memory test of engine k ends (R396)
  | fuse (m i : Nat) (ok : Bool)                      -- a fuse word of memory m has been programmed and verified (R399)
  | fuseEnd                                           -- the last one has
deriving DecidableEq, Repr

/-- A step that waits for its time. -/
structure CalDue where
  due : Time
  step : CalStep
deriving DecidableEq, Repr

/-- References and calibration (R98 to R128). -/
structure Cal where
  slot : Nat                        -- current slot of the rotation (R106)
  slotAt : Time
  laneAt : Time                     -- lane start, step 10 of Table PWR-11 (R109, R394)
  slotNext : Nat                    -- the slot that begins next
  slotDue : Time                    -- the ring time from which it may begin
  todo : List CalDue                -- what is still to come, in order of time (R108, R394)
  fitted : List Nat                 -- modulators whose fit of this slot was accepted and is not yet applied (R114)
  was : List (Time × Nat × Word)    -- words that correction registers held before their latest changes, newest first (R101)
  past : List (Nat × Nat × Time)    -- reliefs of the slots before: lane, spare, start of the slot (R109)
  periods : Nat
  relief : List (Nat × Nat)         -- lanes relieved in the current slot, with their spares
  out : List Nat                    -- lanes that rotation leaves out until a later period (R112)
  wd : List Nat                     -- withdrawn spares (R113)
  epoch : List (Nat × Nat)          -- per lane: epoch at the start of the current slot (R109)
  bg : List Int                     -- the last 16 comparisons in 1/6400 ppm, newest last (R99)
  bgAlarm : Bool                    -- R100
  accepted : List Nat               -- modulators with an accepted calibration since the start (R105)
  applied : List Nat                -- modulators with an applied fit since the start (R114)
  spareLanes : List (Nat × List Nat)  -- per spare: lanes of its mismatches, newest first (R113)
  wdAt : List (Nat × Nat)           -- per spare: the period of its withdrawal
  noSet : Bool                      -- R122
  s0 : CalSlot
  s1 : CalSlot
  active : Nat                      -- slot holding the active set
  store : Option CalStore
  cleanup : Option Nat              -- slot that background work erases after READY (R122)
  user : Option CalUser
  capture : List (Nat × Word)       -- working set and lane B corrections held through GAZEBO (R104)
  cmpGroup : Nat                    -- CMP_TEST_STAT GROUP
  cmpFrom : Option Time             -- when the present test of that group began (R394)
deriving DecidableEq, Repr

/-! ### Balancing (file 07) -/

/-- A plan as installed (Tables BAL-1 and BAL-2): entries (DUTY, TARGET, TLIMIT) of cells 1 to 32. -/
structure BalPlan where
  id : Nat
  floor : Nat
  tlimit : Nat
  entries : List (Nat × Nat × Nat)
deriving DecidableEq, Repr

/-- What the awake plan keeps of one cell (R201 to R205, R209). -/
structure BalCell where
  done : Bool           -- DONE (R203)
  exp : Bool            -- EXPIRED (R204)
  hold : Option Time    -- when the 10 s hold of R205 began
  stuck : Bool          -- HELD until a new plan (R205)
  tested : Bool         -- its step test has completed (R201)
  hits : Nat            -- consecutive checks at or below TARGET (R203)
  ran : Nat             -- ring-time LSBs counted in RUN and HELD (R204)
  ion : Option Nat      -- sensed on-current, mA (R209)
  ron : Option Nat      -- sensed on-resistance, mohm
  was : Bool            -- RUN throughout since the last update of R209 (R205)
deriving DecidableEq, Repr

/-- What GAZEBO keeps of one cell (R213 to R217). -/
structure GzCell where
  done : Bool
  exp : Bool
  ran : Nat             -- milliseconds in RUN
  q : Nat               -- charge, in mA x 1/32,768 s (R214)
  ma : Option Nat
  mohm : Option Nat
deriving DecidableEq, Repr

/-- GAZEBO in the always-on domain (R213). -/
structure Gazebo where
  plan : BalPlan
  ctrl : Word           -- BAL_CTRL
  therm : Word          -- BAL_THERM
  notch : Bool
  held : Nat            -- cells held at entry, bit n-1
  ms : Nat              -- milliseconds from entry to the latest cycle
  cells : List (Nat × GzCell)
  k : Nat
  forbid : Bool
  first : Bool          -- the first cycle is still to come
deriving DecidableEq, Repr

/-- One excitation of a switch by the sequence of R173: from when to when, and its chip period in ring-time LSBs. -/
structure ChipRun where
  cell : Nat
  start : Time
  stop : Time
  chip : Nat
deriving DecidableEq, Repr

/-- Balancing (R196 to R218). -/
structure Bal where
  plan : Option BalPlan           -- awake plan (R198)
  gzPlan : Option BalPlan         -- held Gazebo plan
  cells : List (Nat × BalCell)
  test : Option (Nat × Time)      -- the step test that runs, with its start (R82)
  voids : Nat                     -- repetitions voided in it (R207)
  voidTo : Nat                    -- repetitions, from the first, that have been examined for it
  tests : List (Nat × (Time × Time)) -- step tests that ended within the longest window: switch, start, end (R76)
  k : Nat                         -- K (R209)
  tAmb : Int                      -- T_AMB, 1/64 degree (R208)
  ambEst : Bool
  pMax64 : Nat                    -- P_MAX in 1/64 mW (R208)
  pReq : Nat                      -- P_REQ, mW
  diss : Int                      -- switch dissipation of the last 100 ms, nW (R208)
  forbid : Bool                   -- R210
  pExc : Nat                      -- excitation prediction, mW (R174)
  excite : List Nat               -- cells in EXCITE (R176)
  chips : List ChipRun            -- the sequences that run (R173)
  gaps : List (Nat × Time)        -- tracking gaps: switch, start (R200)
  owed : List (Nat × Nat)         -- ring-time LSBs of conduction not yet counted as charge (R211)
  qsub : List (Nat × Nat)         -- charge below 1 mA s, in mA x 5 ns (R211)
  mark : Time                     -- ring time to which running times are counted (R204)
  gz : Option Gazebo
  gzRes : Word                    -- BAL_GZ_RESULT
  gzDone : Word
  gzExp : Word
  gzQ : List (Nat × Nat)          -- charge counted in the last GAZEBO, mA s (R211)
  gzStart : Bool                  -- the next start comes out of GAZEBO or a SLEEP entered from it (R211)
deriving DecidableEq, Repr


/-! ### Current, auxiliary inputs, Daroth wire (file 05) -/

/-- Current channel (R129 to R141). -/
structure Cur where
  since : Time                      -- last instant whose straddling makes a result stale (Table SENS-1)
  goodA : Int                       -- VALUE of the last result that was not stale, 20 nV
  goodB : Int
  ovrA : Bool                       -- the latest result carried OVR
  ovrB : Bool
  disRun : Option Time              -- first comparison of the present run of exceeding ones (R134)
  sinceBc : Time                    -- the same for the second ISA filter (R139)
  goodBc : Int                      -- VALUE of its last result that was not stale
  qfrac : Nat                       -- fraction of CUR_QACC below 1 LSB, in 1/(5 x 10^9) (R136)
  ovrMs : Nat                       -- the millisecond of ring time last counted in CUR_OVR_MS, plus 1 (R136)
  rawTo : Time                      -- ring time up to which raw samples have come (R136)
  seqTx : Nat                       -- sequence number of the next frame (Table SENS-3)
  frames : List CurFrame            -- the latest 16 frames, newest last (R140)
  absent : List Nat                 -- sequence numbers of missed frames, newest last (R140)
  seqRx : Option Nat                -- sequence number of the last frame taken
  sources : List (Nat × (Time × Nat)) -- head: sources of frames, with their latest arrival and BC_IDX (R140)
deriving DecidableEq, Repr

/-- One auxiliary channel's confirmation counts (R146). -/
structure AuxChan where
  beyond : Nat                      -- consecutive scans beyond a limit
  fault : Nat                       -- consecutive scans open or short
  inside : Nat                      -- consecutive scans inside by 2 degrees
deriving DecidableEq, Repr

/-- One Daroth wire port (R148 to R157). -/
structure WirePort where
  st : Nat                          -- STATE of AUX_WIRE_STAT
  alarm : Bool
  spuOn : Bool
  cand : Option (List Byte)         -- identity of the last good read
  ident : List Byte                 -- identity while PRESENT
  reported : Option (List Byte)     -- the last identity reported
  queue : List (Nat × Desc)         -- transfers in order: handle, descriptor
  tx : List (Bool × Bool)           -- the cells that the port sent in its latest transaction: the line in their halves (R149, R151)
  spuEnds : Time                    -- when the strong pull-up opens (R154)
  searchDue : Option Time           -- when the next presence search is due; none: at once (R155)
  held : Option (Nat × Nat × Nat × List Byte) -- a transfer that waits for the pull-up to open: handle, status nibble, NIN, reply
deriving DecidableEq, Repr

/-- Inputs of file 05. -/
structure Inputs where
  cu : Cur
  aux : List (Nat × AuxChan)
  temps : List (Time × (Nat × Int)) -- TEMP of the mode 3 channels over the last 600 s: scan, channel, 1/64 degree (R187)
  w0 : WirePort
  w1 : WirePort
  w2 : WirePort
  w3 : WirePort
  vwire : Nat                       -- VWIRE as the ports last met it, mV (R148)
deriving DecidableEq, Repr

/-! ### Check-value units (R358 to R361) -/

/-- One check-value unit: the parameters latched at the last restart, its state, and the alive check. -/
structure ChkUnit where
  width : Nat
  poly : Nat
  ini : Nat
  xorout : Nat
  refin : Bool
  refout : Bool
  state : Nat
  synced : Bool
  exp : Nat
  last : Nat
deriving DecidableEq, Repr

/-- The two units. -/
structure Chk where
  u0 : ChkUnit
  u1 : ChkUnit
deriving DecidableEq, Repr

/-! ### Xiava engines (file 06) -/

/-- One engine-grid sample of a cell in shared SRAM (R163): the corrected voltage in nV and the switch current in uA. It may not be used (R162),
lies in a supply dip, or met a conducting switch whose coefficient is unknown. -/
structure GridSample where
  cell : Nat
  inst : Time
  v : Int
  sw : Nat
  absent : Bool
  supply : Bool
  unc : Bool
deriving DecidableEq, Repr

/-- One sample of pack current in shared SRAM (R163): its word (Table SENS-1) and the shunt resistance of its frame, LSB 1 nOhm. -/
structure PackSample where
  inst : Time
  word : Word
  shunt : Word
deriving DecidableEq, Repr

/-- What a job has gathered of a cell at a point: grid samples, those absent among them (R162), and what its flags report (Table ENG-7). -/
structure Gathered where
  total : Nat
  absent : Nat
  supply : Bool
  unc : Bool
deriving DecidableEq, Repr

/-- The tracker state of a cell (R182 to R185). Charge in A s, SoC and its deviation in %, capacity in Ah, resistance in ohm. -/
structure Track where
  soc : Option Rat                  -- none before the first rest correction
  sd : Rat
  corrected : Bool                  -- a rest correction since the start
  gap : Bool                        -- SOC_GAP
  charging : Bool                   -- last current direction
  restFrom : Option Time            -- since when |i_cell| has been below I_REST
  acc : Int × Nat                   -- sum and count of the voltages (nV) of the present second
  secs : List (Int × Nat)           -- those of the last 10 s, newest last
  last : Option (Time × Rat)        -- the latest current sample in A
  q : Rat                           -- charge counted, A s
  rests : List (Time × (Rat × Rat)) -- rests with a correction since the last capacity pair, newest last: the rest's begin, its last SoC, `q` then
  caps : List Rat                   -- capacities of the last eight pairs (R184)
  capOld : Option Rat               -- capacity of a restored record
  capAt : Nat                       -- lifetime seconds of the last pair
  res : Option Rat                  -- DC resistance, normalised
  rest0 : Option (Rat × (Nat × Nat)) -- this rest's first SoC, lifetime seconds, and BAL_QBAL (R185)
  drift : Option Rat                -- self-discharge from SoC drift, mA
  anom : Option (Rat × Rat)         -- mean and slope of e(c), mA and mA per day
  flagged : Bool                    -- ANOMALY
  days : Nat                        -- number of the latest summary evaluated
  qBal : Option Nat                 -- BAL_QBAL at the last update (R182)
deriving DecidableEq, Repr

/-- A checkpoint of a cell (R163): its gathered counts by point, and its tracker state. -/
structure Ckpt where
  inst : Time
  got : List (Nat × Gathered)
  track : Option Track
deriving DecidableEq, Repr

/-- An IMPEDANCE job (R167 to R181). -/
structure ImpJob where
  h : Nat
  d : Desc
  points : List Word                -- the frequency of each point; negative for a line point (R169)
  mask : Nat                        -- effective CELLMASK
  startAt : Time                    -- the current-frame boundary at which it begins
  begun : Bool
  idx : Nat                         -- engine index (R160)
  lost0 : Nat                       -- CUR_RX_STAT.LOST at its start
  recomp : List Nat                 -- cells whose points were replayed (R165, R168)
  noact : List Nat                  -- cells without active excitation (R173)
  skipped : List (Nat × Nat)        -- (point, cell) that a half left out, as the cell might no longer be excited (R82, R173)
  half : Option ((Nat × Bool) × List (List Nat)) -- the half of a point that runs, and the cells of its sub-phases (R174)
  thermal : List (Nat × Nat)        -- (point, cell) excited in sub-phases (R174)
  runs : List (Nat × (ChipRun × Nat)) -- point, its excitation of a cell, and its number of sub-phases
  got : List (Nat × Gathered)       -- by 32 x point + cell - 1
  packMax : Rat                     -- largest |i_pack|, A (R178)
  fault : Bool                      -- an engine that served it failed (Table ENG-5)
  framed : Bool                     -- a current frame came in the first 100 ms after the start (R181)
  late : Nat                        -- ring-time LSBs by which load sheds move its end (R168)
deriving DecidableEq, Repr

/-- An ESTIMATE job (R188 to R190). -/
structure EstJob where
  h : Nat
  d : Desc
  mask : Nat
  startAt : Time
  recomp : List Nat
  bad : Nat                         -- detail code of the first precondition of CHAR that failed (R187)
  late : Nat                        -- ring-time LSBs by which load sheds move its end (R168)
deriving DecidableEq, Repr

/-- An IMPEDANCE, ESTIMATE or MODEL_LOAD that waits for a load shed to end (R38), with the frequency list or model table it names. -/
structure HeldJob where
  h : Nat
  d : Desc
  tab : List Byte
deriving DecidableEq, Repr

/-- Engines, jobs, trackers and models (R159 to R195). -/
structure Eng where
  failed : Nat                      -- FAILED map (R166)
  wrote : List (Nat × Time)         -- per engine: its latest checkpoint, or when it began to serve (R166)
  ckpt : List (Nat × Ckpt)          -- per cell: its latest checkpoint (R163)
  volts : List GridSample           -- sample ring of the cells, 256 ms, oldest first (R163)
  packs : List PackSample           -- sample ring of pack current
  upTo : Time                       -- instant up to which the engines have worked through the ring
  rebal : List Nat                  -- cells whose replay is in progress (R165)
  imp : Option ImpJob
  est : Option EstJob
  held : List HeldJob               -- jobs not dispatched while the load is shed, oldest first (R38)
  models : List (Nat × List Byte)   -- per slot: the model table, empty when none (R191)
  newModels : List (Nat × List Byte) -- tables that wait for the next tracker boundary (R191)
  track : List (Nat × Option Track) -- per cell: tracker state (R182)
  trackAt : Option Time             -- the latest tracker update (R182)
  savedAt : Option Time             -- the latest save of the tracker state (R182)
deriving DecidableEq, Repr
/-! ### Self-test, repair and boundary scan (file 14) -/

/-- The spares of one 64 KiB bank (R397, Table BIST-7): four row addresses, 0xFFFF unused, and two column bit positions, 0xFF
unused; maps of fused, unusable and fused-failed spares, rows in [3:0] and columns in [5:4]. -/
structure BankRepair where
  rows : List Nat
  cols : List Nat
  fused : Nat
  unusable : Nat
  badFuse : Nat
deriving DecidableEq, Repr

/-- A repair record as a slot stores it (Table BIST-7): its marker's sequence number, its content, and its CRC. -/
structure RepairRec where
  seq : Nat
  engines : Nat
  banks : List (Nat × BankRepair)
  crc : Nat
deriving DecidableEq, Repr

/-- One lane stage test (R392, R396): cell, the handle of the SELFTEST that asked for it, and what it finds. -/
structure StageTest where
  cell : Nat
  h : Option Nat
  spareOk : Bool
  stageOk : Bool
deriving DecidableEq, Repr

/-- The lane stage tests of a group (R392): the next cell in turn, the test that runs, and the SELFTEST that waits. -/
structure StageGroup where
  next : Nat
  on : Option StageTest
  queue : Option StageTest
deriving DecidableEq, Repr

/-- A REPAIR that waits for its record: handle, status and result (R399). -/
structure RepairJob where
  h : Nat
  status : Nat
  res : List Byte
deriving DecidableEq, Repr

/-- Self-test, repair and boundary scan (R384 to R402). -/
structure Bist where
  recs : List (List Byte)           -- self-test result ring, newest last (R390)
  recSeq : Nat                      -- sequence number of the next record
  recSecs : Option Nat              -- seconds counter of R45 at the newest record, while it has not been lost
  pendRec : Option (List Byte)      -- the result of a full start, recorded once it is READY (R390)
  pendRes : List (Nat × Nat)        -- its self-test results to post
  captured : List (Nat × List (List Byte)) -- per memory: failure entries of the last full start (R387, R396)
  banks : List (Nat × BankRepair)   -- spares in use (R397)
  engines : Nat                     -- engines excluded (R387)
  unrep : Nat                       -- memories unrepairable at the last test
  soft0 : Nat                       -- spares in soft repair at this start
  slot0 : Option RepairRec          -- repair record slots (R398)
  slot1 : Option RepairRec
  applied : Bool                    -- REC_VALID
  recDue : Bool                     -- a repair record is to be written
  job : Option RepairJob            -- REPAIR running (R399)
  recAt : Time                      -- when its repair record's writing could begin
  secrets : Bool                    -- working secrets of R385 are loaded: not every one reads zero
  secretLock : Bool                 -- the secret sector is read-locked against the crypto engine (R385)
  ir : Nat                          -- instruction in force (R400)
  cells : List Bool                 -- the 84 cells of the boundary register (R401)
  stA : StageGroup                  -- lane stage tests of group A (R392)
  stB : StageGroup
  cmpJob : Bool                     -- the comparator group test that runs is a SELFTEST's (R396)
  cmpQueue : Option (Nat × Nat × List PairSeen) -- SELFTEST that waits for the comparator group test: handle, group, what it sees
  engTest : Option Nat              -- engine whose memory test runs (BIST_STAT.RUNNING)
  failed : Bool                     -- a start's self-test failed, and none has passed since (R62)
deriving DecidableEq, Repr

/-! ### Host port and descriptor rings (file 10) -/

/-- A completion that could not be written yet, or a written entry not yet passed by the host (R290, R291). -/
structure CqEntry where
  idx : Nat                   -- its index in the completion ring
  held : Nat                  -- bytes of the result area it holds, with what was skipped before it
  time : Time                 -- when it was written
deriving DecidableEq, Repr

/-- A completion that waits for result space (R291). -/
structure Waiting where
  h : Nat
  status : Nat
  target : Nat
  res : List Byte
deriving DecidableEq, Repr

/-- One submission/completion ring pair (R278 to R291). -/
structure Pair where
  run : Bool
  sqHead : Nat
  cqHead : Nat
  cqTail : Nat
  phase : Bool
  written : List CqEntry      -- entries not passed by the head index, oldest first
  resAt : Nat                 -- next free byte of the result area
  waiting : List Waiting      -- completions behind a result that finds no space
deriving DecidableEq, Repr

/-- The event ring (R290, R292, R307). -/
structure EvtRing where
  run : Bool
  head : Nat
  tail : Nat
  phase : Bool
  unserved : List (Time × Bool)   -- unserved entries, oldest first: when written, carries URGENT
  lost : Bool                 -- events were dropped since the last entry
deriving DecidableEq, Repr

/-- An outstanding command at the head (R286). -/
structure HeadCmd where
  h : Nat
  pair : Nat
  d : Desc
  since : Time                -- acceptance
  sent : Bool                 -- dispatched
  acc : List Nat              -- positions whose accept RESPONSE has come (R251)
  answers : List (Nat × Nat)  -- broadcast: position, status (COMMIT: result code)
  got : List (Nat × List Byte)  -- fragments of the final result: offset, bytes
  code : Nat                  -- status of the final RESPONSE whose fragments are arriving
  wakeFor : Bool              -- a POWER that waits for Starting complete (R296)
  bulk : List (Nat × Nat)     -- positions and the next byte of the table that each is to be sent (R288)
  applyAt : Nat               -- a broadcast COMMIT's apply time (R260)
  spent : Nat                 -- ring time that had passed since its acceptance before the start that kept it, 5 ns (R280)
deriving DecidableEq, Repr

/-- A stream slot of the head (R302). -/
structure StreamSlot where
  k : Nat
  h : Nat
  pos : Nat
  off : Nat
  size : Nat
  s : Nat
  wr : Nat
  cnt : Nat
  num : Nat                   -- its load, num/den characters per second (R303)
  den : Nat
  per2 : Nat                  -- twice the period of its records, 5 ns; 0 while the head does not know it
  stop : Option (Nat × Nat)   -- a STREAM_STOP waits for the last record: its handle, the number after that record (R304)
deriving DecidableEq, Repr

/-- The head's host port. `win` is the host window, a canonical map whose unlisted bytes read 0 (R280). -/
structure Hst where
  on : Bool                   -- port enabled (R272)
  octal : Bool
  lastErr : Bool
  hiz : Bool                  -- held in high impedance by a closing that is done, a reset or the role; `hostHiz` adds step 3 of Table PWR-8
  kept : Bool                 -- KEPT (R280)
  out : List Byte             -- bytes the last read transaction returned
  win : List (Nat × Byte)
  pairs : List Pair           -- p = 0 to 3
  eq : EvtRing
  cmds : List HeadCmd
  nextH : Nat
  timedOut : List (Nat × Nat) -- handles that ended TIMEOUT, with the lifetime then, 5 ns (R286)
  streams : List StreamSlot
  devAt : Time                -- ring time at which the device last wrote the host window, and
  devWrote : List (Nat × Nat) -- what it wrote then: byte offsets and lengths (R277)
deriving DecidableEq, Repr

/-! ### One clock cycle (R10, R354) -/

/-- What has reached registers in the present clock cycle, which is one LSB of ring time (R10): `sums` the SUM fields with a hardware
increment, keyed by offset and field, each with its value without the increments and their sum; `hw` the bits of HW fields that the hardware updated, and `sw` the bits of shadows that software wrote, by offset;
`old` the shadows written by software as they stood before the cycle (R354). -/
structure Cycle where
  sums : List (Nat × (Nat × Nat))
  hw : List (Nat × Word)
  sw : List (Nat × Word)
  old : List (Nat × Word)
deriving DecidableEq, Repr

/-! ### The device -/

/-- One TM3264. `regs` holds every register's committed, direct or status word where no other field gives it, `shad`
the shadows; both are canonical maps over `regReset`. `free` counts uses of free values. -/
structure Dev where
  now : Time
  free : Nat
  regs : List (Nat × Word)
  shad : List (Nat × Word)
  cyc : Cycle
  pw : Power
  pr : Prot
  sf : Safe
  mm : Mem
  ev : Events
  ln : LinkPort
  ls : LinkPort
  tn : Tone
  rg : Ring
  tb : Timebase
  sw : Sweeps
  ex : Exec
  me : Meas
  ca : Cal
  ba : Bal
  io : Inputs
  ck : Chk
  en : Eng
  bi : Bist
deriving DecidableEq, Repr

/-- The machine: the device, its host port, and the commands that wait. -/
structure State where
  dev : Dev
  hst : Hst
  pending : List Instr
deriving DecidableEq, Repr

/-! ### Reset -/

/-- A port in bypass. -/
def LinkPort.init : LinkPort :=
  ⟨.bypass, 0, 0, 0, 0, 0, 0, 0, [], 0, none, [], none, 0, none, none, false, false, none, false, 0, 0, 0, [], false, 0, 0, none, 0, false, false, 0,
    false, 0, 0, false, false, false, 0, 0, false, 0, false, 0, 0, 0, 0⟩

/-- An output that is off. -/
def OutState.init : OutState := ⟨false, false, true, false, false, 0, 0, 0, 0⟩

/-- A pair before observation begins: filtered levels low (R320). -/
def PairState.init : PairState := ⟨false, false, false, false, 0, false, false, false, 0, 0, false⟩

/-- The open summary of a new device (R372). -/
def Summary.init (num first utc : Nat) : Summary :=
  ⟨0, num, first, first, 0, 0, utc, 0, 0, 0, 0, 0, 0, [], [], [], [], 0, []⟩

def Power.init : Power where
  st := .starting
  target := .shutdown
  held := true
  cause := 1
  wakeSrc := 0
  rstCause := 0
  fullSince := true
  aborted := false
  closeAt := 0
  floorActive := false
  workAt := 0
  locked := false
  quick := false
  fullReason := 0
  mode := false
  warn := false
  warnAt := 0
  dip := none
  persist := false
  shedAt := 0
  nvmSusp := false
  dropout := false
  secs := 0
  secSub := 0
  secValid := false
  entryMs := 0
  cmpMs := 0
  swReset := none
  tripSeen := []
  tripWake := []
  sealEarly := false

/-- A blank slot. -/
def CfgSlot.empty : CfgSlot := ⟨none, none, true⟩

def Prot.init : Prot :=
  ⟨false, false, CfgSlot.empty, CfgSlot.empty, 0, none, none, [], none, false, false, false, none, none, none, none, [], [], [], [], 0,
    false, false, none⟩

def Safe.init : Safe where
  causes := []
  present := []
  outA := OutState.init
  outB := OutState.init
  wdog := false
  missed := 0
  cycleAt := 0
  servAt := 0
  armed := false
  armedTo := 0
  armedSet := []
  p0 := PairState.init
  p1 := PairState.init
  lastBit := 0
  lastPos := 0
  lastTime := 0
  lost := []
  hbSeen := []
  hbRx := 0
  hbEver := false
  toneQuiet := 0
  fltHeld := false
  extest := false

def FwBank.factory (b : Bool) : FwBank :=
  if b then ⟨false, 0, 0, none, none⟩ else ⟨true, 0, Config.factoryVersion b, none, some ⟨0x4B4D5746, 0, none, 0xFFFFFFFF⟩⟩

def NvDue.none : NvDue := ⟨[], [], Option.none, false, false⟩

def Mem.init : Mem where
  life := 0
  sub := 0
  startNo := 0
  nextSeq := 0
  sectors := []
  lastHash := zeros 8
  sums := []
  sumHash := zeros 8
  summ := Summary.init 1 0 0
  sumClose := 0
  lastUtc := 0
  checkpoint := none
  checkPrev := none
  lifeRec := 0
  lifePrev := 0
  due := NvDue.none
  ceSec := []
  overBudget := false
  lastErr := 0
  lastAddr := 0
  bad := []
  sweepOn := false
  sweepAt := 0
  sweepStart := 0
  refresh := none
  refreshAt := 0
  refreshQ := []
  bgAt := 0
  sweepLast := 0
  checkLife := 0
  marks := []
  wear := []
  remap := []
  minsec := 0
  bankA := FwBank.factory false
  bankB := FwBank.factory true
  bootB := false
  install := none
  seals := []
  sealCount := 0
  serial := 0
  recAt := 0
  cutSeq := none

def Ring.init : Ring where
  pos := 0x3F
  n := 0
  b := 0x3F
  castled := false
  enumDone := false
  hbOpen := []
  brkAt := 0
  upAt := none
  enumH := none
  enumPass := 0
  overflow := false
  second := false
  brk := false
  lo := 0x3F
  hi := 0x3F
  loEv := false
  hiEv := false
  enumAt := 0
  inN := []
  inS := []
  ctrs := []
  unas := false
  recs := []
  hbNum := 0
  hbCtr := 0
  hbBack := 0
  hbLast := none
  beNum := 0

def Timebase.init : Timebase := ⟨.none, 0, false, 0, 0, 0, none, none, none⟩
def Sweeps.init : Sweeps := ⟨[], [], 0, false, 0, [], none⟩
def Exec.init : Exec := ⟨[], [], [], [], [], []⟩
def Tone.init : Tone := ⟨none, false, 0⟩
def Events.init : Events := ⟨[], [], 0, []⟩

/-- A ring pair that has not been started. -/
def Pair.init : Pair := ⟨false, 0, 0, 0, true, [], 0, []⟩
def EvtRing.init : EvtRing := ⟨false, 0, 0, true, [], false⟩

/-- The host port before it is enabled. -/
def Hst.init : Hst :=
  ⟨false, false, false, true, false, [], [], [Pair.init, Pair.init, Pair.init, Pair.init], EvtRing.init, [],
   1, [], [], 0, []⟩

def Meas.init : Meas where
  since := []
  good := []
  grid := []
  gridOld := []
  disOk := []
  disEx := []
  est := []
  swMa := []
  ovrOn := []
  flagAt := []
  estAt := []
  owPeriod := 10
  owFrom := []
  owAt := []
  dead := []
  was := []

/-- The factory set (R122): slot 0, origin 0x00, sequence 1; its data are zeros (DESIGN CHOICE). -/
def CalSlot.factory : CalSlot := ⟨some ⟨0, 0, 0, 1, List.replicate 232 0⟩, some 1, false⟩

def Cal.init : Cal where
  slot := 0
  slotAt := 0
  laneAt := 0
  slotNext := 0
  slotDue := 0
  todo := []
  fitted := []
  was := []
  past := []
  periods := 0
  relief := []
  out := []
  wd := []
  epoch := []
  bg := []
  bgAlarm := false
  accepted := []
  applied := []
  spareLanes := []
  wdAt := []
  noSet := false
  s0 := CalSlot.factory
  s1 := ⟨none, none, true⟩
  active := 0
  store := none
  cleanup := none
  user := none
  capture := []
  cmpGroup := 0
  cmpFrom := none

def BalCell.init : BalCell := ⟨false, false, none, false, false, 0, 0, none, none, false⟩
def GzCell.init : GzCell := ⟨false, false, 0, 0, none, none⟩

def Bal.init : Bal where
  plan := none
  gzPlan := none
  cells := []
  test := none
  voids := 0
  voidTo := 0
  tests := []
  k := 256
  tAmb := 0
  ambEst := false
  pMax64 := 96000
  pReq := 0
  diss := 0
  forbid := false
  pExc := 0
  excite := []
  chips := []
  gaps := []
  owed := []
  qsub := []
  mark := 0
  gz := none
  gzRes := 0
  gzDone := 0
  gzExp := 0
  gzQ := []
  gzStart := false

def Cur.init : Cur := ⟨0, 0, 0, false, false, none, 0, 0, 0, 0, 0, 0, [], [], none, []⟩
def AuxChan.init : AuxChan := ⟨0, 0, 0⟩
def WirePort.init : WirePort := ⟨0, false, false, none, [], none, [], [], 0, none, none⟩
def Inputs.init : Inputs := ⟨Cur.init, [], [], WirePort.init, WirePort.init, WirePort.init, WirePort.init, 0⟩

/-- A check-value unit with its parameters as reset leaves them (R358). -/
def ChkUnit.init : ChkUnit := ⟨32, 0x1EDC6F41, 0xFFFFFFFF, 0xFFFFFFFF, true, true, 0xFFFFFFFF, false, 0, 0⟩
def Chk.init : Chk := ⟨ChkUnit.init, ChkUnit.init⟩

def Gathered.init : Gathered := ⟨0, 0, false, false⟩
def Ckpt.init : Ckpt := ⟨0, [], none⟩

/-- A tracker that knows nothing yet (R183). -/
def Track.init : Track where
  soc := none
  sd := 0
  corrected := false
  gap := false
  charging := false
  restFrom := none
  acc := (0, 0)
  secs := []
  last := none
  q := 0
  rests := []
  caps := []
  capOld := none
  capAt := 0
  res := none
  rest0 := none
  drift := none
  anom := none
  flagged := false
  days := 0
  qBal := none

def Eng.init : Eng := ⟨0, [], [], [], [], 0, [], none, none, [], [], [], [], none, none⟩

/-- Spares of a bank without repairs. -/
def BankRepair.init : BankRepair := ⟨[0xFFFF, 0xFFFF, 0xFFFF, 0xFFFF], [0xFF, 0xFF], 0, 0, 0⟩

def Bist.init : Bist where
  recs := []
  recSeq := 0
  recSecs := none
  pendRec := none
  pendRes := []
  captured := []
  banks := []
  engines := 0
  unrep := 0
  soft0 := 0
  slot0 := none
  slot1 := none
  applied := false
  recDue := false
  job := none
  recAt := 0
  secrets := false
  secretLock := false
  ir := 0x02
  cells := List.replicate 84 false
  stA := ⟨1, none, none⟩
  stB := ⟨1, none, none⟩
  cmpJob := false
  cmpQueue := none
  engTest := none
  failed := false

def Cycle.init : Cycle := ⟨[], [], [], []⟩

def Dev.init : Dev where
  now := 0
  free := 0
  regs := []
  shad := []
  cyc := Cycle.init
  pw := Power.init
  pr := Prot.init
  sf := Safe.init
  mm := Mem.init
  ev := Events.init
  ln := LinkPort.init
  ls := LinkPort.init
  tn := Tone.init
  rg := Ring.init
  tb := Timebase.init
  sw := Sweeps.init
  ex := Exec.init
  me := Meas.init
  ca := Cal.init
  ba := Bal.init
  io := Inputs.init
  ck := Chk.init
  en := Eng.init
  bi := Bist.init

/-- The machine as power comes on: Starting with cause POR, held in reset until RESET_RELEASE (R46, R50, R403). -/
def State.reset : State := ⟨Dev.init, Hst.init, []⟩

end Sys2Proof.Machine
end

