-- ==== Sys2Proof/Machine/Ops.lean ====
section
/-! DEFINITION. Operations that every family shares: time, registers, the history log, events and their buckets,
frames waiting on a port, fault latches and the fault tone. -/

namespace Sys2Proof.Machine

/-! ### Power state -/

/-- State codes of Table PWR-6. -/
def PowerState.code : PowerState → Nat
  | .off => 0 | .shutdown => 1 | .sleep => 2 | .gazebo => 3
  | .standby => 4 | .active => 5 | .closing => 6 | .starting => 7

/-- STANDBY or ACTIVE. -/
def PowerState.awake : PowerState → Bool
  | .standby | .active => true
  | _ => false

/-- SHUTDOWN, SLEEP or GAZEBO. -/
def PowerState.low : PowerState → Bool
  | .shutdown | .sleep | .gazebo => true
  | _ => false

/-- STANDBY or ACTIVE. -/
def Dev.awake (d : Dev) : Bool := d.pw.st.awake

/-- A head role (R2): MODE sampled high. -/
def Dev.head (d : Dev) : Bool := d.pw.mode

/-- The C-die is powered and out of reset (Table PWR-6). -/
def Dev.running (d : Dev) : Bool :=
  match d.pw.st with
  | .standby | .active | .closing => true
  | .starting => !d.pw.held
  | _ => false

/-! ### Free values -/

/-- A free bit, and the counter advanced. -/
def freeBit (d : Dev) : Bool × Dev := (Config.freeBit d.free, { d with free := d.free + 1 })

/-- A free word, and the counter advanced. -/
def freeWord (d : Dev) : Word × Dev := (Config.freeWord d.free, { d with free := d.free + 1 })

/-- n/m for m not 0, rounded as `Config.roundUp` says where inexact: no rule states the rounding. -/
def quot (n m : Int) : Int :=
  let (n, m) := if m < 0 then (-n, -m) else (n, m)
  if m = 0 then 0 else if n % m = 0 then n / m else n / m + (if Config.roundUp n m then 1 else 0)

/-- An n-bit signed field of value z. Where z does not fit no rule states the field: it is free. -/
def fitS (n : Nat) (z : Int) (d : Dev) : Nat × Dev :=
  if -(2 ^ (n - 1) : Int) ≤ z ∧ z < (2 ^ (n - 1) : Int) then (unsigned n z, d)
  else let (w, d) := freeWord d; (w.toNat % 2 ^ n, d)

/-- An n-bit unsigned field of value z, free where z does not fit. -/
def fitU (n : Nat) (z : Int) (d : Dev) : Nat × Dev :=
  if 0 ≤ z ∧ z < (2 ^ n : Int) then (z.toNat, d)
  else let (w, d) := freeWord d; (w.toNat % 2 ^ n, d)

/-! ### Time (R255, R370, R45) -/

/-- Ring-time LSBs of 5 ns in one second. -/
def lsbPerSec : Nat := 200000000

/-- k microseconds of ring time. -/
def usT (k : Nat) : Nat := 200 * k

/-- k milliseconds of ring time. -/
def msT (k : Nat) : Nat := 200000 * k

/-- Let n LSBs of 5 ns pass in MEM_LIFE (R370), the open summary and the seconds counter (R45). -/
def lifeAdd (n : Nat) (d : Dev) : Dev :=
  let s := d.mm.sub + n
  let k := s / lsbPerSec
  let c := d.pw.secSub + n
  { d with
    mm := { d.mm with
      life := d.mm.life + k
      sub := s % lsbPerSec
      summ := { d.mm.summ with
        secs := d.mm.summ.secs + k
        awake := d.mm.summ.awake + (if d.pw.st.awake then k else 0) } }
    pw := { d.pw with secs := (d.pw.secs + c / lsbPerSec) % 2 ^ 32, secSub := c % lsbPerSec } }

/-- Engine work runs: an IMPEDANCE or ESTIMATE job (R51). -/
def engineWork (d : Dev) : Bool := d.en.imp.isSome || d.en.est.isSome

/-- Ring time reaches t; ring time never runs back here (R257). A new clock cycle begins (R10), and time with engine work or at the ACTIVE
floor does not count towards the 10 ms of R51. -/
def advance (t : Time) (d : Dev) : Dev :=
  if d.now.toNat < t.toNat then
    lifeAdd (t.toNat - d.now.toNat) { d with
      now := t
      cyc := Cycle.init
      pw := { d.pw with workAt := if d.pw.floorActive || engineWork d then t else d.pw.workAt } }
  else d

/-- `ms` milliseconds pass while the C-die is off. -/
def elapse (ms : Nat) (d : Dev) : Dev :=
  lifeAdd (msT ms) { d with pw := { d.pw with entryMs := d.pw.entryMs + ms } }

/-- Ring-time LSBs from a to b, 0 when b is not later. -/
def since (a b : Time) : Nat := b.toNat - a.toNat

/-- Have k LSBs passed since an instant? One that lies ahead belongs to a ring time since restarted, and has. -/
def passed (k : Nat) (a now : Time) : Bool := decide (now.toNat < a.toNat) || decide (k ≤ since a now)

/-- The link ports are in bypass and the host port is high impedance: 2.0 ms after closing began (Table PWR-8 step 3). -/
def portsClosed (d : Dev) : Bool := decide (d.pw.st = .closing) && decide (msT 2 ≤ since d.pw.closeAt d.now)

/-- A wake source or a command ends a closing; WAKE_SRC names the first (R54). -/
def abortClosing (src : Nat) (d : Dev) : Dev :=
  if d.pw.st = .closing ∧ !d.pw.aborted then { d with pw := { d.pw with aborted := true, wakeSrc := src } } else d

/-- Step 3 of closing releases the link ports to bypass (Table PWR-8). -/
def releasePorts (d : Dev) : Dev :=
  if portsClosed d then { d with ln := LinkPort.init, ls := LinkPort.init } else d

/-! ### Registers (R333 to R336) -/

/-- Committed, direct or status word at an offset. -/
def reg (d : Dev) (off : Nat) : Word := mget regReset d.regs off

/-- Shadow at an offset. -/
def shadow (d : Dev) (off : Nat) : Word := mget regReset d.shad off

/-- A field of a register as a number. -/
def regFld (d : Dev) (off hi lo : Nat) : Nat := fld (reg d off) hi lo

/-- A bit of a register. -/
def regBit (d : Dev) (off i : Nat) : Bool := bit (reg d off) i

/-- Set a committed, direct or status word. -/
def setReg (off : Nat) (v : Word) (d : Dev) : Dev := { d with regs := mset regReset d.regs off v }

/-- Set a shadow. -/
def setShadow (off : Nat) (v : Word) (d : Dev) : Dev := { d with shad := mset regReset d.shad off v }

/-- A hardware update of a configuration register writes shadow and committed copy (R354). -/
def setBoth (off : Nat) (v : Word) (d : Dev) : Dev := setShadow off v (setReg off v d)

/-- `old` with the bits of `mask` taken from `v`. -/
def mergeBits (mask old v : Word) : Word := (old &&& ~~~mask) ||| (v &&& mask)

/-- A hardware update of a field whose Same-cycle rule is SW: what software wrote to the shadow in the same cycle stands (R10, R354). -/
def hwUpdate (off : Nat) (v : Word) (d : Dev) : Dev :=
  setShadow off (mergeBits (kget 0 d.cyc.sw off) v (shadow d off)) (setReg off v d)

/-- A hardware update of the bits of `mask` of a register whose Same-cycle rule is HW: it stands over a software write of the same
cycle (R10). -/
def hwStand (off : Nat) (mask v : Word) (d : Dev) : Dev :=
  let d := setShadow off (mergeBits mask (shadow d off) v) (setReg off (mergeBits mask (reg d off) v) d)
  { d with cyc := { d.cyc with hw := kset 0 d.cyc.hw off (kget 0 d.cyc.hw off ||| mask) } }

/-- A software write to the bits of `mask` of a shadow: a HW field that the hardware updated in the same cycle keeps that update (R10). What
the shadow held before the cycle stays known (R354), and its parity is good again (R342). -/
def swShadow (off : Nat) (mask v : Word) (d : Dev) : Dev :=
  let was := shadow d off
  let d := setShadow off (mergeBits (mask &&& ~~~(kget 0 d.cyc.hw off)) was v) d
  { d with
    pr := { d.pr with parShad := d.pr.parShad.filter (fun e => e.1 ≠ off) }
    cyc := { d.cyc with
      sw := kset 0 d.cyc.sw off (kget 0 d.cyc.sw off ||| mask)
      old := if d.cyc.old.any (fun e => e.1 == off) then d.cyc.old else (off, was) :: d.cyc.old } }

/-- The key of a SUM field in the record of the cycle. -/
def sumKey (off hi lo : Nat) : Nat := 1024 * off + 32 * hi + lo

/-- Set words at consecutive offsets. -/
def setRegs (off : Nat) (vs : List Word) (d : Dev) : Dev :=
  { d with regs := msetList regReset d.regs off 4 vs }

/-- A word whose field [hi:lo] has n added, saturating at all ones. -/
def addFld (w : Word) (hi lo n : Nat) : Word := setFld w hi lo (satNat (2 ^ (hi + 1 - lo) - 1) (fld w hi lo + n))

/-- Add n to a SUM field, which saturates at all ones. -/
def bump (off hi lo n : Nat) (d : Dev) : Dev :=
  let w := reg d off
  let key := sumKey off hi lo
  let was := match d.cyc.sums.find? (fun e => e.1 == key) with
    | some e => e.2
    | none => (fld w hi lo, 0)
  { setReg off (addFld w hi lo n) d with cyc := { d.cyc with
      sums := (key, (was.1, was.2 + n)) :: d.cyc.sums.filter (fun e => e.1 ≠ key) } }

/-- The SUM fields of a register that the present cycle incremented: high and low bit, the value without the increments, and their sum. -/
def sumsOf (d : Dev) (off : Nat) : List (Nat × Nat × Nat × Nat) :=
  (d.cyc.sums.filter (fun e => e.1 / 1024 == off)).map (fun e => (e.1 / 32 % 32, e.1 % 32, e.2.1, e.2.2))

/-- A word of a register without the increments of the present cycle (R10): what a write of the same cycle merges into. -/
def unsummed (d : Dev) (off : Nat) (w : Word) : Word := (sumsOf d off).foldl (fun w f => setFld w f.1 f.2.1 f.2.2.1) w

/-- Software leaves `w` in a register of SUM fields: each has the hardware increments of the same cycle added to it (R10, R350). -/
def sumWrite (off : Nat) (w : Word) (d : Dev) : Dev :=
  { setReg off ((sumsOf d off).foldl (fun w f => addFld w f.1 f.2.1 f.2.2.2) w) d with cyc := { d.cyc with
      sums := d.cyc.sums.map (fun e => if e.1 / 1024 = off then (e.1, (fld w (e.1 / 32 % 32) (e.1 % 32), e.2.2)) else e) } }

/-- Set one bit of a status register. -/
def setRegBit (off i : Nat) (b : Bool) (d : Dev) : Dev := setReg off (putBit (reg d off) i b) d

/-- A 64-bit value held in two registers, low word first. -/
def reg64 (d : Dev) (lo hi : Nat) : Nat := (reg d lo).toNat + 2 ^ 32 * (reg d hi).toNat

/-- Write a 64-bit value into two registers. -/
def setReg64 (lo hi v : Nat) (d : Dev) : Dev :=
  setReg hi (BitVec.ofNat 32 (v / 2 ^ 32)) (setReg lo (BitVec.ofNat 32 v) d)

/-- NCELLS of the committed MEAS_CELLS (R65). -/
def ncells (d : Dev) : Nat := regFld d R.measCells 5 0

/-! ### History log (R369 to R371) -/

/-- The 60 bytes of a record before its check value (Table MEM-5). -/
def LogRec.body (r : LogRec) : List Byte :=
  [BitVec.ofNat 8 r.kind, BitVec.ofNat 8 r.part, 0, 0] ++ leBytes 4 r.seq ++ leBytes 4 r.start ++ padTo 48 r.pay

/-- A record as stored, 64 bytes (Table MEM-5). The bytes that a record cut off by a reset leaves are free (R370). -/
def LogRec.bytes (r : LogRec) : List Byte :=
  if r.cut then (upFrom 0 64).map (fun i => Config.freeByte (2 ^ 24 + 64 * r.seq + i)) else r.body ++ leBytes 4 (crc32 r.body)

/-- The header in slot 0 of a sector (Table MEM-6, kind 0x00). -/
def LogSector.header (x : LogSector) (start : Nat) : LogRec :=
  ⟨0, 0, Config.headerSeq x.seq, start, leBytes 4 x.seq ++ padTo 8 x.prevHash, false⟩

/-- Bytes 0x000 to 0xFBF of a sector: header and 62 records, erased slots 0xFF (R375, R377). -/
def LogSector.body (x : LogSector) : List Byte :=
  let start := match x.recs with
    | [] => 0
    | r :: _ => r.start
  ((x.header start).bytes ++ x.recs.flatMap LogRec.bytes ++ List.replicate 4032 0xFF).take 4032

/-- The 4,096 bytes of a sector; slot 63 carries the signature once sealed (R375). -/
def LogSector.bytes (x : LogSector) : List Byte :=
  x.body ++ (match x.sig with
    | some g => padTo 64 g
    | none => List.replicate 64 0xFF)

/-- Seal a sector whose slot 62 is written (R369, R375). -/
def LogSector.close (x : LogSector) : LogSector := { x with sig := some (deviceSign x.body) }

/-- Number of sectors of the event log ring (R367). -/
def logSectors : Nat := 512

/-- Reclaim: erase the oldest sector whenever fewer than two sectors are free (R369). -/
def reclaim (l : List LogSector) : List LogSector := l.drop (l.length - (logSectors - 2))

/-- Append a record to the sectors: in the open sector, else in a new one; slot 62 seals the sector (R369). -/
def appendSector (hash : List Byte) (r : LogRec) (l : List LogSector) : List LogSector × List Byte :=
  let fresh : LogSector := ⟨match l.getLast? with
    | some x => x.seq + 1
    | none => 0, hash, [], none⟩
  let (old, cur) := match l.getLast? with
    | some x => if x.sig.isNone then (l.dropLast, x) else (l, fresh)
    | none => (l, fresh)
  let cur := { cur with recs := cur.recs ++ [r] }
  if cur.recs.length < 62 then (reclaim (old ++ [cur]), hash)
  else
    let done := cur.close
    (reclaim (old ++ [done]), (sha256 done.bytes).take 8)

/-- Change what waits for a supply warning to clear. -/
def withDue (f : NvDue → NvDue) (d : Dev) : Dev := { d with mm := { d.mm with due := f d.mm.due } }

/-- Uncorrectable words without those in bytes a to a + n - 1 of the non-volatile memory. -/
def badOutside (a n : Nat) (l : List (Nat × Nat)) : List (Nat × Nat) :=
  l.filter (fun e => !(decide (e.1 = 0x50) && decide (a ≤ 8 * e.2) && decide (8 * e.2 < a + n)))

/-- Bytes a to a + n - 1 of the non-volatile memory are erased: what was uncorrectable there is no more (R364, R368). -/
def clearBad (a n : Nat) (d : Dev) : Dev := { d with mm := { d.mm with bad := badOutside a n d.mm.bad } }

/-- Uncorrectable words once the newest sector has its first record: it was erased before (R369). -/
def badAfterLog (l : List LogSector) (bad : List (Nat × Nat)) : List (Nat × Nat) :=
  match l.getLast? with
  | some x => if x.recs.length = 1 then badOutside (0x334000 + 4096 * (x.seq % logSectors)) 4096 bad else bad
  | none => bad

/-- Records of one summary period after which only URGENT, PROT and SAFE events are recorded (R371). -/
def recordBudget : Nat := 100000

/-- Program one record of a kind and part into the event log (R369). A period that goes on beyond its budget is over it (R371). -/
def logWrite (kind part : Nat) (pay : List Byte) (d : Dev) : Dev :=
  let r : LogRec := ⟨kind, part, d.mm.nextSeq, d.mm.startNo, padTo 48 pay, false⟩
  let (l, h) := appendSector d.mm.lastHash r d.mm.sectors
  { d with mm := { d.mm with
      sectors := l
      lastHash := h
      nextSeq := d.mm.nextSeq + 1
      recAt := d.now
      bad := badAfterLog l d.mm.bad
      overBudget := d.mm.overBudget || decide (recordBudget ≤ d.mm.summ.recs)
      summ := { d.mm.summ with last := d.mm.nextSeq, recs := d.mm.summ.recs + 1 } } }

/-- Append one record of a kind and part to the event log (R369). While a supply warning stands none starts: it waits (R37). -/
def logRec (kind part : Nat) (pay : List Byte) (d : Dev) : Dev :=
  if d.pw.warn then withDue (fun w => { w with recs := w.recs ++ [(kind, part, pay)] }) d else logWrite kind part pay d

/-- Is an event recorded within the budget (R371)? The block number is the code's high byte. -/
def withinBudget (d : Dev) (code : Nat) (urgent : Bool) : Bool :=
  decide (d.mm.summ.recs < recordBudget) || urgent || decide (code / 256 = 0x02) || decide (code / 256 = 0x16)

/-! ### Frames waiting on a port (R225, R248, R249) -/

/-- The port of a device. -/
def port (d : Dev) : Port → LinkPort
  | .north => d.ln
  | .south => d.ls

/-- Replace a port. -/
def setPort (p : Port) (x : LinkPort) (d : Dev) : Dev :=
  match p with
  | .north => { d with ln := x }
  | .south => { d with ls := x }

/-- The other port. -/
def otherPort : Port → Port
  | .north => .south
  | .south => .north

/-- Instance number of a port (Table REG-5's text). -/
def portIdx : Port → Nat
  | .north => 0
  | .south => 1

/-- Is the port's hop UP? -/
def LinkPort.isUp (x : LinkPort) : Bool := decide (x.st = .up)

/-- Character time at a rate code, in LSBs of 5 ns (Table LINK-1). -/
def charTime (rate : Nat) : Nat := 40 * 2 ^ rate

/-- Does this end own the line (R224)? -/
def LinkPort.owns (x : LinkPort) (now : Time) : Bool := decide (now.toNat < x.ownTo.toNat)

/-- The earlier of two times. -/
def earlierTime (a b : Time) : Time := if a.toNat < b.toNat then a else b

/-- The fault tone cuts off what the port is sending (R242): a frame under way is sent again later, without a retry. -/
def LinkPort.cutOff (now : Time) (x : LinkPort) : LinkPort :=
  if decide (now.toNat + charTime x.rate < x.ownTo.toNat) then
    { x with ownTo := now, waitAt := earlierTime now x.waitAt, cut := x.out.isSome && ((x.sent.bind Burst.frame).isSome) }
  else if x.owns now then { x with ownTo := now, waitAt := earlierTime now x.waitAt }
  else x

/-- Put a frame into a port's queue of 32; a frame that finds no room is dropped and counted (R248). -/
def enqueue (p : Port) (f : Frame) (d : Dev) : Dev :=
  let x := port d p
  if x.queue.length < 32 then setPort p { x with queue := x.queue ++ [f] } d
  else bump R.ringCnt 15 0 1 d

/-- A consumer takes the oldest frame of its type out of a receive buffer (R232). -/
def LinkPort.take (typ : Nat) (x : LinkPort) : LinkPort :=
  match x.rxBuf.find? (fun e => e.typ == typ) with
  | some e => { x with rxBuf := x.rxBuf.erase e, rxStat := e.stat, rxTh := e.th }
  | none => { x with rxTh := 0 }

/-- The same at a port of the device. -/
def unbuffer (p : Port) (typ : Nat) (d : Dev) : Dev := setPort p ((port d p).take typ) d

/-- The same where the command does not name the port: the north port's, else the south port's. -/
def unbufferAny (typ : Nat) (d : Dev) : Dev := unbuffer (if d.ln.rxBuf.any (fun e => e.typ == typ) then .north else .south) typ d

/-- The port by which a stack device's RESPONSE, EVENT and STREAM leave for the head (Table RING-1). -/
def headPort (d : Dev) : Port :=
  if d.rg.castled then (if d.rg.pos ≤ d.rg.b then .south else .north) else .north

/-- Queue an EVENT of this device: where the hop is not UP it is turned to the other port; where that is the second hop that is not
UP it is dropped and counted in QDROP (R250). While neither hop has been UP since the start it waits (R237; DEDUCED, log 86). -/
def enqueueTurning (p : Port) (f : Frame) (d : Dev) : Dev :=
  if (port d p).isUp then enqueue p f d
  else if (port d (otherPort p)).isUp then enqueue (otherPort p) { f with turned := true } d
  else if d.ln.ups = 0 ∧ d.ls.ups = 0 then enqueue p f d
  else bump R.ringCnt 15 0 1 d

/-! ### Buckets and events (R355 to R357, R292) -/

/-- First level byte of a source (Table REG-5). -/
def bucketBase (s : Nat) : Nat :=
  [0x000, 0x020, 0x040, 0x041, 0x042, 0x044, 0x048, 0x049, 0x04A, 0x04B, 0x04C, 0x08C, 0x0AD, 0x0CD, 0x111,
   0x155, 0x156, 0x158, 0x159, 0x15A, 0x162, 0x166, 0x16A, 0x16E, 0x17E, 0x17F, 0x19F, 0x1BF, 0x1DF, 0x1E0,
   0x1E1, 0x1E3, 0x1E5, 0x1E7, 0x1E9, 0x1EA, 0x1EB, 0x1EC, 0x1ED, 0x1EE, 0x1EF, 0x1F0, 0x1F2].getD s 0x1F3

/-- Number of instances of a source. -/
def bucketCount (s : Nat) : Nat := bucketBase (s + 1) - bucketBase s

/-- Level of instance i of source s (R355). -/
def level (d : Dev) (s i : Nat) : Nat := kget 0 d.ev.lvl (bucketBase s + i)

/-- Offset of EVT_CFGs (R356). -/
def evtCfgOff (s : Nat) : Nat := R.evtCfgSafe + 4 * s

/-- Threshold N of a source. -/
def bucketN (d : Dev) (s : Nat) : Nat := regFld d (evtCfgOff s) 7 0

/-- Leak period W of a source in ring-time LSBs (10 ms each unit). -/
def bucketW (d : Dev) (s : Nat) : Nat := regFld d (evtCfgOff s) 31 8 * msT 10

/-- The leak timer of an instance starts with the present W (R355, R356). -/
def startLeak (s i : Nat) (d : Dev) : Dev :=
  let b := bucketBase s + i
  { d with ev := { d.ev with leakAt := (b, d.now, bucketW d s) :: d.ev.leakAt.filter (fun e => e.1 ≠ b) } }

/-- The leak timer of an instance stops: its level is 0 (R355). -/
def stopLeak (s i : Nat) (d : Dev) : Dev :=
  { d with ev := { d.ev with leakAt := d.ev.leakAt.filter (fun e => e.1 ≠ bucketBase s + i) } }

/-- Has the leak timer of an instance run out (R355)? -/
def leakDue (s i : Nat) (d : Dev) : Bool :=
  d.ev.leakAt.any (fun e => e.1 == bucketBase s + i && passed e.2.2 e.2.1 d.now)

/-- Set a level. The leak timer starts when it leaves 0 and runs while it is above 0 (R355). -/
def setLevel (s i n : Nat) (d : Dev) : Dev :=
  let was := level d s i
  let d := { d with ev := { d.ev with lvl := kset 0 d.ev.lvl (bucketBase s + i) n } }
  if n = 0 then stopLeak s i d else if was = 0 then startLeak s i d else d

/-- Is instance i of source s lasting (R355)? -/
def lasting (d : Dev) (s i : Nat) : Bool := decide (bucketN d s ≤ level d s i)

/-- Is some instance of source s lasting? -/
def anyLasting (d : Dev) (s : Nat) : Bool := (upFrom 0 (bucketCount s)).any (fun i => lasting d s i)

/-- EVT_QUIET bit of a source (R356). -/
def quiet (d : Dev) (s : Nat) : Bool := regBit d (R.evtQuiet + 4 * (s / 32)) (s % 32)

/-- The 32 bytes of an event entry with the given byte 0x03 (Table HOST-6). -/
def EvRec.bytes (e : EvRec) (b3 : Nat) : List Byte :=
  leBytes 2 e.code ++ [BitVec.ofNat 8 e.pos, BitVec.ofNat 8 b3] ++ leBytes 2 e.count ++ [0, 0] ++
  leBytes 8 e.time.toNat ++ padTo 16 e.data

/-- Codes posted with URGENT (R357). -/
def urgentCode (code : Nat) : Bool := decide (code ∈ [0x0001, 0x1201, 0x1601])

/-- Source status nibble (Table LINK-5). -/
def statusNibble (d : Dev) : Nat :=
  b2n (decide (8 ≤ d.ex.cmds.length)) + 2 * b2n (!d.sf.causes.isEmpty) +
  4 * b2n (d.pr.svcUntil.isSome || d.pr.svcHead) +
  8 * b2n ((upFrom 0 43).any (anyLasting d) ||
    (d.ln.isUp && decide (regFld d R.linkCtrl 1 0 < d.ln.rate)) ||
    (d.ls.isUp && decide (regFld d R.linkCtrl 3 2 < d.ls.rate)))

/-- A frame of this device (R226, R227). -/
def ownFrame (d : Dev) (dest typ seq : Nat) (pay : List Byte) : Frame :=
  ⟨dest, false, d.rg.pos, typ, seq % 256, statusNibble d, pay, false, 0⟩

/-- Send an event entry on: in the head it waits for the event ring, in a stack device it leaves as an EVENT frame
(R292, R252). A device without a position sends none, since SRC must name a position (R229, R246). -/
def sendEvent (e : EvRec) (d : Dev) : Dev :=
  if d.head then { d with ev := { d.ev with out := d.ev.out ++ [e] } }
  else if d.rg.pos ≤ 62 then
    enqueueTurning (headPort d) (ownFrame d 0 0x03 e.count (e.bytes 0)) d
  else d

/-- Post an event at ring time `at`: byte 0x10 `b10`, source `src` (0xFF none), level `lv`, `last` the lasting flag,
`record` whether the history log records it, `data` bytes 0x14 on (R357, R371). -/
def postAt (t : Time) (code b10 src lv : Nat) (last record : Bool) (data : List Byte) (d : Dev) : Dev :=
  let urgent := urgentCode code
  let keep := record && withinBudget d code urgent
  let e : EvRec := ⟨code, d.rg.pos, urgent, d.ev.count,
    t, [BitVec.ofNat 8 b10, BitVec.ofNat 8 src, BitVec.ofNat 8 lv, BitVec.ofNat 8 (b2n last + 2 * b2n keep)] ++ data⟩
  let d := { d with ev := { d.ev with count := (d.ev.count + 1) % 65536 } }
  let d := if keep then logRec 1 0 (e.bytes (2 * b2n urgent)) d
           else if record then { d with mm := { d.mm with overBudget := true } } else d
  sendEvent e d

/-- Post an event without a source (R357, R371). -/
def post (code b10 : Nat) (data : List Byte) (d : Dev) : Dev := postAt d.now code b10 0xFF 0 false true data d

/-- Count an occurrence in the open summary, saturating (R371). -/
def countOcc (s : Nat) (d : Dev) : Dev :=
  { d with mm := { d.mm with summ := { d.mm.summ with
      occ := kset 0 d.mm.summ.occ s (satNat 255 (kget 0 d.mm.summ.occ s + 1)) } } }

/-- Post "source lasting" or "source cleared" (R355, R357). -/
def postTurn (code s i : Nat) (d : Dev) : Dev :=
  postAt d.now code i s (level d s i) (decide (code = 0x1E01)) true [BitVec.ofNat 8 (bucketN d s)] d

/-- One occurrence of instance i of source s at ring time t: level, its own event unless quiet, and "source lasting"
when the level reaches N (R355, R356). -/
def occurAt (t : Time) (s i code : Nat) (data : List Byte) (d : Dev) : Dev :=
  let was := lasting d s i
  let d := countOcc s (setLevel s i (satNat 255 (level d s i + 1)) d)
  let now := lasting d s i
  let d := if quiet d s then d else postAt t code i s (level d s i) now false data d
  if now && !was then postTurn 0x1E01 s i d else d

/-- One occurrence whose event the history log records as well: the dip of R37. -/
def occurLogged (t : Time) (s i code : Nat) (data : List Byte) (d : Dev) : Dev :=
  let was := lasting d s i
  let d := countOcc s (setLevel s i (satNat 255 (level d s i + 1)) d)
  let now := lasting d s i
  let d := if quiet d s then d else postAt t code i s (level d s i) now true data d
  if now && !was then postTurn 0x1E01 s i d else d

/-- One occurrence that posts no event of its own: the second bucket of one event (Table REG-5, 0x0601). -/
def countOnly (s i : Nat) (d : Dev) : Dev :=
  let was := lasting d s i
  let d := setLevel s i (satNat 255 (level d s i + 1)) d
  if lasting d s i && !was then postTurn 0x1E01 s i d else d

/-- One occurrence now. -/
def occur (s i code : Nat) (data : List Byte) (d : Dev) : Dev := occurAt d.now s i code data d

/-- The leak timer of an instance expires, and restarts while the level is above 0 (R355). -/
def leak (s i : Nat) (d : Dev) : Dev :=
  if !leakDue s i d then d
  else
    let was := lasting d s i
    let d := setLevel s i (level d s i - 1) (startLeak s i d)
    if was && !lasting d s i then postTurn 0x1E02 s i d else d

/-- A commit of a new N re-evaluates the instances of a source at once (R356). `was` says which were lasting. -/
def reevaluate (was : List Nat) (s : Nat) (d : Dev) : Dev :=
  each (fun i d =>
    let before := decide (i ∈ was)
    let now := lasting d s i
    if now && !before then postTurn 0x1E01 s i d
    else if before && !now then postTurn 0x1E02 s i d else d) (upFrom 0 (bucketCount s)) d

/-- The lasting instances of a source. -/
def lastingList (d : Dev) (s : Nat) : List Nat := (upFrom 0 (bucketCount s)).filter (fun i => lasting d s i)

/-! ### Refusals and configuration faults (R335, R339, R350) -/

/-- Code of a master in "write denied" (Table REG-5). Belvedere is never refused. -/
def masterCode : Master → Nat
  | .belvedere => 0 | .hostPort => 1 | .executor => 2 | .engine => 3

/-- Code of a privilege in "write denied" (Table REG-5). -/
def Priv.code : Priv → Nat
  | .any => 0 | .read => 1 | .dangerous => 2

/-- A write refused by privilege: counted, posted and in its bucket (R335). -/
def denied (m : Master) (off : Nat) (p : Priv) (d : Dev) : Dev :=
  occur 9 0 0x0202 (leBytes 2 off ++ [BitVec.ofNat 8 (masterCode m), BitVec.ofNat 8 p.code]) (bump R.protErrCnt 7 0 1 d)

/-- An access of a wrong width or alignment (R350). -/
def misaligned (d : Dev) : Dev := bump R.protErrCnt 23 16 1 d

/-- Block number of an offset (PROT_CFG_BLK's bits). -/
def blockOf (off : Nat) : Nat := off / 0x400

/-- Blocks of the map are 2 KiB or 1 KiB; PROT_CFG_BLK bit k names the block at offset k x 0x400. -/
def blockBase (off : Nat) : Nat :=
  if 0x2000 ≤ off ∧ off < 0x2400 then 0x2000
  else if 0x2400 ≤ off ∧ off < 0x2800 then 0x2400
  else off / 0x800 * 0x800

/-- The block of a register, as PROT_CFG_BLK numbers it. -/
def blockNum (off : Nat) : Nat := blockOf (blockBase off)

/-- Raise a configuration fault for a register: kind 1 parity, 2 value, 3 combination (R339). It stands in the place of an
earlier one of the same block and group. -/
def cfgFault (off kind : Nat) (group : Nat) (record : Bool) (d : Dev) : Dev :=
  let keep := d.pr.cfgFaults.filter (fun f => blockNum f.1 ≠ blockNum off || f.2.2 ≠ group)
  let d := { d with pr := { d.pr with cfgFaults := (off, kind, group) :: keep } }
  occur 8 0 0x0201 (leBytes 2 off ++ [BitVec.ofNat 8 kind, BitVec.ofNat 8 (b2n record)]) d

/-! ### Fault tone origination (R240, R312) -/

/-- A port begins the schedule of R240: its first burst of ten. -/
def LinkPort.startTone (now : Time) (x : LinkPort) : LinkPort := { x.cutOff now with toneTx := true, toneLeft := 9, toneFrom := now }

/-- The device originates the fault tone, or restarts its schedule (R240, R312). During a start each port keeps it
until its hop is UP (R427). Originating ends any forwarding. -/
def originate (d : Dev) : Dev :=
  match d.pw.st with
  | .starting =>
    { d with ln := { d.ln with toneDue := true }, ls := { d.ls with toneDue := true } }
  | .standby | .active | .closing =>
    { d with
      tn := { d.tn with fwd := none }
      ln := d.ln.startTone d.now
      ls := d.ls.startTone d.now }
  | _ => d

/-! ### Outputs (R309 to R318) -/

/-- An output's state. -/
def outState (d : Dev) : Out → OutState
  | .soa => d.sf.outA
  | .sob => d.sf.outB

/-- Replace an output's state. -/
def setOut (o : Out) (x : OutState) (d : Dev) : Dev :=
  match o with
  | .soa => { d with sf := { d.sf with outA := x } }
  | .sob => { d with sf := { d.sf with outB := x } }

/-- Switch an output off. A running off-test ends, its readback discarded and counted (R318); the next test opens the other enable (R316). -/
def outOff (o : Out) (d : Dev) : Dev :=
  let x := outState d o
  let d := setOut o { x with
    on := false, test := false, discard := false, offAt := if x.on then d.now else x.offAt
    enable := if x.test then 1 - x.enable else x.enable } d
  if x.test then bump R.safeCnt 31 16 1 d else d

/-- A reaction of a safety function switches the named outputs off; it counts once if one was on (SAFE_CNT.REACT). -/
def react (a b : Bool) (d : Dev) : Dev :=
  let hit := (a && d.sf.outA.on) || (b && d.sf.outB.on)
  let d := if a then outOff .soa d else d
  let d := if b then outOff .sob d else d
  if hit then bump R.safeCnt 15 0 1 d else d

/-- Outputs routed to a pair in SAFE_IN_CFG (R322): SOA, SOB. -/
def routed (d : Dev) (pair : Nat) : Bool × Bool :=
  let r := regFld d R.safeInCfg (14 + 16 * pair) (13 + 16 * pair)
  (decide (r % 2 = 1), decide (r / 2 = 1))

/-! ### Fault latches (R311) -/

/-- Bits of SAFE_FAULT marked Yes in the Tone column of Table SAFE-1. -/
def toneBit (b : Nat) : Bool := decide (b ≤ 2) || decide (4 ≤ b ∧ b ≤ 9) || decide (13 ≤ b ∧ b ≤ 15)

/-- Is a bit of SAFE_FAULT latched? -/
def faultBit (d : Dev) (b : Nat) : Bool := d.sf.causes.any (fun c => c.1 == b)

/-- SAFE_FAULT as a number. -/
def faultMap (d : Dev) : Nat := mapBits (faultBit d) 0 18

/-- What a latch of a bit for an item does to the outputs of a head (Table SAFE-1). -/
def faultReact (b item : Nat) (d : Dev) : Dev :=
  if b = 10 then let r := routed d (item / 2); react r.1 r.2 d
  else if b = 11 then let r := routed d 0; react r.1 r.2 d
  else if b = 12 then let r := routed d 1; react r.1 r.2 d
  else if b = 16 then (if item = 0 then outOff .soa d else outOff .sob d)
  else react true true d

/-- The position that a latch names: that of the device, or unknown for the fault tone (SAFE_LAST). -/
def latchPos (b : Nat) (d : Dev) : Nat := if b = 3 then 0x3F else d.rg.pos

/-- The record of a new latch in SAFE_FAULT and SAFE_LAST, and its count in the open summary (R311). A release armed before it does not
release it (R313). -/
def latchNote (b item : Nat) (d : Dev) : Dev :=
  { d with
    sf := { d.sf with
      causes := d.sf.causes.filter (fun c => c ≠ (b, item)) ++ [(b, item)]
      present := d.sf.present ++ [(b, item)]
      armedSet := d.sf.armedSet.filter (fun c => c ≠ (b, item))
      lastBit := b
      lastPos := latchPos b d
      lastTime := d.now }
    mm := { d.mm with summ := { d.mm.summ with latches := d.mm.summ.latches + 1 } } }

/-- Latch a cause: bit b of SAFE_FAULT for the item it names (R311). A cause that is still present cannot arise
again and makes no new latch. -/
def latch (b item : Nat) (d : Dev) : Dev :=
  if (b, item) ∈ d.sf.present then d
  else
    let d := faultReact b item (post 0x1601 item [BitVec.ofNat 8 b, BitVec.ofNat 8 (latchPos b d), BitVec.ofNat 8 item]
      (latchNote b item d))
    if toneBit b then originate d else d

/-- A cause is no longer present; it may arise again (R311). Its latch stays. -/
def gone (b item : Nat) (d : Dev) : Dev :=
  { d with sf := { d.sf with present := d.sf.present.filter (fun c => c ≠ (b, item)) } }

/-- The latch that a lasting instance of a source keeps present: its bit and item (Table SAFE-1). -/
def bucketFault (s i : Nat) : Option (Nat × Nat) :=
  match s with
  | 0 => some (6, i + 1)
  | 1 => some (4, i + 1)
  | 2 => some (5, 0)
  | 3 => some (7, 0)
  | 4 => some (9, i)
  | 5 => some (10, i)
  | _ => none

/-- One occurrence of a source whose lasting instance latches a fault: the latch follows at N (R88, R90, R100, R134,
R316, R321). -/
def occurFault (s i code : Nat) (data : List Byte) (d : Dev) : Dev :=
  let d := occur s i code data d
  if lasting d s i then (match bucketFault s i with
    | some c => latch c.1 c.2 d
    | none => d) else d

/-- Release a cause (R311). -/
def release (b item : Nat) (d : Dev) : Dev :=
  if (b, item) ∈ d.sf.causes then
    let d := gone b item { d with sf := { d.sf with causes := d.sf.causes.filter (fun c => c ≠ (b, item)) } }
    post 0x1602 item [BitVec.ofNat 8 b, BitVec.ofNat 8 d.rg.pos, BitVec.ofNat 8 item] d
  else d

/-! ### Commands at this device (R251, R289, R293) -/

namespace St
/-- DONE. -/
abbrev done : Nat := 0x00
/-- DONE_PARTIAL. -/
abbrev partial' : Nat := 0x01
/-- ABORTED. -/
abbrev aborted : Nat := 0x02
/-- DENIED_PRIV. -/
abbrev deniedPriv : Nat := 0x10
/-- DENIED_WINDOW. -/
abbrev deniedWindow : Nat := 0x11
/-- DENIED_STATE. -/
abbrev deniedState : Nat := 0x12
/-- TIMEOUT. -/
abbrev timeout : Nat := 0x20
/-- RING_BREAK. -/
abbrev ringBreak : Nat := 0x21
/-- NO_SUCH_POSITION. -/
abbrev noSuchPosition : Nat := 0x22
/-- INPUT_NOT_READY. -/
abbrev inputNotReady : Nat := 0x30
/-- RESOURCE_BUSY. -/
abbrev resourceBusy : Nat := 0x31
/-- CHECK_FAIL. -/
abbrev checkFail : Nat := 0x40
/-- NVM_FAIL. -/
abbrev nvmFail : Nat := 0x41
/-- INTERNAL. -/
abbrev internal : Nat := 0x7F
end St

/-- The fragments of a final RESPONSE, at most 244 bytes each, numbered from i (R251, Table RING-2). -/
def responseFrames (d : Dev) (h status total : Nat) : Nat → Nat → List Byte → List Frame
  | 0, _, _ => []
  | n + 1, i, l =>
    ownFrame d 0 0x02 i
      (leBytes 2 h ++ [1, BitVec.ofNat 8 status] ++ leBytes 4 total ++ leBytes 4 (244 * i) ++ l.take 244) ::
    responseFrames d h status total n (i + 1) (l.drop 244)

/-- Send the final RESPONSE of a handle: as many fragments as the result needs, at least one (R251). -/
def sendFinal (h status : Nat) (res : List Byte) (d : Dev) : Dev :=
  each (fun f d => enqueue (headPort d) f d)
    (responseFrames d h status res.length (max 1 ((res.length + 243) / 244)) 0 res) d

/-- Send the accept RESPONSE of a handle; it always carries ACCEPTED (R284). -/
def sendAccept (h : Nat) (d : Dev) : Dev :=
  enqueue (headPort d) (ownFrame d 0 0x02 0 (leBytes 2 h ++ [0, 1] ++ zeros 8)) d

/-- A command ends at this device (R251). In the head its completion waits for the end of the step; in a stack
device that holds the handle, the final RESPONSE is sent and the result held. -/
def finish (h status : Nat) (res : List Byte) (d : Dev) : Dev :=
  if d.head then { d with ex := { d.ex with done := d.ex.done ++ [⟨h, status, res⟩] } }
  else if d.ex.cmds.any (fun c => c.h == h) then
    let d := { d with ex := { d.ex with
      cmds := d.ex.cmds.filter (fun c => c.h ≠ h)
      bulk := d.ex.bulk.filter (fun b => b.1 ≠ h)
      results := d.ex.results.filter (fun r => r.h ≠ h) ++ [⟨h, status, res, d.now⟩] } }
    sendFinal h status res d
  else d


end Sys2Proof.Machine
end

