-- ==== Sys2Proof/Machine/EngMath.lean ====
section
/-! DEFINITION. Numbers of the engines: single-precision words, roots, arctangents and tables (file 06). Values are exact rationals until
they are written; a float32 that is written is the nearest one (PRESUMED, log entry 44). -/

namespace Sys2Proof.Machine

/-! ### Single-precision values -/

/-- Value of a finite float32 word times 2^149; none for infinities and not-a-number. -/
def f32Num (w : Word) : Option Int :=
  let e := fld w 30 23
  let m := fld w 22 0
  if e = 255 then none
  else
    let v : Int := if e = 0 then (m : Int) else ((m + 2 ^ 23) * 2 ^ (e - 1) : Nat)
    some (if bit w 31 then -v else v)

/-- 2^149. -/
def f32One : Int := 2 ^ 149

/-- Value of a finite float32 word; 0 for any other. -/
def f32Rat (w : Word) : Rat := ((f32Num w).getD 0 : Rat) / (f32One : Rat)

/-- Does a float32 satisfy p, of its value times 2^149? -/
def f32Is (w : Word) (p : Int → Bool) : Bool :=
  match f32Num w with
  | some v => p v
  | none => false

/-- Quiet not-a-number. -/
def qnan : Word := 0x7FC00000

/-- Infinity. -/
def f32Inf : Word := 0x7F800000

/-- The float32 nearest n/d, halves to even (PRESUMED: the rounding of an IEEE 754 unit), for values from 2^-40 to 2^40. -/
def f32Of (n d : Nat) : Word :=
  if n = 0 ∨ d = 0 then 0
  else
    let q := 2 * (n * 2 ^ 64 / d) + b2n (decide (n * 2 ^ 64 % d ≠ 0))
    let sh := q.log2 - 23
    let m := q / 2 ^ sh
    let r := q % 2 ^ sh
    let m := if 2 ^ sh < 2 * r ∨ (2 * r = 2 ^ sh ∧ m % 2 = 1) then m + 1 else m
    BitVec.ofNat 32 ((sh + 23 + 127 - 65) * 2 ^ 23 + (m - 2 ^ 23))

/-- The float32 nearest a rational. -/
def f32OfRat (x : Rat) : Word :=
  let w := f32Of x.num.natAbs x.den
  if x < 0 then w ||| 0x80000000 else w

/-- Not-a-number where there is no value. -/
def f32Opt (x : Option Rat) : Word :=
  match x with
  | some v => f32OfRat v
  | none => qnan

/-- A frequency of 0.05 Hz to 5,000 Hz. -/
def freqOk (w : Word) : Bool := f32Is w (fun v => decide (f32One ≤ 20 * v) && decide (v ≤ 5000 * f32One))

/-- The harmonic k that an entry of -1.0 to -5.0 names (R169). -/
def lineOf (w : Word) : Option Nat := (upFrom 1 5).find? (fun k => f32Is w (fun v => decide (v = -((k : Int) * f32One))))

/-- An entry names a line point. -/
def lineOk (w : Word) : Bool := (lineOf w).isSome

/-! ### Roots -/

/-- The largest r below 2^bits, on the bits still to be set, whose k-th power is at most x. -/
def rootFrom (k x : Nat) : Nat → Nat → Nat
  | 0, r => r
  | b + 1, r => if (r + 2 ^ b) ^ k ≤ x then rootFrom k x b (r + 2 ^ b) else rootFrom k x b r

/-- The k-th root of x, rounded down. -/
def rootNat (k x : Nat) : Nat := if k = 0 then 0 else rootFrom k x (x.log2 / k + 1) 0

/-- The float32 nearest the square root of n/d: a root of 2^-40 to 2^40. -/
def f32Sqrt (x : Rat) : Word :=
  let n := x.num.natAbs * 2 ^ 200 / x.den
  let r := rootNat 2 n
  f32Of (2 * r + b2n (decide (r * r ≠ n) || decide (x.num.natAbs * 2 ^ 200 % x.den ≠ 0))) (2 ^ 101)

/-- Point i of n points spaced logarithmically from a to b (R169): a x (b / a)^(i / (n - 1)), the float32 nearest it. -/
def logPoint (a b : Word) (n i : Nat) : Word :=
  match f32Num a, f32Num b with
  | some x, some y =>
    if n ≤ 1 ∨ i = 0 then a
    else if i = n - 1 then b
    else
      let k := n - 1
      f32Of (rootNat k (x.toNat ^ (k - i) * y.toNat ^ i * 2 ^ (40 * k))) (2 ^ 189)
  | _, _ => a

/-! ### Logarithm and arctangent -/

/-- ln 2 times 2^64. -/
def ln2Fix : Int := 12786308645202655660

/-- The odd power series of atanh (sign 1) or atan (sign -1) at y, times 2^64: n terms from y^k / k. -/
def oddSeries (sign y2 : Int) : Nat → Nat → Int → Int
  | 0, _, _ => 0
  | n + 1, k, p => p / (k : Int) + oddSeries sign y2 n (k + 2) (sign * (p * y2 / 2 ^ 64))

/-- ln (n / m) times 2^64 for n, m > 0, to better than 2^-50. -/
def lnFix (n m : Nat) : Int :=
  let a := n * 2 ^ (m.log2 - n.log2)
  let b := m * 2 ^ (n.log2 - m.log2)
  let y : Int := ((a : Int) - b) * 2 ^ 64 / ((a : Int) + b)
  2 * oddSeries 1 (y * y / 2 ^ 64) 28 1 y + ((n.log2 : Int) - m.log2) * ln2Fix

/-- A quarter of pi, times 2^64. -/
def quarterPi : Int := 14488038916154245685

/-- atan x times 2^64 for x from 0 to 1, to better than 2^-50. -/
def atanUnit (x : Rat) : Int :=
  let fix (z : Rat) : Int := z.num * 2 ^ 64 / z.den
  let s (y : Int) : Int := oddSeries (-1) (y * y / 2 ^ 64) 28 1 y
  if x ≤ 2 / 5 then s (fix x) else quarterPi - s (fix ((1 - x) / (1 + x)))

/-- Phase of re + j im in degrees, to better than 10^-12. -/
def phaseDeg (re im : Rat) : Rat :=
  let a := |re|
  let b := |im|
  if a = 0 ∧ b = 0 then 0
  else
    let q : Int := if b ≤ a then atanUnit (b / a) else 2 * quarterPi - atanUnit (a / b)
    let h : Int := if 0 ≤ re then q else 4 * quarterPi - q
    (45 : Rat) * ((if 0 ≤ im then h else -h : Int) : Rat) / (quarterPi : Rat)

/-! ### Rounding and tables -/

/-- p / q rounded to the nearest integer, halves away from zero. -/
def roundHalf (p q : Int) : Int :=
  let (p, q) := if q < 0 then (-p, -q) else (p, q)
  if 0 ≤ p then (2 * p + q) / (2 * q) else -((-2 * p + q) / (2 * q))

/-- A rational rounded to the nearest integer, halves away from zero. -/
def roundRat (x : Rat) : Int := roundHalf x.num x.den

/-- Linear interpolation in a table of ascending x; none outside it (DEDUCED: no rule states another interpolation). -/
def interp (x : Rat) : List (Rat × Rat) → Option Rat
  | [] => none
  | [p] => if x = p.1 then some p.2 else none
  | p :: q :: r =>
    if p.1 ≤ x ∧ x ≤ q.1 ∧ p.1 < q.1 then some (p.2 + (q.2 - p.2) * (x - p.1) / (q.1 - p.1)) else interp x (q :: r)

/-- Where a table with y not falling reaches the value y, with the slope there; none where no rising piece does. -/
def invert (y : Rat) : List (Rat × Rat) → Option (Rat × Rat)
  | p :: q :: r =>
    if p.2 ≤ y ∧ y ≤ q.2 ∧ p.2 < q.2 then
      some (p.1 + (q.1 - p.1) * (y - p.2) / (q.2 - p.2), (q.2 - p.2) / (q.1 - p.1))
    else invert y (q :: r)
  | _ => none

/-- Swap the columns of a table, in the order of rising second entries. -/
def swapped (l : List (Rat × Rat)) : List (Rat × Rat) :=
  let m := l.map (fun p => (p.2, p.1))
  match m with
  | a :: b :: _ => if b.1 < a.1 then m.reverse else m
  | _ => m

/-- Insert into an ascending list. -/
def insertRat (x : Rat) : List Rat → List Rat
  | [] => [x]
  | a :: r => if x ≤ a then x :: a :: r else a :: insertRat x r

/-- The median of a list: the mean of the middle two where their number is even (DEDUCED). -/
def median (l : List Rat) : Rat :=
  let s := l.foldl (fun a x => insertRat x a) []
  let n := s.length
  if n % 2 = 1 then s.getD (n / 2) 0 else (s.getD (n / 2 - 1) 0 + s.getD (n / 2) 0) / 2

/-- Sum of a list. -/
def sumRat (l : List Rat) : Rat := l.foldl (fun a x => a + x) 0

/-- Mean of a list; none of an empty one. -/
def meanRat (l : List Rat) : Option Rat := if l.isEmpty then none else some (sumRat l / (l.length : Rat))

/-- Slope of the least-squares line through a list at 0, 1, 2, ...; 0 for fewer than two. -/
def slopeRat (l : List Rat) : Rat :=
  let n : Rat := l.length
  let xm := (n - 1) / 2
  let xs := (upFrom 0 l.length).map (fun i => ((i : Nat) : Rat) - xm)
  let den := sumRat (xs.map (fun x => x * x))
  if den = 0 then 0 else sumRat ((xs.zip l).map (fun p => p.1 * p.2)) / den

end Sys2Proof.Machine
end

