-- ==== Sys2Proof/Machine/Online.lean ====
section
/-! DEFINITION. The assignment of cells to engines (R164 to R166), repair analysis of memories (R397), the memory test of one engine (R396), and
the comparator pairs' online test as data (R394): what ends as ring time runs, so this file stands before the commands. -/

namespace Sys2Proof.Machine

/-! ### Cells and engines -/

/-- Cells 1 to NCELLS. -/
def cellsUsed (d : Dev) : List Nat := upFrom 1 (ncells d)

/-- Change the engines' fields. -/
def withEng (f : Eng → Eng) (d : Dev) : Dev := { d with en := f d.en }

/-- Cells of a mask, ascending. -/
def maskCells (m : Nat) : List Nat := (upFrom 1 32).filter (fun n => bit (BitVec.ofNat 32 m) (n - 1))

/-- Engine of cell n (R164). -/
def engineOf (d : Dev) (n : Nat) : Nat := regFld d (R.engAssign0 + 4 * ((n - 1) / 8)) (4 * ((n - 1) % 8) + 3) (4 * ((n - 1) % 8))

/-- Engine k has failed. -/
def engineFailed (d : Dev) (k : Nat) : Bool := bit (BitVec.ofNat 32 d.en.failed) k

/-- Configured cells assigned to engine k. -/
def servedBy (d : Dev) (k : Nat) : List Nat := (cellsUsed d).filter (fun n => engineOf d n == k)

/-! ### Assignment (R164 to R166) -/

/-- Cell n has moved to another engine: its replay begins (R165). An engine that served no cell until now has 300 ms for its first checkpoint
(R166). -/
def moved (n : Nat) (d : Dev) : Dev :=
  let add (l : List Nat) (mask : Nat) : List Nat := if n ∈ maskCells mask ∧ n ∉ l then l ++ [n] else l
  let k := engineOf d n
  let first := decide ((servedBy d k).length ≤ 1)
  withEng (fun e => { e with
    rebal := if n ∈ e.rebal then e.rebal else e.rebal ++ [n]
    wrote := if first then kset 0 e.wrote k d.now else e.wrote
    imp := e.imp.map (fun j => if j.begun then { j with recomp := add j.recomp j.mask } else j)
    est := e.est.map (fun j => { j with recomp := add j.recomp j.mask }) }) d

/-- The engines of cells 1 to 32, before a commit. -/
def assignment (d : Dev) : List Nat := (upFrom 1 32).map (engineOf d)

/-- After a commit of ENG_ASSIGN: every configured cell whose engine changed has moved (R165). -/
def engineMoves (old : List Nat) (d : Dev) : Dev :=
  each (fun n d => if old.getD (n - 1) 0 = engineOf d n then d else moved n d) (cellsUsed d) d

/-- The healthy engine with the fewest cells, lowest index first, that may take one more (R164, R166). -/
def freeEngine (d : Dev) : Option Nat :=
  let ok := (upFrom 0 16).filter (fun k => !engineFailed d k && decide ((servedBy d k).length < 8))
  ok.find? (fun k => ok.all (fun j => decide ((servedBy d k).length ≤ (servedBy d j).length)))

/-- Belvedere moves one cell to a healthy engine (R166). -/
def moveCell (n : Nat) (d : Dev) : Dev :=
  match freeEngine d with
  | some k =>
    let off := R.engAssign0 + 4 * ((n - 1) / 8)
    let i := 4 * ((n - 1) % 8)
    moved n (hwStand off (setFld 0 (i + 3) i 0xF) (setFld 0 (i + 3) i k) d)
  | none => d

/-- With AUTO_REBAL, the cells of an engine that has failed move to healthy ones (R166). -/
def rebalance (cells : List Nat) (d : Dev) : Dev := if regBit d R.engCtrl 1 then each moveCell cells d else d

/-- Engine k fails; cause 1 self-test, 2 memory, 3 checkpoint (R166). -/
def engineFail (k cause : Nat) (d : Dev) : Dev :=
  if decide (k < 16) && !engineFailed d k then
    let cells := servedBy d k
    let d := withEng (fun e => { e with
      failed := e.failed + 2 ^ k
      imp := e.imp.map (fun j => if (maskCells j.mask).any (fun n => decide (n ∈ cells)) then { j with fault := true } else j) }) d
    let d := occur 23 k 0x0E01 [BitVec.ofNat 8 cause] d
    rebalance cells d
  else d

/-- Change the self-test fields. -/
def withBist (f : Bist → Bist) (d : Dev) : Dev := { d with bi := f d.bi }

/-! ### Repair analysis (R397) -/

/-- Row of a word address (R397). -/
def rowOf (a : Nat) : Nat := a / 32 % 256

/-- Distinct rows in which a bit position fails. -/
def failRows (fails : List (Nat × Nat)) (b : Nat) : Nat :=
  (((fails.filter (fun f => f.2 == b)).map (fun f => rowOf f.1)).eraseDups).length

/-- First free usable spare row, by number. -/
def freeRow (x : BankRepair) : Option Nat :=
  (upFrom 0 4).find? (fun i => decide (x.rows.getD i 0 = 0xFFFF) && !x.unusable.testBit i)

/-- First free usable spare column. -/
def freeCol (x : BankRepair) : Option Nat :=
  (upFrom 0 2).find? (fun i => decide (x.cols.getD i 0 = 0xFF) && !x.unusable.testBit (4 + i))

/-- Step 1 of R397: bit positions that fail in three or more rows take spare columns, ascending. -/
def takeCols (fails : List (Nat × Nat)) : List Nat → BankRepair → BankRepair
  | [], x => x
  | b :: r, x =>
    if 3 ≤ failRows fails b then
      (match freeCol x with
        | some i => takeCols fails r { x with cols := x.cols.set i b }
        | none => takeCols fails r x)
    else takeCols fails r x

/-- Step 2 of R397: rows still holding a failure take spare rows, ascending. -/
def takeRows (left : List (Nat × Nat)) : List Nat → BankRepair → BankRepair
  | [], x => x
  | w :: r, x =>
    if left.any (fun f => rowOf f.1 == w) then
      (match freeRow x with
        | some i => takeRows left r { x with rows := x.rows.set i w }
        | none => takeRows left r x)
    else takeRows left r x

/-- Is a failure covered by a spare? -/
def covered (x : BankRepair) (f : Nat × Nat) : Bool := decide (f.2 ∈ x.cols) || decide (rowOf f.1 ∈ x.rows)

/-- A spare that fails is unusable: addresses from 0x8000 on name spares (R397, Table BIST-3). -/
def markSpares (fails : List (Nat × Nat)) (x : BankRepair) : BankRepair :=
  { x with unusable := (fails.filter (fun f => decide (0x8000 ≤ f.1))).foldl (fun m f => m ||| 2 ^ ((f.1 - 0x8000) % 6)) x.unusable }

/-- Analysis of one bank (R397): its spares afterwards. -/
def analyse (fails : List (Nat × Nat)) (x : BankRepair) : BankRepair :=
  let x := markSpares fails x
  let cells := fails.filter (fun f => decide (f.1 < 0x8000))
  let x := takeCols cells (upFrom 0 79) x
  takeRows (cells.filter (fun f => decide (f.2 ∉ x.cols))) (upFrom 0 256) x

/-- Failures that the spares leave over (R397, step 3). -/
def leftOver (fails : List (Nat × Nat)) (x : BankRepair) : List (Nat × Nat) :=
  fails.filter (fun f => decide (f.1 < 0x8000) && !covered x f)

/-- The failing words of a bank, in capture order, each with its bit positions: a failure is a word (R387, Table BIST-3; log 125). -/
def failWords (fails : List (Nat × Nat)) : List (Nat × List Nat) :=
  (fails.map Prod.fst).eraseDups.map (fun a => (a, ((fails.filter (fun f => f.1 == a)).map Prod.snd).eraseDups))

/-- A failure entry: the bit position, or 0xFF for several bits (Table BIST-3). -/
def failEntry (m : Nat) (x : BankRepair) (f : Nat × List Nat) : List Byte :=
  let spare := decide (0x8000 ≤ f.1)
  let left := f.2.filter (fun b => decide (b ∉ x.cols))
  let col := !spare && decide (left.length < f.2.length)
  let row := !spare && !left.isEmpty && decide (rowOf f.1 ∈ x.rows)
  let bit := match f.2 with
    | [b] => b
    | _ => 0xFF
  [BitVec.ofNat 8 m, BitVec.ofNat 8 bit,
    BitVec.ofNat 8 (pack [(b2n row, 0), (b2n col, 1), (b2n spare, 2), (b2n (!spare && !left.isEmpty && !row), 3)]), 0] ++ leBytes 4 f.1

/-- The failure entries of a bank, at most 16, a decoder failure last (R387, Table BIST-3). -/
def bankEntries (x : BankRepair) (b : BankFails) : List (List Byte) :=
  (((failWords b.fails).map (failEntry b.mem x)) ++
    (if b.decoderFail then [[BitVec.ofNat 8 b.mem, 0xFE, 0, 0] ++ zeros 4] else [])).take 16

/-- Spares of a bank in use. -/
def bankRepair (d : Dev) (m : Nat) : BankRepair := kget BankRepair.init d.bi.banks m

/-- Number of rows and columns in use. -/
def rowsUsed (x : BankRepair) : Nat := (x.rows.filter (fun r => r ≠ 0xFFFF)).length
/-- Columns in use. -/
def colsUsed (x : BankRepair) : Nat := (x.cols.filter (fun c => c ≠ 0xFF)).length

/-- Does the bank fail its test (R387)? -/
def bankFails (x : BankRepair) (b : BankFails) : Bool :=
  (!b.fails.isEmpty && (b.retestFail || !(leftOver b.fails x).isEmpty)) || b.decoderFail

/-- One bank of a memory test: analysis, soft repair of a repairable bank, "repair applied" (R386, R387, R397). -/
def testBank (b : BankFails) (d : Dev) : Dev :=
  let was := bankRepair d b.mem
  let x := analyse b.fails was
  let bad := !(leftOver b.fails x).isEmpty
  let x := if bad then markSpares b.fails was else x
  let d := withBist (fun t => { t with
    banks := kset BankRepair.init t.banks b.mem x
    recDue := t.recDue || decide (x ≠ was)
    unrep := t.unrep ||| (if bad then 2 ^ b.mem else 0) }) d
  let r := rowsUsed x - rowsUsed was
  let c := colsUsed x - colsUsed was
  if r + c = 0 then d
  else post 0x1C03 0 [BitVec.ofNat 8 b.mem, 1, BitVec.ofNat 8 r, BitVec.ofNat 8 c] d

/-- Banks that a closing, and a full start after an aborted one, test transparently, with bank 0x25 which shares their round (R386). -/
def transparentBank (m : Nat) : Bool := decide (0x20 ≤ m ∧ m ≤ 0x25)

/-- The repaired banks that the retest takes in (R387, Table BIST-1 step 4): rounds of three in index order while their slots, of which there
are seven, last; a round that holds a bank under transparent test takes two. -/
def retested (transparent : Bool) : Nat → Nat → List Nat → List Nat
  | 0, _, _ => []
  | n + 1, slots, l =>
    let r := l.take 3
    let cost := if transparent && r.any transparentBank then 2 else 1
    if r.isEmpty ∨ slots < cost then [] else r ++ retested transparent n (slots - cost) (l.drop 3)

/-- The banks of a test, a repairable one that finds no room among the retest rounds counted as failing its retest (R387). -/
def withRoom (transparent : Bool) (d : Dev) (l : List BankFails) : List BankFails :=
  let repaired (b : BankFails) : Bool := !b.fails.isEmpty && (leftOver b.fails (analyse b.fails (bankRepair d b.mem))).isEmpty
  let todo := (upFrom 0 66).filter (fun m => l.any (fun b => decide (b.mem = m) && repaired b))
  let room := retested transparent 7 7 todo
  l.map (fun b => { b with retestFail := b.retestFail || (repaired b && decide (b.mem ∉ room)) })

/-! ### The memory test of one engine (R396) -/

/-- Banks that a test repaired. -/
def repairedBanks (was now : List (Nat × BankRepair)) : Nat :=
  ((upFrom 0 66).filter (fun m => decide (kget BankRepair.init was m ≠ kget BankRepair.init now m) &&
    decide (rowsUsed (kget BankRepair.init was m) + colsUsed (kget BankRepair.init was m) <
      rowsUsed (kget BankRepair.init now m) + colsUsed (kget BankRepair.init now m)))).length

/-- Before the test of engine k its banks are not unrepairable at the last test. -/
def retestEngine (k : Nat) (d : Dev) : Dev :=
  withBist (fun t => { t with unrep := mapBits (fun i => t.unrep.testBit i && decide (i ≠ k) && decide (i ≠ 16 + k)) 0 66 }) d

/-- The repair record excludes engine k where the test of its banks failed, and no longer where it passed (R387). -/
def excludeEngine (k : Nat) (bad : Bool) (d : Dev) : Dev :=
  withBist (fun t =>
    let ex := mapBits (fun i => if i = k then bad else t.engines.testBit i) 0 16
    { t with engines := ex, recDue := t.recDue || decide (t.engines ≠ ex) }) d

/-- The memory test of engine k ends (R396): repairs, the engine's outcome, and the SELFTEST's completion. -/
def engineTested (h k : Nat) (l : List BankFails) (d : Dev) : Dev :=
  let l := withRoom false d (l.filter (fun b => decide (b.mem = k ∨ b.mem = 16 + k)))
  let was := d.bi.banks
  let d := each testBank l (retestEngine k (withBist (fun t => { t with engTest := none }) d))
  let bad := l.any (fun b => bankFails (bankRepair d b.mem) b)
  let es := l.flatMap (fun b => bankEntries (bankRepair d b.mem) b)
  let d := excludeEngine k bad (if bad then engineFail k 2 d else d)
  finish h St.done ([BitVec.ofNat 8 k, BitVec.ofNat 8 (b2n bad), BitVec.ofNat 8 (repairedBanks was d.bi.banks),
    BitVec.ofNat 8 es.length] ++ zeros 4 ++ es.flatten) d

/-! ### A comparator pair's online test (R394) -/

/-- code(v) = floor(v / 5 mV), v in uV (R394). -/
def thrCode (v : Int) : Int := v / 5000

/-- Is a code that a half-step would set within a threshold's range? The half-step is skipped otherwise (R394). -/
def codeFits (c : Int) : Bool := decide (0 ≤ c) && decide (c ≤ 0x3FF)

/-- The OV half of a pair's test fails (Table BIST-5): its output does not assert within 100 us at code(v) - 4, does not release within 100 us
at code(v) + 5, or does not agree with the stand-in. -/
def ovFails (v : Int) (p : PairSeen) : Bool :=
  (codeFits (thrCode v - 4) && decide (100 < p.ovUp)) || (codeFits (thrCode v + 5) && decide (100 < p.ovDown)) || !p.ovAgree

/-- The UV half: asserted at code(v) + 5, released at code(v) - 4 (Table BIST-5). -/
def uvFails (v : Int) (p : PairSeen) : Bool :=
  (codeFits (thrCode v + 5) && decide (100 < p.uvUp)) || (codeFits (thrCode v - 4) && decide (100 < p.uvDown)) || !p.uvAgree

end Sys2Proof.Machine
end

