-- ==== Sys2Proof/Machine/CalSlot.lean ====
section
/-! DEFINITION. The lanes' corners and windows, the rotation that relieves them, and what a relief slot does as its time runs
(R37, R66 to R72, R99, R100, R105 to R116). It runs with ring time, so this file stands before the commands. -/

namespace Sys2Proof.Machine

/-! ### Lanes -/

/-- Lane index of a cell in a group (Table CAL-1). -/
def laneIdx (g : LaneGroup) (cell : Nat) : Nat :=
  match g with
  | .a => cell - 1
  | .b => 31 + cell

/-- Register of a lane's result. -/
def resOff (g : LaneGroup) (cell : Nat) : Nat :=
  match g with
  | .a => R.measResA + 4 * (cell - 1)
  | .b => R.measResB + 4 * (cell - 1)

/-- The other group. -/
def otherGroup : LaneGroup → LaneGroup
  | .a => .b
  | .b => .a

/-- Corner index of a group (R67). -/
def corner (d : Dev) : LaneGroup → Nat
  | .a => regFld d R.measCtrl 2 0
  | .b => regFld d R.measCtrl 6 4

/-- Notch of a group (R69): 0 none, 1 100 Hz, 2 120 Hz. -/
def notch (d : Dev) (g : LaneGroup) : Nat :=
  let on := match g with
    | .a => regBit d R.measCtrl 8
    | .b => regBit d R.measCtrl 9
  if on then (if regBit d R.measCtrl 10 then 2 else 1) else 0

/-- Window length W in ring-time LSBs (Table MEAS-3). -/
def windowLen (idx nch : Nat) : Nat :=
  match nch with
  | 0 => [43250, 137000, 512000, 2012000, 8012000, 32012000, 128012000].getD idx 128012000
  | 1 => [43250, 137000, 512000, 2012000, 10012000, 34012000, 130012000].getD idx 130012000
  | _ => [43250, 137000, 512000, 2012000, 9680000, 33680000, 129680000].getD idx 129680000

/-- W of a group. -/
def groupW (d : Dev) (g : LaneGroup) : Nat := windowLen (corner d g) (notch d g)

/-- Output period P in half ring-time LSBs (Table MEAS-1). -/
def groupP2 (d : Dev) (g : LaneGroup) : Nat := 15625 * 4 ^ corner d g

/-- Tap bits of MEAS_OW_STAT that mark a cell (R87): Cn or C(n-1). -/
def owCell (d : Dev) (cell : Nat) : Bool :=
  regBit d R.measOwStat (cell - 1) || (decide (2 ≤ cell) && regBit d R.measOwStat (cell - 2))

/-- External FET mode (R16). -/
def extFet (d : Dev) : Bool := regBit d R.balCtrl 0

/-- The span leaves lo to hi. -/
def spanOutside (s : Span) (lo hi : Int) : Bool := decide (s.lo < lo ∨ hi < s.hi)

/-- Signed low 24 bits of a register. -/
def reg24 (d : Dev) (off : Nat) : Int := signed 24 (reg d off).toNat

/-- Some instant from a to b lies in the affected interval of a supply dip, for a lane whose window is W long (R37). -/
def dipMeets (d : Dev) (W a b : Nat) : Bool :=
  (d.pw.warn && decide (d.pw.warnAt.toNat ≤ b)) ||
  (match d.pw.dip with
    | some (x, y) => decide (x.toNat ≤ b) && decide (a ≤ y.toNat + max (msT 1) W)
    | none => false)

/-- Is instant T in the affected interval of a supply dip (R37)? -/
def inDip (d : Dev) (W : Nat) (T : Time) : Bool := dipMeets d W T.toNat T.toNat

/-! ### Corrections in force at an instant (R101, R109) -/

/-- A correction register changes: the word it held stays known for the longest window and for a CAL_USER job, since a part of a window is
corrected with the words of its own time (R101), and a job's samples with those of the start of its measurement interval (R126). -/
def setCorr (off : Nat) (v : Word) (d : Dev) : Dev :=
  let d' := setReg off v d
  if reg d off = v then d'
  else { d' with ca := { d'.ca with
    was := (d.now, off, reg d off) :: d.ca.was.filter (fun e => decide (since e.1 d.now < 6 * lsbPerSec)) } }

/-- The word that a correction register held at T. -/
def corrAt (d : Dev) (T : Nat) (off : Nat) : Word :=
  match (d.ca.was.filter (fun e => decide (e.2.1 = off) && decide (T < e.1.toNat))).getLast? with
  | some e => e.2.2
  | none => reg d off

/-- A relief that began at t0 has its spare on the lane at T: from 10 ms to 240 ms (Table CAL-3). -/
def onSpare (t0 T : Nat) : Bool := decide (t0 + msT 10 ≤ T) && decide (T < t0 + msT 240)

/-- The modulator that feeds a lane at T (R108): a spare during a relief, else the lane's own. -/
def modulatorAt (d : Dev) (lane T : Nat) : Nat :=
  match d.ca.relief.find? (fun r => r.1 == lane && onSpare d.ca.slotAt.toNat T) with
  | some r => 64 + r.2
  | none =>
    match d.ca.past.find? (fun r => r.1 == lane && onSpare r.2.2.toNat T) with
    | some r => 64 + r.2.1
    | none => lane

/-- Placement epoch of a lane at T, and its SPARE flag (R108, R109): the epoch advances at the takeover, 10 ms after the start of the
slot, and at the hand-back, 240 ms after it. -/
def placement (d : Dev) (lane : Nat) (T : Time) : Nat × Bool :=
  let e := kget 0 d.ca.epoch lane
  if d.ca.relief.any (fun r => r.1 == lane) then
    let dt := since d.ca.slotAt T
    if dt < msT 10 then (e, false) else if dt < msT 240 then ((e + 1) % 4, true) else ((e + 2) % 4, false)
  else (e, false)

/-- The two layers that correct one part of a window (R101). -/
structure Layers where
  boff : Int
  bgain : Int
  off : Int
  gain : Int
  k2 : Int
deriving DecidableEq, Repr

/-- The layers of a lane at T (R101). -/
def layersAt (d : Dev) (lane T : Nat) : Layers :=
  let m := modulatorAt d lane T
  let w (o : Nat) : Int := signed 24 (corrAt d T o).toNat
  ⟨w (R.calBoff + 4 * m), w (R.calBgain + 4 * m), w (R.calOff + 4 * lane), w (R.calGain + 4 * lane),
    signed 16 (corrAt d T (R.calK2 + 4 * lane)).toNat⟩

/-- Ten to the thirty-first: the scale of `Layers.correct`. -/
def scale31 : Int := 10 ^ 31

/-- What one part of a window adds to a lane result: every sample x (0.1 uV) of the part is corrected by the formula of R101 before the
low-pass stage weights it. The formula is quadratic in x, so the part's weight, its weighted sum of x and of x squared (weights in 1/65536)
determine the sum; in uV times 65536 x 10^31. It is exact: no rule states a rounding inside the chain (DEDUCED). -/
def Layers.correct (c : Layers) (p : RawPart) : Int :=
  let g := 10 ^ 8 + c.bgain
  let q := c.boff * g + c.off * 10 ^ 8
  let s1 := g * p.m1 - q * p.share
  let s2 := g * g * p.m2 - 2 * g * q * p.m1 + q * q * p.share
  s1 * (10 ^ 8 + c.gain) * 10 ^ 14 + c.k2 * s2

/-! ### Lapsed lanes and withdrawn spares (R112, R113) -/

/-- The bucket of a spare is at N and the occurrences it holds name two lanes or more (R113). The bucket holds the latest occurrences: a leak
takes the oldest first (DESIGN CHOICE, log 97: no rule says which it takes). -/
def spareBlamed (d : Dev) (s : Nat) : Bool :=
  lasting d 13 (64 + s) && decide (2 ≤ ((kget [] d.ca.spareLanes s).take (level d 13 (64 + s))).eraseDups.length)

/-- A spare is withdrawn (R113). -/
def spareOut (d : Dev) (s : Nat) : Bool := decide (s ∈ d.ca.wd)

/-- Spares whose bucket has reached N are withdrawn; they stay so until the next period in which it has leaked below N (R113). -/
def withdraw (d : Dev) : Dev :=
  each (fun s d => if spareBlamed d s && !spareOut d s then
    { d with ca := { d.ca with wd := s :: d.ca.wd, wdAt := kset 0 d.ca.wdAt s d.ca.periods } } else d) (upFrom 0 4) d

/-- A lane's bit in CAL_LAPSED (R112 to R114): its handover bucket or its fit bucket is at N, or both spares of its group
are withdrawn. -/
def lapsed (d : Dev) (lane : Nat) : Bool :=
  lasting d 13 lane || lasting d 14 lane ||
  (if lane < 32 then spareOut d 0 && spareOut d 1 else spareOut d 2 && spareOut d 3)

/-- Background corrections are frozen device-wide (R100, R116). -/
def suspended (d : Dev) : Bool := d.ca.bgAlarm || d.pw.persist

/-! ### Handover check (R111) -/

/-- HO_LIMIT in uV (LSB 10 uV). -/
def hoLimit (d : Dev) : Nat := 10 * regFld d R.calCtrl 15 8

/-- Ring time t plus n LSBs. -/
def later (t : Time) (n : Nat) : Time := BitVec.ofNat 64 (t.toNat + n)

/-- The handover check of a takeover (`dir` 0) or a hand-back (1) whose switch was at ring time t (R111). -/
def handover (t : Time) (spare lane dir : Nat) (step : Int) (d : Dev) : Dev :=
  let bad := decide (hoLimit d < step.natAbs)
  let (v, d) := fitS 24 step d
  let d := setReg R.calHoLast (packW [(v, 0), (lane, 24), (dir, 30), (b2n bad, 31)]) d
  if bad then
    let d := { d with ca := { d.ca with
      spareLanes := kset [] d.ca.spareLanes spare ((lane :: kget [] d.ca.spareLanes spare).take 255) } }
    let d := occurAt t 13 lane 0x0601 ([BitVec.ofNat 8 spare, BitVec.ofNat 8 dir] ++ leBytes 4 (unsigned 32 step)) d
    withdraw (countOnly 13 (64 + spare) d)
  else d

/-- The group of a lane. -/
def laneGroup (lane : Nat) : LaneGroup := if lane < 32 then .a else .b

/-- A lane's modulator has left its stable range (R428): -2.3 V to +5.8 V at the cell. -/
def laneUnstable (s : Span) : Bool := spanOutside s (-2300000) 5800000

/-- The check of an overlap from a to b is skipped (R111): a sample of it lies in the affected interval of a supply dip, or a lane result
whose window overlaps it carries OVR or OW. Every window that holds a sample of the overlap outside the stable range carries OVR, and OW stands in
every result of a tap under suspicion; of the results still to come at the check no more is known (DEDUCED, log 112). -/
def skipCheck (d : Dev) (lane a b : Nat) (s : Span) : Bool :=
  dipMeets d (groupW d (laneGroup lane)) a b || decide (a < (kget 0 d.me.flagAt lane).toNat) || laneUnstable s ||
  owCell d (lane % 32 + 1)

/-! ### Band-gap comparison (R99, R100) -/

/-- d of R99 in 1/6400 ppm. `ratio` is gain_bgb / gain_bga less 1 in 0.01 ppm. -/
def bgError (d : Dev) (ratio : Int) : Int :=
  ratio * 64 - signed 16 (regFld d R.calBgref 15 0) * 6400 -
  signed 16 (regFld d R.calBgref 31 16) * (signed 16 (regFld d R.auxTdie 15 0) - 1600)

/-- The median of a list of d in ppm; the middle two are averaged where their number is even (DEDUCED). -/
def medianPpm (l : List Int) : Int :=
  let s := sortInt l
  let n := s.length
  if n % 2 = 1 then quot (s.getD (n / 2) 0) 6400 else quot (s.getD (n / 2 - 1) 0 + s.getD (n / 2) 0) 12800

/-- CAL_BG_DIS.DIS as a number. -/
def bgDis (d : Dev) : Int := signed 16 (regFld d R.calBgDis 15 0)

/-- LIMIT of CAL_BG_CFG in ppm. -/
def bgLimit (d : Dev) : Nat := regFld d R.calBgCfg 9 0

/-- BG_ALARM follows CAL_BG_DIS.DIS and LIMIT (R100). -/
def bgJudge (d : Dev) : Dev :=
  let a := (bgDis d).natAbs
  if d.ca.bgAlarm then
    (if 4 * a ≤ 3 * bgLimit d then { d with ca := { d.ca with bgAlarm := false } } else d)
  else if bgLimit d < a then
    occurFault 2 0 0x0603 (wordBytes (reg d R.calBgDis)) { d with ca := { d.ca with bgAlarm := true } }
  else d

/-- One comparison, in 1/6400 ppm: the median follows, and BG_ALARM with it (R99, R100). -/
def bgTake (e : Int) (d : Dev) : Dev :=
  let l := lastN 16 (d.ca.bg ++ [e])
  let (v, d) := fitS 16 (medianPpm l) d
  bgJudge (setReg R.calBgDis (BitVec.ofNat 32 v) { d with ca := { d.ca with bg := l } })

/-! ### Fit acceptance (R114 to R116) -/

/-- Background offset of modulator m, 0.1 uV. -/
def bOff (d : Dev) (m : Nat) : Int := reg24 d (R.calBoff + 4 * m)

/-- Background gain of modulator m, 0.01 ppm. -/
def bGain (d : Dev) (m : Nat) : Int := reg24 d (R.calBgain + 4 * m)

/-- The fit of modulator m is accepted (R114). -/
def fitOk (d : Dev) (m : Nat) (o : ReliefOutcome) : Bool :=
  decide (o.residual ≤ 300) &&
  (decide (m ∉ d.ca.applied) ||
    (decide ((o.off - bOff d m).natAbs ≤ 2000) && decide ((o.gain - bGain d m).natAbs ≤ 20000))) &&
  decide (o.off.natAbs ≤ 50000) && decide (o.gain.natAbs ≤ 500000)

/-- Step 8 of Table CAL-3 for modulator m, whose points ran from ring time a to b: void in a supply dip (R115); else the comparison of R99,
and the fit is accepted or counted as rejected (R114). -/
def fitStep (m a b : Nat) (o : ReliefOutcome) (d : Dev) : Dev :=
  if dipMeets d (groupW d (if m < 32 ∨ m = 64 ∨ m = 65 then .a else .b)) a b then d
  else
    let d := bgTake (bgError d o.bgRatio) d
    if fitOk d m o then
      { d with ca := { d.ca with
        accepted := if m ∈ d.ca.accepted then d.ca.accepted else m :: d.ca.accepted
        fitted := m :: d.ca.fitted } }
    else occur 14 m 0x0602 (leBytes 4 (unsigned 32 o.off) ++ leBytes 4 (unsigned 32 o.gain)) d

/-- The load has been shed at some time since t (R116). -/
def shedSince (d : Dev) (t : Time) : Bool := d.pw.persist || (decide (d.pw.shedAt ≠ 0) && decide (t.toNat ≤ d.pw.shedAt.toNat))

/-- Step 9 of Table CAL-3: an accepted fit replaces CAL_BOFFm and CAL_BGAINm, unless corrections are frozen, a shed began since the slot
did, or the modulator's bucket is at N (R114, R116). -/
def applyStep (m : Nat) (o : ReliefOutcome) (d : Dev) : Dev :=
  if m ∈ d.ca.fitted then
    let d := { d with ca := { d.ca with fitted := d.ca.fitted.filter (fun k => k ≠ m) } }
    if suspended d || shedSince d d.ca.slotAt || lasting d 14 m then d
    else
      setCorr (R.calBgain + 4 * m) (BitVec.ofNat 32 (unsigned 24 o.gain))
        (setCorr (R.calBoff + 4 * m) (BitVec.ofNat 32 (unsigned 24 o.off))
          { d with ca := { d.ca with applied := if m ∈ d.ca.applied then d.ca.applied else m :: d.ca.applied } })
  else d

/-! ### The steps of a slot as ring time runs (Table CAL-3) -/

/-- The modulator that a calibration fits: a lane's, or the spare itself. -/
def fitted (lane : Option Nat) (o : ReliefOutcome) : Nat := lane.getD (64 + o.spare)

/-- Put what is due into its place in the order of time. -/
def insertDue (x : CalDue) : List CalDue → List CalDue
  | [] => [x]
  | y :: r => if x.due.toNat ≤ y.due.toNat then x :: y :: r else y :: insertDue x r

/-! ### Online tests (R392 to R394) -/

/-- Configured cells of a comparator group. -/
def groupCells (d : Dev) (k : Nat) : List Nat := (upFrom (8 * k + 1) 8).filter (fun n => decide (n ≤ ncells d))

/-- A pair is skipped: its lane A result carries STALE, OVR or OW (R394). -/
def pairSkipped (d : Dev) (n : Nat) : Bool :=
  let w := reg d (resOff .a n)
  bit w 7 || bit w 1 || bit w 0

/-- VALUE of a cell's lane A, uV. -/
def laneA (d : Dev) (n : Nat) : Int := signed 24 ((reg d (resOff .a n)).toNat / 256)

/-- Length of a comparator group test (Table BIST-5). -/
def cmpTestLen : Nat := msT 15

/-- The test of a comparator group begins (R394, Table BIST-5): the stand-in acts, and 15 ms later what its pairs showed takes effect. A pair
not seen has met every bound. -/
def cmpBegin (k : Nat) (h : Option Nat) (seen : List PairSeen) (d : Dev) : Dev :=
  let skip (n : Nat) : Bool := decide (n ∈ groupCells d k) && pairSkipped d n
  let fails (f : Int → PairSeen → Bool) (n : Nat) : Bool :=
    decide (n ∈ groupCells d k) && !skip n && seen.any (fun p => decide (p.cell = n) && f (laneA d n) p)
  let r : CmpFound := ⟨mapBits (fails ovFails) 1 32, mapBits (fails uvFails) 1 32, mapBits skip 1 32, h⟩
  { d with
    ca := { d.ca with cmpGroup := k, cmpFrom := some d.now, todo := insertDue ⟨later d.now cmpTestLen, .cmpEnd k r⟩ d.ca.todo }
    bi := { d.bi with cmpJob := h.isSome } }

/-- Bits of the 8 cells of group k in a map over cells 1 to 32. -/
def groupByte (k m : Nat) : Byte := BitVec.ofNat 8 (m / 2 ^ (8 * k))

/-- The comparator group test ends (R394): each pair that failed posts, and the stand-in acts for it from here on. A SELFTEST completes, and
one that waits begins; it has no pair to test where all are skipped (R396). -/
def cmpTestEnd (k : Nat) (r : CmpFound) (d : Dev) : Dev :=
  let d := each (fun n d => post 0x1C02 0 [2, BitVec.ofNat 8 k] (setRegBit R.bistCmpFail (n - 1) true d)) (maskCells (r.ov ||| r.uv))
    { d with ca := { d.ca with cmpFrom := none }, bi := { d.bi with cmpJob := false } }
  let d := match r.h with
    | some h => finish h St.done [BitVec.ofNat 8 k, groupByte k r.ov, groupByte k r.uv, groupByte k r.skip] d
    | none => d
  match d.bi.cmpQueue with
  | none => d
  | some (h, k2, seen) =>
    let d := withBist (fun t => { t with cmpQueue := none }) d
    if (groupCells d k2).all (pairSkipped d) then finish h St.inputNotReady [] d else cmpBegin k2 (some h) seen d

/-- The lane stage tests of a group. -/
def stages (d : Dev) : LaneGroup → StageGroup
  | .a => d.bi.stA
  | .b => d.bi.stB

/-- Change them. -/
def withStages (g : LaneGroup) (f : StageGroup → StageGroup) (d : Dev) : Dev :=
  withBist (fun t => match g with
    | .a => { t with stA := f t.stA }
    | .b => { t with stB := f t.stB }) d

/-- BIST_LANE_FAIL register of a group. -/
def laneFailOff : LaneGroup → Nat
  | .a => R.bistLaneFailA
  | .b => R.bistLaneFailB

/-- First bit of a group in BIST_ONLINE. -/
def onlineBit : LaneGroup → Nat
  | .a => 0
  | .b => 8

/-- The spare stage of a group has failed. -/
def spareStageFailed (d : Dev) (g : LaneGroup) : Bool := regBit d R.bistOnline (onlineBit g + 6)

/-- A lane stage of the group has failed. -/
def laneFailed (d : Dev) (g : LaneGroup) : Bool := decide (reg d (laneFailOff g) ≠ 0)

/-- Length of a relief slot (R106). -/
def slotLen : Nat := msT 250

/-- Does the lane lie in a relief slot (Table CAL-2)? -/
def relieved (d : Dev) (lane : Nat) : Bool := d.ca.relief.any (fun r => r.1 == lane) && decide (since d.ca.slotAt d.now < slotLen)

/-- Length of a lane stage test (Table BIST-4): 3W + 4P; a spare stage that fails ends it at W + 2P. -/
def stageLen (d : Dev) (g : LaneGroup) (x : StageTest) : Nat :=
  if x.spareOk then 3 * groupW d g + 2 * groupP2 d g else groupW d g + groupP2 d g

/-- A lane stage test begins (Table BIST-4 step 1). -/
def stageBegin (g : LaneGroup) (x : StageTest) (d : Dev) : Dev :=
  let b := onlineBit g
  let d := setReg R.bistOnline (setFld (setFld (reg d R.bistOnline) (b + 4) b (x.cell - 1)) (b + 5) (b + 5) 1) d
  let d := withStages g (fun s => { s with on := some x }) d
  { d with ca := { d.ca with todo := insertDue ⟨later d.now (stageLen d g x), .stageEnd g⟩ d.ca.todo } }

/-- The waiting SELFTEST of a group begins its test, unless its lane lies in a relief slot: then it tries again at the slot's end (R392, R396). -/
def stageTry (g : LaneGroup) (d : Dev) : Dev :=
  match (stages d g).on, (stages d g).queue with
  | none, some x =>
    if laneFailed d g ∨ spareStageFailed d g then
      let d := withStages g (fun s => { s with queue := none }) d
      (match x.h with
        | some h => finish h St.deniedState [] d
        | none => d)
    else if relieved d (laneIdx g x.cell) then
      { d with ca := { d.ca with todo := insertDue ⟨later d.ca.slotAt slotLen, .stageTry g⟩ d.ca.todo } }
    else stageBegin g x (withStages g (fun s => { s with queue := none }) d)
  | _, _ => d

/-- What a lane stage test finds (R393): the spare stage fails, or the lane's stage. With a failed lane already served, a second one is left
without a stage. -/
def stageFound (g : LaneGroup) (x : StageTest) (d : Dev) : Dev :=
  if !x.spareOk then setRegBit R.bistOnline (onlineBit g + 6) true d
  else if x.stageOk then d
  else
    let lane := laneIdx g x.cell
    let second := laneFailed d g && !regBit d (laneFailOff g) (x.cell - 1)
    let d := setRegBit (laneFailOff g) (x.cell - 1) true d
    let d := if second then { d with me := { d.me with dead := d.me.dead ++ [lane] } } else d
    post 0x1C02 0 [1, BitVec.ofNat 8 lane] d

/-- The lane stage test of a group ends (R392, R393); a SELFTEST completes with its lane index and 0 pass, 1 fail, 2 spare failed (R396). -/
def stageEnd (g : LaneGroup) (d : Dev) : Dev :=
  match (stages d g).on with
  | none => d
  | some x =>
    let d := withStages g (fun s => { s with on := none }) (setRegBit R.bistOnline (onlineBit g + 5) false d)
    let d := stageFound g x d
    let d := match x.h with
      | some h => finish h St.done
          [BitVec.ofNat 8 (laneIdx g x.cell), if !x.spareOk then 2 else if x.stageOk then 0 else 1, 0, 0] d
      | none => d
    stageTry g d

/-! ### The fuse words of a REPAIR (R399) -/

/-- A fuse word has been programmed and verified: it holds its spare, or stays soft where verification fails. -/
def fuseDone (m i : Nat) (ok : Bool) (d : Dev) : Dev :=
  let x := bankRepair d m
  let keep (x : BankRepair) (d : Dev) : Dev := withBist (fun t => { t with banks := kset BankRepair.init t.banks m x }) d
  if ok then
    post 0x1C03 0 [BitVec.ofNat 8 m, 2, if i < 4 then 1 else 0, if i < 4 then 0 else 1] (keep { x with fused := x.fused ||| 2 ^ i } d)
  else keep { x with badFuse := x.badFuse ||| 2 ^ i } d

/-- The last fuse word is done: the record is to be written (R398, R399). -/
def fusesDone (d : Dev) : Dev := withBist (fun t => { t with recDue := true, recAt := d.now }) d

/-! ### What is due -/

/-- What is due acts at its time. -/
def calStep (x : CalDue) (d : Dev) : Dev :=
  let d := advance x.due d
  let t0 := d.ca.slotAt
  match x.step with
  | .checkIn l o => if skipCheck d l (t0.toNat + usT 100) x.due.toNat o.inputIn then d else handover (later t0 (msT 10)) o.spare l 0 o.stepIn d
  | .fit l o =>
    let (a, b) := if l.isSome then (msT 12, msT 222) else (msT 2, msT 212)
    fitStep (fitted l o) (t0.toNat + a) (t0.toNat + b) o d
  | .apply l o => applyStep (fitted l o) o d
  | .checkOut l o => if skipCheck d l (t0.toNat + msT 230) x.due.toNat o.inputOut then d else handover (later t0 (msT 240)) o.spare l 1 o.stepOut d
  | .cmpEnd k r => cmpTestEnd k r d
  | .stageEnd g => stageEnd g d
  | .stageTry g => stageTry g d
  | .engEnd h k l => engineTested h k l d
  | .fuse m i ok => fuseDone m i ok d
  | .fuseEnd => fusesDone d

/-- What is due by ring time t acts, in the order of time; at most n of them. -/
def calRunN (t : Time) : Nat → Dev → Dev
  | 0, d => d
  | n + 1, d =>
    match d.ca.todo with
    | [] => d
    | x :: r => if x.due.toNat ≤ t.toNat then calRunN t n (calStep x { d with ca := { d.ca with todo := r } }) else d

/-- What is due by ring time t acts. Each end of an online test may begin the one that waits for it, and no more wait than the three. -/
def calRun (t : Time) (d : Dev) : Dev := calRunN t (d.ca.todo.length + 6) d

end Sys2Proof.Machine
end

