-- ==== Sys2Proof/Machine/BalState.lean ====
section
/-! DEFINITION. The states of the balance cells, when their switches conduct, their running time, step tests, and the factor K of the
thermal manager (R82, R173, R200 to R211). They change with many commands, so this file stands before them. -/

namespace Sys2Proof.Machine

/-- A coefficient field of MEAS_BCOEFj, none when unknown. -/
def coef (d : Dev) (j : Nat) (upper : Bool) : Option Nat :=
  let w := reg d (R.measBcoef + 4 * (j - 1))
  let v := if upper then fld w 15 0 else fld w 31 16
  if v = 0xFFFF then none else some v


/-! ### Cell states (Table BAL-3) -/

/-- States of Table BAL-3. -/
inductive CellState where
  | idle | wait | run | held | excite | done | expired
deriving DecidableEq, Repr

/-- Codes of Table BAL-3. -/
def CellState.code : CellState → Nat
  | .idle => 0 | .wait => 1 | .run => 2 | .held => 3 | .excite => 4 | .done => 5 | .expired => 6

/-- What the awake plan keeps of a cell. -/
def balCell (d : Dev) (n : Nat) : BalCell := kget BalCell.init d.ba.cells n

/-- Change it. -/
def withBal (n : Nat) (f : BalCell → BalCell) (d : Dev) : Dev :=
  { d with ba := { d.ba with cells := kset BalCell.init d.ba.cells n (f (balCell d n)) } }

/-- The plan entry of a cell: DUTY, TARGET, TLIMIT. -/
def BalPlan.entry (p : BalPlan) (n : Nat) : Nat × Nat × Nat := p.entries.getD (n - 1) (0, 0, 0)

/-- The awake plan's entry of a cell. -/
def planEntry (d : Dev) (n : Nat) : Nat × Nat × Nat :=
  match d.ba.plan with
  | some p => p.entry n
  | none => (0, 0, 0)

/-- A condition of R202 holds. -/
def heldCond (d : Dev) (n : Nat) : Bool :=
  owCell d n || regBit d R.cmpStatUv (n - 1) || regBit d R.measDisFault (n - 1) || (balCell d n).hold.isSome ||
  (balCell d n).stuck

/-- Both coefficients of switch n are known (R82). -/
def coefKnown (d : Dev) (n : Nat) : Bool := (coef d n true).isSome && (coef d n false).isSome

/-- The state of a cell (Table BAL-3). HELD goes before EXCITE, since a held switch opens (R202), and EXCITE before the IDLE of a cell of DUTY 0 that
a job covers (DEDUCED). -/
def cellState (d : Dev) (n : Nat) : CellState :=
  let c := balCell d n
  if n = 0 ∨ ncells d < n then .idle
  else if c.done then .done
  else if c.exp then .expired
  else if n ∈ d.ba.excite then (if heldCond d n then .held else .excite)
  else if (planEntry d n).1 = 0 then .idle
  else if heldCond d n then .held
  else if !coefKnown d n && !c.tested then .wait
  else .run

/-- Is a cell's running time counted (R204)? Not during the load shed, and not while an active job suspends its duty (R176). -/
def counting (d : Dev) (n : Nat) : Bool :=
  !d.pw.persist && decide (n ∉ d.ba.excite) && (match cellState d n with
    | .run | .held => true
    | _ => false)

/-- Some cell is in WAIT, or a step test runs: every other switch is held open (R82). -/
def testsPending (d : Dev) : Bool :=
  d.ba.test.isSome || (cellsUsed d).any (fun n => decide (cellState d n = .wait))

/-- DUTY_EFF of a cell (R209). -/
def dutyEff (d : Dev) (n : Nat) : Nat := (planEntry d n).1 * d.ba.k / 256

/-! ### Measurement pauses (R203, R206) -/

/-- MEAS_MODE. -/
def measMode (d : Dev) : Nat := regFld d R.balCtrl 3 2

/-- Four output periods of lane group A, in ring-time LSBs. -/
def pause4 (d : Dev) : Nat := 2 * groupP2 d .a

/-- Ring time between two target checks, 10 s (R203). -/
def checkEvery : Nat := 2000000000

/-- Is the cell subject to the target check (R203)? -/
def checked (d : Dev) (n : Nat) : Bool :=
  decide ((planEntry d n).2.1 ≠ 0) && (match cellState d n with
    | .idle | .done | .expired => false
    | _ => true)

/-- Pauses before target checks that meet the time from a to b (R203): four periods in PAUSE mode, the lane's W in IGNORE mode. -/
def checkPauses (d : Dev) (a b : Nat) : List (Nat × Nat) :=
  if measMode d ≠ 0 ∧ (cellsUsed d).any (checked d) then
    let w := if measMode d = 1 then pause4 d else groupW d .a
    (upFrom (a / checkEvery + 1) ((b + w) / checkEvery - a / checkEvery)).map (fun m => (m * checkEvery - w, m * checkEvery))
  else []

/-- Pauses before requested instants (R206): from four periods before T where the request came in time, else from its arrival. An instant of
a SYNC edge has none; the mode is that of the moment of the request (R207). -/
def wantedPauses (d : Dev) : List (Nat × Nat) :=
  (d.sw.wanted.filter (fun q => q.h.isSome && decide (q.mode = 1))).map (fun q =>
    (if q.got.toNat + pause4 d + usT 100 ≤ q.T.toNat then q.T.toNat - pause4 d else q.got.toNat, q.T.toNat))

/-- The pauses that a switch keeps between a and b. PAUSE mode does not act on a switch that is being excited (R176). -/
def pausesOf (d : Dev) (excited : Bool) (a b : Nat) : List (Nat × Nat) :=
  if excited then (if measMode d = 2 then checkPauses d a b else []) else wantedPauses d ++ checkPauses d a b

/-- Take an interval out of a list of intervals. -/
def cutOut (p : Nat × Nat) (l : List (Nat × Nat)) : List (Nat × Nat) :=
  l.flatMap (fun s => [(s.1, min s.2 p.1), (max s.1 p.2, s.2)].filter (fun q => decide (q.1 < q.2)))

/-- The time from a to b without the pauses. -/
def unpaused (d : Dev) (excited : Bool) (a b : Nat) : List (Nat × Nat) :=
  (pausesOf d excited a b).foldl (fun l p => cutOut p l) [(a, b)]

/-! ### Conduction (R82, R173, R200) -/

/-- A tick of the awake PWM, 40 us, in ring-time LSBs (R200). -/
def pwmTick : Nat := 8000

/-- The period of the awake PWM, 10.24 ms (R200). -/
def pwmPeriod : Nat := 256 * pwmTick

/-- The tick at which switch n turns on (R200). -/
def onTick (n : Nat) : Nat := (n - 1) * 8 % 256

/-- On time of a wave that is on for the first w of every period of p, from its start to x. -/
def waveOn (p w x : Nat) : Nat := x / p * w + min (x % p) w

/-- Scheduled on time of switch n at a duty between ring times a and b (R200). -/
def pwmOn (duty n a b : Nat) : Nat :=
  let x (t : Nat) := t + pwmPeriod - onTick n * pwmTick
  waveOn pwmPeriod (duty * pwmTick) (x b) - waveOn pwmPeriod (duty * pwmTick) (x a)

/-- On time of a step test in its first x LSBs: 4 ms off, then 4 ms on (R82). -/
def testOn (x : Nat) : Nat := x / msT 8 * msT 4 + (x % msT 8 - msT 4)

/-- The state after k steps of the register of x^7 + x^6 + 1, from 0x7F (R173). -/
def mlsState : Nat → Nat
  | 0 => 0x7F
  | k + 1 => let s := mlsState k; 2 * s % 128 + (s / 64 + s / 32) % 2

/-- Chip k of the sequence: the bit that leaves the register (R173, DEDUCED). -/
def mlsChip (k : Nat) : Bool := decide (mlsState (k % 127) / 64 = 1)

/-- 1 chips among the first m of the sequence. -/
def mlsOnes (m : Nat) : Nat := ((upFrom 0 m).filter mlsChip).length

/-- On time of a sequence with chips of c LSBs, from its start to x: 64 of its 127 chips close the switch (R173). -/
def chipOn (c x : Nat) : Nat :=
  if c = 0 then 0
  else
    let r := x % (127 * c)
    x / (127 * c) * (64 * c) + mlsOnes (r / c) * c + (if mlsChip (r / c) then r % c else 0)

/-- Length of a tracking gap, 2 ms (R200). -/
def gapLen : Nat := msT 2

/-- The sequences that drive switch n. -/
def chipsOf (d : Dev) (n : Nat) : List ChipRun := d.ba.chips.filter (fun c => c.cell == n)

/-- Part of an interval that lies between lo and hi. -/
def clip (lo hi : Nat) (s : Nat × Nat) : Nat × Nat := (max lo s.1, max (max lo s.1) (min hi s.2))

/-- A RUN switch between a and b, unpaused: its schedule, which a tracking gap turns round (R200). -/
def runOn (d : Dev) (n : Nat) (s : Nat × Nat) : Nat :=
  let duty := dutyEff d n
  let on := pwmOn duty n s.1 s.2
  (d.ba.gaps.filter (fun g => g.1 == n)).foldl (fun on g =>
    let q := clip g.2.toNat (g.2.toNat + gapLen) s
    let m := pwmOn duty n q.1 q.2
    on + (q.2 - q.1 - m) - m) on

/-- May a switch that a job excites conduct (R82, R173, R202)? In internal switch mode, while the cell is not held and both its coefficients are
known. -/
def mayExcite (d : Dev) (n : Nat) : Bool := !extFet d && !heldCond d n && coefKnown d n

/-- Ring-time LSBs for which switch n conducts between a and b in the present states: in its step test; else, while no test is pending and the
load is not shed, by the sequence that excites it or by the plan (R38, R82, R173, R200). -/
def conduction (d : Dev) (n a b : Nat) : Nat :=
  let steps (excited : Bool) (f : Nat × Nat → Nat) : Nat := sumNat ((unpaused d excited a b).map f)
  if d.pw.persist then 0
  else match d.ba.test with
    | some (j, f) => if j = n then steps false (fun s => testOn (s.2 - f.toNat) - testOn (s.1 - f.toNat)) else 0
    | none =>
      if testsPending d then 0
      else if n ∈ d.ba.excite then
        if !mayExcite d n then 0
        else sumNat ((chipsOf d n).map (fun c => steps true (fun s =>
          let q := clip c.start.toNat c.stop.toNat s
          chipOn c.chip (q.2 - c.start.toNat) - chipOn c.chip (q.1 - c.start.toNat))))
      else if cellState d n = .run then steps false (runOn d n)
      else 0

/-- Switch n conducts in the LSB before the present. -/
def conducts (d : Dev) (n : Nat) : Bool := decide (0 < conduction d n (d.now.toNat - 1) d.now.toNat)

/-! ### What ring time brings (R204, R207, R211) -/

/-- Repetitions of the step test that a pause touches between the mark and the present are void (R207). -/
def voidReps (d : Dev) : Dev :=
  match d.ba.test with
  | none => d
  | some (_, f) =>
    let hi := d.now.toNat
    let last := (hi - f.toNat) / msT 8
    let ps := pausesOf d false f.toNat hi
    let hit (i : Nat) : Bool := ps.any (fun p =>
      decide (p.1 < min hi (f.toNat + msT 8 * (i + 1))) && decide (f.toNat + msT 8 * i < p.2))
    let l := (upFrom d.ba.voidTo (last + 1 - d.ba.voidTo)).filter hit
    { d with ba := { d.ba with
        voids := d.ba.voids + l.length
        voidTo := if last ∈ l then last + 1 else max d.ba.voidTo last } }

/-- A precondition of a CAL_USER job fails; the first that fails gives the detail code (R126). -/
def userBad (code : Nat) (d : Dev) : Dev :=
  match d.ca.user with
  | some u => if u.bad = 0 then { d with ca := { d.ca with user := some { u with bad := code } } } else d
  | none => d

/-- A switch beside or at the cell of a CAL_USER job of mode 0x3 has conducted (R126). -/
def userConduct (l : List Nat) (d : Dev) : Dev :=
  match d.ca.user with
  | some u => if decide (u.mode = 3) && l.any (fun n => decide (n ≤ u.cell + 1 ∧ u.cell ≤ n + 1)) then userBad 7 d else d
  | none => d

/-- Conduction, void repetitions and running time are counted up to the present (R204, R207, R211). -/
def runTo (d : Dev) : Dev :=
  let a := d.ba.mark.toNat
  let b := d.now.toNat
  let on := (if d.ba.plan.isNone ∧ d.ba.chips.isEmpty then [] else
    (cellsUsed d).map (fun n => (n, conduction d n a b))).filter (fun e => decide (e.2 ≠ 0))
  let l := if d.ba.plan.isNone then [] else (cellsUsed d).filter (counting d)
  let d := userConduct (on.map Prod.fst) (voidReps d)
  let d := each (fun e d => { d with ba := { d.ba with owed := kset 0 d.ba.owed e.1 (kget 0 d.ba.owed e.1 + e.2) } }) on d
  let d := each (fun k d => withBal k (fun c => { c with ran := c.ran + (b - a) }) d) l d
  { d with ba := { d.ba with
      mark := d.now
      gaps := d.ba.gaps.filter (fun g => decide (b ≤ g.2.toNat + gapLen))
      chips := d.ba.chips.filter (fun c => decide (b ≤ c.stop.toNat)) } }

/-- Ring time reaches t, and all that follows it: the steps of a relief slot (R108), conduction and counters (R204, R211, R370), and step 3
of a closing (Table PWR-8). -/
def tick (t : Time) (d : Dev) : Dev := releasePorts (runTo (advance t (calRun t d)))

/-- TLIMIT of a cell in ring-time LSBs. -/
def tlimit (d : Dev) (n : Nat) : Nat := (planEntry d n).2.2 * (60 * lsbPerSec)

/-- Minutes remaining, rounded up (R204). -/
def tleft (d : Dev) (n : Nat) : Nat :=
  if cellState d n = .idle then 0 else (tlimit d n - (balCell d n).ran + 60 * lsbPerSec - 1) / (60 * lsbPerSec)

/-- The empty accumulator of a cell. -/
def CellAcc.none : CellAcc := ⟨0, 0, 0, 0, 0, 0, 0, 0, 0⟩

/-- Change the open summary's accumulator of a cell. -/
def withAcc (cell : Nat) (f : CellAcc → CellAcc) (d : Dev) : Dev :=
  { d with mm := { d.mm with summ := { d.mm.summ with
      cells := kset CellAcc.none d.mm.summ.cells cell (f (kget CellAcc.none d.mm.summ.cells cell)) } } }

/-- Cells that are HELD carry it in the open summary (Table MEM-8). -/
def noteHeld (d : Dev) : Dev :=
  each (fun n d => if cellState d n = .held then withAcc n (fun a => { a with flags := a.flags ||| 8 }) d else d) (cellsUsed d) d

/-! ### Step tests (R82, R201) -/

/-- The step test that runs ends. Its on phases stay known while a window may still hold one (R76). -/
def endTest (d : Dev) : Dev :=
  match d.ba.test with
  | none => d
  | some (j, f) => { d with ba := { d.ba with
      test := none
      voids := 0
      voidTo := 0
      tests := (j, f, d.now) :: d.ba.tests.filter (fun e => decide (since e.2.2 d.now < 130012000)) } }

/-- Step tests run one at a time in ascending order; a test whose cell leaves WAIT, or that meets the load shed, ends
without estimates (R82, R38). -/
def nextTest (d : Dev) : Dev :=
  let d := match d.ba.test with
    | some (j, _) => if d.pw.persist || decide (cellState d j ≠ .wait) then endTest d else d
    | none => d
  if d.ba.test.isSome || d.pw.persist then d
  else match (cellsUsed d).find? (fun n => decide (cellState d n = .wait)) with
    | some j => { d with ba := { d.ba with test := some (j, d.now), voids := 0, voidTo := 0 } }
    | none => d

/-! ### K (R209) -/

/-- The dissipation term of one switch at full duty: mA^2 x mohm, in nW. -/
def dissOf (ma mohm : Option Nat) : Nat := (ma.getD 400) * (ma.getD 400) * (mohm.getD 2500)

/-- P_REQ x 256 in nW. -/
def pReqN (d : Dev) : Nat :=
  sumNat ((cellsUsed d).map (fun n =>
    if cellState d n = .run then dissOf (balCell d n).ion (balCell d n).ron * (planEntry d n).1 else 0))

/-- K from 256 x P_REQ in nW and P_AVAIL in 1/64 mW (R209). -/
def kOf (forbid : Bool) (reqN : Nat) (avail64 : Int) : Nat :=
  if forbid || decide (avail64 ≤ 0) then 0
  else if (reqN : Int) ≤ 4000000 * avail64 then 256
  else (1024000000 * avail64 / (reqN : Int)).toNat

/-- P_MAX in 1/64 mW at an ambient temperature in 1/64 degree (R208). -/
def pMaxOf (pcap : Nat) (tAmb : Int) : Nat :=
  (min ((pcap : Int) * 64) (96000 - 50 * max 0 (tAmb - 5440))).toNat

/-- Set K for the awake plan (R209); a rise of DERATED counts. In external FET mode K is 256 unless forbidden. -/
def setK (d : Dev) : Dev :=
  let n := pReqN d
  let k := if extFet d then (if d.ba.forbid then 0 else 256) else kOf d.ba.forbid n ((d.ba.pMax64 : Int) - 64 * d.ba.pExc)
  let was := decide (d.ba.k < 256)
  let (req, d) := fitU 16 (quot n 256000000) d
  let d := { d with ba := { d.ba with k := k, pReq := req } }
  if k < 256 ∧ !was then
    occur 28 0 0x0C03 (leBytes 2 k ++ leBytes 2 (d.ba.pMax64 / 64) ++ leBytes 2 req) d
  else d

/-- After a change of the plan or of a cell's state: cells no longer RUN are marked, a step test ends or starts, and K is
set (R82, R205, R209). -/
def balUpdate (d : Dev) : Dev :=
  match d.ba.plan with
  | none => setK (endTest d)
  | some _ =>
    let d := each (fun n d => if (balCell d n).was && decide (cellState d n ≠ .run) then
      withBal n (fun c => { c with was := false }) d else d) (cellsUsed d) d
    setK (nextTest (noteHeld d))

end Sys2Proof.Machine
end

