-- ==== Sys2Proof/Machine/HostRings.lean ====
section
/-! DEFINITION. The head's host window and rings: completion entries, results, event entries, and the posting of
what a command left for the host at its end (R277 to R292, R307). -/

namespace Sys2Proof.Machine

/-- The two halves that a command of the head acts on. -/
abbrev Both := Dev × Hst

/-- What a byte of the host window reads when nothing has written it (R280). -/
def winDefault (_ : Nat) : Byte := 0

/-- Size of the host window in bytes (R276). -/
def winSize : Nat := 0x40000

/-- n bytes of the host window from an offset. -/
def winRead (x : Hst) (off n : Nat) : List Byte := mgetList winDefault x.win off 1 n

/-- Write bytes into the host window. -/
def winWrite (off : Nat) (l : List Byte) (x : Hst) : Hst := { x with win := msetList winDefault x.win off 1 l }

/-- The device writes the host window: where a host write meets it in the same cycle, it stands (R277). -/
def devWrite (now : Time) (off : Nat) (l : List Byte) (x : Hst) : Hst :=
  { winWrite off l x with devAt := now, devWrote := (if x.devAt = now then x.devWrote else []) ++ [(off, l.length)] }

/-- Did the device write a byte of the host window in this cycle? -/
def devByte (now : Time) (x : Hst) (a : Nat) : Bool :=
  decide (x.devAt = now) && x.devWrote.any (fun e => decide (e.1 ≤ a) && decide (a < e.1 + e.2))

/-- The host writes the host window; bytes that the device wrote in the same cycle stay (R277). -/
def hostWrite (now : Time) (off : Nat) (l : List Byte) (x : Hst) : Hst :=
  winWrite off (l.mapIdx (fun i b => if devByte now x (off + i) then (winRead x (off + i) 1).getD 0 0 else b)) x

/-- The host port is in high impedance (R301, Table PWR-8 step 3). -/
def hostHiz (b : Both) : Bool := b.2.hiz || portsClosed b.1

/-- Register offsets of a pair's block (step 0x20). -/
def pairOff (base p : Nat) : Nat := base + 0x20 * p

/-- The pair's state. -/
def pair (x : Hst) (p : Nat) : Pair := x.pairs.getD p Pair.init

/-- Replace a pair's state. -/
def setPair (p : Nat) (q : Pair) (x : Hst) : Hst := { x with pairs := x.pairs.set p q }

/-- Entries of a ring: SIZE of its configuration register. -/
def ringSize (d : Dev) (cfgOff : Nat) : Nat := regFld d cfgOff 26 16

/-- Byte offset of a ring: BASE in units of its entry size. -/
def ringBase (d : Dev) (cfgOff unit : Nat) : Nat := regFld d cfgOff 13 0 * unit

/-- The index after i in a ring of n entries. -/
def nextIdx (n i : Nat) : Nat := if n ≤ i + 1 then 0 else i + 1

/-- Length of a pair's result area in bytes. -/
def resLen (d : Dev) (p : Nat) : Nat := regFld d (pairOff R.hostResCfg p) 28 16 * 64

/-- Base of a pair's result area. -/
def resBase (d : Dev) (p : Nat) : Nat := regFld d (pairOff R.hostResCfg p) 11 0 * 64

/-- n rounded up to a multiple of 64. -/
def up64 (n : Nat) : Nat := (n + 63) / 64 * 64

/-- Bytes of the result area held by entries not yet passed (R291). -/
def resUsed (q : Pair) : Nat := sumNat (q.written.map CqEntry.held)

/-- Where a result of n bytes goes, and what it holds, with the space skipped before it: (offset in the area, bytes held), or none where it
must wait (R291). In an empty area the skipped space may be under the result itself. -/
def placeResult (q : Pair) (area n : Nat) : Option (Nat × Nat) :=
  if n = 0 then some (0, 0)
  else
    let used := resUsed q
    let r := up64 n
    if q.resAt + n ≤ area then (if used + r ≤ area then some (q.resAt, r) else none)
    else if used = 0 then (if n ≤ area then some (0, min area (area - q.resAt + r)) else none)
    else
      let held := area - q.resAt + r
      if used + held ≤ area then some (0, held) else none

/-- The 16 bytes of a completion entry (Table HOST-5). -/
def cqBytes (d : Dev) (phase : Bool) (h status target off len : Nat) : List Byte :=
  leBytes 2 h ++ [BitVec.ofNat 8 status, BitVec.ofNat 8 (b2n phase + 2 * target)] ++
  leBytes 4 (if len = 0 then 0 else off) ++ leBytes 4 len ++ leBytes 4 d.now.toNat

/-- Write one completion of pair p: its result, its entry, the tail's advance (R289 to R291). None: it must wait. -/
def writeCq (p : Nat) (w : Waiting) (d : Dev) (x : Hst) : Option Hst :=
  let q := pair x p
  match placeResult q (resLen d p) w.res.length with
  | none => none
  | some (at0, held) =>
    let off := resBase d p + at0
    let size := ringSize d (pairOff R.hostCqCfg p)
    let x := if w.res.isEmpty then x else devWrite d.now off w.res x
    let x := devWrite d.now (ringBase d (pairOff R.hostCqCfg p) 16 + 16 * q.cqTail)
      (cqBytes d q.phase w.h w.status w.target off w.res.length) x
    let t' := nextIdx size q.cqTail
    some (setPair p { q with
      cqTail := t'
      phase := if t' = 0 then !q.phase else q.phase
      written := q.written ++ [⟨q.cqTail, held, d.now⟩]
      resAt := if w.res.isEmpty then q.resAt else at0 + up64 w.res.length
      waiting := q.waiting.drop 1 } x)

/-- A field of a descriptor word. -/
def dFldOf (d : Desc) (w hi lo : Nat) : Nat := fld (d.getD w 0) hi lo

/-- Drop a command from the outstanding ones. -/
def dropCmd (h : Nat) (x : Hst) : Hst := { x with cmds := x.cmds.filter (fun c => c.h ≠ h) }

/-- Write the waiting completions of a pair in order, up to the first that finds no space; n bounds the number. -/
def drainWaiting (p : Nat) (d : Dev) : Nat → Hst → Hst
  | 0, x => x
  | n + 1, x =>
    match (pair x p).waiting with
    | [] => x
    | w :: _ =>
      match writeCq p w d x with
      | none => x
      | some x' => drainWaiting p d n (dropCmd w.h x')

/-- OPCODE of a descriptor (R282). -/
def dOp (d : Desc) : Nat := fld (d.getD 0 0) 7 0
/-- TARGET of a descriptor. -/
def dTarget (d : Desc) : Nat := fld (d.getD 0 0) 13 8
/-- FENCE of a descriptor. -/
def dFence (d : Desc) : Bool := bit (d.getD 0 0) 16
/-- QUIET of a descriptor. -/
def dQuiet (d : Desc) : Bool := bit (d.getD 0 0) 17
/-- Word i of a descriptor. -/
def dWord (d : Desc) (i : Nat) : Word := d.getD i 0

/-- The lifetime in ring-time LSBs (R370). -/
def lifeNow (d : Dev) : Nat := d.mm.life * lsbPerSec + d.mm.sub

/-- An hour, for which the handle of a TIMEOUT is not used again (R286). -/
def hour : Nat := 3600 * lsbPerSec

/-- The event of a command that ends INTERNAL: its handle and its opcode (R293, R357). -/
def internalError (h op : Nat) (d : Dev) : Dev := post 0x1402 0 (leBytes 2 h ++ [BitVec.ofNat 8 op]) d

/-- Complete an outstanding command (R289): a QUIET command that ends DONE writes no entry (R282). A TIMEOUT keeps its
handle unused for an hour (R286). A STREAM_START that does not end DONE frees its stream slot, and a STREAM_STOP the slot whose last record
it waits for. -/
def complete (c : HeadCmd) (status : Nat) (res : List Byte) (d : Dev) (x : Hst) : Hst :=
  let x := if status = St.timeout then
    { x with timedOut := x.timedOut.filter (fun e => lifeNow d < e.2 + hour) ++ [(c.h, lifeNow d)] } else x
  let x := if dOp c.d = 0x11 ∧ status ≠ St.done then { x with streams := x.streams.filter (fun e => e.h ≠ c.h) } else x
  let x := { x with streams := x.streams.filter (fun e => e.stop.map Prod.fst ≠ some c.h) }
  if dQuiet c.d && decide (status = St.done) then dropCmd c.h x
  else
    let q := pair x c.pair
    let x := setPair c.pair { q with waiting := q.waiting ++ [⟨c.h, status, dTarget c.d, res⟩] } x
    drainWaiting c.pair d (q.waiting.length + 1) x

/-- Is a position enumerated: the head, or one with a record of the last RING_ENUM? -/
def enumerated (d : Dev) (p : Nat) : Bool := decide (p = 0) || (d.rg.recs.any (fun r => r.1 == p))

/-- The record of a position. -/
def posRec (d : Dev) (p : Nat) : PosRec :=
  match d.rg.recs.find? (fun r => r.1 == p) with
  | some r => r.2
  | none => ⟨0, 0, 0, false, 0, 0, false, 0⟩

/-- Replace the record of a position that has one. -/
def setPosRec (p : Nat) (r : PosRec) (d : Dev) : Dev :=
  { d with rg := { d.rg with recs := d.rg.recs.map (fun e => if e.1 = p then (p, r) else e) } }

/-- The answer of a position to a broadcast, if it has come. -/
def answerOf (c : HeadCmd) (p : Nat) : Option Nat :=
  match c.answers.find? (fun a => a.1 == p) with
  | some a => some a.2
  | none => none

/-- Have all enumerated positions answered a broadcast? -/
def allAnswered (d : Dev) (c : HeadCmd) : Bool :=
  (upFrom 0 63).all (fun p => !enumerated d p || (answerOf c p).isSome)

/-- The 64-byte table of a broadcast; `late` stands for a position without an answer (R295), and COMMIT uses its own
codes (R260). -/
def broadcastTable (d : Dev) (c : HeadCmd) (late : Nat) : List Byte :=
  (upFrom 0 64).map (fun p =>
    if p < 63 && enumerated d p then BitVec.ofNat 8 ((answerOf c p).getD late)
    else if dOp c.d = 0x04 then 0 else 0xFF)

/-- Complete a broadcast: DONE when every enumerated position reads DONE (COMMIT: on time), else DONE_PARTIAL (R260,
R295). `late` is the code of a position without an answer. -/
def completeBroadcast (c : HeadCmd) (d : Dev) (x : Hst) : Hst :=
  let commit := decide (dOp c.d = 0x04)
  let good := if commit then 1 else St.done
  let ok := (upFrom 0 63).all (fun p => !enumerated d p || decide (answerOf c p = some good))
  complete c (if ok then St.done else St.partial')
    (broadcastTable d c (if commit then 3 else St.timeout)) d x

/-- A POWER to SHUTDOWN, SLEEP or GAZEBO (R295). -/
def lowPower (c : Desc) : Bool := decide (dOp c = 0x90) && decide (1 ≤ dFldOf c 2 2 0 ∧ dFldOf c 2 2 0 ≤ 3)

/-- Update an outstanding command. -/
def setCmd (c : HeadCmd) (x : Hst) : Hst := { x with cmds := x.cmds.map (fun e => if e.h = c.h then c else e) }

/-- The outstanding command of a handle. -/
def findCmd (x : Hst) (h : Nat) : Option HeadCmd := x.cmds.find? (fun c => c.h == h)

/-- Is the completion of a handle already waiting for result space? -/
def isWaiting (x : Hst) (c : HeadCmd) : Bool := (pair x c.pair).waiting.any (fun w => w.h == c.h)

/-- First corner index whose rate is not more than twice R records per second (R72, R302). -/
def rateCorner (r decim : Nat) : Nat := ((upFrom 0 7).find? (fun i => decide (25600 ≤ 2 * r * 4 ^ i * decim))).getD 6

/-- Records k of a STREAM frame for S data bytes (R302). For S = 0 the rule states none, so k is free. -/
def streamK (h s : Nat) : Nat := if s = 0 then 1 + (Config.freeWord h).toNat % 65535 else 244 / s

/-- Load of a stream of corner index idx in characters per second, as a quotient: R x (S + 26 / k) (R303). -/
def streamLoad (idx decim s k : Nat) : Nat × Nat := (25600 * (s * k + 26), 4 ^ idx * decim * k)

/-- The corner index that the result of a STREAM_START shows (R302). -/
def resultCorner (c : Desc) (res : List Byte) : Nat := rateCorner (leNat ((res.drop 4).take 4)) (dFldOf c 2 31 16)

/-- The head's stream slots follow the answers of STREAM_START and STREAM_STOP (R302, R304): a DONE gives a started stream its
record period and load, from the R of the result, and puts the slot's number into byte 0. -/
def streamAnswer (c : HeadCmd) (status : Nat) (res : List Byte) (x : Hst) : List Byte × Hst :=
  if dOp c.d = 0x12 ∧ status = St.done then
    (res, { x with streams := x.streams.filter (fun s => s.h ≠ dFldOf c.d 2 15 0) })
  else if dOp c.d ≠ 0x11 ∨ status ≠ St.done then (res, x)
  else match x.streams.find? (fun s => s.h == c.h) with
    | none => (res, x)
    | some s =>
      let idx := resultCorner c.d res
      let q := streamLoad idx (dFldOf c.d 2 31 16) s.s (streamK s.h s.s)
      let s' := { s with per2 := dFldOf c.d 2 31 16 * (15625 * 4 ^ idx), num := q.1, den := q.2 }
      (res.set 0 (BitVec.ofNat 8 s.k), { x with streams := x.streams.map (fun e => if e.h = c.h then s' else e) })

/-- The final answer of position p to handle h reaches the head's records: a single target's command completes, a
broadcast gathers it (R289, R295, R260). Answers to unknown handles are discarded (R287). -/
def answer (p h status : Nat) (res : List Byte) (d : Dev) (x : Hst) : Hst :=
  match findCmd x h with
  | none => x
  | some c =>
    if isWaiting x c then x
    else if dTarget c.d = 0x3F then
      let code := if dOp c.d = 0x04 then (if bit (BitVec.ofNat 32 (res.getD 8 0).toNat) 0 then 2 else 1) else status
      let c := { c with answers := c.answers.filter (fun a => a.1 ≠ p) ++ [(p, code)] }
      let x := setCmd c x
      if allAnswered d c && !lowPower c.d then completeBroadcast c d x else x
    else
      let (res, x) := streamAnswer c status res x
      complete c status res d x

/-- Entries an event ring can hold unserved: one less than SIZE, so that a head index equal to the tail always means
an empty ring (DEDUCED). -/
def eqRoom (d : Dev) : Nat := ringSize d R.hostEqCfg - 1

/-- Write one event entry, or drop and count it at a full ring (R290, R292). -/
def pushEvent (e : EvRec) (b : Both) : Both :=
  let (d, x) := b
  if x.eq.run then
    if x.eq.unserved.length < eqRoom d then
      let b3 := b2n x.eq.phase + 2 * b2n e.urgent + 4 * b2n x.eq.lost
      let x := devWrite d.now (ringBase d R.hostEqCfg 32 + 32 * x.eq.tail) (e.bytes b3) x
      let t' := nextIdx (ringSize d R.hostEqCfg) x.eq.tail
      (d, { x with eq := { x.eq with
        tail := t'
        phase := if t' = 0 then !x.eq.phase else x.eq.phase
        unserved := x.eq.unserved ++ [(d.now, e.urgent)]
        lost := false } })
    else (bump R.hostEvtLost 15 0 1 d, { x with eq := { x.eq with lost := true } })
  else (d, x)

/-- At the end of a command the head posts what it left: its events into the event ring, its own completions (R277,
R289, R292). -/
def settle (b : Both) : Both :=
  let evs := b.1.ev.out
  let dones := b.1.ex.done
  let d := { b.1 with ev := { b.1.ev with out := [] }, ex := { b.1.ex with done := [] } }
  let r := each pushEvent evs (d, b.2)
  (r.1, each (fun w x => answer 0 w.h w.status w.res r.1 x) dones r.2)

/-- The condition of a ring with `n` unserved entries, the oldest written at `oldest` (R307). -/
def ringCond (d : Dev) (modOff n : Nat) (oldest : Option Time) : Bool :=
  let count := regFld d modOff 7 0
  let time := regFld d modOff 31 16
  (decide (count ≠ 0) && decide (count ≤ n)) ||
  (decide (time ≠ 0) && (match oldest with
    | some t => decide (usT time ≤ since t d.now)
    | none => false))

/-- The condition of pair p holds (R307). -/
def pairCond (d : Dev) (x : Hst) (p : Nat) : Bool :=
  let q := pair x p
  q.run && ringCond d (pairOff R.hostImod p) q.written.length (q.written.head?.map CqEntry.time)

/-- The condition of the event ring holds (R307). -/
def eqCond (d : Dev) (x : Hst) : Bool :=
  x.eq.run && (ringCond d R.hostEqMod x.eq.unserved.length (x.eq.unserved.head?.map Prod.fst) ||
    x.eq.unserved.any Prod.snd)

/-- HINT_N is asserted while any condition holds (R307). -/
def hint (d : Dev) (x : Hst) : Bool := (upFrom 0 4).any (pairCond d x) || eqCond d x

/-- The next state of a command with effect f on device and host port; the queue is not its concern. -/
def actH (f : Both → Both) (s : State) : Host.Outcome State Fault Refusal :=
  let r := settle (f (s.dev, s.hst))
  .next { s with dev := r.1, hst := r.2 }

/-- The next state of a command with effect f on the device alone. -/
def act (f : Dev → Dev) (s : State) : Host.Outcome State Fault Refusal := actH (fun b => (f b.1, b.2)) s

/-- A device command that has an effect only while the C-die is out of reset; ring time advances in any case. -/
def actAt (t : Time) (f : Dev → Dev) (s : State) : Host.Outcome State Fault Refusal :=
  act (fun d => if d.running then f (tick t d) else d) s

/-- A command on device and host port that has an effect only while the C-die is out of reset. -/
def actBoth (t : Time) (f : Both → Both) (s : State) : Host.Outcome State Fault Refusal :=
  actH (fun b => if b.1.running then f (tick t b.1, b.2) else b) s

/-- A device command that has an effect only in STANDBY or ACTIVE. -/
def actAwake (t : Time) (f : Dev → Dev) (s : State) : Host.Outcome State Fault Refusal :=
  act (fun d => if d.running then (let d := tick t d; if d.awake then f d else d) else d) s

/-! ### Opcode commands (R294) -/

/-- Words i to 15 of a descriptor are 0. -/
def zeroFrom (d : Desc) (i : Nat) : Bool := (upFrom i (16 - i)).all (fun k => dWord d k == 0)

/-- Words lo to hi of a descriptor are 0. -/
def zeroIn (d : Desc) (lo hi : Nat) : Bool := (upFrom lo (hi + 1 - lo)).all (fun k => dWord d k == 0)

/-- A field of a descriptor word. -/
def dFld (d : Desc) (w hi lo : Nat) : Nat := dFldOf d w hi lo

/-- The effect of an opcode at this device: only in STANDBY or ACTIVE, and only for a descriptor of that opcode whose
arguments are not malformed, since any other is rejected before it executes (R283, R284). -/
def actOp (op : Nat) (ok : Desc → Bool) (t : Time) (c : Desc) (f : Dev → Dev) (s : State) :
    Host.Outcome State Fault Refusal :=
  actAwake t (fun d => if decide (dOp c = op) && ok c then f d else d) s

/-- As `actOp`, for an opcode that also acts on the host window. -/
def actOpH (op : Nat) (ok : Desc → Bool) (t : Time) (c : Desc) (f : Both → Both) (s : State) :
    Host.Outcome State Fault Refusal :=
  actH (fun b =>
    if b.1.running then
      let d := tick t b.1
      if d.awake && decide (dOp c = op) && ok c then f (d, b.2) else (d, b.2)
    else b) s

end Sys2Proof.Machine
end

