-- ==== Sys2Proof/Machine/SafetyIo.lean ====
section
/-! DEFINITION. Safety functions: outputs, inputs, the safety cycle, latches and their release (file 11). -/

namespace Sys2Proof.Machine

/-! ### Windows, permits, demands -/

/-- The service window of the device is open (R347). -/
def windowOpen (d : Dev) : Bool := d.pr.svcUntil.isSome || d.pr.svcHead

/-- The hardware permit (R309, R310, R330). -/
def hwPermit (d : Dev) : Bool :=
  d.head && d.awake && !d.sf.wdog && (!d.sf.extest || windowOpen d)

/-- A pair's state. -/
def pairIn (d : Dev) (p : Nat) : PairState := if p = 0 then d.sf.p0 else d.sf.p1

/-- Replace a pair's state. -/
def setPairIn (p : Nat) (x : PairState) (d : Dev) : Dev :=
  if p = 0 then { d with sf := { d.sf with p0 := x } } else { d with sf := { d.sf with p1 := x } }

/-- EN bit of a pair in SAFE_IN_CFG. -/
def pairEnabled (d : Dev) (p : Nat) : Bool := regBit d R.safeInCfg (11 + 16 * p)

/-- AUTO bit of a pair. -/
def pairAuto (d : Dev) (p : Nat) : Bool := regBit d R.safeInCfg (12 + 16 * p)

/-- DISC of a pair, ms. -/
def pairDisc (d : Dev) (p : Nat) : Nat := regFld d R.safeInCfg (10 + 16 * p) (16 * p)

/-- A pair is in demand (R322). -/
def demand (d : Dev) (p : Nat) : Bool :=
  let x := pairIn d p
  pairEnabled d p && (!x.filtA || !x.filtB)

/-- Is a pair routed to an output? -/
def routedTo (d : Dev) (p : Nat) : Out → Bool
  | .soa => (routed d p).1
  | .sob => (routed d p).2

/-- Number of an output (Table REG-5's text). -/
def outIdx : Out → Nat
  | .soa => 0
  | .sob => 1

/-- May a latched bit b stand while output o is switched on (R314)? -/
def bitAllowed (d : Dev) (o : Out) (c : Nat × Nat) : Bool :=
  (decide (c.1 = 10) && !routedTo d (c.2 / 2) o) ||
  (decide (c.1 = 11) && !routedTo d 0 o) ||
  (decide (c.1 = 12) && !routedTo d 1 o) ||
  (decide (c.1 = 16) && decide (c.2 ≠ outIdx o))

/-- Every enumerated position that is not excluded was seen in the latest heartbeat (R314, R56). -/
def allSeen (d : Dev) : Bool := d.rg.recs.all (fun r => r.1 == 0 || r.2.low || r.2.seen)

/-- The unmet conditions of an output's permit, bits in the order of R314. -/
def unmet (d : Dev) (o : Out) : Nat :=
  pack [(b2n !(d.head && d.awake), 0),
    (b2n !(regBit d R.safeOutCfg (outIdx o)), 1),
    (b2n !(d.sf.causes.all (bitAllowed d o)), 2),
    (b2n ((routedTo d 0 o && (demand d 0 || d.sf.p0.pend)) || (routedTo d 1 o && (demand d 1 || d.sf.p1.pend))), 3),
    (b2n !d.rg.enumDone, 4),
    (b2n !(allSeen d), 5),
    (b2n !(hwPermit d), 6)]

/-! ### Outputs (R314 to R318) -/

/-- An output that is on fails a CAL_USER of mode 0x1 at this device (R126). -/
def userOutputs (d : Dev) : Dev :=
  match d.ca.user with
  | some u => if u.mode = 1 then userBad 1 d else d
  | none => d

/-- The cause "output stuck" of an output ends, but for one that its bucket keeps (R311, R316, R317). -/
def unstuck (o : Out) (d : Dev) : Dev := if lasting d 4 (outIdx o) then d else gone 9 (outIdx o) d

/-- Switch an output on (R314). -/
def outOn (o : Out) (d : Dev) : Dev :=
  userOutputs (unstuck o (setOut o { outState d o with on := true, rb := true, low := false, test := false, discard := false, onAt := d.now } d))

/-- A write to SAFE_OUT_CMD (R314): OFF wins over ON; ON for an output already on has no effect; refused ONs raise one
event that names the outputs and the unmet conditions. A stack device ignores the write (R311). -/
def outCmd (onA onB offA offB : Bool) (d : Dev) : Dev :=
  if !d.head then d
  else
    let d := if offA then outOff .soa d else d
    let d := if offB then outOff .sob d else d
    let wantA := onA && !offA && !d.sf.outA.on
    let wantB := onB && !offB && !d.sf.outB.on
    let uA := if wantA then unmet d .soa else 0
    let uB := if wantB then unmet d .sob else 0
    let d' := if wantA && decide (uA = 0) then outOn .soa d else d
    let d' := if wantB && decide (uB = 0) then outOn .sob d' else d'
    if uA = 0 ∧ uB = 0 then d'
    else occur 42 0 0x1606 [BitVec.ofNat 8 (b2n (decide (uA ≠ 0)) + 2 * b2n (decide (uB ≠ 0))),
      BitVec.ofNat 8 (uA ||| uB)] d'

/-- SAFE_STAT (R309 to R324). -/
def safeStat (d : Dev) : Word :=
  packW [(b2n d.sf.outA.on, 0), (b2n d.sf.outB.on, 1), (b2n d.sf.outA.rb, 2), (b2n d.sf.outB.rb, 3),
    (b2n (decide (unmet d .soa = 0)), 4), (b2n (decide (unmet d .sob = 0)), 5),
    (b2n d.sf.outA.test, 6), (b2n d.sf.outB.test, 7), (b2n !d.sf.causes.isEmpty, 8), (b2n d.sf.armed, 9),
    (b2n (faultBit d 14 || faultBit d 17), 10), (b2n (hwPermit d), 11),
    (b2n (demand d 0), 16), (b2n (demand d 1), 17), (b2n d.sf.p0.pend, 18), (b2n d.sf.p1.pend, 19)]

/-- SAFE_IN_STAT (R320, R321). -/
def safeInStat (d : Dev) : Word :=
  packW [(b2n d.sf.p0.rawA, 0), (b2n d.sf.p0.rawB, 1), (b2n d.sf.p1.rawA, 2), (b2n d.sf.p1.rawB, 3),
    (b2n d.sf.p0.filtA, 8), (b2n d.sf.p0.filtB, 9), (b2n d.sf.p1.filtA, 10), (b2n d.sf.p1.filtB, 11),
    (b2n (decide (0 < level d 5 0)), 16), (b2n (decide (0 < level d 5 1)), 17),
    (b2n (decide (0 < level d 5 2)), 18), (b2n (decide (0 < level d 5 3)), 19)]

/-- FLT_N is asserted while a fault is latched (R311); in SLEEP and GAZEBO while it was before entry, and released in
SHUTDOWN (Table PWR-6's text). -/
def fltN (d : Dev) : Bool :=
  match d.pw.st with
  | .off | .shutdown => false
  | .sleep | .gazebo => d.sf.fltHeld
  | _ => !d.sf.causes.isEmpty

/-- A CAL_USER of mode 0x1 at a stack device. -/
def userOffset (c : HeadCmd) : Bool := decide (dOp c.d = 0x52) && decide (dFld c.d 2 3 0 = 1) && decide (1 ≤ dTarget c.d ∧ dTarget c.d ≤ 62)

/-- The record with which the head ends a CAL_USER whose target cannot see the outputs: detail 0x01; what the target has measured and its
register words are free (R126, R128). -/
def outputRecord (d : Dev) : List Byte × Dev :=
  let (r, d) := each (fun _ (p : List Byte × Dev) => let (w, d) := freeWord p.2; (p.1 ++ wordBytes w, d)) (upFrom 0 4) ([], d)
  let (o, d) := each (fun _ (p : List Byte × Dev) => let (w, d) := freeWord p.2; (p.1 ++ wordBytes w, d)) (upFrom 0 2) ([], d)
  ([1, 1, 0, 0] ++ r ++ o ++ o ++ zeros 4, d)

/-- In mode 0x1 the head checks SOA and SOB for every target position (R126): while one is on, such a job ends INPUT_NOT_READY. The target's
own answer then meets an unknown handle. -/
def headOutputs (b : Both) : Both :=
  if b.1.sf.outA.on || b.1.sf.outB.on then
    each (fun c b => if isWaiting b.2 c then b else
      let (r, d) := outputRecord b.1
      (d, complete c St.inputNotReady r d b.2)) (b.2.cmds.filter (fun c => userOffset c && c.sent)) b
  else b

/-- OUTPUT_ON (R126, R314). -/
def execOutputOn (t : Time) (a b : Bool) (s : State) : Host.Outcome State Fault Refusal :=
  actH (fun x => if x.1.running then headOutputs (outCmd a b false false (tick t x.1), x.2) else x) s

/-- OUTPUT_OFF (R314). -/
def execOutputOff (t : Time) (a b : Bool) (s : State) : Host.Outcome State Fault Refusal :=
  actAt t (outCmd false false a b) s

/-- The slot of an output's off-test: SOA at multiples of 2 s, SOB 1 s later (R316). -/
def testSlot (o : Out) (d : Dev) : Bool := decide (d.now.toNat % msT 2000 = msT 1000 * outIdx o)

/-- The off-test of an output that has been on for 100 ms starts at its slot (R316, R318). -/
def offTest (o : Out) (d : Dev) : Dev :=
  let x := outState d o
  if testSlot o d && d.head && x.on && !x.test && regBit d R.safeOutCfg (outIdx o) && decide (msT 100 ≤ since x.onAt d.now) then
    setOut o { x with test := true, testAt := d.now } d
  else d

/-- OUTPUT_OFF_TEST (R316). -/
def execOutputOffTest (t : Time) (o : Out) (s : State) : Host.Outcome State Fault Refusal :=
  actAwake t (offTest o) s

/-- The end of an off-test (R316): it passes at the first sample below 2.0 V, and fails with none by 280 us. A failure counts in the
output's bucket and latches bit 9 at N. Successive tests open the two enables alternately. -/
def offTestEnd (o : Out) (mv : List Nat) (d : Dev) : Dev :=
  let x := outState d o
  let pass := mv.any (fun v => decide (v < 2000))
  let ends := (pass || decide (mv.length = 27)) && passed (usT (10 + 10 * mv.length)) x.testAt d.now
  if x.test && ends then
    let d := setOut o { x with test := false, low := pass, enable := 1 - x.enable } d
    if pass then d else occurFault 4 (outIdx o) 0x1603 [BitVec.ofNat 8 x.enable] d
  else d

/-- OUTPUT_OFF_TEST_END (R316). -/
def execOutputOffTestEnd (t : Time) (o : Out) (mv : List Nat) (s : State) : Host.Outcome State Fault Refusal :=
  actAwake t (offTestEnd o mv) s

/-- An output commanded off reads at or above 2.0 V for 1 ms: bit 9 latches at once (R317), in a stack device in the same way (R311). -/
def outputStuck (o : Out) (mv us : Nat) (d : Dev) : Dev :=
  let x := outState d o
  if !x.on && decide (2000 ≤ mv) && decide (1000 ≤ us) && passed (usT us) x.offAt d.now then
    latch 9 (outIdx o) (setOut o { x with low := false } d)
  else d

/-- OUTPUT_STUCK (R317). -/
def execOutputStuck (t : Time) (o : Out) (mv us : Nat) (s : State) : Host.Outcome State Fault Refusal :=
  actAwake t (outputStuck o mv us) s

/-- An output commanded on stays in current limit for 1 ms, or reads below half of VSTK for 1 ms after its first 1 ms on: it switches off
and bit 16 latches (R317). -/
def outputOverload (o : Out) (limit : Bool) (mv vstk us : Nat) (d : Dev) : Dev :=
  let x := outState d o
  let long := decide (1000 ≤ us) && passed (usT us) x.onAt d.now
  if d.head && x.on && !x.test && long && (limit || (decide (2 * mv < vstk) && passed (msT 2) x.onAt d.now)) then
    latch 16 (outIdx o) (occur 41 (outIdx o) 0x1605 [if limit then 1 else 2] d)
  else d

/-- OUTPUT_OVERLOAD (R317). -/
def execOutputOverload (t : Time) (o : Out) (limit : Bool) (mv vstk us : Nat) (s : State) : Host.Outcome State Fault Refusal :=
  actAwake t (outputOverload o limit mv vstk us) s

/-! ### Inputs (R319 to R324) -/

/-- Pass counters of one channel after a check. -/
def passCount (x : PairState) (chB ok : Bool) : PairState :=
  if chB then { x with passB := if ok then x.passB + 1 else 0 }
  else { x with passA := if ok then x.passA + 1 else 0 }

/-- The check of channel ch in one test pulse (R321): own-pulse when the pulse is its own source's, else cross. A
channel that read low before is not checked. -/
def pulseCheck (own : Bool) (ch : Nat) (before during : Bool) (d : Dev) : Dev :=
  if !before then d
  else
    let ok := if own then !during else during
    let d := setPairIn (ch / 2) (passCount (pairIn d (ch / 2)) (decide (ch % 2 = 1)) ok) d
    if ok then d else occurFault 5 ch 0x1604 [if own then 1 else 2] d

/-- Raw pin levels as sampled outside a pulse (SAFE_IN_STAT.RAW). -/
def setRaw (l : List Bool) (d : Dev) : Dev :=
  { d with sf := { d.sf with
      p0 := { d.sf.p0 with rawA := l.getD 0 false, rawB := l.getD 1 false }
      p1 := { d.sf.p1 with rawA := l.getD 2 false, rawB := l.getD 3 false } } }

/-- The pulse whose checks are made at ring time t: TPA's 150 us after multiples of 20 ms, TPB's 10 ms later (Table SAFE-4). -/
def pulseAt (t : Time) : Option Bool :=
  if t.toNat % msT 20 = usT 150 then some false else if t.toNat % msT 20 = usT 10150 then some true else none

/-- One test pulse and its checks (R319, R321): TPA is the source of SIA0 and SIA1, TPB of SIB0 and SIB1. -/
def testPulse (before during : List Bool) (d : Dev) : Dev :=
  match pulseAt d.now with
  | none => d
  | some pulseB =>
  if d.head then
    each (fun ch d => pulseCheck (decide ((ch % 2 = 1) = pulseB)) ch (before.getD ch false) (during.getD ch false) d)
      [0, 1, 2, 3] (setRaw before d)
  else d

/-- TEST_PULSE_CYCLE (R319, R321). -/
def execTestPulseCycle (t : Time) (before during : List Bool) (s : State) : Host.Outcome State Fault Refusal :=
  actAwake t (testPulse before during) s

/-- A pair after its filtered levels changed (R322, R324): both high ends a demand and may leave a restart pending;
both low at once is remembered for the release of a discrepancy. -/
def pairStep (auto en : Bool) (x : PairState) : PairState :=
  if x.filtA && x.filtB then
    { x with agreed := true, fresh := false, pend := x.pend || (x.fresh && !auto && en) }
  else if !x.filtA && !x.filtB then { x with fresh := x.fresh || (x.agreed && en), both := true }
  else { x with fresh := x.fresh || (x.agreed && en) }

/-- Samples of a channel with an index below n that are masked: 30 of every 2,000 from each pulse of its source on (R319, R320). -/
def maskedBelow (chB : Bool) (n : Nat) : Nat :=
  let m := if chB then n + 1000 else n
  m / 2000 * 30 + min (m % 2000) 30 - (if chB then 30 else 0)

/-- Unmasked samples of a channel from ring time a to b. Samples fall on multiples of 10 us (DESIGN CHOICE, log 89: no rule gives their
phase). -/
def samplesIn (chB : Bool) (a b : Time) : Nat :=
  let i := (a.toNat + usT 10 - 1) / usT 10
  let j := b.toNat / usT 10 + 1
  (j - i) - (maskedBelow chB j - maskedBelow chB i)

/-- A channel's filtered level takes a new value after 300 consecutive unmasked samples (R320); a demand switches the
routed outputs off (R322). -/
def filterChange (ch : Nat) (lv : Bool) (begun : Time) (d : Dev) : Dev :=
  if d.head && decide (ch < 4) then
    let p := ch / 2
    let x := pairIn d p
    let x := if ch % 2 = 0 then { x with rawA := lv } else { x with rawB := lv }
    if 300 ≤ samplesIn (decide (ch % 2 = 1)) begun d.now then
      let x := if ch % 2 = 0 then { x with filtA := lv } else { x with filtB := lv }
      let d := setPairIn p (pairStep (pairAuto d p) (pairEnabled d p) x) d
      let d := if x.filtA = x.filtB then gone (11 + p) p d else d
      if demand d p then (let r := routed d p; react r.1 r.2 d) else d
    else setPairIn p x d
  else d

/-- INPUT_FILTER_CHANGE (R320, R322). -/
def execInputFilterChange (t : Time) (ch : Nat) (level : Bool) (begun : Time) (s : State) : Host.Outcome State Fault Refusal :=
  actAwake t (filterChange ch level begun) s

/-! ### Release (R313) -/

/-- The key of SAFE_RESET (Table MAP-22). -/
def safeKey : Word := 0x5A5A0002

/-- End a pending manual restart of a pair whose channels are both high (R324). -/
def endPending (p : Nat) (d : Dev) : Dev :=
  let x := pairIn d p
  if x.filtA && x.filtB then setPairIn p { x with pend := false } d else d

/-- A write of the key arms release for 20 ms; any other value has no effect (R313). -/
def safeResetWrite (key : Word) (d : Dev) : Dev :=
  if key = safeKey then
    endPending 1 (endPending 0 { d with sf := { d.sf with
      armed := true
      armedTo := BitVec.ofNat 64 (d.now.toNat + msT 20)
      armedSet := d.sf.causes } })
  else d

/-- SAFE_RESET (R313). -/
def execSafeReset (t : Time) (key : Word) (s : State) : Host.Outcome State Fault Refusal :=
  actAt t (safeResetWrite key) s

/-- The release window ends 20 ms after the key write (R313). -/
def windowEnd (d : Dev) : Dev :=
  if d.sf.armed && decide (d.sf.armedTo.toNat ≤ d.now.toNat) then
    { d with sf := { d.sf with armed := false, armedSet := [] } } else d

/-- SAFE_RESET_WINDOW_END (R313). -/
def execSafeResetWindowEnd (t : Time) (s : State) : Host.Outcome State Fault Refusal := actAt t windowEnd s

/-- The release condition of a cause (Table SAFE-1). -/
def mayRelease (d : Dev) (c : Nat × Nat) : Bool :=
  let (b, i) := c
  match b with
  | 0 => decide (reg d R.cmpStatOv = 0) && decide (reg d R.cmpStatUv = 0)
  | 1 => !regBit d R.curStat 5 && !regBit d R.curStat 6
  | 2 => decide (regFld d R.auxStat 23 16 = 0)
  | 3 => !d.ln.rxTone && !d.ls.rxTone && decide (msT 10 ≤ since d.sf.toneQuiet d.now) &&
      (!d.head || d.rg.recs.all (fun r => r.1 == 0 || !r.2.seen || decide (r.2.second % 2 = 0)))
  | 4 => decide (reg d R.measDisFault = 0) && !lasting d 1 (i - 1)
  | 5 => !lasting d 2 0
  | 6 => !anyLasting d 0
  | 7 => !regBit d R.curStat 4 && !lasting d 3 0
  | 8 => !d.pr.scrcBad
  | 9 => windowOpen d && (if i = 0 then !d.sf.outA.on && d.sf.outA.low else !d.sf.outB.on && d.sf.outB.low)
  | 10 => let x := pairIn d (i / 2); decide (10 ≤ x.passA) && decide (10 ≤ x.passB)
  | 11 | 12 => let x := pairIn d (b - 11); x.both && x.filtA && x.filtB
  | 13 => decide (10 ≤ kget 0 d.sf.hbSeen i) ||
      (d.head && ((posRec d i).low || !enumerated d i))
  | 15 => !d.ca.noSet
  | 16 => if i = 0 then !d.sf.outA.on else !d.sf.outB.on
  | _ => false

/-- Release every armed latch whose condition holds at this safety cycle (R313). -/
def releaseAll (d : Dev) : Dev :=
  if d.sf.armed && decide (d.now.toNat ≤ d.sf.armedTo.toNat) then
    each (fun c d => if c ∈ d.sf.causes ∧ mayRelease d c then release c.1 c.2 d else d) d.sf.armedSet d
  else d

/-! ### The safety cycle (R310, R323, R328, R340, R341) -/

/-- A pair after a commit from `old` (R324): with AUTO nothing is pending, and a demand that begins with the pair's enable, once both filtered
levels have been high, leaves a restart pending. -/
def pairCommit (old : Dev) (p : Nat) (d : Dev) : Dev :=
  let x := pairIn d p
  let begins := !pairEnabled old p && x.agreed && (!x.filtA || !x.filtB)
  setPairIn p { x with pend := x.pend && !pairAuto d p, fresh := pairEnabled d p && (x.fresh || begins) } d

/-- Discrepancy count of a pair at one tick (R323). -/
def discTick (p : Nat) (d : Dev) : Dev :=
  let x := pairIn d p
  if x.filtA = x.filtB then setPairIn p { x with disc := 0 } d
  else
    let d := setPairIn p { x with disc := x.disc + 1 } d
    if pairDisc d p ≤ x.disc + 1 ∧ (11 + p, p) ∉ d.sf.present then
      latch (11 + p) p (setPairIn p { x with disc := x.disc + 1, both := false } d)
    else d

/-- TOL in ring-time LSBs. -/
def hbTol (d : Dev) : Nat := msT (regFld d R.safeHbCfg 6 0)

/-- The head takes a position as lost when its slot counter has not advanced for TOL; a stack device, when no
HEARTBEAT has come for TOL, latches bit 13 with position 0 (R328). -/
def heartbeatCheck (d : Dev) : Dev :=
  if d.head then
    each (fun r d =>
      if r.1 ≠ 0 && !r.2.low && decide (hbTol d ≤ since r.2.advAt d.now) then
        latch 13 r.1 { d with sf := { d.sf with
          lost := d.sf.lost.filter (fun p => p ≠ r.1) ++ [r.1]
          hbSeen := kset 0 d.sf.hbSeen r.1 0 } }
      else d) d.rg.recs d
  else if hbTol d ≤ since d.sf.hbRx d.now then
    latch 13 0 { d with sf := { d.sf with hbSeen := kset 0 d.sf.hbSeen 0 0 } }
  else d

/-- CRC-32C of the committed safety image (R340). -/
def imageCrc (d : Dev) : Word := BitVec.ofNat 32 (crc32c (wordsBytes (imageOffsets.map (reg d))))

/-- The running check of the safety image against PROT_SCRC_REF (R340, R341). -/
def imageCheck (d : Dev) : Dev :=
  let c := imageCrc d
  let d := setReg R.protScrcRun c d
  if c = reg d R.protScrcRef then gone 8 0 { d with pr := { d.pr with scrcBad := false } }
  else latch 8 0 { d with pr := { d.pr with scrcBad := true } }

/-- The watchdog expires: the hardware drops the permit and latches "supervisor watchdog" (R310). -/
def watchdogExpire (d : Dev) : Dev := latch 17 0 { d with sf := { d.sf with wdog := true } }

/-- SUPERVISOR_WATCHDOG_EXPIRE (R310): 2 ms after the last service two have been missed. -/
def execSupervisorWatchdogExpire (t : Time) (s : State) : Host.Outcome State Fault Refusal :=
  actAwake t (fun d => if passed (msT 2) d.sf.servAt d.now then watchdogExpire d else d) s

/-- A readback of `mv` with VSTK at `vstk` (R315). -/
def OutState.read (mv vstk : Nat) (x : OutState) : OutState := { x with rb := decide (vstk ≤ 2 * mv), low := decide (mv < 2000) }

/-- Readback levels as the outputs' pins show them (R315); below 2.0 V an output is not stuck (R317). -/
def setReadback (a b vstk : Nat) (d : Dev) : Dev :=
  let d := { d with sf := { d.sf with outA := d.sf.outA.read a vstk, outB := d.sf.outB.read b vstk } }
  let d := if d.sf.outA.low then unstuck .soa d else d
  if d.sf.outB.low then unstuck .sob d else d

/-- One safety cycle, 1 ms after the one before (R310). A cycle that is not serviced runs none of its tasks, and the second in a row lets
the watchdog expire. -/
def safetyCycle (serviced : Bool) (rbA rbB vstk : Nat) (d : Dev) : Dev :=
  if !passed (msT 1) d.sf.cycleAt d.now then d else
  let d := setReadback rbA rbB vstk { d with sf := { d.sf with cycleAt := d.now } }
  if serviced then
    let d := { d with sf := { d.sf with missed := 0, servAt := d.now } }
    let d := if d.head then discTick 1 (discTick 0 d) else d
    releaseAll (imageCheck (heartbeatCheck d))
  else
    let d := { d with sf := { d.sf with missed := d.sf.missed + 1 } }
    if d.sf.missed = 2 then watchdogExpire d else d

/-- SAFETY_CYCLE (R310, R313, R323, R328, R340, R341). -/
def execSafetyCycle (t : Time) (serviced : Bool) (rbA rbB vstk : Nat) (s : State) : Host.Outcome State Fault Refusal :=
  actAwake t (safetyCycle serviced rbA rbB vstk) s

end Sys2Proof.Machine
end

