-- ==== Sys2Proof/Machine/Measure.lean ====
section
/-! DEFINITION. Cell measurement: lane results, lane disagreement, comparators, open-wire tests and balance
coefficients (file 03). -/

namespace Sys2Proof.Machine

/-- Results go uncorrected (R84): the mode is IGNORE, and no job excites a cell, when they are corrected as in COMPENSATE (R176). -/
def ignoreMode (d : Dev) (mode : Nat) : Bool := decide (mode = 2) && d.ba.excite.isEmpty

/-- VALUE of the most recent lane A grid result of a cell before T, uV. -/
def vBefore (d : Dev) (T : Time) (cell : Nat) : Int :=
  let g := kget (0, 0) d.me.grid cell
  if g.1.toNat < T.toNat then g.2 else (kget (0, 0) d.me.gridOld cell).2

/-! ### The configuration of an instant (R261) -/

/-- Registers whose committed value shapes a result: the lanes, the cells, the balance and current modes, and the coefficients. -/
def confOffs : List Nat := [R.measCtrl, R.measCells, R.balCtrl, R.curCtrl] ++ (upFrom 0 32).map (fun j => R.measBcoef + 4 * j)

/-- A commit has changed the configuration of `old`, which stays known for the results whose windows end no later than the commit (R261). -/
def keepConf (old d : Dev) : Dev :=
  let x : ConfWas := ⟨d.now, confOffs.map (fun o => (o, reg old o)), old.me.since, old.io.cu.since, old.io.cu.sinceBc⟩
  { d with me := { d.me with was := x :: d.me.was.filter (fun e => decide (since e.at0 d.now < lsbPerSec)) } }

/-- What the first commit at T or after it replaced. -/
def confAt (d : Dev) (T : Nat) : Option ConfWas := (d.me.was.filter (fun e => decide (T ≤ e.at0.toNat))).getLast?

/-- The device with the configuration in force for a window that ends at T (R261): a window that ends as a commit comes holds earlier samples
only, and so belongs to the configuration before it. -/
def asOf (T : Time) (d : Dev) : Dev :=
  match confAt d T.toNat with
  | none => d
  | some c =>
    let d := each (fun p d => setReg p.1 p.2 d) c.words d
    { d with me := { d.me with since := c.lanes }, io := { d.io with cu := { d.io.cu with since := c.cur, sinceBc := c.bc } } }

/-- CUR_CTRL.EN for a sample taken at T (R261). -/
def curOnAt (d : Dev) (T : Nat) : Bool :=
  match confAt d (T + 1) with
  | some c => bit (kget 0 c.words R.curCtrl) 0
  | none => regBit d R.curCtrl 0

/-- Denominator of a correction term: 1/65536 of conduction times 3.000 V in uV. -/
def corrDen : Int := 65536 * 3000000

/-- One term of the correction of R83: conduction w of switch j, its coefficient, the voltage of its cell. The flag says
that the coefficient is unknown although the switch conducted. -/
def corrTerm (d : Dev) (T : Time) (k j w : Nat) (upper both : Bool) : Int × Bool :=
  if w = 0 ∨ j = 0 ∨ k < j then (0, false)
  else
    match coef d j true, coef d j false with
    | some a, some b => ((w : Int) * (2 * ((if both then a + b else if upper then a else b : Nat) : Int)) * vBefore d T j,
        false)
    | _, _ => (0, true)

/-- The correction of a lane reading in uV times `corrDen`, and whether a term is unknown (R83). -/
def correction (d : Dev) (T : Time) (x : LaneSample) : Int × Bool :=
  let k := ncells d
  let o := corrTerm d T k x.cell x.wOwn true true
  let h := corrTerm d T k (x.cell + 1) x.wHigh false false
  let l := corrTerm d T k (x.cell - 1) x.wLow true false
  (o.1 - h.1 - l.1, o.2 || h.2 || l.2)

/-! ### One lane result (R71 to R78) -/

/-- A lane result before it is written. -/
structure LaneResult where
  value : Int
  stale : Bool
  supply : Bool
  comp : Bool
  spare : Bool
  epoch : Nat
  ovr : Bool
  ow : Bool
  uncomp : Bool
deriving DecidableEq, Repr

/-- Does a window of W that ends at T overlap an on phase of a step test that ran from f to e (R76, R82)? -/
def testOverlap (f e T W : Nat) : Bool := decide (0 < testOn (min T e - f) - testOn (T - W - f))

/-- STALE of a lane of a cell at T (R76, R393). -/
def isStale (d : Dev) (lane cell W : Nat) (T : Time) : Bool :=
  let near (j : Nat) : Bool := decide (cell ≤ j + 1 ∧ j ≤ cell + 1)
  decide (lane ∈ d.me.dead) || decide (T.toNat < (kget 0 d.me.since lane).toNat + W) ||
  (match d.ba.test with
    | some (j, f) => near j && testOverlap f.toNat T.toNat T.toNat W
    | none => false) ||
  d.ba.tests.any (fun e => near e.1 && testOverlap e.2.1.toNat e.2.2.toNat T.toNat W)

/-- The corrected window of a lane at T, in uV times 65536 x 10^31 (R101, R109). -/
def laneSum (d : Dev) (lane : Nat) (T : Time) (l : List RawPart) : Int :=
  sumInt (l.map (fun p => (layersAt d lane (T.toNat - p.age)).correct p))

/-- Evaluate one lane at T under a measurement mode (R71 to R78, R83, R84, R101). -/
def laneEvalIn (mode : Nat) (d : Dev) (g : LaneGroup) (T : Time) (x : LaneSample) : LaneResult :=
  let lane := laneIdx g x.cell
  let (e, sp) := placement d lane T
  let W := groupW d g
  let c := correction d T x
  let num := if ignoreMode d mode then 0 else c.1
  let v := quot (laneSum d lane T x.parts * corrDen + num * scale31 * 65536) (scale31 * 65536 * corrDen)
  let stale := isStale d lane x.cell W T
  { value := if stale then kget 0 d.me.good lane else clampInt (-2300000) 5800000 v
    stale := stale
    supply := inDip d W T
    comp := decide (num ≠ 0)
    spare := sp
    epoch := e
    ovr := laneUnstable x.input || decide (v < -2000000 ∨ 5500000 < v)
    ow := owCell d x.cell
    uncomp := if ignoreMode d mode then decide (0 < x.wOwn + x.wHigh + x.wLow) else c.2 }

/-- Evaluate one lane at T in the committed mode. -/
def laneEval (d : Dev) (g : LaneGroup) (T : Time) (x : LaneSample) : LaneResult := laneEvalIn (measMode d) d g T x

/-- The result word (Table MEAS-4). -/
def LaneResult.word (r : LaneResult) : Word :=
  packW [(b2n r.ow, 0), (b2n r.ovr, 1), (r.epoch, 2), (b2n r.spare, 4), (b2n r.comp, 5), (b2n r.supply, 6),
    (b2n r.stale, 7), (unsigned 24 r.value, 8)]

/-- A cell's bit of MEAS_UNCOMP follows its lane A results; a lane B result that lacks a term sets it (R83, R84). -/
def noteUncomp (g : LaneGroup) (cell : Nat) (un : Bool) (d : Dev) : Dev :=
  match g with
  | .a => setRegBit R.measUncomp (cell - 1) un d
  | .b => if un then setRegBit R.measUncomp (cell - 1) true d else d

/-- A flagged result fails a running CAL_USER of mode 0x3 on its cell (R126). -/
def userFlagged (cell : Nat) (r : LaneResult) (d : Dev) : Dev :=
  match d.ca.user with
  | some u => if decide (u.mode = 3) && decide (u.cell = cell) && (r.stale || r.ovr || r.ow || r.supply) then userBad 6 d else d
  | none => d

/-- Write a lane result: its register, the last good value, the over-range rise (R75, R76, R97), the time of its OVR or OW (R111), and the
cell's bit of MEAS_UNCOMP (R83, R84). -/
def writeLane (g : LaneGroup) (cell : Nat) (r : LaneResult) (d : Dev) : Dev :=
  let lane := laneIdx g cell
  let d := setReg (resOff g cell) r.word d
  let was := kget false d.me.ovrOn lane
  let d := { d with me := { d.me with
    good := if r.stale then d.me.good else kset 0 d.me.good lane r.value
    ovrOn := kset false d.me.ovrOn lane r.ovr
    flagAt := if r.ovr || r.ow then kset 0 d.me.flagAt lane (later d.now 1) else d.me.flagAt } }
  let d := if r.ovr && !was then occur 10 lane 0x0403 [] d else d
  noteUncomp g cell (r.uncomp && (decide (g = .a) || !ignoreMode d (measMode d))) (userFlagged cell r d)

/-- One more value of a channel of a CAL_USER job. -/
def UserAcc.add (a : UserAcc) (x : Int) : UserAcc := ⟨a.n + 1, a.s1 + x, a.s2 + x * x⟩

/-- Nothing gathered yet. -/
def UserAcc.none : UserAcc := ⟨0, 0, 0⟩

/-- Ring time at which the measurement interval of a CAL_USER job begins, 1 s after its start, and the job's length, 5 s (R126). -/
def userMeas (u : CalUser) : Nat := u.start.toNat + lsbPerSec

/-- Both intervals of a CAL_USER job: 1 s and 4 s (R126). -/
def userLen : Nat := 5 * lsbPerSec

/-- A job at ring time T: what the precondition interval gathered ends with it (R126). -/
def userAt (T : Nat) (u : CalUser) : CalUser :=
  if !u.meas && decide (userMeas u < T) then
    { u with meas := true, accA := UserAcc.none, accB := UserAcc.none, ms := (0, (0, 0)) }
  else u

/-- Does the job gather what comes at T? -/
def userTakes (T : Nat) (u : CalUser) : Bool := decide (u.start.toNat < T) && decide (T ≤ u.start.toNat + userLen)

/-- The device with the lane layer and the current corrections that were in force at ring time `x`, where the present is later: a CAL_USER job
measures with the working set at the start of its measurement interval (R126). -/
def corrFrom (x : Nat) (d : Dev) : Dev :=
  let late := d.ca.was.filter (fun e => decide (x < e.1.toNat) && decide (e.2.1 ∈ worksetOffsets))
  let d := each (fun e d => setReg e.2.1 e.2.2 d) late d
  { d with ca := { d.ca with was := d.ca.was.filter (fun e => !(decide (x < e.1.toNat) && decide (e.2.1 ∈ worksetOffsets))) } }

/-- A lane grid result of the cell of a CAL_USER job of mode 0x3, evaluated against `d0` (R126). -/
def userLane (d0 : Dev) (g : LaneGroup) (T : Time) (x : LaneSample) (d : Dev) : Dev :=
  match d.ca.user with
  | none => d
  | some u =>
    if decide (u.mode = 3) && decide (u.cell = x.cell) && userTakes T.toNat u then
      let v := (laneEval (corrFrom (userMeas u) d0) g T x).value
      let u := userAt T.toNat u
      let u := match g with
        | .a => { u with accA := u.accA.add v }
        | .b => { u with accB := u.accB.add v }
      { d with ca := { d.ca with user := some u } }
    else d

/-- Readings of configured cells. -/
def inUse (d : Dev) (l : List LaneSample) : List LaneSample :=
  l.filter (fun x => decide (1 ≤ x.cell) && decide (x.cell ≤ ncells d))

/-- The latest lane A grid result of a cell, kept for R83. -/
def noteGrid (T : Time) (cell : Nat) (r : LaneResult) (d : Dev) : Dev :=
  { d with me := { d.me with
    gridOld := kset (0, 0) d.me.gridOld cell (kget (0, 0) d.me.grid cell)
    grid := kset (0, 0) d.me.grid cell (T, r.value) } }

/-- The open summary takes a lane A result (Table MEM-8). -/
def accValue (r : LaneResult) (cell : Nat) (d : Dev) : Dev :=
  if r.stale then d
  else
    withAcc cell (fun a => { a with
      lo := if a.n = 0 then r.value else min a.lo r.value
      hi := if a.n = 0 then r.value else max a.hi r.value
      sum := a.sum + r.value
      n := a.n + 1 }) d

/-! ### Lane disagreement (R89, R90) -/

/-- Effective window of R90 in ring-time LSBs. -/
def disWindow (d : Dev) : Nat :=
  max (msT (regFld d R.measDisCfg 31 16)) (2 * max (groupW d .a) (groupW d .b))

/-- A comparison skipped by either result (R89). -/
def skipCmp (a b : LaneResult) : Bool := a.stale || a.ovr || a.ow || b.stale || b.ovr || b.ow

/-- Compare the lanes of one cell at T and evaluate the fault (R89, R90). A comparison that is skipped leaves the cell's bit of MEAS_DIS_STAT
as it is (DESIGN CHOICE, log 28: the bit follows comparisons, and a skipped one is none). -/
def compareLanes (T : Time) (cell : Nat) (a b : LaneResult) (d : Dev) : Dev :=
  let diff := a.value - b.value
  let beyond := decide (10 * (regFld d R.measDisCfg 15 0 : Int) < Int.ofNat diff.natAbs)
  let skip := skipCmp a b
  let stamp := BitVec.ofNat 64 (T.toNat + 1)
  let d := if skip then d
    else
      let d := setRegBit R.measDisStat (cell - 1) beyond d
      let d := withAcc cell (fun c => { c with dis := max c.dis diff.natAbs }) d
      if beyond then { d with me := { d.me with disEx := kset 0 d.me.disEx cell stamp } }
      else gone 4 cell (setRegBit R.measDisFault (cell - 1) false
        { d with me := { d.me with disOk := kset 0 d.me.disOk cell stamp } })
  let lo := T.toNat + 1 - disWindow d
  let ex := (kget 0 d.me.disEx cell).toNat
  let ok := (kget 0 d.me.disOk cell).toNat
  if ex ≠ 0 && decide (lo ≤ ex) && decide (ok < lo ∨ ok = 0) && !regBit d R.measDisFault (cell - 1) then
    occurFault 1 (cell - 1) 0x0402 (leBytes 4 (unsigned 32 diff)) (setRegBit R.measDisFault (cell - 1) true d)
  else d

/-- Does a grid result of group g bring a comparison (R89)? -/
def comparesAt (d : Dev) (g : LaneGroup) : Bool := decide (groupP2 d (otherGroup g) ≤ groupP2 d g)

/-- The reading of a cell. -/
def sampleOf (l : List LaneSample) (cell : Nat) : Option LaneSample := l.find? (fun x => x.cell == cell)

/-- One cell of a grid instant, all read against the state `d0` before the instant, in its configuration. -/
def gridCell (d0 : Dev) (g : LaneGroup) (T : Time) (other : List LaneSample) (x : LaneSample) (d : Dev) : Dev :=
  let r := laneEval d0 g T x
  let d := userLane d0 g T x (writeLane g x.cell r d)
  let d := match g with
    | .a => accValue r x.cell (noteGrid T x.cell r d)
    | .b => d
  if comparesAt d0 g then
    match sampleOf other x.cell with
    | some y =>
      let q := laneEval d0 (otherGroup g) T y
      (match g with
        | .a => compareLanes T x.cell r q d
        | .b => compareLanes T x.cell q r d)
    | none => d
  else d

/-- T is an instant of a grid of period p2 half LSBs (R72): m x P for an integer m, rounded down to the LSB. -/
def onGrid (p2 : Nat) (T : Time) : Bool := decide ((2 * T.toNat + p2 - 1) / p2 * p2 / 2 = T.toNat)

/-- A result of instant T may still come at the present: it is there by T + 20 us (R75). -/
def fresh (d : Dev) (T : Time) : Bool := decide (since T d.now ≤ usT 20)

/-- A grid instant of a lane group (R72, R75, R89, R261); a disagreement fault may change the state of a balance cell (R202). -/
def gridResult (g : LaneGroup) (T : Time) (own other : List LaneSample) (d : Dev) : Dev :=
  let o := asOf T d
  if onGrid (groupP2 o g) T && fresh d T then balUpdate (each (gridCell o g T other) (inUse o (inUse d own)) d) else d

/-- LANE_GRID_RESULT (R72, R75 to R78, R83, R89, R90, R101). -/
def execLaneGridResult (t : Time) (g : LaneGroup) (own other : List LaneSample) (s : State) :
    Host.Outcome State Fault Refusal :=
  actAt t (gridResult g t own other) s

/-! ### MEAS_STAT and derived bits -/

/-- Modulators in use (R105): those of configured lanes, and the spares. -/
def modulatorsUsed (d : Dev) : List Nat :=
  upFrom 0 (ncells d) ++ upFrom 32 (ncells d) ++ upFrom 64 4

/-- Every modulator in use has completed an accepted calibration (R105). -/
def firstDone (d : Dev) : Bool := (modulatorsUsed d).all (fun m => decide (m ∈ d.ca.accepted))

/-- MEAS_STAT.ACC_LAPSED (R81, R100, R105, R112, R116, R122). -/
def accLapsed (d : Dev) : Bool :=
  suspended d || !firstDone d || !regBit d R.calCtrl 0 || (upFrom 0 64).any (lapsed d) || d.ca.noSet

/-- MEAS_STAT. -/
def measStat (d : Dev) : Word :=
  let words := (cellsUsed d).flatMap (fun n => [reg d (resOff .a n), reg d (resOff .b n)])
  packW [(b2n (if ncells d = 0 then true else words.any (fun w => bit w 7)), 0), (b2n (accLapsed d), 1),
    (b2n (decide (reg d R.measOwStat ≠ 0)), 2), (b2n (decide (reg d R.measDisStat ≠ 0)), 3),
    (b2n (decide (reg d R.measDisFault ≠ 0)), 4),
    (b2n ((upFrom 0 33).any (fun k => regBit d (R.measTapr + 4 * k) 16)), 5),
    (b2n (words.any (fun w => bit w 1)), 6), (b2n (decide (reg d R.measUncomp ≠ 0)), 7)]

/-! ### Comparators (R92 to R96) -/

/-- DEGLITCH x 10 samples. -/
def deglitch (d : Dev) : Nat := 10 * regFld d R.cmpCfg 9 0

/-- Register of a trip map. -/
def cmpOff (ov : Bool) : Nat := if ov then R.cmpStatOv else R.cmpStatUv

/-- A comparator threshold in uV (R92): code x 5 mV and the trim of 0.25 mV. -/
def threshold (d : Dev) (cell : Nat) (ov : Bool) : Int :=
  let c := reg d (R.cmpThr + 4 * (cell - 1))
  let m := reg d (R.calCmpt + 4 * (cell - 1))
  if ov then fld c 9 0 * 5000 + signed 8 (fld m 7 0) * 250 else fld c 25 16 * 5000 + signed 8 (fld m 23 16) * 250

/-- A voltage is outside a threshold (R92). -/
def beyondThr (d : Dev) (cell : Nat) (ov : Bool) (uv : Int) : Bool :=
  if ov then decide (threshold d cell ov < uv) else decide (uv < threshold d cell ov)

/-- A voltage is inside a threshold by at least the hysteresis (R93). -/
def insideThr (d : Dev) (cell : Nat) (ov : Bool) (uv : Int) : Bool :=
  let h := 5000 * regFld d R.cmpCfg 14 12
  if ov then decide (uv + h ≤ threshold d cell ov) else decide (threshold d cell ov + h ≤ uv)

/-- CMP_TEST_STAT.ACTIVE (R96, R394). -/
def cmpActive (d : Dev) : Bool := match d.ca.cmpFrom with
  | some f => decide (f.toNat ≤ d.now.toNat) && decide (since f d.now < cmpTestLen)
  | none => false

/-- The stand-in of R96 acts for a pair: its group is under test, or it has failed its test for good (R394). -/
def standsIn (d : Dev) (cell : Nat) : Bool :=
  (cmpActive d && decide ((cell - 1) / 8 = d.ca.cmpGroup)) || regBit d R.bistCmpFail (cell - 1)

/-- A trip is confirmed (R92, R93): the pair's bit, and SF-CELL. While the stand-in acts for the pair its trips count, and the pair's own do
not; else the reverse (R96). -/
def cmpTrip (cell : Nat) (ov : Bool) (samples : Nat) (uv : Int) (standIn : Bool) (d : Dev) : Dev :=
  if decide (1 ≤ cell) && decide (cell ≤ ncells d) && decide (deglitch d ≤ samples) && beyondThr d cell ov uv &&
      standIn == standsIn d cell then
    let d := setRegBit (cmpOff ov) (cell - 1) true d
    let d := withAcc cell (fun a => { a with flags := a.flags ||| (if ov then 2 else 4) }) d
    latch 0 cell (balUpdate d)
  else d

/-- COMPARATOR_TRIP_CONFIRM (R92, R93, R96, R311). -/
def execComparatorTripConfirm (t : Time) (cell : Nat) (ov : Bool) (samples : Nat) (uv : Int) (standIn : Bool) (s : State) :
    Host.Outcome State Fault Refusal :=
  actAt t (cmpTrip cell ov samples uv standIn) s

/-- A trip clears after as many samples inside by the hysteresis (R93). -/
def cmpRelease (cell : Nat) (ov : Bool) (samples : Nat) (uv : Int) (d : Dev) : Dev :=
  if decide (1 ≤ cell) && decide (cell ≤ ncells d) && decide (deglitch d ≤ samples) && insideThr d cell ov uv then
    let d := setRegBit (cmpOff ov) (cell - 1) false d
    if !regBit d R.cmpStatOv (cell - 1) && !regBit d R.cmpStatUv (cell - 1) then gone 0 cell (balUpdate d) else balUpdate d
  else d

/-- COMPARATOR_TRIP_RELEASE (R93). -/
def execComparatorTripRelease (t : Time) (cell : Nat) (ov : Bool) (samples : Nat) (uv : Int) (s : State) :
    Host.Outcome State Fault Refusal :=
  actAt t (cmpRelease cell ov samples uv) s

/-! ### Balance coefficients (R82, R85) -/

/-- Mean of a field over estimates, rounded as `quot`. -/
def meanOf (f : CoefEst → Nat) (l : List CoefEst) : Nat :=
  (quot (sumInt (l.map (fun e => (f e : Int)))) l.length).toNat

/-- Sum of both coefficients as cell j shows it, and as its neighbours show it (R82). At cell 1 and cell k only the
available neighbour counts, and the other part is the rest. -/
def coefPair (k j : Nat) (l : List CoefEst) : Int × Int :=
  let own : Int := meanOf CoefEst.own l
  let up : Int := meanOf CoefEst.up l
  let dn : Int := meanOf CoefEst.down l
  if j = 1 then (if k = 1 then (own, 0) else (up, own - up))
  else if j = k then (own - dn, dn)
  else (up, dn)

/-- The consistency check of R82: the sums agree within 5 % + 20 uV, 5 % of the estimate from cell j. -/
def coefOk (own nb : Int) : Bool := decide (20 * (own - nb).natAbs ≤ own.natAbs + 200)

/-- Known coefficient words: 16 bits each, below the mark of unknown. A coefficient that falls outside 0 to 0xFFFE is held at the nearer end
(DESIGN CHOICE, log 96: no rule says what it reads). -/
def coefWord (a b : Int) : Word :=
  packW [((clampInt 0 0xFFFE a).toNat, 0), ((clampInt 0 0xFFFE b).toNat, 16)]

/-- Tap resistance of tap k in 0.1 mohm, none while unknown (R85). -/
def tapRes (d : Dev) (k : Nat) : Option Nat :=
  if extFet d then none
  else
    let rUp : Option Int := match coef d k true with
      | some a => if kget 0 d.me.swMa k = 0 then none else some (quot (20 * a) ((kget 0 d.me.swMa k : Nat) : Int))
      | none => none
    let rDn : Option Int := match coef d (k + 1) false with
      | some b => if kget 0 d.me.swMa (k + 1) = 0 then none else some (quot (20 * b) ((kget 0 d.me.swMa (k + 1) : Nat) : Int))
      | none => none
    if k = 0 then rDn.map Int.toNat
    else if k = ncells d then rUp.map Int.toNat
    else match rUp, rDn with
      | some x, some y => some (quot (x + y) 2).toNat
      | _, _ => none

/-- HIGH of a tap (R85). -/
def tapHigh (d : Dev) (k : Nat) : Bool :=
  if extFet d then
    let beyond (c : Option Nat) : Bool := match c with
      | some v => decide (regFld d R.measTaprLim 31 16 < v)
      | none => false
    (decide (1 ≤ k) && beyond (coef d k true)) || (decide (k < ncells d) && beyond (coef d (k + 1) false))
  else match tapRes d k with
    | some r => decide (regFld d R.measTaprLim 15 0 < r)
    | none => false

/-- Update MEAS_TAPRk; a rise of HIGH counts. A tap above NCELLS is unknown (R85). -/
def updateTap (k : Nat) (d : Dev) : Dev :=
  let off := R.measTapr + 4 * k
  if ncells d < k then setReg off 0xFFFF d
  else
    let was := regBit d off 16
    let res := match tapRes d k with
      | some r => min r 0xFFFE
      | none => 0xFFFF
    let high := tapHigh d k
    let w := packW [(res, 0), (b2n high, 16)]
    let d := setReg off w d
    if high && !was then occur 11 k 0x0404 (wordBytes w) d else d

/-- Every tap is judged again: after a commit of MEAS_TAPR_LIM, of NCELLS or of the drive mode (R85). -/
def updateTaps (d : Dev) : Dev := each updateTap (upFrom 0 33) d

/-- Set the coefficients of switch j and the taps it touches. -/
def setCoef (j : Nat) (w : Word) (d : Dev) : Dev := updateTap j (updateTap (j - 1) (setReg (R.measBcoef + 4 * (j - 1)) w d))

/-- The coefficients of switch j become unknown and its estimates are dropped (R82). -/
def forgetCoef (j : Nat) (d : Dev) : Dev :=
  setCoef j 0xFFFFFFFF { d with me := { d.me with est := kset [] d.me.est j [] } }

/-- New estimates of switch j: the running mean of the last 64, checked for consistency (R82). `ma` is the sensed
switch current normalised to 3.000 V (R85). A device of one cell cannot split its sum: the split is a free value. -/
def estimate (j : Nat) (e : CoefEst) (ma : Nat) (d : Dev) : Dev :=
  let l := lastN 64 (kget [] d.me.est j ++ [e])
  let d := { d with me := { d.me with
    est := kset [] d.me.est j l
    estAt := kset 0 d.me.estAt j d.now
    swMa := if extFet d then d.me.swMa else kset 0 d.me.swMa j ma } }
  let k := ncells d
  let own : Int := meanOf CoefEst.own l
  if k = 1 then
    let (w, d) := freeWord d
    let a := Int.ofNat w.toNat % (own + 1)
    setCoef j (coefWord a (own - a)) d
  else
    let (a, b) := coefPair k j l
    let nb := if j = 1 then (meanOf CoefEst.up l : Int) else if j = k then (meanOf CoefEst.down l : Int) else a + b
    let ok := if j = 1 ∨ j = k then decide (20 * nb ≤ 21 * own + 200) else coefOk own nb
    if ok then setCoef j (coefWord a b) d
    else occur 12 (j - 1) 0x0405 (leBytes 4 (unsigned 32 (2 * own)) ++ leBytes 4 (unsigned 32 (2 * nb))) (forgetCoef j d)

/-! ### Open-wire test (R86 to R88) -/

/-- The PERIOD in use at the present, in 100 ms, after each new one has taken effect at its first multiple (R86). -/
def owSettle (d : Dev) : Dev :=
  match (d.me.owFrom.filter (fun e => decide (e.1.toNat ≤ d.now.toNat))).getLast? with
  | some e => { d with me := { d.me with
      owPeriod := e.2, owFrom := d.me.owFrom.filter (fun e => decide (d.now.toNat < e.1.toNat)) } }
  | none => d

/-- Ring time t is the start of the slot of tap Ck (R86): k - 1 thirty-seconds of PERIOD after a multiple of it. -/
def owSlot (d : Dev) (tap : Nat) (t : Time) : Bool :=
  let p := 20000000 * d.me.owPeriod
  decide (0 < p) && decide (t.toNat % p = (tap - 1) * p / 32)

/-- A commit of MEAS_OW_CFG: its PERIOD applies from the first multiple of it after the commit (R86). One committed before applies up to then,
where its own first multiple comes sooner. -/
def owCommit (d : Dev) : Dev :=
  let d := owSettle d
  let n := regFld d R.measOwCfg 7 0
  let f := (d.now.toNat / (20000000 * n) + 1) * (20000000 * n)
  if n = 0 then d
  else { d with me := { d.me with owFrom := d.me.owFrom.filter (fun e => decide (e.1.toNat < f)) ++ [(BitVec.ofNat 64 f, n)] } }

/-- The test of tap Ck: lane B of cell k or k+1 moved by more than 100 mV in the source phase (R87). `onOpen` and `onClear` are
what the balancing block does then. The result words of cells k and k+1 carry OW from here on. -/
def owTest (tap : Nat) (dk dk1 : Int) (onOpen onClear : Nat → Dev → Dev) (d : Dev) : Dev :=
  if decide (1 ≤ tap) && decide (tap ≤ ncells d) then
    let d := { d with me := { d.me with owAt := kset 0 d.me.owAt tap (later d.now 1) } }
    let ch := if dk.natAbs ≤ 100000 && decide (tap < ncells d) then dk1 else dk
    if 100000 < ch.natAbs then
      let d := setRegBit R.measOwStat (tap - 1) true d
      let mark := withAcc tap (fun a => { a with flags := a.flags ||| 1 }) d
      let d := if tap < ncells d then withAcc (tap + 1) (fun a => { a with flags := a.flags ||| 1 }) mark else mark
      occurFault 0 (tap - 1) 0x0401 (leBytes 4 (unsigned 32 ch)) (onOpen tap d)
    else onClear tap (setRegBit R.measOwStat (tap - 1) false d)
  else d

end Sys2Proof.Machine
end

