-- ==== Sys2Proof/Machine/Calib.lean ====
section
/-! DEFINITION. References and calibration: relief rotation, fits, the stored set and CAL_READ, CAL_STORE and CAL_USER
(file 04). -/

namespace Sys2Proof.Machine

/-! ### Rotation (R106 to R113) -/

/-- The lane that a spare's own list names in slot i (Table CAL-2). -/
def ownLane (spare i : Nat) : Nat :=
  match spare with
  | 0 => i
  | 1 => i + 16
  | 2 => 32 + (i + 8) % 16
  | _ => 48 + (i + 8) % 16

/-- The other spare of the same band-gap group. -/
def partner (spare : Nat) : Nat := if spare % 2 = 0 then spare + 1 else spare - 1

/-- The cell of a lane. -/
def laneCell (lane : Nat) : Nat := lane % 32 + 1

/-- Whose list a spare serves in the present period (R113): alternating with a withdrawn partner's from the first period
that begins after the withdrawal. -/
def servedList (d : Dev) (spare : Nat) : Nat :=
  let o := partner spare
  let at0 := kget 0 d.ca.wdAt o
  if spareOut d o && decide (at0 < d.ca.periods) && decide ((d.ca.periods - at0) % 2 = 0) then o else spare

/-- What a spare does in a slot. -/
inductive SlotUse where
  | relieve (lane : Nat)
  | itself
  | nothing
deriving DecidableEq, Repr

/-- What a spare does in slot i (R106, R107, R112, R113): in the spare slot and in an idle slot, where ROT_EN is 0 or the cell is above NCELLS,
it calibrates itself, a withdrawn one too; else it relieves the lane, unless it is withdrawn. In the slot of a lane that is left out as
lapsed it calibrates itself as in an idle slot (DESIGN CHOICE, log 90: neither R107 nor R112 names that slot). -/
def slotUse (d : Dev) (spare i : Nat) : SlotUse :=
  let lane := ownLane (servedList d spare) i
  if 16 ≤ i ∨ !regBit d R.calCtrl 0 ∨ ncells d < laneCell lane then .itself
  else if spareOut d spare then .nothing
  else if lane ∈ d.ca.out then .itself
  else .relieve lane

/-- Lanes that rotation leaves out: at the start of a period those whose buckets are at N, and within it those that join them. A withdrawn
spare returns at the start of a period in which its bucket has leaked below N (R112, R113). -/
def leaveOut (slot : Nat) (d : Dev) : Dev :=
  let kept := if slot = 0 then [] else d.ca.out
  { d with ca := { d.ca with
      out := (upFrom 0 64).filter (fun m => decide (m ∈ kept) || lasting d 13 m)
      wd := if slot = 0 then d.ca.wd.filter (fun s => lasting d 13 (64 + s)) else d.ca.wd } }

/-- The steps that follow for a spare (Table CAL-3, R107). -/
def slotSteps (slot : Nat) (d : Dev) (o : ReliefOutcome) : List CalDue :=
  let at' (us : Nat) (k : CalStep) : CalDue := ⟨later d.ca.slotAt (usT us), k⟩
  match slotUse d o.spare slot with
  | .relieve l =>
    [at' 10080 (.checkIn l o), at' 222000 (.fit (some l) o), at' 224000 (.apply (some l) o), at' 240080 (.checkOut l o)]
  | .itself => [at' 212000 (.fit none o), at' 214000 (.apply none o)]
  | .nothing => []

/-- The lanes relieved in the slot that ended have advanced their epochs by two (R109). -/
def endSlot (d : Dev) : Dev :=
  { d with ca := { d.ca with
      epoch := each (fun r e => kset 0 e r.1 ((kget 0 e r.1 + 2) % 4)) d.ca.relief d.ca.epoch
      past := d.ca.relief.map (fun r => (r.1, r.2, d.ca.slotAt)) ++
        d.ca.past.filter (fun r => decide (since r.2.2 d.now < lsbPerSec))
      relief := [] } }

/-- May slot i begin now (R106)? Slots follow one another, 250 ms apart, from lane start on. -/
def slotMay (slot : Nat) (d : Dev) : Bool := decide (slot = d.ca.slotNext) && decide (d.ca.slotDue.toNat ≤ d.now.toNat)

/-- A slot of the rotation has begun at its own ring time, which may lie before the present: the first begins while the start still runs (R106 to
R116). Its steps wait for their times. A period completes when the slot after slot 16 begins. -/
def slotStart (slot : Nat) (l : List ReliefOutcome) (d : Dev) : Dev :=
  if slotMay slot d then
    let d := endSlot d
    let d := leaveOut slot { d with ca := { d.ca with
      periods := if slot = 0 ∧ d.ca.slot = 16 then d.ca.periods + 1 else d.ca.periods
      slot := slot
      slotAt := d.ca.slotDue
      slotNext := (slot + 1) % 17
      slotDue := later d.ca.slotDue slotLen } }
    let l := l.filter (fun o => decide (o.spare < 4))
    calRun d.now { d with ca := { d.ca with
        relief := l.filterMap (fun o => match slotUse d o.spare slot with
          | .relieve lane => some (lane, o.spare)
          | _ => none)
        fitted := []
        todo := (l.flatMap (slotSteps slot d)).foldr insertDue d.ca.todo } }
  else d

/-- RELIEF_SLOT_START (R99, R100, R105 to R116). -/
def execReliefSlotStart (t : Time) (slot : Nat) (r : List ReliefOutcome) (s : State) :
    Host.Outcome State Fault Refusal :=
  actAt t (slotStart slot r) s

/-! ### Set images (R118, R119) -/

/-- Bytes of a working set's data, 0x020 to 0x3BF (Table CAL-5). -/
def dataBytes (ws : List Word) : List Byte := padTo 928 (wordsBytes ws)

/-- Data CRC of a set (R118). -/
def dataCrc (ws : List Word) : Word := BitVec.ofNat 32 (crc32 (dataBytes ws))

/-- The committed working set in the order of Table CAL-5. -/
def workset (d : Dev) : List Word := worksetOffsets.map (reg d)

/-- The first 0x3FC bytes of an image (Table CAL-5). -/
def imageHead (origin serial time : Nat) (ws : List Word) : List Byte :=
  leBytes 4 0x4C414351 ++ leBytes 2 1 ++ [BitVec.ofNat 8 origin, 0] ++ leBytes 8 serial ++ leBytes 8 time ++
  zeros 8 ++ dataBytes ws ++ zeros 60

/-- The 1,024 bytes of an image. -/
def imageBytes (origin serial time : Nat) (ws : List Word) : List Byte :=
  let h := imageHead origin serial time ws
  h ++ leBytes 4 (crc32 h)

/-- Image of a stored set. -/
def CalSet.image (x : CalSet) : List Byte := imageBytes x.origin x.serial x.time x.words

/-- The 16 bytes of a commit marker (R119). -/
def CalSet.marker (x : CalSet) : List Byte :=
  let b := leBytes 4 0x4B4D4351 ++ leBytes 4 x.seq ++ leBytes 4 (crc32 (imageHead x.origin x.serial x.time x.words))
  b ++ leBytes 4 (crc32 b)

/-- A calibration slot. -/
def calSlot (d : Dev) (i : Nat) : CalSlot := if i = 0 then d.ca.s0 else d.ca.s1

/-- Replace a slot. -/
def setCalSlot (i : Nat) (x : CalSlot) (d : Dev) : Dev :=
  if i = 0 then { d with ca := { d.ca with s0 := x } } else { d with ca := { d.ca with s1 := x } }

/-- A CAL_STORE has stored its set and erases the old slot (Table CAL-6 step 7). -/
def storeErasing (d : Dev) : Bool := match d.ca.store with
  | some x => decide (x.step = 7)
  | none => false

/-- The active set, if there is one. A set stored while there was none is active from step 6 of Table CAL-6 on, although NO_SET stands
until the completion (R120, R122). -/
def activeSet (d : Dev) : Option CalSet := if d.ca.noSet && !storeErasing d then none else (calSlot d d.ca.active).set

/-- An erased slot. -/
def CalSlot.erased : CalSlot := ⟨none, none, true⟩

/-- Write a working set into the committed and shadow registers (R102, R122). -/
def loadWords (ws : List Word) (d : Dev) : Dev :=
  each (fun p d => hwUpdate p.1 p.2 d) (worksetOffsets.zip ws) d

/-- Registers that show the active set. -/
def showSet (d : Dev) : Dev :=
  match activeSet d with
  | some x => setReg R.calSeq (BitVec.ofNat 32 x.seq) (setReg R.calSetCrc (dataCrc x.words) d)
  | none => setReg R.calSeq 0 (setReg R.calSetCrc 0 d)

/-- Make slot i the active one. -/
def activate (i : Nat) (d : Dev) : Dev := showSet { d with ca := { d.ca with active := i, noSet := false } }

/-- A slot holds a valid set: its image belongs to this device (R119). -/
def slotValid (d : Dev) (x : CalSlot) : Bool :=
  match x.set with
  | some c => decide (c.serial = d.mm.serial)
  | none => false

/-- Slot selection at a start (R122). -/
def selectSet (d : Dev) : Dev :=
  let d := { d with ca := { d.ca with noSet := false, cleanup := none, store := none, user := none } }
  match slotValid d d.ca.s0, slotValid d d.ca.s1 with
  | false, false =>
    latch 15 0 (showSet (loadWords (List.replicate 232 0) { d with ca := { d.ca with noSet := true } }))
  | true, true =>
    let q0 := (d.ca.s0.set.map CalSet.seq).getD 0
    let q1 := (d.ca.s1.set.map CalSet.seq).getD 0
    let i := if q0 < q1 then 1 else 0
    let d := activate i d
    let d := loadWords ((activeSet d).map CalSet.words |>.getD []) d
    post 0x0605 0 (leBytes 4 (max q0 q1)) { d with ca := { d.ca with cleanup := some (1 - i) } }
  | v0, _ =>
    let i := if v0 then 0 else 1
    let d := activate i d
    let d := loadWords ((activeSet d).map CalSet.words |>.getD []) d
    if (calSlot d (1 - i)).blank then d
    else occur 15 0 0x0604 [BitVec.ofNat 8 (1 - i)] { d with ca := { d.ca with cleanup := some (1 - i) } }

/-! ### CAL_STAT and the status words beside it -/

/-- CAL_LAPSED_A (`base` 0) or CAL_LAPSED_B (32). -/
def lapsedMap (d : Dev) (base : Nat) : Word := cellMap (fun n => lapsed d (base + n - 1))

/-- CAL_WS_CRC. -/
def wsCrc (d : Dev) : Word := dataCrc (workset d)

/-- CAL_STAT. -/
def calStat (d : Dev) : Word :=
  packW [(b2n (d.awake && regBit d R.calCtrl 0), 0), (b2n d.ca.bgAlarm, 1), (b2n (suspended d), 2),
    (b2n (firstDone d), 3), (b2n d.ca.noSet, 4),
    (b2n (d.ca.noSet || decide (wsCrc d ≠ reg d R.calSetCrc)), 5),
    (b2n d.ca.store.isSome, 6), (b2n d.ca.user.isSome, 7), (d.ca.active, 8),
    ((((activeSet d).map CalSet.origin).getD 0) % 4, 9),
    (b2n ((upFrom 0 64).any (lapsed d)), 11), (mapBits (spareOut d) 0 4, 12)]

/-- CAL_ROT_STAT. -/
def calRotStat (d : Dev) : Word := packW [(d.ca.slot, 0), (d.ca.periods % 65536, 16)]

/-! ### CAL_READ and CAL_STORE (R120, R121, R123) -/

/-- CAL_READ's arguments (Table CAL-7). -/
def okCalRead (c : Desc) : Bool := decide (dFld c 2 1 0 ≠ 3) && zeroFrom c 3

/-- The result of CAL_READ (R123): status and bytes. -/
def calRead (c : Desc) (d : Dev) : Nat × List Byte :=
  match dFld c 2 1 0 with
  | 0 =>
    (match activeSet d, d.ca.noSet with
      | some x, false => (St.done, x.image ++ x.marker)
      | _, _ => (St.deniedState, []))
  | 1 => (St.done, imageBytes 0xFF d.mm.serial 0 (workset d))
  | _ => (St.done, wordsBytes (mgetList regReset d.regs R.calBoff 4 68) ++
      wordsBytes (mgetList regReset d.regs R.calBgain 4 68) ++
      wordBytes (reg d R.calBgDis) ++ zeros 4 ++ leBytes 8 d.now.toNat)

/-- CAL_READ (R123). -/
def execCalRead (t : Time) (h : Nat) (c : Desc) (s : State) : Host.Outcome State Fault Refusal :=
  actOp 0x50 okCalRead t c (fun d => finish h (calRead c d).1 (calRead c d).2 d) s

/-- CAL_STORE's arguments (Table CAL-7). -/
def okCalStore (c : Desc) : Bool := decide (dFld c 2 7 0 = 1 ∨ dFld c 2 7 0 = 2) && zeroFrom c 6

/-- Sequence number of a new set (R120). After 0xFFFFFFFF comes 0 (DESIGN CHOICE, log 90: the field has 32 bits and no rule says what
follows). -/
def nextSeq (d : Dev) : Nat :=
  match activeSet d with
  | some x => (x.seq + 1) % 2 ^ 32
  | none =>
    match d.ca.s0.mark, d.ca.s1.mark with
    | some a, some b => (max a b + 1) % 2 ^ 32
    | some a, none => (a + 1) % 2 ^ 32
    | none, some b => (b + 1) % 2 ^ 32
    | none, none => 1

/-- Is a parity fault latched on a working-set register (R123)? -/
def worksetParity (d : Dev) : Bool := worksetOffsets.any (fun o => decide (o ∈ d.pr.parBad))

/-- The status with which CAL_STORE ends at once, if it does (R123). Of several causes the first of this order gives it: window, state, busy,
CRC (DESIGN CHOICE, log 90: no rule ranks them). -/
def calStoreRefusal (c : Desc) (d : Dev) : Option Nat :=
  if !windowOpen d then some St.deniedWindow
  else if worksetParity d || d.pw.persist then some St.deniedState
  else if d.ca.user.isSome || d.ca.store.isSome then some St.resourceBusy
  else if wsCrc d ≠ dWord c 3 then some St.checkFail
  else none

/-- The slot that CAL_STORE writes (R120). -/
def storeSlot (d : Dev) : Nat := if d.ca.noSet then 0 else 1 - d.ca.active

/-- CAL_STORE begins (Table CAL-6): snapshot, and step 2 where the target slot is not blank; that takes the place of the background erasure that
waits for it (R122). -/
def calStoreBegin (h : Nat) (c : Desc) (d : Dev) : Dev :=
  match calStoreRefusal c d with
  | some st => finish h st [] d
  | none =>
    let i := storeSlot d
    let x : CalSet := ⟨dFld c 2 7 0, d.mm.serial, (dWord c 4).toNat + 2 ^ 32 * (dWord c 5).toNat, nextSeq d, workset d⟩
    { d with ca := { d.ca with store := some ⟨h, i, x, if (calSlot d i).blank then 3 else 2, false, d.now⟩, cleanup := none } }

/-- CAL_STORE (R120, R123). -/
def execCalStore (t : Time) (h : Nat) (c : Desc) (s : State) : Host.Outcome State Fault Refusal :=
  actOp 0x51 okCalStore t c (calStoreBegin h c) s

/-- The next step of a CAL_STORE. -/
def storeStep (x : CalStore) (n : Nat) (d : Dev) : Dev := { d with ca := { d.ca with store := some { x with step := n, at0 := d.now } } }

/-- The store ends with a status. -/
def storeEnd (x : CalStore) (st : Nat) (d : Dev) : Dev := finish x.h st [] { d with ca := { d.ca with store := none } }

/-- The store completes: NO_SET clears, and with it the cause "calibration invalid" (R122). -/
def storeDone (x : CalStore) (d : Dev) : Dev := storeEnd x St.done (gone 15 0 { d with ca := { d.ca with noSet := false } })

/-- A read-back fails in step n (4 or 6) of Table CAL-6 (R121): the target is erased, and step 3 repeated once. -/
def storeFail (x : CalStore) (n : Nat) (d : Dev) : Dev :=
  if x.again then storeStep x (20 + n) d else storeStep { x with again := true } 2 d

/-- The image, its marker or an erasure of a CAL_STORE completes (Table CAL-6, R121). Steps 24 and 26 are the erasure after
a second failure of step 4 or 6. -/
def storeNext (op : NvmOp) (ok : Bool) (x : CalStore) (d : Dev) : Dev :=
  match op, x.step with
  | .calErase, 2 => storeStep x 3 (setCalSlot x.slot CalSlot.erased d)
  | .calImage, 3 =>
    let d := setCalSlot x.slot ⟨none, none, false⟩ d
    if ok then storeStep x 5 d else storeFail x 4 d
  | .calMarker, 5 =>
    if ok then
      let d := setCalSlot x.slot ⟨some x.set, some x.set.seq, false⟩ d
      let d := showSet (storeStep x 7 { d with ca := { d.ca with active := x.slot } })
      if (calSlot d (1 - x.slot)).blank then storeDone x d else d
    else storeFail x 6 d
  | .calErase, 7 => storeDone x (setCalSlot (1 - x.slot) CalSlot.erased d)
  | .calErase, 24 | .calErase, 26 =>
    storeEnd x St.nvmFail (post 0x0606 0 [BitVec.ofNat 8 (x.step - 20)] (setCalSlot x.slot CalSlot.erased d))
  | _, _ => d

/-- A non-volatile operation of the calibration slots completes: of a store, or of the background erasure (R122). An erasure always
leaves the slot erased, since a sector that fails is replaced (R368). -/
def calNvm (op : NvmOp) (ok : Bool) (d : Dev) : Dev :=
  match op with
  | .calCleanup =>
    (match d.ca.cleanup with
      | some i => setCalSlot i CalSlot.erased { d with ca := { d.ca with cleanup := none } }
      | none => d)
  | _ =>
    (match d.ca.store with
      | some x => storeNext op ok x d
      | none => d)

/-! ### CAL_USER (R125 to R128) -/

/-- Expected shunt voltage of a reference current in mA: REF x CUR_SHUNT, in nV x 10^3 (LSB pV). -/
def expectedPv (d : Dev) (ref : Int) : Int := ref * (reg d R.curShunt).toNat

/-- CAL_USER's arguments (R125). The check of mode 0x2's REF needs CUR_SHUNT and is made by `calUserArg`. -/
def okCalUser (c : Desc) : Bool :=
  let ref := signed 32 (dWord c 3).toNat
  zeroFrom c 4 &&
  (match dFld c 2 3 0 with
    | 1 | 2 => true
    | 3 => decide (1500000 ≤ ref ∧ ref ≤ 5000000) && decide (1 ≤ dFld c 2 13 8 ∧ dFld c 2 13 8 ≤ 32)
    | _ => false)

/-- Mode 0x2's REF gives an expected shunt voltage of at least 16.7 mV (R125). -/
def calUserArg (d : Dev) (c : Desc) : Bool :=
  decide (dFld c 2 3 0 ≠ 2) || decide (16700000000 ≤ (expectedPv d (signed 32 (dWord c 3).toNat)).natAbs)

/-- Registers that a CAL_USER mode adjusts, channel A and B (R125). -/
def userRegs (mode cell : Nat) : Nat × Nat :=
  match mode with
  | 1 => (R.calIsaOff, R.calIsbOff)
  | 2 => (R.calIsaGain, R.calIsbGain)
  | _ => (R.calGain + 4 * (cell - 1), R.calGain + 4 * (31 + cell))

/-- The other coefficient of the formula of Table CAL-8: GAIN in mode 0x1, K2 in mode 0x3. -/
def userPar (d : Dev) (mode cell : Nat) : Int × Int :=
  match mode with
  | 1 => (reg24 d R.calIsaGain, reg24 d R.calIsbGain)
  | 3 => (signed 16 (reg d (R.calK2 + 4 * (cell - 1))).toNat, signed 16 (reg d (R.calK2 + 4 * (31 + cell))).toNat)
  | _ => (0, 0)

/-- The status with which CAL_USER ends at once, if it does (R127). Of several causes the first of this order gives it: window, state, busy
(DESIGN CHOICE, log 90: no rule ranks them). -/
def calUserRefusal (mode cell : Nat) (d : Dev) : Option Nat :=
  if decide (mode ≠ 1) && !windowOpen d then some St.deniedWindow
  else if decide (mode ≠ 3) && !regBit d R.curCtrl 0 then some St.deniedState
  else if decide (mode = 3) && (decide (ncells d < cell) || accLapsed d) then some St.deniedState
  else if d.ca.user.isSome || d.ca.store.isSome then some St.resourceBusy
  else none

/-- CAL_USER begins (R126). -/
def calUserBegin (h : Nat) (c : Desc) (d : Dev) : Dev :=
  let mode := dFld c 2 3 0
  let cell := if mode = 3 then dFld c 2 13 8 else 0
  match calUserRefusal mode cell d with
  | some st => finish h st [] d
  | none =>
    let r := userRegs mode cell
    { d with ca := { d.ca with
      user := some ⟨h, mode, cell, signed 32 (dWord c 3).toNat, d.now, reg d r.1, reg d r.2,
        if mode = 1 ∧ (d.sf.outA.on ∨ d.sf.outB.on) then 1 else 0, false, UserAcc.none, UserAcc.none, (0, (0, 0))⟩ } }

/-- CAL_USER (R125 to R127). -/
def execCalUser (t : Time) (h : Nat) (c : Desc) (s : State) : Host.Outcome State Fault Refusal :=
  actOp 0x52 okCalUser t c (calUserBegin h c) s

/-- What one unit of a job's sums is worth: 1/50 of 10^-8 nV in modes 0x1 and 0x2, 1 uV in mode 0x3. -/
def userUnit (mode : Nat) : Int := if mode = 3 then 1 else 50 * 10 ^ 8

/-- The mean of a channel lies less than `lim` from `mid`, or at most that where `eq` is set (nV or uV times 1,000). -/
def userMean (mode : Nat) (a : UserAcc) (mid lim : Int) (eq : Bool) : Bool :=
  let x := (1000 * a.s1 - mid * (a.n * userUnit mode)).natAbs
  let y := lim * (a.n * userUnit mode)
  decide ((x : Int) < y) || (eq && decide ((x : Int) = y))

/-- n^2 times the variance of a channel, in the square of its unit. The deviation is that of the values gathered, with n and not n - 1 below
(DEDUCED, log 115: no rule says otherwise). -/
def userVar (a : UserAcc) : Int := a.n * a.s2 - a.s1 * a.s1

/-- The deviation of a channel is at most `lim` (nV or uV times 1,000). -/
def userSpread (mode : Nat) (a : UserAcc) (lim : Int) : Bool :=
  decide (1000000 * userVar a ≤ (lim * (a.n * userUnit mode)) * (lim * (a.n * userUnit mode)))

/-- The detail code of Table CAL-9: a precondition that failed during the job (SOA or SOB on, a flagged result, a switch that conducted), else
the first limit of Table CAL-8 that the means and deviations miss. Where nothing has been gathered there is no mean to miss one. -/
def userDetail (d : Dev) (u : CalUser) : Nat :=
  let pv := expectedPv d u.ref
  let mean (a : UserAcc) : Bool := decide (a.n = 0) || (match u.mode with
    | 1 => userMean 1 a 0 2000000000 false
    | 2 => userMean 2 (UserAcc.mk a.n (20 * a.s1) 0) (20 * pv) pv.natAbs true
    | _ => userMean 3 a (1000 * u.ref) 50000000 true)
  let spread (a : UserAcc) : Bool := decide (a.n = 0) || (match u.mode with
    | 1 => userSpread 1 a 2000000
    | 2 => userSpread 2 (UserAcc.mk a.n (2000 * a.s1) (2000 * 2000 * a.s2)) pv.natAbs
    | _ => userSpread 3 a 200000)
  if u.bad ≠ 0 then u.bad
  else if !mean u.accA then 2
  else if !mean u.accB then 3
  else if !spread u.accA then 4
  else if !spread u.accB then 5
  else 0

/-- Sum and weight of u of R101 over parts of a lane's stream: the mean is sum / weight, in 0.1 uV. -/
def uMean (d : Dev) (lane T : Nat) (l : List RawPart) : Int × Int :=
  let c (p : RawPart) : Layers := layersAt d lane (T - p.age)
  (sumInt (l.map (fun p => (10 ^ 8 + (c p).bgain) * p.m1 -
      ((c p).boff * (10 ^ 8 + (c p).bgain) + (c p).off * 10 ^ 8) * p.share)),
    sumInt (l.map (fun p => 10 ^ 8 * (p.share : Int))))

/-- The new value of a channel's register (Table CAL-8), from the value in force `o`, the other coefficient, the channel's sums, and for mode 0x3 the
mean of u. With a mean of 0 no value is stated; it is then out of the field's range. -/
def userNew (d : Dev) (u : CalUser) (o par : Int) (a : UserAcc) (uu : Int × Int) : Int :=
  let n := a.n * userUnit u.mode
  match u.mode with
  | 1 => if n = 0 then 2 ^ 40 else o + quot (a.s1 * 10 ^ 8) (n * (10 ^ 8 + par))
  | 2 => if a.s1 = 0 then 2 ^ 40 else quot ((10 ^ 8 + o) * expectedPv d u.ref * n - 10 ^ 8 * (1000 * a.s1)) (1000 * a.s1)
  | _ => if uu.1 = 0 then 2 ^ 40
    else quot (10 ^ 8 * ((u.ref * 10 * uu.2 - uu.1) * uu.2 * 10 ^ 14 - par * uu.1 * uu.1)) (uu.1 * uu.2 * 10 ^ 14)

/-- The mean and the deviation of a channel as a record has them, in nV or uV; with nothing gathered no rule states them, and they are free. -/
def userShown (mode : Nat) (a : UserAcc) (d : Dev) : (Int × Nat) × Dev :=
  if a.n = 0 then
    let (x, d) := freeWord d
    let (y, d) := freeWord d
    ((x.toInt, y.toNat), d)
  else
    let n := a.n * userUnit mode
    ((quot a.s1 n, (rootNat 2 (4 * userVar a / (n * n)).toNat + 1) / 2), d)

/-- The 40-byte record (Table CAL-9), whose means and deviations cover the interval reached (R128). -/
def userRecord (u : CalUser) (detail : Nat) (newA newB : Word) (d : Dev) : List Byte × Dev :=
  let (a, d) := userShown u.mode u.accA d
  let (b, d) := userShown u.mode u.accB d
  ([BitVec.ofNat 8 u.mode, BitVec.ofNat 8 detail, BitVec.ofNat 8 u.cell, 0] ++
    leBytes 4 (unsigned 32 a.1) ++ leBytes 4 (unsigned 32 b.1) ++ leBytes 4 a.2 ++ leBytes 4 b.2 ++
    wordBytes u.oldA ++ wordBytes u.oldB ++ wordBytes newA ++ wordBytes newB ++ zeros 4, d)

/-- The job ends with a status, a detail code and the words after it. -/
def userStop (u : CalUser) (st detail : Nat) (newA newB : Word) (d : Dev) : Dev :=
  let (r, d) := userRecord u detail newA newB d
  finish u.h st r { d with ca := { d.ca with user := none } }

/-- The new words reach the committed and shadow registers; the corrections in force before stay known (R101, R126). -/
def userWrite (off n : Nat) (d : Dev) : Dev := hwUpdate off (BitVec.ofNat 32 n) (setCorr off (BitVec.ofNat 32 n) d)

/-- A job whose intervals have passed writes its new values, computed with the working set in force at the start of its measurement (R126). -/
def userFinish (u : CalUser) (r : CalUserRun) (d : Dev) : Dev :=
  let o := userRegs u.mode u.cell
  let d0 := corrFrom (userMeas u) d
  let p := userPar d0 u.mode u.cell
  let (a, d) := fitS 24 (userNew d u (reg24 d0 o.1) p.1 u.accA (uMean d0 (u.cell - 1) d.now.toNat r.uA)) d
  let (b, d) := fitS 24 (userNew d u (reg24 d0 o.2) p.2 u.accB (uMean d0 (31 + u.cell) d.now.toNat r.uB)) d
  userStop u St.done 0 (BitVec.ofNat 32 a) (BitVec.ofNat 32 b) (userWrite o.2 b (userWrite o.1 a d))

/-- A precondition fails, which ends the job at that moment, or both intervals have passed with every precondition held (R126, R128). -/
def calUserJudge (r : CalUserRun) (d : Dev) : Dev :=
  match d.ca.user with
  | none => d
  | some u =>
    let k := userDetail d u
    if k ≠ 0 then userStop u St.inputNotReady k u.oldA u.oldB d
    else if since u.start d.now < userLen then d
    else userFinish u r d

/-- A POWER command, or a commit of NCELLS, corner index or notch, aborts a CAL_USER job, whose record covers the interval reached (R127, R128). A
reset aborts it too, and leaves no completion (`volatileReset`). -/
def userAbort (d : Dev) : Dev :=
  match d.ca.user with
  | none => d
  | some u => userStop u St.aborted 0 u.oldA u.oldB d

end Sys2Proof.Machine
end

