-- ==== Sys2Proof/Machine/EngState.lean ====
section
/-! DEFINITION. The engine index, and the outcomes that other activity gives a running job (R160, R168). -/

namespace Sys2Proof.Machine

/-- CUR_SRC.POS. -/
def curSrc (d : Dev) : Nat := regFld d R.curSrc 5 0

/-- The engine index (R160): of the frames received from another position, else the device's own BC_IDX. Before a frame
has been received it is taken from BC_IDX too (DEDUCED). -/
def engIdx (d : Dev) : Nat :=
  if curSrc d = 0x3F ∨ curSrc d = d.rg.pos then regFld d R.curCtrl 10 8
  else match d.io.cu.frames.getLast? with
    | some f => f.idx
    | none => regFld d R.curCtrl 10 8

/-- Distance of current-frame boundaries in ring-time LSBs, 32 x P (R160). -/
def frameLen (d : Dev) : Nat := 250000 * 4 ^ engIdx d

/-- Number of cells of a mask. -/
def maskCount (m : Nat) : Nat := (maskCells m).length

/-- EXC, LIST and NPTS of an IMPEDANCE descriptor (Table ENG-2). -/
def impExc (c : Desc) : Nat := dFld c 2 1 0
/-- LIST. -/
def impList (c : Desc) : Bool := bit (dWord c 2) 2
/-- NPTS. -/
def impNpts (c : Desc) : Nat := dFld c 2 12 8

/-- Current frames lost during a job, modulo 65,536; none before it begins. -/
def framesLost (d : Dev) (j : ImpJob) : Nat := if j.begun then (regFld d R.curRxStat 15 0 + 65536 - j.lost0) % 65536 else 0

/-- The 64-byte IMPEDANCE header (Table ENG-5): cell blocks, lines not found, engine fault, abort reason. -/
def impHeader (d : Dev) (j : ImpJob) (blocks : Nat) (lineLost : Bool) (reason : Nat) : List Byte :=
  let flags := b2n (decide (framesLost d j ≠ 0)) + 2 * b2n lineLost + 4 * b2n (!j.thermal.isEmpty) + 8 * b2n j.fault
  [BitVec.ofNat 8 d.rg.pos, BitVec.ofNat 8 (impExc j.d), BitVec.ofNat 8 (impNpts j.d), BitVec.ofNat 8 blocks] ++
  leBytes 4 j.mask ++ leBytes 8 j.startAt.toNat ++ leBytes 8 d.now.toNat ++
  leBytes 2 (j.recomp.length * impNpts j.d) ++ leBytes 2 (framesLost d j) ++
  [BitVec.ofNat 8 j.idx, BitVec.ofNat 8 (curSrc d), BitVec.ofNat 8 flags, BitVec.ofNat 8 reason] ++ zeros 32

/-- The excitation of a job ends: plan switches resume (R176). -/
def endExcite (d : Dev) : Dev :=
  if d.ba.excite.isEmpty ∧ d.ba.pExc = 0 then d
  else balUpdate { d with ba := { d.ba with excite := [], pExc := 0, chips := [] } }

/-- The IMPEDANCE job ends with a status and a result. -/
def impFinish (st : Nat) (res : List Byte) (d : Dev) : Dev :=
  match d.en.imp with
  | none => d
  | some j => finish j.h st res (endExcite (withEng (fun e => { e with imp := none }) d))

/-- The IMPEDANCE job completes ABORTED: header only (R168). -/
def impAbort (reason : Nat) (d : Dev) : Dev :=
  match d.en.imp with
  | none => d
  | some j => impFinish St.aborted (impHeader d j 0 false reason) d

/-- The 32-byte ESTIMATE header (Table ENG-10). `days` daily summaries were used. -/
def estHeader (d : Dev) (j : EstJob) (records detail : Nat) (band : Word) (reason : Nat) : List Byte :=
  [BitVec.ofNat 8 d.rg.pos, BitVec.ofNat 8 (dFld j.d 2 4 0), BitVec.ofNat 8 records, BitVec.ofNat 8 detail] ++
  leBytes 4 j.mask ++ leBytes 8 d.now.toNat ++
  leBytes 2 (min d.mm.sums.length (regFld d R.engAnomCfg 7 0)) ++ leBytes 2 j.recomp.length ++
  wordBytes band ++ [BitVec.ofNat 8 reason] ++ zeros 7

/-- The ESTIMATE job ends with a status and a result. -/
def estFinish (st : Nat) (res : List Byte) (d : Dev) : Dev :=
  match d.en.est with
  | none => d
  | some j => finish j.h st res (withEng (fun e => { e with est := none }) d)

/-- The ESTIMATE job completes ABORTED (R168). -/
def estAbort (reason : Nat) (d : Dev) : Dev :=
  match d.en.est with
  | none => d
  | some j => estFinish St.aborted (estHeader d j 0 0 qnan reason) d

/-- Does the IMPEDANCE job use pack current? -/
def impPassive (d : Dev) : Bool :=
  match d.en.imp with
  | some j => decide (impExc j.d ≠ 1)
  | none => false

/-- A current frame within 100 ms of the start of the IMPEDANCE job (R181). -/
def noteFramed (d : Dev) : Dev :=
  withEng (fun e => { e with imp := e.imp.map (fun j =>
    if j.begun && decide (since j.startAt d.now ≤ msT 100) then { j with framed := true } else j) }) d

/-- Does the ESTIMATE job use current? TEMP and CHAR measure with passive excitation (R186). -/
def estPassive (d : Dev) : Bool :=
  match d.en.est with
  | some j => bit (dWord j.d 2) 3 || bit (dWord j.d 2) 4
  | none => false

/-- Every running job completes ABORTED (R168). -/
def jobsAbort (reason : Nat) (d : Dev) : Dev := estAbort reason (impAbort reason d)

/-- A commit of CUR_SRC aborts the jobs that use current (R168). -/
def srcAbort (d : Dev) : Dev :=
  let d := if impPassive d then impAbort 3 d else d
  if estPassive d then estAbort 3 d else d

/-- A change of the engine index from `was` aborts every running job (R168). -/
def idxAbort (was : Nat) (d : Dev) : Dev := if engIdx d = was then d else jobsAbort 4 d

end Sys2Proof.Machine
end

