-- ==== Sys2Proof/Machine/Inputs.lean ====
section
/-! DEFINITION. The shunt channel, the auxiliary inputs and the Daroth wire ports (file 05). -/

namespace Sys2Proof.Machine

/-! ### Current results (R130 to R134) -/

/-- Change the current channel's fields. -/
def withCur (f : Cur → Cur) (d : Dev) : Dev := { d with io := { d.io with cu := f d.io.cu } }

/-- CUR_CTRL.EN. -/
def curOn (d : Dev) : Bool := regBit d R.curCtrl 0

/-- W of the current channel: index CORNER, without notch (R131). -/
def curW (d : Dev) : Nat := windowLen (regFld d R.curCtrl 6 4) 0

/-- OFF (nV) and GAIN (0.01 ppm) of ISA, or of ISB, in force at T (R131). -/
def curLayer (d : Dev) (chB : Bool) (T : Nat) : Int × Int :=
  let w (o : Nat) : Int := signed 24 (corrAt d T o).toNat
  if chB then (w R.calIsbOff, w R.calIsbGain) else (w R.calIsaOff, w R.calIsaGain)

/-- A raw sample in nV after (raw - OFF) x (1 + GAIN), in 10^-8 nV (R131). -/
def curCorrect (d : Dev) (chB : Bool) (T : Nat) (x : Int) : Int :=
  let c := curLayer d chB T
  (x - c.1) * (10 ^ 8 + c.2)

/-- The samples of a 50 kS/s stream that lead up to T, each with its own time: they lie 20 us apart, and the last is the one before T (R261). -/
def streamTimes {α : Type} (T : Nat) (l : List α) : List (Nat × α) :=
  (upFrom 0 l.length).zip l |>.map (fun e => (T - 4000 * (l.length - e.1), e.2))

/-- Full scale of a current result, +-167.77 mV in 10^-8 nV (Table SENS-1). -/
def curFull : Int := 0x7FFFFF * 20 * 10 ^ 8

/-- A corrected sample lies outside full scale. -/
def curOver (x : Int) : Bool := decide (x < -curFull ∨ curFull < x)

/-- A modulator of the current channel has left its stable range (R428): -200 mV to +200 mV at the shunt. -/
def curUnstable (s : Span) : Bool := spanOutside s (-200000000) 200000000

/-- The corrected window of a channel in 20 nV: every part of it is corrected by the words of its own time (R131). -/
def curSum (d : Dev) (chB : Bool) (T : Time) (x : CurSample) : Int :=
  let part (p : CurPart) : Int :=
    let c := curLayer d chB (T.toNat - p.age)
    (p.m1 - c.1 * p.share) * (10 ^ 8 + c.2)
  quot ((x.parts.map part).foldl (fun a b => a + b) 0) (65536 * 20 * 10 ^ 8)

/-- VALUE of a current sample in 20 nV (Table SENS-1). -/
def curValue (d : Dev) (chB : Bool) (T : Time) (x : CurSample) : Int := clampInt (-0x7FFFFF) 0x7FFFFF (curSum d chB T x)

/-- OVR of a current sample (Table SENS-1, R428): a corrected 50 kS/s sample of the window lies outside full scale, or the modulator left its
stable range. Where VALUE saturates a sample has lain outside (DEDUCED). -/
def curOvr (d : Dev) (chB : Bool) (T : Time) (x : CurSample) : Bool :=
  curUnstable x.input || decide (curSum d chB T x < -0x7FFFFF ∨ 0x7FFFFF < curSum d chB T x) ||
  x.parts.any (fun p => curOver (curCorrect d chB (T.toNat - p.age) p.raw.lo) || curOver (curCorrect d chB (T.toNat - p.age) p.raw.hi))

/-- STALE of a current result at T: its window W begins before the instant `f` (Table SENS-1). -/
def curStale (f : Time) (W : Nat) (T : Time) : Bool := decide (T.toNat < f.toNat + W)

/-- A current result: VALUE and flags. -/
structure CurResult where
  value : Int
  stale : Bool
  supply : Bool
  ovr : Bool
deriving DecidableEq, Repr

/-- The result word (Table SENS-1). -/
def CurResult.word (r : CurResult) : Word :=
  packW [(b2n r.ovr, 1), (b2n r.supply, 6), (b2n r.stale, 7), (unsigned 24 r.value, 8)]

/-- Evaluate one channel at T: chB for ISB. -/
def curEval (d : Dev) (T : Time) (chB : Bool) (x : CurSample) : CurResult :=
  let stale := curStale d.io.cu.since (curW d) T
  { value := if stale then (if chB then d.io.cu.goodB else d.io.cu.goodA) else curValue d chB T x
    stale := stale
    supply := inDip d (curW d) T
    ovr := curOvr d chB T x }

/-- A result or sample flagged over-range or supply event fails a running CAL_USER of mode 0x1 or 0x2 (R126). -/
def curFlagged (flagged : Bool) (d : Dev) : Dev :=
  match d.ca.user with
  | some u => if flagged && decide (u.mode = 1 ∨ u.mode = 2) then userBad 6 d else d
  | none => d

/-- Write one channel's result and CUR_STAT's OVR bit (R132). DESIGN CHOICE (log entry 26): R158 does not say what one occurrence of current
over-range is; OVR of the channel rising from 0 to 1 counts, as for the lanes. -/
def writeCur (chB : Bool) (r : CurResult) (d : Dev) : Dev :=
  let was := if chB then d.io.cu.ovrB else d.io.cu.ovrA
  let d := setReg (if chB then R.curResB else R.curResA) r.word d
  let d := withCur (fun c =>
    if chB then { c with ovrB := r.ovr, goodB := if r.stale then c.goodB else r.value }
    else { c with ovrA := r.ovr, goodA := if r.stale then c.goodA else r.value }) d
  let d := curFlagged (r.ovr || r.supply) (setRegBit R.curStat (if chB then 2 else 1) r.ovr d)
  if r.ovr && !was then occur 16 (b2n chB) 0x0901 [] d else d

/-- The comparison of R134 exceeds: values in 20 nV, LIMIT in 1 uV, REL in 0.01 %. -/
def curBeyond (d : Dev) (a b : Int) : Bool :=
  decide (regFld d R.curDisCfg 7 0 * 500000 + a.natAbs * regFld d R.curDisCfg 15 8 < (a - b).natAbs * 10000)

/-- Compare the channels at T (R134). A run of exceeding comparisons that has lasted WINDOW is the fault (DEDUCED). A skipped comparison is
none, so DIS keeps what the latest comparison gave. -/
def curCompare (T : Time) (a b : CurResult) (d : Dev) : Dev :=
  if a.stale || a.ovr || b.stale || b.ovr then d
  else
    let hit := curBeyond d a.value b.value
    let d := setRegBit R.curStat 3 hit d
    if hit then
      let from0 := d.io.cu.disRun.getD T
      let d := withCur (fun c => { c with disRun := some from0 }) d
      if decide (msT (regFld d R.curDisCfg 31 16) ≤ since from0 T) && !regBit d R.curStat 4 then
        occurFault 3 0 0x0902 (wordBytes (reg d R.curResA) ++ wordBytes (reg d R.curResB)) (setRegBit R.curStat 4 true d)
      else d
    else setRegBit R.curStat 4 false (withCur (fun c => { c with disRun := none }) d)

/-! ### Coulomb accumulator (R136) -/

/-- CUR_QACC as a signed number. -/
def qacc (d : Dev) : Int := signed 64 (reg64 d R.curQaccLo R.curQaccHi)

/-- The largest magnitude of CUR_QACC. -/
def qMax : Int := 2 ^ 63 - 1

/-- One LSB of CUR_QACC in the unit of a corrected sample that counts for 0.02 ms: 50 x 10^8 of 10^-8 nV (R136). -/
def qUnit : Int := 5 * 10 ^ 9

/-- The accumulator after one more corrected sample, and whether it has saturated (R136). DESIGN CHOICE (log entry 84): accumulation goes on from
the saturated value, since the rule lets QSAT alone stand until a start. -/
def addCharge (q : Int × Bool) (x : Int) : Int × Bool :=
  let z := q.1 + x
  if qMax * qUnit < z then (qMax * qUnit, true) else if z < -(qMax * qUnit) then (-(qMax * qUnit), true) else (z, q.2)

/-- Add corrected samples to CUR_QACC, in 10^-8 nV, each worth 0.02 ms; the fraction carries (R136). Of a total that is not a whole number of LSBs the
register shows the integer below it, and the fraction is never negative (DESIGN CHOICE, log 99: no rule says which way a negative total is
divided). -/
def accumulate (l : List Int) (d : Dev) : Dev :=
  let q := l.foldl addCharge (qacc d * qUnit + d.io.cu.qfrac, false)
  let d := withCur (fun c => { c with qfrac := (q.1 % qUnit).toNat }) d
  let d := setReg64 R.curQaccLo R.curQaccHi (unsigned 64 (q.1 / qUnit)) d
  if q.2 then setRegBit R.curStat 7 true d else d

/-- Milliseconds of ring time that hold a flagged sample; each counts once in CUR_OVR_MS (R136). -/
def countOvrMs (l : List Nat) (d : Dev) : Dev :=
  each (fun m d => if m + 1 = d.io.cu.ovrMs then d
    else
      let (v, d) := fitU 32 ((reg d R.curOvrMs).toNat + 1) d
      setReg R.curOvrMs (BitVec.ofNat 32 v) (withCur (fun c => { c with ovrMs := m + 1 }) d)) l d

/-- The open summary's sums of positive and negative samples (Table MEM-7), in the unit of `addCharge`. -/
def sumSamples (l : List Int) (d : Dev) : Dev :=
  let sum (f : Int → Int) : Int := (l.map f).foldl (fun a b => a + b) 0
  { d with mm := { d.mm with summ := { d.mm.summ with
      pos := d.mm.summ.pos + sum (max 0), neg := d.mm.summ.neg + sum (min 0) } } }

/-- One corrected sample of both channels, taken at `t`, reaches a CAL_USER job of mode 0x1 or 0x2 (R126, R131). -/
def userTake (t : Nat) (a b : Int) (u : CalUser) : CalUser :=
  if userTakes t u then
    let u := userAt t u
    let m := (u.ms.1 + 1, (u.ms.2.1 + a, u.ms.2.2 + b))
    if m.1 = 50 then { u with accA := u.accA.add m.2.1, accB := u.accB.add m.2.2, ms := (0, (0, 0)) } else { u with ms := m }
  else u

/-- Raw samples reach a running CAL_USER of mode 0x1 or 0x2, corrected with the working set at the start of its measurement (R126, R131). -/
def userSamples (l : List (Nat × CurRaw)) (d : Dev) : Dev :=
  match d.ca.user with
  | none => d
  | some u =>
    let d0 := corrFrom (userMeas u) d
    let u' := l.foldl (fun u e => userTake e.1 (curCorrect d0 false e.1 e.2.a) (curCorrect d0 true e.1 e.2.b) u) u
    if u.mode = 3 then d else { d with ca := { d.ca with user := some u' } }

/-- A raw sample of one channel, taken at `t`, is over-range or lies in a supply dip (R37, Table SENS-1). -/
def rawFlagged (d : Dev) (chB : Bool) (t : Nat) (x : CurRaw) : Bool :=
  curUnstable (if chB then x.inB else x.inA) || curOver (curCorrect d chB t (if chB then x.b else x.a)) || dipMeets d 0 t t

/-- The raw samples that lead up to T reach the accumulator, the open summary and a CAL_USER job (R126, R131, R136): those that have not come
before, taken while EN was 1. -/
def curSamples (T : Nat) (raw : List CurRaw) (d : Dev) : Dev :=
  let l := (streamTimes T raw).filter (fun e => decide (d.io.cu.rawTo.toNat ≤ e.1) && curOnAt d e.1)
  let d := withCur (fun c => { c with rawTo := if c.rawTo.toNat < T then BitVec.ofNat 64 T else c.rawTo }) d
  let x := l.map (fun e => curCorrect d false e.1 e.2.a)
  let hit := l.filter (fun e => rawFlagged d false e.1 e.2)
  let bad := !hit.isEmpty || l.any (fun e => rawFlagged d true e.1 e.2)
  userSamples l (sumSamples x (countOvrMs (hit.map (fun e => e.1 / msT 1)) (accumulate x (curFlagged bad d))))

/-- Output period of the current channel at an index, in half ring-time LSBs (Table MEAS-1). -/
def curP2 (idx : Nat) : Nat := 15625 * 4 ^ idx

/-- A current grid result (R130 to R136), in the configuration of its instant (R261). With the channel off nothing runs; the samples that EN = 1
still took reach the accumulator. -/
def currentGrid (T : Time) (a b : CurSample) (raw : List CurRaw) (d : Dev) : Dev :=
  let o := asOf T d
  if fresh d T then
    let d := if curOn d && curOn o && onGrid (curP2 (regFld o R.curCtrl 6 4)) T then
        let ra := curEval o T false a
        let rb := curEval o T true b
        let d := writeCur true rb (writeCur false ra d)
        curCompare T ra rb (setRegBit R.curStat 0 (ra.stale || rb.stale) d)
      else d
    curSamples T.toNat raw d
  else d

/-- CURRENT_GRID_RESULT (R130 to R136). -/
def execCurrentGridResult (t : Time) (a b : CurSample) (raw : List CurRaw) (s : State) :
    Host.Outcome State Fault Refusal :=
  actAt t (currentGrid t a b raw) s

/-- The end of a CAL_USER job: its last current samples come first (R126, R128). -/
def calUserEnd (r : CalUserRun) (d : Dev) : Dev := calUserJudge r (curSamples d.now.toNat r.raw d)

/-- CAL_USER_END (R126, R128). -/
def execCalUserEnd (t : Time) (r : CalUserRun) (s : State) : Host.Outcome State Fault Refusal :=
  actAwake t (calUserEnd r) s

/-! ### Current limit (R130, R135) -/

/-- Bit of CUR_STAT for a direction. -/
def limBit (pos : Bool) : Nat := if pos then 5 else 6

/-- CUR_LIM_CFG.DEGLITCH. -/
def curDeglitch (d : Dev) : Nat := regFld d R.curLimCfg 8 0

/-- How far a corrected sample lies beyond the positive (negative) limit, in 10^-8 nV (R135). It saturates at full scale as a result does, while the
accumulator takes the sample itself (DESIGN CHOICE, log 100: no rule says where a corrected 50 kS/s sample saturates). -/
def beyondLimit (pos : Bool) (d : Dev) (x : Int) : Int :=
  let v := clampInt (-curFull) curFull x
  if pos then v - regFld d R.curLim 15 0 * 10 ^ 12 else -v - regFld d R.curLim 31 16 * 10 ^ 12

/-- The last DEGLITCH samples of the two channels up to T, corrected; none where there are fewer. -/
def limitRun (T : Nat) (raw : List (Int × Int)) (d : Dev) : Option (List (Int × Int)) :=
  if curDeglitch d ≤ raw.length then
    some ((streamTimes T (lastN (curDeglitch d) raw)).map (fun e => (curCorrect d false e.1 e.2.1, curCorrect d true e.1 e.2.2)))
  else none

/-- A limit trip is confirmed when ISA, or ISB, has lain beyond it for DEGLITCH consecutive samples (R135): one channel for all of them
(DEDUCED, from 1oo2 on the two modulators). -/
def limitTrip (pos : Bool) (T : Nat) (raw : List (Int × Int)) (d : Dev) : Dev :=
  match limitRun T raw d with
  | some l =>
    if curOn d && (l.all (fun x => decide (0 < beyondLimit pos d x.1)) || l.all (fun x => decide (0 < beyondLimit pos d x.2))) then
      latch 1 0 (setRegBit R.curStat (limBit pos) true d)
    else d
  | none => d

/-- CURRENT_LIMIT_TRIP (R135, R311). -/
def execCurrentLimitTrip (t : Time) (pos : Bool) (raw : List (Int × Int)) (s : State) : Host.Outcome State Fault Refusal :=
  actAt t (limitTrip pos t.toNat raw) s

/-- The trip releases after the same count of samples of both channels inside by HYST x 100 uV (R135). -/
def limitRelease (pos : Bool) (T : Nat) (raw : List (Int × Int)) (d : Dev) : Dev :=
  match limitRun T raw d with
  | some l =>
    let inside (x : Int) : Bool := decide (beyondLimit pos d x ≤ -(regFld d R.curLimCfg 15 12 * 10 ^ 13 : Int))
    if curOn d && l.all (fun x => inside x.1 && inside x.2) then
      let d := setRegBit R.curStat (limBit pos) false d
      if !regBit d R.curStat 5 && !regBit d R.curStat 6 then gone 1 0 d else d
    else d
  | none => d

/-- CURRENT_LIMIT_RELEASE (R135). -/
def execCurrentLimitRelease (t : Time) (pos : Bool) (raw : List (Int × Int)) (s : State) : Host.Outcome State Fault Refusal :=
  actAt t (limitRelease pos t.toNat raw) s

/-- A commit of BCAST or BC_IDX restarts the second ISA filter (R139): as CORNER for the first, its index makes its results stale for one window
(DEDUCED). -/
def bcRestart (d : Dev) : Dev := withCur (fun c => { c with sinceBc := d.now }) d

/-- A commit of CORNER or EN makes results stale from its instant (R131, Table SENS-1); with EN at 0 the result registers
read 0x0000_0080 (R130). DESIGN CHOICE (log entry 84): the run of exceeding comparisons that WINDOW measures starts afresh, of which R134 is
silent. DESIGN CHOICE (log 104): with EN at 0 OVR_A and OVR_B keep their last values, of which R130 is silent. -/
def curRestart (d : Dev) : Dev :=
  let d := bcRestart (withCur (fun c => { c with since := d.now, disRun := none }) d)
  if curOn d then d
  else setRegBit R.curStat 0 true (setReg R.curResB 0x80 (setReg R.curResA 0x80 d))

/-! ### Current samples on the ring (R139 to R141) -/

/-- The payload of a current sample frame (Table SENS-3). -/
def curPayload (f : CurFrame) : List Byte :=
  leBytes 8 f.t0.toNat ++ wordBytes f.shunt ++ leBytes 2 f.seq ++ [BitVec.ofNat 8 f.idx, 0] ++
  padTo 128 (wordsBytes f.words)

/-- Instant i of a frame that begins at m0, a multiple of 32 x P (Table SENS-3). -/
def frameInstant (idx : Nat) (m0 : Time) (i : Nat) : Time := BitVec.ofNat 64 (m0.toNat + i * curP2 idx / 2)

/-- Length of the sample rings in shared SRAM, 256 ms (R163). -/
def ringLen : Nat := msT 256

/-- The samples of a frame reach the ring of pack current, which holds the last 256 ms (R163). -/
def keepPack (f : CurFrame) (d : Dev) : Dev :=
  let l := ((upFrom 0 f.words.length).zip f.words).map (fun e => PackSample.mk (frameInstant f.idx f.t0 e.1) e.2 f.shunt)
  withEng (fun e => { e with packs := (e.packs ++ l).filter (fun p => decide (d.now.toNat ≤ p.inst.toNat + ringLen)) }) d

/-- Take a frame for the engines: the latest 16 are kept (R140). -/
def keepFrame (f : CurFrame) (d : Dev) : Dev :=
  noteFramed (keepPack f (withCur (fun c => { c with frames := lastN 16 (c.frames ++ [f]) }) d))

/-- Drop this device's own unsent current sample frames (R141). -/
def dropOwnSamples (x : LinkPort) (pos : Nat) : LinkPort :=
  { x with queue := x.queue.filter (fun f => !(decide (f.typ = 0x06) && decide (f.src = pos))) }

/-- Queue a current sample frame (Table RING-1): north while the ring is intact, on both ports while it is castled. -/
def queueSamples (f : Frame) (d : Dev) : Dev :=
  let d := { d with ln := dropOwnSamples d.ln d.rg.pos, ls := dropOwnSamples d.ls d.rg.pos }
  let d := enqueue .north f d
  if d.rg.castled then enqueue .south f d else d

/-- CUR_CTRL.BC_IDX. -/
def bcIdx (d : Dev) : Nat := regFld d R.curCtrl 10 8

/-- One result of the second ISA filter, at index BC_IDX, and the value that a stale one shows (R139). -/
def bcEval (d : Dev) (good : Int) (T : Time) (x : CurSample) : CurResult :=
  let d := asOf T d
  let W := windowLen (bcIdx d) 0
  let stale := curStale d.io.cu.sinceBc W T
  ⟨if stale then good else curValue d false T x, stale, inDip d W T, curOvr d false T x⟩

/-- The words of a frame, and the last value that was not stale (R139, Table SENS-1). -/
def bcWords (d : Dev) (m0 : Time) (l : List CurSample) : List Word × Int :=
  ((upFrom 0 l.length).zip l).foldl (fun acc e =>
    let r := bcEval d acc.2 (frameInstant (bcIdx d) m0 e.1) e.2
    (acc.1 ++ [r.word], if r.stale then acc.2 else r.value)) ([], d.io.cu.goodBc)

/-- Does the device use its own stream (R140)? -/
def ownSource (d : Dev) : Bool := decide (regFld d R.curSrc 5 0 = d.rg.pos) && decide (d.rg.pos ≤ 62)

/-- The frame of 32 results from m0 on may be queued at the present (R139): m0 is a multiple of 32 x P, and its last instant is past by 20 us
at most. -/
def frameDue (d : Dev) (m0 : Time) : Bool :=
  decide (m0.toNat % (250000 * 4 ^ bcIdx d) = 0) &&
  (let last := frameInstant (bcIdx d) m0 31
   decide (last.toNat ≤ d.now.toNat) && decide (d.now.toNat ≤ last.toNat + usT 20))

/-- A frame of 32 results from instant m0 is complete (R139, R140). -/
def frameSend (m0 : Time) (samples : List CurSample) (d : Dev) : Dev :=
  if curOn d && decide (samples.length = 32) && frameDue d m0 && (regBit d R.curCtrl 1 || ownSource d) then
    let r := bcWords d m0 samples
    let f : CurFrame := ⟨m0, reg d R.curShunt, d.io.cu.seqTx, bcIdx d, r.1⟩
    let d := withCur (fun c => { c with goodBc := r.2 }) d
    let d := if ownSource d then keepFrame f d else d
    if regBit d R.curCtrl 1 then
      let d := withCur (fun c => { c with seqTx := (c.seqTx + 1) % 65536 }) d
      if d.rg.pos ≤ 62 then queueSamples (ownFrame d 0x3F 0x06 f.seq (curPayload f)) d else d
    else d
  else d

/-- CURRENT_FRAME_SEND (R139, R141). -/
def execCurrentFrameSend (t : Time) (m0 : Time) (samples : List CurSample) (s : State) : Host.Outcome State Fault Refusal :=
  actAt t (frameSend m0 samples) s

/-- Sources whose frames arrive: the latest came within two of its frame periods (DESIGN CHOICE). -/
def liveSources (d : Dev) : List Nat :=
  (d.io.cu.sources.filter (fun e => decide (since e.2.1 d.now ≤ 32 * 15625 * 4 ^ e.2.2))).map Prod.fst

/-- CUR_STAT.SECOND_SRC (R140). -/
def secondSrc (d : Dev) : Bool := d.head && decide (2 ≤ (liveSources d).length)

/-- The head notes a frame's source and raises "second current source" as a second one appears (R140). -/
def noteSource (src idx : Nat) (d : Dev) : Dev :=
  if d.head then
    let was := secondSrc d
    let d := withCur (fun c => { c with sources := c.sources.filter (fun e => e.1 ≠ src) ++ [(src, (d.now, idx))] }) d
    if secondSrc d && !was then occur 18 0 0x0904 [BitVec.ofNat 8 src] d else d
  else d

/-- Frames missed between two sequence numbers. -/
def missedFrames (last seq : Nat) : Nat := (seq + 65536 - last - 1) % 65536

/-- A frame from the position of CUR_SRC (R140). -/
def takeSamples (f : CurFrame) (d : Dev) : Dev :=
  let seq := f.seq % 65536
  if d.io.cu.seqRx = some seq then d
  else
    let n : Nat := match d.io.cu.seqRx with
      | some last => missedFrames last seq
      | none => 0
    let w := reg d R.curRxStat
    let (lost, d) := fitU 16 (fld w 15 0 + n) d
    let d := setReg R.curRxStat (packW [(lost, 0), (seq, 16)]) d
    let gap := ((upFrom 1 (min n 16)).map (fun k => (seq + 65536 - k) % 65536))
    let d := withCur (fun c => { c with seqRx := some seq, absent := (gap ++ c.absent).take 16 }) d
    let d := keepFrame f d
    if n = 0 then d else occur 17 0 0x0903 (leBytes 2 n ++ leBytes 2 seq) d

/-- A current sample frame from position src arrives (R140); a change of the engine index ends the running jobs (R168). -/
def samplesRx (src : Nat) (f : CurFrame) (d : Dev) : Dev :=
  if decide (src ≤ 62) && decide (d.rg.pos ≤ 62) && decide (src ≠ d.rg.pos) then
    let d := noteSource src f.idx d
    if curSrc d = src then idxAbort (engIdx d) (takeSamples f d) else d
  else d

/-- CURRENT_SAMPLES_RX (R140). -/
def execCurrentSamplesRx (t : Time) (src : Nat) (f : CurFrame) (s : State) : Host.Outcome State Fault Refusal :=
  actAt t (fun d => samplesRx src f (unbufferAny 0x06 d)) s

/-- A commit of CUR_SRC.POS (R140): the sequence of the new source begins with its first frame. DESIGN CHOICE (log entry 84): the frames and the missed
numbers of the former source are dropped, since the engines take samples from POS only; the rule does not say. -/
def srcChange (d : Dev) : Dev :=
  withEng (fun e => { e with packs := [] }) (withCur (fun c => { c with seqRx := none, frames := [], absent := [] }) d)

/-- CUR_STAT (R130 to R140). -/
def curStatWord (d : Dev) : Word := putBit (reg d R.curStat) 8 (secondSrc d)

/-! ### Auxiliary scan (R142 to R147) -/

/-- Mode of channel k (R142). -/
def auxMode (d : Dev) (k : Nat) : Nat := regFld d R.auxCh (2 * k + 1) (2 * k)

/-- TEMP where the logarithm of R145 is infinite: its reciprocal is 0, and round(-273.15 x 64) remains. -/
def ntcFloor : Int := -17482

/-- The result of R145's computation in 1/64 degree, with the logarithm to better than 2^-50; none where the computation meets 0/0 or a zero
divisor of its sum. A ratio, NOM or BETA of 0 makes a quotient infinite, as float arithmetic has it (DEDUCED). -/
def ntcTemp (rpull rnom beta code : Nat) : Option Int :=
  if rpull * code = 0 ∧ rnom = 0 then none
  else if rpull * code = 0 ∨ 65536 ≤ code ∨ rnom = 0 then some ntcFloor
  else
    let l := lnFix (rpull * code) (rnom * (65536 - code))
    let num : Int := 29815 * beta * 2 ^ 64
    let den : Int := 100 * beta * 2 ^ 64 + 29815 * l
    if beta = 0 then (if rpull * code = rnom * (65536 - code) then none else some ntcFloor)
    else if den = 0 then none
    else some (roundHalf (6400 * num - 64 * 27315 * den) (100 * den))

/-- TEMP of a channel in mode 3 (R145). Where the computation gives no 16-bit value it is free. -/
def tempOf (code : Nat) (d : Dev) : Nat × Dev :=
  match ntcTemp (regFld d R.auxNtcPull 15 0) (regFld d R.auxNtcCfg 15 0) (regFld d R.auxNtcCfg 31 16) code with
  | some z => fitS 16 z d
  | none => fitS 16 (2 ^ 20) d

/-- CODE of a channel in mode 1 after CAL_AUX_OFF (10 uV) and CAL_AUX_GAIN, as (raw - OFF) x (1 + GAIN) (DEDUCED). -/
def absCode (raw : Nat) (d : Dev) : Nat × Dev :=
  let off := signed 16 (regFld d R.calAuxOff 15 0)
  fitU 16 (quot (((raw : Int) * 3000000 - off * 10 * 65536) * (10 ^ 8 + reg24 d R.calAuxGain)) (3000000 * 10 ^ 8)) d

/-- An empty range of a summary. -/
def noRange : Int × Int := (1, 0)

/-- A range widened by a value. -/
def widen (r : Int × Int) (v : Int) : Int × Int := if r.2 < r.1 then (v, v) else (min r.1 v, max r.2 v)

/-- Channel counts of R146. -/
def auxChan (d : Dev) (k : Nat) : AuxChan := kget AuxChan.init d.io.aux k

/-- Limits of channel k: HI, LO. -/
def auxLim (d : Dev) (k : Nat) : Int × Int :=
  (signed 16 (regFld d (R.auxTlim + 4 * k) 15 0), signed 16 (regFld d (R.auxTlim + 4 * k) 31 16))

/-- CONFIRM. -/
def auxConfirm (d : Dev) : Nat := regFld d R.auxCfg 10 8

/-- Evaluate the limits of a channel in mode 3 after a scan (R146). `bad`: it reads open or short. -/
def auxLimits (k : Nat) (temp : Int) (bad : Bool) (d : Dev) : Dev :=
  let (hi, lo) := auxLim d k
  let guarded := !(decide (hi = 0x7FFF) && decide (lo = -0x8000))
  let c := auxChan d k
  let n : AuxChan :=
    { beyond := if hi < temp ∨ temp < lo then c.beyond + 1 else 0
      fault := if bad && guarded then c.fault + 1 else 0
      inside := if temp ≤ hi - 128 ∧ lo + 128 ≤ temp ∧ !bad then c.inside + 1 else 0 }
  let d := { d with io := { d.io with aux := kset AuxChan.init d.io.aux k n } }
  if regBit d R.auxStat (16 + k) then
    (if auxConfirm d ≤ n.inside then gone 2 k (setRegBit R.auxStat (16 + k) false d) else d)
  else if auxConfirm d ≤ n.beyond ∨ auxConfirm d ≤ n.fault then latch 2 k (setRegBit R.auxStat (16 + k) true d)
  else d

/-- Open and short of a channel (R144): their bits, and the occurrence as either arises: one as the channel comes to read open or short from
neither, none as open turns to short or while it lasts (DESIGN CHOICE, log 101: R158 does not say what one occurrence is). -/
def auxOpenShort (k : Nat) (isOpen isShort : Bool) (d : Dev) : Dev :=
  let was := regBit d R.auxStat k || regBit d R.auxStat (8 + k)
  let d := setRegBit R.auxStat (8 + k) isShort (setRegBit R.auxStat k isOpen d)
  if (isOpen || isShort) && !was then occur 19 k 0x0A01 [if isOpen then 1 else 2] d else d

/-- The open summary takes a channel's reading (Table MEM-7). -/
def auxSummary (k : Nat) (v : Int) (d : Dev) : Dev :=
  { d with mm := { d.mm with summ := { d.mm.summ with
      aux := kset noRange d.mm.summ.aux k (widen (kget noRange d.mm.summ.aux k) v) } } }

/-- A scan in which a channel is not in mode 3 ends its runs of consecutive scans (R146). -/
def auxUnguarded (k : Nat) (d : Dev) : Dev := { d with io := { d.io with aux := kset AuxChan.init d.io.aux k AuxChan.init } }

/-- The mean of a channel's conversions (R143). -/
def meanCode (l : List Nat) : Nat := (quot (sumNat l) l.length).toNat % 65536

/-- One channel of a scan (R142 to R146). A channel that is off is not converted. DESIGN CHOICE (log entry 84): R37 marks temperature results of a
supply dip, but neither AUX_RES nor AUX_TDIE nor Table RING-7 has a field for it, so none is written. -/
def auxChannel (k : Nat) (conv : List Nat) (d : Dev) : Dev :=
  let mode := auxMode d k
  let raw := meanCode conv
  let d := if mode = 3 then d else auxUnguarded k d
  if mode = 0 then auxOpenShort k false false d
  else if mode = 1 then
    let (code, d) := absCode raw d
    auxSummary k code (setReg (R.auxRes + 4 * k) (BitVec.ofNat 32 code) (auxOpenShort k false false d))
  else
    let isOpen := decide (65208 < raw)
    let isShort := decide (raw < 328)
    let (temp, d) := if isOpen || isShort then (0x8000, d) else if mode = 3 then tempOf raw d else (0, d)
    let d := auxOpenShort k isOpen isShort (setReg (R.auxRes + 4 * k) (packW [(raw, 0), (temp, 16)]) d)
    let d := auxSummary k (if mode = 3 then signed 16 temp else raw) d
    if mode = 3 then auxLimits k (signed 16 temp) (isOpen || isShort) d else d

/-- The two die sensors, in 1/64 degree before CAL_TDIE_OFF (R147), which is subtracted as the other offsets are
(DEDUCED). -/
def dieTemps (m c : Int) (d : Dev) : Dev :=
  let off := signed 16 (regFld d R.calTdieOff 15 0)
  let (a, d) := fitS 16 (m - off) d
  let (b, d) := fitS 16 (c - off) d
  let die := d.mm.summ.die
  let die := kset noRange die 0 (widen (kget noRange die 0) (signed 16 a))
  let die := kset noRange die 1 (widen (kget noRange die 1) (signed 16 b))
  setReg R.auxTdie (packW [(a, 0), (b, 16)]) { d with mm := { d.mm with summ := { d.mm.summ with die := die } } }

/-- Length of a scan from its start to step 4: 1.64 ms and 0.32 ms for each enabled channel (Table SENS-4). -/
def scanLen (d : Dev) : Nat := usT 1640 + usT 320 * ((upFrom 0 8).filter (fun k => decide (auxMode d k ≠ 0))).length

/-- A scan that ends at T began at a multiple of PERIOD (R143). -/
def scanDue (d : Dev) (T : Nat) : Bool :=
  decide (scanLen d ≤ T) && decide ((T - scanLen d) % (msT 10 * regFld d R.auxCfg 6 0) = 0)

/-- Channels in mode 3 with a temperature, and their TEMP in 1/64 degree. -/
def ntcTemps (d : Dev) : List (Nat × Int) :=
  ((upFrom 0 8).filter (fun k => decide (auxMode d k = 3) && decide (regFld d (R.auxRes + 4 * k) 31 16 ≠ 0x8000))).map
    (fun k => (k, signed 16 (regFld d (R.auxRes + 4 * k) 31 16)))

/-- Largest less smallest of a list of temperatures. -/
def spreadOf (l : List Int) : Int := l.foldl max (l.headD 0) - l.foldl min (l.headD 0)

/-- The detail code of the first precondition of CHAR that the AUX channels fail, 0 for none (R187): a channel in mode 3, spread of at most 1 degree,
change of at most 0.5 degree over the preceding 600 s. A channel that reads open or short has no temperature to spread or change (DEDUCED). -/
def ntcDetail (d : Dev) : Nat :=
  let now := ntcTemps d
  if now.isEmpty then 1
  else if 64 < spreadOf (now.map Prod.snd) then 2
  else if now.any (fun e => decide (32 < spreadOf (e.2 :: (d.io.temps.filter (fun x => x.2.1 == e.1)).map (fun x => x.2.2)))) then 3
  else 0

/-- Temperatures are kept for 600 s, and a running CHAR is checked at every scan (R187). -/
def noteNtc (d : Dev) : Dev :=
  let l := (ntcTemps d).map (fun e => (d.now, e))
  let d := { d with io := { d.io with temps := d.io.temps.filter (fun x => decide (since x.1 d.now ≤ 600 * lsbPerSec)) ++ l } }
  withEng (fun e => { e with est := e.est.map (fun j => if bit (dWord j.d 2) 4 && decide (j.bad = 0) then { j with bad := ntcDetail d } else j) }) d

/-- Step 4 of a scan (Table SENS-4). -/
def scan (codes : List (List Nat)) (m c : Int) (d : Dev) : Dev :=
  if scanDue d d.now.toNat then
    let d := each (fun k d => auxChannel k (codes.getD k []) d) (upFrom 0 8) d
    noteNtc (setRegBit R.auxStat 24 true (dieTemps m c d))
  else d

/-- AUX_SCAN (R142 to R147). -/
def execAuxScan (t : Time) (codes : List (List Nat)) (m c : Int) (s : State) : Host.Outcome State Fault Refusal :=
  actAwake t (scan codes m c) s

/-! ### Daroth wire (R148 to R157) -/

/-- A wire port. -/
def wirePort (d : Dev) (p : Nat) : WirePort :=
  match p with
  | 0 => d.io.w0
  | 1 => d.io.w1
  | 2 => d.io.w2
  | _ => d.io.w3

/-- Replace a wire port. -/
def setWire (p : Nat) (x : WirePort) (d : Dev) : Dev :=
  match p with
  | 0 => { d with io := { d.io with w0 := x } }
  | 1 => { d with io := { d.io with w1 := x } }
  | 2 => { d with io := { d.io with w2 := x } }
  | 3 => { d with io := { d.io with w3 := x } }
  | _ => d

/-- EN of a port. -/
def wireOn (d : Dev) (p : Nat) : Bool := regBit d R.auxWireCfg p

/-- SPU_EN of a port as it reads: 0 while its overload bucket is at N (R154). -/
def spuAllowed (d : Dev) (p : Nat) : Bool := regBit d R.auxWireCfg (4 + p) && !lasting d 21 p

/-- AUX_WIRE_STAT (R155). -/
def wireStat (d : Dev) : Word :=
  packW ((upFrom 0 4).flatMap (fun p =>
    let x := wirePort d p
    [(x.st, 4 * p), (b2n x.alarm, 4 * p + 2), (b2n x.spuOn, 4 * p + 3)]))

/-- A word of AUX_WIRE_ID: port p, half 0 or 1. -/
def wireIdWord (d : Dev) (p half : Nat) : Word :=
  let x := wirePort d p
  if x.st = 2 then BitVec.ofNat 32 (leNat ((x.ident.drop (4 * half)).take 4)) else 0

/-- The port leaves its state for ABSENT (0) or SHORTED (3); from PRESENT to ABSENT the sensor was removed (R155). -/
def wireGone (p st : Nat) (d : Dev) : Dev :=
  let x := wirePort d p
  let d := setWire p { x with st := st, cand := none, ident := [] } d
  if x.st = 2 ∧ st = 0 then post 0x0A06 p (padTo 8 x.ident) d else d

/-- A bad read: SETTLING, and the count of agreeing reads restarts (R155). -/
def wireBad (p : Nat) (d : Dev) : Dev := setWire p { wirePort d p with st := 1, cand := none, ident := [] } d

/-- A good read with an identity (R155). -/
def wireGood (p : Nat) (ident : List Byte) (d : Dev) : Dev :=
  let x := wirePort d p
  if x.st = 2 then
    (if x.ident = ident then d
    else post 0x0A06 p (padTo 8 x.ident) (setWire p { x with st := 1, cand := some ident, ident := [] } d))
  else if x.cand = some ident then
    let d := setWire p { x with st := 2, cand := some ident, ident := ident, reported := some ident } d
    if x.reported = some ident then d else post 0x0A05 p ident d
  else setWire p { x with st := 1, cand := some ident, ident := [] } d

/-- The alarm bit of a reply with a good CRC (R152). -/
def wireAlarm (p : Nat) (status : Nat) (d : Dev) : Dev :=
  let a := decide (status / 2 % 2 = 1)
  let d := setWire p { wirePort d p with alarm := a } d
  if a then occur 22 p 0x0A04 [] d else d

/-- A reply that fails its CRC counts (R153, R158). -/
def wireCrc (p cmd : Nat) (d : Dev) : Dev := occur 20 p 0x0A02 [BitVec.ofNat 8 cmd] d

/-! ### What a port sends and reads (R148 to R156) -/

/-- Split-phase value of a cell from its two samples, true for high; none for a code violation (Table SENS-5). -/
def cellBit (c : Bool × Bool) : Option Bool :=
  match c with
  | (false, true) => some true
  | (true, false) => some false
  | _ => none

/-- Cell i of a reply; a line that nothing drives stays high in both halves (R156). -/
def replyCell (l : List (Bool × Bool)) (i : Nat) : Bool × Bool := l.getD i (true, true)

/-- The first n bytes of a reply, least significant bit first; none where a cell of them is a violation (R149). -/
def replyBytes (l : List (Bool × Bool)) (n : Nat) : Option (List Byte) :=
  if (upFrom 0 (8 * n)).all (fun i => (cellBit (replyCell l i)).isSome) then
    some ((upFrom 0 n).map (fun k => BitVec.ofNat 8 (mapBits (fun i => cellBit (replyCell l (8 * k + i)) == some true) 0 8)))
  else none

/-- Bytes of a reply with nin bytes of data: status, data unless busy, CRC-8 (R151). -/
def replyLen (l : List (Bool × Bool)) (nin : Nat) : Nat :=
  match replyBytes l 1 with
  | some [s] => if bit (BitVec.ofNat 32 s.toNat) 3 then 2 else nin + 2
  | _ => 1

/-- A reply read without violation and with a good CRC-8: status nibble and data. DESIGN CHOICE (log entry 84): a status byte whose bits [7:4] are
not 0 is no reply of R151 and is taken as one that fails its CRC. -/
def readReply (l : List (Bool × Bool)) (nin : Nat) : Option (Nat × List Byte) :=
  let n := replyLen l nin
  match replyBytes l n with
  | some b =>
    let st := (b.getD 0 0).toNat
    if 2 ≤ n ∧ crc8w (b.take (n - 1)) = (b.getD (n - 1) 0).toNat ∧ st < 16 then some (st, (b.drop 1).take (n - 2)) else none
  | none => none

/-- The cell at which the reply breaks off is high in both halves: the sensor may be gone (R156). -/
def brokenOff (l : List (Bool × Bool)) (nin : Nat) : Bool :=
  match (upFrom 0 (8 * replyLen l nin)).find? (fun i => (cellBit (replyCell l i)).isNone) with
  | some i => decide (replyCell l i = (true, true))
  | none => false

/-- The presence pattern, the cells 1 and 0 (R150). -/
def presence (a : WireAttention) : Bool := cellBit a.first == some true && cellBit a.second == some false

/-- The line reads low before the attention or 80 us after release (R150). -/
def lineShorted (a : WireAttention) : Bool := !a.idle || !a.at80

/-- VWIRE suffices (R148). -/
def wireFed (r : WireReply) : Bool := decide (2800 ≤ r.mv)

/-- Command byte, data and CRC-8, as the port sends them (R151). -/
def wireFrame (cmd : Nat) (data : List Byte) : List Byte :=
  let l := BitVec.ofNat 8 cmd :: data
  l ++ [BitVec.ofNat 8 (crc8w l)]

/-- The cell of a bit as the port sends it, true for a released line: it drives the first half low for 1, the second for 0 (Table SENS-5). -/
def sentCell (b : Bool) : Bool × Bool := if b then (false, true) else (true, false)

/-- The cells of bytes, least significant bit first (R149). -/
def sentCells (l : List Byte) : List (Bool × Bool) :=
  l.flatMap (fun x => (upFrom 0 8).map (fun i => sentCell (bit (BitVec.ofNat 32 x.toNat) i)))

/-- The port sends bytes in a transaction of their own (R149). -/
def wireSend (p : Nat) (l : List Byte) (d : Dev) : Dev := setWire p { wirePort d p with tx := sentCells l } d

/-- A port meets VWIRE (R148). -/
def noteVwire (r : WireReply) (d : Dev) : Dev := { d with io := { d.io with vwire := r.mv } }

/-- After a good reply that requests strong power the port sends the grant byte and closes the pull-up for SPU_MS, where it is
permitted (R154). -/
def wirePower (p status : Nat) (d : Dev) : Dev :=
  if decide (status / 4 % 2 = 1) && spuAllowed d p then
    let x := wirePort d p
    setWire p { x with
      spuOn := true
      tx := x.tx ++ sentCells [0xC3]
      spuEnds := BitVec.ofNat 64 (d.now.toNat + msT (regFld d R.auxWireCfg 17 8)) } d
  else d

/-- A reply that cannot be used ends its transaction; broken off, it brings another attention, which may find the sensor gone or the line
shorted (R153, R155, R156). `bad` is what follows otherwise. -/
def wireFail (p nin : Nat) (r : WireReply) (bad : Dev → Dev) (d : Dev) : Dev :=
  if brokenOff r.cells nin then
    (if lineShorted r.again then wireGone p 3 d else if !presence r.again then wireGone p 0 d else bad d)
  else bad d

/-- The transaction of a presence search: an attention, then IDENT (R155). DESIGN CHOICE (log entry 84): a reply with busy and data valid both set
carries no data (R151), so it is a bad read, of which R155 is silent. -/
def searchRun (p : Nat) (r : WireReply) (d : Dev) : Dev :=
  if !wireFed r then wireGone p 0 d
  else if lineShorted r.att then wireGone p 3 d
  else if !presence r.att then wireGone p 0 d
  else
    let d := wireSend p (wireFrame 1 []) d
    match readReply r.cells 8 with
    | none => wireFail p 8 r (wireBad p) (wireCrc p 1 d)
    | some (st, data) =>
      let d := wirePower p st (wireAlarm p st d)
      if decide (st % 2 = 1) && decide (st / 8 % 2 = 0) then wireGood p (padTo 8 data) d else wireBad p d

/-- A presence search is due on a port (R155): it is enabled, nothing runs or waits there, and 500 ms have passed. A newly enabled port's first
search may come at once (DESIGN CHOICE, log 102: no rule says when it comes). -/
def searchDue (p : Nat) (d : Dev) : Bool :=
  let x := wirePort d p
  decide (p < 4) && wireOn d p && !x.spuOn && x.queue.isEmpty &&
  (match x.searchDue with
    | some t => decide (t.toNat ≤ d.now.toNat)
    | none => true)

/-- The next search: 500 ms after the one before was due, unless that is past. -/
def nextSearch (x : WirePort) (now : Time) : Time :=
  let t := (x.searchDue.getD now).toNat + msT 500
  BitVec.ofNat 64 (if t ≤ now.toNat then now.toNat + msT 500 else t)

/-- One presence search (R150 to R156). -/
def wireSearch (p : Nat) (r : WireReply) (d : Dev) : Dev :=
  if searchDue p d then
    let d := noteVwire r d
    let x := wirePort d p
    searchRun p r (setWire p { x with searchDue := some (nextSearch x d.now) } d)
  else d

/-- WIRE_PRESENCE_SEARCH (R155). -/
def execWirePresenceSearch (t : Time) (p : Nat) (r : WireReply) (s : State) : Host.Outcome State Fault Refusal :=
  actAwake t (wireSearch p r) s

/-! ### WIRE_XFER (R157) -/

/-- WIRE_XFER's arguments (Table SENS-6). -/
def okWireXfer (c : Desc) : Bool := decide (dFld c 2 21 16 ≤ 32) && decide (dFld c 2 29 24 ≤ 32) && zeroFrom c 11

/-- The 40-byte record of a transfer (R157). -/
def xferRecord (p status detail st nin : Nat) (data : List Byte) : List Byte :=
  [BitVec.ofNat 8 p, BitVec.ofNat 8 (status % 16), BitVec.ofNat 8 detail, BitVec.ofNat 8 st, BitVec.ofNat 8 nin, 0, 0, 0] ++
  padTo 32 data

/-- End a transfer of port p with its record. -/
def xferEnd (p h st status detail nin : Nat) (data : List Byte) (d : Dev) : Dev :=
  finish h st (xferRecord p status detail (wirePort d p).st nin data) d

/-- The state of its port denies a transfer: disabled, shorted or not PRESENT; IDENT is accepted in SETTLING (R157). -/
def xferDenied (c : Desc) (d : Dev) : Bool :=
  let p := dFld c 2 1 0
  let x := wirePort d p
  !wireOn d p || (decide (x.st ≠ 2) && !(decide (x.st = 1) && decide (dFld c 2 15 8 = 1)))

/-- End a transfer that its port's state denies. -/
def xferDeny (h : Nat) (c : Desc) (d : Dev) : Dev :=
  let p := dFld c 2 1 0
  xferEnd p h St.deniedState 0 (if (wirePort d p).st = 3 then 4 else 0) (dFld c 2 29 24) [] d

/-- Queue a transfer on its port (R157). -/
def xferQueue (h : Nat) (c : Desc) (d : Dev) : Dev :=
  let p := dFld c 2 1 0
  let x := wirePort d p
  if xferDenied c d then xferDeny h c d
  else if 4 ≤ x.queue.length then xferEnd p h St.resourceBusy 0 0 (dFld c 2 29 24) [] d
  else setWire p { x with queue := x.queue ++ [(h, c)] } d

/-- WIRE_XFER (R157). -/
def execWireXfer (t : Time) (h : Nat) (c : Desc) (s : State) : Host.Outcome State Fault Refusal :=
  actOp 0x60 okWireXfer t c (xferQueue h c) s

/-- DATA of a transfer, NOUT bytes (Table SENS-6). -/
def xferOut (c : Desc) : List Byte := (wordsBytes (c.drop 3)).take (dFld c 2 21 16)

/-- One transfer runs on its port and meets r (R150 to R157). Where VWIRE is below 2.8 V the port is treated as absent (R148), and the transfer ends as
one that finds no presence, TIMEOUT with detail 2 (DESIGN CHOICE, log 105: R157 names no status for it). -/
def xferRun (p h : Nat) (c : Desc) (r : WireReply) (d : Dev) : Dev :=
  let nin := dFld c 2 29 24
  let cmd := dFld c 2 15 8
  if xferDenied c d then xferDeny h c d
  else if !wireFed r then xferEnd p h St.timeout 0 2 nin [] (wireGone p 0 d)
  else if lineShorted r.att then xferEnd p h St.deniedState 0 4 nin [] (wireGone p 3 d)
  else if !presence r.att then xferEnd p h St.timeout 0 2 nin [] (wireGone p 0 d)
  else
    let d := wireSend p (wireFrame cmd (xferOut c)) d
    match readReply r.cells nin with
    | none => xferEnd p h St.checkFail 0 1 nin [] (wireFail p nin r id (wireCrc p cmd d))
    | some (st, data) =>
      let d := wirePower p st (wireAlarm p st d)
      let y := wirePort d p
      if y.spuOn then setWire p { y with held := some (h, st, nin, data) } d
      else xferEnd p h St.done st 0 nin data d

/-- The transfer at the front of a port's queue runs (R157), not while the strong pull-up is closed (R154). -/
def wireRun (p : Nat) (r : WireReply) (d : Dev) : Dev :=
  let x := wirePort d p
  if decide (p < 4) && !x.spuOn then
    match x.queue with
    | [] => d
    | (h, c) :: rest => xferRun p h c r (noteVwire r (setWire p { x with queue := rest } d))
  else d

/-- WIRE_TRANSACTION (R157). -/
def execWireTransaction (t : Time) (p : Nat) (r : WireReply) (s : State) : Host.Outcome State Fault Refusal :=
  actAwake t (wireRun p r) s

/-- The strong pull-up opens; the transfer that waited for it completes DONE (R157). -/
def spuOpen (p detail : Nat) (d : Dev) : Dev :=
  let x := wirePort d p
  let d := setWire p { x with spuOn := false, held := none } d
  match x.held with
  | some (h, st, nin, data) => xferEnd p h St.done st detail nin data d
  | none => d

/-- SPU_MS has elapsed (R154). -/
def spuEnd (p : Nat) (d : Dev) : Dev :=
  if decide (p < 4) && (wirePort d p).spuOn && decide ((wirePort d p).spuEnds.toNat ≤ d.now.toNat) then spuOpen p 0 d else d

/-- WIRE_SPU_END (R154). -/
def execWireSpuEnd (t : Time) (p : Nat) (s : State) : Host.Outcome State Fault Refusal := actAwake t (spuEnd p) s

/-- The pull-up carries more than 25 mA: it opens and counts (R154). -/
def spuOverload (p : Nat) (d : Dev) : Dev :=
  if decide (p < 4) && (wirePort d p).spuOn then spuOpen p 3 (occur 21 p 0x0A03 [] d) else d

/-- WIRE_SPU_OVERLOAD (R154). -/
def execWireSpuOverload (t : Time) (p : Nat) (s : State) : Host.Outcome State Fault Refusal := actAwake t (spuOverload p) s

/-- A port that a commit switches off is high impedance, so its strong pull-up is open, and is treated as absent from then on (R148). ALARM keeps
the bit of its latest reply, as AUX_WIRE_STAT has it. A PRESENT sensor counts as removed, with its event (DESIGN CHOICE, log 103: R155 names a
failed presence only). -/
def wireCommit (d : Dev) : Dev :=
  each (fun p d => if wireOn d p then d
    else
      let d := if (wirePort d p).st = 0 then d else wireGone p 0 d
      let d := setWire p { wirePort d p with searchDue := none } d
      if (wirePort d p).spuOn then spuOpen p 0 d else d) (upFrom 0 4) d

end Sys2Proof.Machine
end

