-- ==== Sys2Proof/Machine/Balance.lean ====
section
/-! DEFINITION. Balancing: plans, step tests and edges, the thermal manager, charge, and Gazebo (file 07; the open-wire test of
R86 to R88 and the coefficients of R82, which act on it). -/

namespace Sys2Proof.Machine

/-! ### Plans (R196 to R199) -/

/-- A 2-byte field of a table. -/
def tab16 (t : List Byte) (off : Nat) : Nat := leNat ((t.drop off).take 2)
/-- A 4-byte field of a table. -/
def tab32 (t : List Byte) (off : Nat) : Nat := leNat ((t.drop off).take 4)
/-- A 1-byte field of a table. -/
def tab8 (t : List Byte) (off : Nat) : Nat := leNat ((t.drop off).take 1)

/-- Bytes of the table of command h that BULK has brought, in the order of their offsets; each chunk but the last is 248 bytes (R288). -/
def bulkBytes (d : Dev) (h len : Nat) : List Byte :=
  (upFrom 0 ((len + 247) / 248)).flatMap (fun i => match d.ex.bulk.find? (fun x => x.1 == h && x.2.1 == 248 * i) with
    | some x => x.2.2
    | none => [])

/-- The table of `len` bytes of command h: in the head from the host window, in a stack device from BULK once all of it is there (R196,
R288). -/
def tableBytes (h off len : Nat) (b : Both) : Option (List Byte) :=
  if b.1.head then some (winRead b.2 off len)
  else let l := bulkBytes b.1 h len; if l.length = len then some l else none

/-- Length of a plan table. -/
def planLen : Nat := 272

/-- BAL_PLAN's arguments (R196), but for the extent of the table. -/
def okBalPlan (c : Desc) : Bool := decide ((dWord c 2).toNat % 4 = 0) && zeroFrom c 3

/-- The entries of a plan table (Table BAL-2). -/
def planEntries (t : List Byte) : List (Nat × Nat × Nat) :=
  (upFrom 0 32).map (fun i => (tab16 t (16 + 8 * i), tab16 t (18 + 8 * i), tab16 t (20 + 8 * i)))

/-- A plan table's detail code (R197); 0 when every check passes. -/
def planDetail (k : Nat) (t : List Byte) : Nat :=
  let kind := tab8 t 6
  let es := planEntries t
  if tab32 t 0 ≠ 0x4E4C5042 ∨ tab16 t 4 ≠ 1 then 1
  else if 1 < kind ∨ tab8 t 7 ≠ 0 ∨ tab16 t 14 ≠ 0 ∨ (upFrom 0 32).any (fun i => tab16 t (22 + 8 * i) ≠ 0) then 2
  else if es.any (fun e => decide (256 < e.1)) then 3
  else if es.any (fun e => decide (e.1 ≠ 0) && decide (e.2.2 = 0)) then 4
  else if kind = 1 ∧ es.any (fun e => decide (e.1 ≠ 0) && decide (e.2.1 = 0)) then 5
  else if (kind = 1 ∧ (tab16 t 12 = 0 ∨ 720 < tab16 t 12)) ∨ (kind = 0 ∧ (tab16 t 10 ≠ 0 ∨ tab16 t 12 ≠ 0)) then 6
  else if (es.drop k).any (fun e => decide (e.1 ≠ 0)) then 7
  else 0

/-- The plan of a table. -/
def planOf (t : List Byte) : BalPlan := ⟨tab16 t 8, tab16 t 10, tab16 t 12, planEntries t⟩

/-- The 8-byte result of BAL_PLAN (R197). -/
def planResult (t : List Byte) (detail : Nat) : List Byte :=
  leBytes 2 (tab16 t 8) ++ [BitVec.ofNat 8 (tab8 t 6), BitVec.ofNat 8 detail] ++
  wordBytes (cellMap (fun n => decide (((planEntries t).getD (n - 1) (0, 0, 0)).1 ≠ 0)))

/-- A cell under a new plan: its full time limit, no test yet (R198, R201). The 10 s hold and what was sensed stay. -/
def BalCell.fresh (c : BalCell) : BalCell :=
  { c with done := false, exp := false, stuck := false, tested := false, hits := 0, ran := 0, was := false }

/-- Install an awake plan: every cell restarts with its full time limit; the 10 s hold of R205 runs on (R198, R205). -/
def installAwake (p : BalPlan) (d : Dev) : Dev :=
  let cells := each (fun n m => kset BalCell.init m n
    (balCell d n).fresh) (upFrom 1 32) d.ba.cells
  let since := each (fun n m => kset 0 m n d.now) (upFrom 1 32) d.me.estAt
  let d := endTest d
  balUpdate { d with
    ba := { d.ba with plan := some p, cells := cells }
    me := { d.me with estAt := since } }

/-- The table of a BAL_PLAN is checked and installed (R197, R198). -/
def balPlan (h : Nat) (t : List Byte) (d : Dev) : Dev :=
  if ncells d = 0 then finish h St.deniedState [] d
  else
    let k := planDetail (ncells d) t
    if k ≠ 0 then finish h St.checkFail (planResult t k) d
    else
      let d := if tab8 t 6 = 1 then { d with ba := { d.ba with gzPlan := some (planOf t) } } else installAwake (planOf t) d
      finish h St.done (planResult t 0) d

/-- BAL_PLAN (R196 to R198, R201): in the head the table at OFFSET of the host window, in a stack device the one that BULK brought; before
it has all arrived nothing happens. -/
def execBalPlan (t : Time) (h : Nat) (c : Desc) (s : State) : Host.Outcome State Fault Refusal :=
  actOpH 0x20 okBalPlan t c (fun b => match tableBytes h (dWord c 2).toNat planLen b with
    | some tab => (balPlan h tab b.1, b.2)
    | none => b) s

/-- A cell without a plan: what holds it under R205 and what was sensed stay. -/
def BalCell.dropped (c : BalCell) : BalCell := { BalCell.init with hold := c.hold, stuck := c.stuck, ion := c.ion, ron := c.ron }

/-- The awake plan is discarded: every switch opens (R199). -/
def dropAwake (d : Dev) : Dev :=
  let cells := each (fun n m => kset BalCell.init m n (balCell d n).dropped) (upFrom 1 32) d.ba.cells
  let d := endTest d
  balUpdate { d with ba := { d.ba with plan := none, cells := cells, gaps := [] } }

/-- BAL_STOP's arguments (R199). -/
def okBalStop (c : Desc) : Bool := decide (dFld c 2 1 0 ≠ 3) && zeroFrom c 3

/-- Discard the plans that WHICH names (R199). -/
def balStop (c : Desc) (d : Dev) : Dev :=
  let w := dFld c 2 1 0
  let d := if w = 1 then d else dropAwake d
  if w = 0 then d else { d with ba := { d.ba with gzPlan := none } }

/-- BAL_STOP (R199). -/
def execBalStop (t : Time) (h : Nat) (c : Desc) (s : State) : Host.Outcome State Fault Refusal :=
  actOp 0x21 okBalStop t c (fun d => finish h St.done [] (balStop c d)) s

/-! ### Charge (R211) -/

/-- BAL_REXT.RES. -/
def rext (d : Dev) : Nat := regFld d R.balRext 15 0

/-- BAL_STAT.QUNK (R211). -/
def qunk (d : Dev) : Bool := extFet d && decide (rext d = 0)

/-- VALUE of a cell's lane A result, uV, at least 0. -/
def laneAuV (d : Dev) (n : Nat) : Nat := (signed 24 ((reg d (resOff .a n)).toNat / 256)).toNat

/-- Balance current in mA: sensed in internal switch mode, lane A VALUE over BAL_REXT in external FET mode. -/
def balMa (d : Dev) (n ma : Nat) : Nat :=
  if extFet d then (if rext d = 0 then 0 else (quot (laneAuV d n) (10 * rext d)).toNat) else ma

/-- Ring-time LSBs in a second: 1 mA s of charge in mA x 5 ns. -/
def chargeLsb : Nat := lsbPerSec

/-- Conduction of switch n that is not yet counted becomes charge at `ma` in BAL_QBALn, which wraps (R211). -/
def charge (n ma : Nat) (d : Dev) : Dev :=
  let q := kget 0 d.ba.qsub n + balMa d n ma * kget 0 d.ba.owed n
  let off := R.balQbal + 4 * (n - 1)
  setReg off (BitVec.ofNat 32 ((reg d off).toNat + q / chargeLsb))
    { d with ba := { d.ba with qsub := kset 0 d.ba.qsub n (q % chargeLsb), owed := kset 0 d.ba.owed n 0 } }

/-- Sensed current normalised to 3.000 V (R85). -/
def normMa (d : Dev) (n ma : Nat) : Nat := if laneAuV d n = 0 then 0 else (quot (ma * 3000000) (laneAuV d n)).toNat

/-! ### Step tests and edges (R82, R200) -/

/-- Length of the running step test in ring-time LSBs: 128 ms and 8 ms for each voided repetition (R82, R207). -/
def testLen (d : Dev) : Nat := msT (128 + 8 * d.ba.voids)

/-- One occurrence of "balance current missing"; at N the cell is HELD until a new plan (R205). -/
def missing (n : Nat) (d : Dev) : Dev :=
  let d := occur 27 (n - 1) 0x0C02 [BitVec.ofNat 8 (b2n (extFet d))] d
  if lasting d 27 (n - 1) then withBal n (fun c => { c with stuck := true }) d else d

/-- In external FET mode a completed step test below 20 uV at 3.000 V counts as missing current (R205). -/
def missingFet (j : Nat) (d : Dev) : Dev :=
  match coef d j true, coef d j false with
  | some a, some b => if extFet d && decide (2 * (a + b) < 20) then missing j d else d
  | _, _ => d

/-- The step test of switch j ends (R82, R201, R205); what it conducted is charge (R211). -/
def stepDone (j : Nat) (e : CoefEst) (ma : Nat) (d : Dev) : Dev :=
  match d.ba.test with
  | none => d
  | some (k, t0) =>
    if k = j ∧ testLen d ≤ since t0 d.now then
      let d := endTest (charge j ma d)
      let d := missingFet j (estimate j e (normMa d j ma) d)
      balUpdate (withBal j (fun c => { c with tested := true }) d)
    else d

/-- STEP_TEST_COMPLETE (R82, R85, R201, R205). -/
def execStepTestComplete (t : Time) (j : Nat) (e : CoefEst) (ma : Nat) (s : State) : Host.Outcome State Fault Refusal :=
  actAwake t (stepDone j e ma) s

/-- The tick of ring time t in its PWM period, when t is a tick (R200). -/
def tickOf (t : Nat) : Option Nat := if t % pwmTick = 0 then some (t % pwmPeriod / pwmTick) else none

/-- Ticks at which the PWM of a RUN switch has its edges (R200). -/
def edgeTicks (d : Dev) (j : Nat) : List Nat :=
  let w := dutyEff d j
  if decide (1 ≤ j ∧ j ≤ ncells d) && decide (cellState d j = .run) && decide (0 < w ∧ w < 256) then
    [onTick j, (onTick j + w) % 256] else []

/-- Ring times of the edges of a switch's tracking gaps. -/
def gapEdges (d : Dev) (j : Nat) : List Nat :=
  (d.ba.gaps.filter (fun g => g.1 == j)).flatMap (fun g => [g.2.toNat, g.2.toNat + gapLen])

/-- Ticks a and b of the period lie less than 200 us apart. -/
def tickNear (a b : Nat) : Bool := decide ((a + 256 - b) % 256 < 5) || decide ((b + 256 - a) % 256 < 5)

/-- A neighbour of switch j has an edge within 200 us of the time t (R200). -/
def nearEdge (d : Dev) (j t : Nat) : Bool :=
  [j - 1, j + 1].any (fun i =>
    (match tickOf t with
      | some k => (edgeTicks d i).any (tickNear k)
      | none => false) ||
    decide (i ≠ j) && (gapEdges d i).any (fun g => decide (g < t + usT 200) && decide (t < g + usT 200)))

/-- Time t is an edge of the sequence that excites switch j (R173, R176). -/
def chipEdge (d : Dev) (j t : Nat) : Bool :=
  (chipsOf d j).any (fun c => decide (0 < c.chip) && decide (c.start.toNat ≤ t ∧ t ≤ c.stop.toNat) &&
    (let x := t - c.start.toNat
     decide (x % c.chip = 0) && (decide (x = 0) || mlsChip (x / c.chip) != mlsChip (x / c.chip - 1))))

/-- Ring time t is an edge of switch j by its schedule, a tracking gap or a sequence, and the switch is free to make it (R82, R173, R200,
R206). -/
def isEdge (d : Dev) (j t : Nat) : Bool :=
  !d.pw.persist && !testsPending d &&
  (if j ∈ d.ba.excite then mayExcite d j && chipEdge d j t
   else decide (cellState d j = .run) &&
    !(pausesOf d false (t - 1) (t + 1)).any (fun p => decide (p.1 < t) && decide (t < p.2)) &&
    ((match tickOf t with
      | some k => decide (k ∈ edgeTicks d j)
      | none => false) || decide (t ∈ gapEdges d j)))

/-- An edge of switch j at ring time t (R82, R200, R211): it yields an estimate unless an edge of a neighbour lies within 200 us, and the
sensed current turns the conduction so far into charge. -/
def pwmEdge (j : Nat) (t : Time) (e : CoefEst) (ma : Nat) (d : Dev) : Dev :=
  if decide (1 ≤ j ∧ j ≤ ncells d) && isEdge d j t.toNat then
    let d := charge j ma d
    if nearEdge d j t.toNat then d else balUpdate (estimate j e (normMa d j ma) d)
  else d

/-- BAL_PWM_EDGE (R82, R85, R200, R211). -/
def execBalPwmEdge (t : Time) (j : Nat) (e : CoefEst) (ma : Nat) (s : State) : Host.Outcome State Fault Refusal :=
  actAwake t (pwmEdge j t e ma) s

/-- May a tracking gap of switch j start at tick g of the next period (R200)? Both edges lie at least 200 us from every edge of the
neighbours; at a duty below 256 the gap lies in the off time. -/
def gapFits (d : Dev) (j start g : Nat) : Bool :=
  let w := dutyEff d j
  let r := (g + 256 - onTick j) % 256
  (decide (w = 256) || (decide (w ≤ r) && decide (r + 50 ≤ 256))) &&
  !nearEdge d j (start + g * pwmTick) && !nearEdge d j (start + (g + 50) * pwmTick)

/-- A RUN switch that has yielded no estimate for 10 s, at DUTY_EFF 256 or because a neighbour's edges are near its own, is given a tracking
gap in the next PWM period (R200). Of the places that fit, at whole ticks (DESIGN CHOICE, log 91), the one taken is free; where none fits there is
no gap (DEDUCED). -/
def trackGap (j : Nat) (d : Dev) : Dev :=
  let w := dutyEff d j
  if decide (1 ≤ j ∧ j ≤ ncells d) && decide (cellState d j = .run) && decide (w ≠ 0) && !testsPending d &&
      decide (10 * lsbPerSec ≤ since (kget 0 d.me.estAt j) d.now) && (gapEdges d j).isEmpty &&
      (decide (w = 256) || (edgeTicks d j).all (fun k => nearEdge d j (k * pwmTick))) then
    let start := (d.now.toNat / pwmPeriod + 1) * pwmPeriod
    let l := (upFrom 0 207).filter (gapFits d j start)
    let (x, d) := freeWord d
    match l[x.toNat % l.length]? with
    | some g => { d with ba := { d.ba with gaps := d.ba.gaps ++ [(j, BitVec.ofNat 64 (start + g * pwmTick))] } }
    | none => d
  else d

/-- TRACKING_GAP (R200). -/
def execTrackingGap (t : Time) (j : Nat) (s : State) : Host.Outcome State Fault Refusal := actAwake t (trackGap j) s

/-! ### Open-wire test (R82, R86 to R88) -/

/-- An open tap makes the coefficients of the switches beside it unknown; they return to WAIT (R82). -/
def onOpen (tap : Nat) (d : Dev) : Dev :=
  each (fun j d => if j ≤ ncells d then withBal j (fun c => { c with tested := false }) (forgetCoef j d) else d) [tap, tap + 1] d

/-- The test of a tap in the slot that begins at ring time t (R86 to R88, R202). -/
def openWire (t : Time) (tap : Nat) (dk dk1 : Int) (d : Dev) : Dev :=
  let d := owSettle d
  if owSlot d tap t then balUpdate (owTest tap dk dk1 onOpen (fun _ d => d) d) else d

/-- OPEN_WIRE_TEST (R86 to R88, R202). -/
def execOpenWireTest (t : Time) (tap : Nat) (dk dk1 : Int) (s : State) : Host.Outcome State Fault Refusal :=
  actAt t (openWire t tap dk dk1) s

/-! ### Thermal manager (R205, R208 to R210) -/

/-- T_AMB from the ambient channel, if it is in use and reads neither open nor short (R208). -/
def ambient (d : Dev) : Option Int :=
  let k := regFld d R.balTherm 2 0
  if regBit d R.balTherm 3 && decide (auxMode d k = 3) && !regBit d R.auxStat k && !regBit d R.auxStat (8 + k) then
    some (signed 16 (regFld d (R.auxRes + 4 * k) 31 16))
  else none

/-- AUX_TDIE.M. -/
def tDie (d : Dev) : Int := signed 16 (regFld d R.auxTdie 15 0)

/-- Estimate of T_AMB from the die temperature and the switch dissipation in nW (R208). -/
def ambientEst (therm : Word) (tdie diss : Int) : Int := tdie - quot (fld therm 15 8 * diss * 64) 1000000000

/-- Balancing is forbidden, given that it was or was not before (R210): temperatures in 1/64 degree. -/
def forbidden (therm : Word) (was : Bool) (tAmb tdie : Int) : Bool :=
  let a : Int := fld therm 23 16 * 64
  let m : Int := fld therm 31 24 * 64
  if was then decide (a - 320 < tAmb ∨ m - 320 < tdie) else decide (a ≤ tAmb ∨ m ≤ tdie)

/-- What one switch senses (R205, R208, R209, R211). -/
def takeReading (r : SwitchReading) (d : Dev) : Dev :=
  if 1 ≤ r.j ∧ r.j ≤ ncells d then
    let c := balCell d r.j
    let gone := c.was && decide (cellState d r.j = .run) && r.onPhase && decide (r.maxMa < 20) &&
      decide (1500000 ≤ laneAuV d r.j) && !extFet d
    let d := if 0 < r.onMs then charge r.j r.ma (withBal r.j (fun c => { c with ion := some r.ma, ron := some r.mohm }) d) else d
    if gone then missing r.j d else d
  else d

/-- In external FET mode the conduction so far is charge, since no current is sensed (R211). -/
def chargeFets (d : Dev) : Dev := if extFet d then each (fun n d => charge n 0 d) (cellsUsed d) d else d

/-- Dissipation of the internal switches over the last 100 ms, nW. -/
def dissipation (d : Dev) (l : List SwitchReading) : Nat :=
  if extFet d then 0 else sumNat (l.map (fun r => r.ma * r.ma * r.mohm * r.onMs / 100))

/-- The thermal manager's update at a multiple of 100 ms (R205, R208 to R210). -/
def thermalUpdate (l : List SwitchReading) (d : Dev) : Dev :=
  let d := chargeFets (each takeReading l d)
  let diss := dissipation d l
  let est := ambientEst (reg d R.balTherm) (tDie d) diss
  let (z, d) := fitS 16 ((ambient d).getD est) d
  let t := signed 16 z
  let was := d.ba.forbid
  let now := forbidden (reg d R.balTherm) was t (tDie d)
  let d := { d with ba := { d.ba with
    diss := diss, tAmb := t, ambEst := (ambient d).isNone, forbid := now
    pMax64 := pMaxOf (regFld d R.balPcap 10 0) t } }
  let d := if now && !was then occur 29 0 0x0C04 (leBytes 2 z ++ leBytes 2 (regFld d R.auxTdie 15 0)) d else d
  let d := setK (balUpdate d)
  each (fun n d => withBal n (fun c => { c with was := decide (cellState d n = .run) }) d) (cellsUsed d) d

/-- Ring time t is a multiple of `n` LSBs and the present is it or within 1 ms after it. -/
def atMultiple (n : Nat) (t : Time) (d : Dev) : Bool := decide (t.toNat % n = 0) && decide (since t d.now < msT 1)

/-- THERMAL_MANAGER_UPDATE (R205, R208 to R210): at multiples of 100 ms. -/
def execThermalManagerUpdate (t : Time) (r : List SwitchReading) (s : State) : Host.Outcome State Fault Refusal :=
  actAwake t (fun d => if atMultiple (msT 100) t d then thermalUpdate r d else d) s

/-- A switch above 450 mA for 100 us opens; the cell is HELD for 10 s, or at N until a new plan (R205). -/
def overcurrent (j ma us : Nat) (d : Dev) : Dev :=
  if decide (1 ≤ j ∧ j ≤ ncells d) && !extFet d && decide (450 < ma) && decide (100 ≤ us) && conducts d j then
    let d := occur 26 (j - 1) 0x0C01 [] (withBal j (fun c => { c with hold := some d.now }) (charge j ma d))
    let d := if lasting d 26 (j - 1) then withBal j (fun c => { c with stuck := true }) d else d
    balUpdate d
  else d

/-- BAL_OVERCURRENT (R205). -/
def execBalOvercurrent (t : Time) (j ma us : Nat) (s : State) : Host.Outcome State Fault Refusal :=
  actAwake t (overcurrent j ma us) s

/-- The 10 s hold ends (R205). -/
def holdExpire (j : Nat) (d : Dev) : Dev :=
  match (balCell d j).hold with
  | some f => if 10 * lsbPerSec ≤ since f d.now then balUpdate (withBal j (fun c => { c with hold := none }) d) else d
  | none => d

/-- BAL_HOLD_EXPIRE (R205). -/
def execBalHoldExpire (t : Time) (j : Nat) (s : State) : Host.Outcome State Fault Refusal := actAwake t (holdExpire j) s

/-- Running time reaches TLIMIT (R204). -/
def limitExpire (j : Nat) (d : Dev) : Dev :=
  if counting d j && decide (tlimit d j ≤ (balCell d j).ran) then
    balUpdate (withBal j (fun c => { c with exp := true }) d)
  else d

/-- BAL_TLIMIT_EXPIRE (R204). -/
def execBalTlimitExpire (t : Time) (j : Nat) (s : State) : Host.Outcome State Fault Refusal := actAwake t (limitExpire j) s

/-! ### Target check (R203) -/

/-- One cell's check: a result with STALE, OVR, OW or SUPPLY leaves the count (R203). -/
def targetCell (d0 : Dev) (t : Time) (x : LaneSample) (d : Dev) : Dev :=
  if checked d0 x.cell then
    let r := laneEval d0 .a t x
    let d := writeLane .a x.cell r d
    if r.stale || r.ovr || r.ow || r.supply then d
    else
      let hit := decide (r.value ≤ 100 * ((planEntry d0 x.cell).2.1 : Int))
      withBal x.cell (fun c =>
        let n := if hit then c.hits + 1 else 0
        { c with hits := n, done := c.done || decide (2 ≤ n) }) d
  else d

/-- The target check of the awake plan, at a multiple of 10 s (R203). -/
def targetCheck (t : Time) (a : List LaneSample) (d : Dev) : Dev :=
  if decide (t.toNat % checkEvery = 0) && fresh d t then balUpdate (each (targetCell d t) (inUse d a) d) else d

/-- BAL_TARGET_CHECK (R203). -/
def execBalTargetCheck (t : Time) (a : List LaneSample) (s : State) : Host.Outcome State Fault Refusal :=
  actAwake t (targetCheck t a) s

/-! ### Status words -/

/-- A pause of R203 or R206 is in force. -/
def paused (d : Dev) : Bool :=
  let n := d.now.toNat
  (pausesOf d false n n).any (fun p => decide (p.1 ≤ n) && decide (n < p.2))

/-- BAL_STAT. -/
def balStat (d : Dev) : Word :=
  packW [(b2n d.ba.plan.isSome, 0), (b2n d.ba.gzPlan.isSome, 1), (b2n d.ba.test.isSome, 2),
    (b2n (d.pw.persist && d.ba.plan.isSome), 3), (b2n (paused d), 4), (b2n (decide (d.ba.k < 256)), 5), (b2n d.ba.forbid, 6),
    (b2n d.ba.ambEst, 7), (b2n (qunk d), 8),
    ((match d.ba.plan with
      | some p => p.id
      | none => 0), 16)]

/-- BAL_THERM_STAT. -/
def balThermStat (d : Dev) : Word := packW [(d.ba.k, 0), (unsigned 16 d.ba.tAmb, 16)]

/-- BAL_PWR. -/
def balPwr (d : Dev) : Word := packW [(d.ba.pMax64 / 64, 0), (d.ba.pReq % 65536, 16)]

/-- BAL_HOLD, BAL_DONE or BAL_EXP. -/
def balMap (d : Dev) (s : CellState) : Word := cellMap (fun n => decide (cellState d n = s))

/-- BAL_CELLn. -/
def balCellWord (d : Dev) (n : Nat) : Word :=
  packW [(dutyEff d n, 0), ((cellState d n).code, 9), (tleft d n % 65536, 16)]

/-! ### Gazebo (R213 to R217) -/

/-- Entry into GAZEBO when closing completes (R213). -/
def gzEnter (p : BalPlan) (d : Dev) : Dev :=
  let held := mapBits (heldCond d) 1 32
  { d with ba := { d.ba with
      gz := some ⟨p, reg d R.balCtrl, reg d R.balTherm, regBit d R.measCtrl 10, held, 0, [], 256, false, true⟩
      gzPlan := none
      gzRes := 0, gzDone := 0, gzExp := 0, gzQ := [] } }

/-- Is a cell of the Gazebo plan in RUN? -/
def gzRun (g : Gazebo) (n : Nat) : Bool :=
  let c := kget GzCell.init g.cells n
  decide ((g.plan.entry n).1 ≠ 0) && !bit (BitVec.ofNat 32 g.held) (n - 1) && !c.done && !c.exp

/-- Ticks of 1/32,768 s in `ms10` units of 0.1 ms (R214). -/
def gzTicks (ms10 : Nat) : Nat := ms10 * 32768 / 10000

/-- On time of switch n in the first x ticks after the switches resume: the PWM of 256 ticks with the stagger of R200, whose periods begin
there (DESIGN CHOICE, log 91: no rule gives their phase) (R214). -/
def gzOn (duty n x : Nat) : Nat :=
  let f := 256 - onTick n
  waveOn 256 duty (x + f) - waveOn 256 duty f

/-- Ticks of PWM `dt` ms after a cycle began: its pause lasts 50.10 ms (Table BAL-6). -/
def gzRunTicks (dt : Nat) : Nat := gzTicks (10 * dt - 501)

/-- Does switch n conduct `ms` ms after entry into GAZEBO: in RUN, after the first cycle, outside a cycle's pause, in its window of the PWM
(R213 to R215)? -/
def gzConducts (g : Gazebo) (n ms : Nat) : Bool :=
  let x := gzRunTicks (ms - g.ms)
  let duty := (g.plan.entry n).1 * g.k / 256
  gzRun g n && !g.first && decide (501 ≤ 10 * (ms - g.ms)) && decide (gzOn duty n x < gzOn duty n (x + 1))

/-- What a cell counts over the time since the last cycle: its running time, and its charge at `ma` (R214). -/
def gzCharged (g : Gazebo) (dt ma n : Nat) : GzCell :=
  let c := kget GzCell.init g.cells n
  if gzRun g n then
    { c with
      ran := c.ran + dt
      q := c.q + (if g.first then 0 else ma * gzOn ((g.plan.entry n).1 * g.k / 256) n (gzRunTicks dt)) }
  else c

/-- A lane B register word as GAZEBO captured it (R104). -/
def gzWord (cap : List (Nat × Word)) (off : Nat) : Nat := (kget 0 cap off).toNat

/-- The layers of lane B of cell n in GAZEBO: the captured working set and background corrections (R101, R104). -/
def gzLayers (cap : List (Nat × Word)) (n : Nat) : Layers :=
  let l := 4 * (31 + n)
  ⟨signed 24 (gzWord cap (R.calBoff + l)), signed 24 (gzWord cap (R.calBgain + l)), signed 24 (gzWord cap (R.calOff + l)),
    signed 24 (gzWord cap (R.calGain + l)), signed 16 (gzWord cap (R.calK2 + l))⟩

/-- A Gazebo measurement of cell n, uV (R101, R104, R215). -/
def gzVolt (cap : List (Nat × Word)) (r : GazeboReading) (n : Nat) : Int :=
  match r.cells[n - 1]? with
  | some p => quot ((gzLayers cap n).correct p) (scale31 * 65536)
  | none => 0

/-- The current of switch n over the time before a measurement, mA: as sensed; in external FET mode the measured voltage over BAL_REXT, `rx`,
which counts nothing at 0 (R211, R214; DEDUCED, log 111). -/
def gzMa (cap : List (Nat × Word)) (rx : Nat) (g : Gazebo) (r : GazeboReading) (n : Nat) : Nat :=
  if bit g.ctrl 0 then (if rx = 0 then 0 else (quot (gzVolt cap r n) (10 * rx)).toNat) else r.ma.getD (n - 1) 0

/-- What a cell counts and senses at a cycle: the current before this measurement holds for the time since the last one (R214, DEDUCED). -/
def gzCount (cap : List (Nat × Word)) (rx : Nat) (g : Gazebo) (dt : Nat) (r : GazeboReading) (n : Nat) : GzCell :=
  let a := gzMa cap rx g r n
  let c := gzCharged g dt a n
  if gzRun g n && !g.first then { c with ma := some a, mohm := some (r.mohm.getD (n - 1) 0) } else c

/-- A cell after its measurement (R216). -/
def gzJudge (cap : List (Nat × Word)) (g : Gazebo) (r : GazeboReading) (n : Nat) (c : GzCell) : GzCell :=
  if gzRun g n then
    let e := g.plan.entry n
    let hit := decide (gzVolt cap r n ≤ 100 * (e.2.1 : Int))
    { c with
      done := hit
      exp := decide (e.2.2 * 60000 ≤ c.ran) && !hit }
  else c

/-- Charge that a Gazebo cell has counted, in mA s. -/
def gzMas (c : GzCell) : Nat := c.q / 32768

/-- The current of a switch that ends GAZEBO between two cycles: the one last sensed (R214); before the first no rule states one, and it is
free. -/
def gzLastMa (n : Nat) (g : Gazebo) (d : Dev) : Nat × Dev :=
  match (kget GzCell.init g.cells n).ma with
  | some a => (a, d)
  | none => let (w, d) := freeWord d; (w.toNat % 512, d)

/-- What every cell has counted when GAZEBO ends between two cycles (R214, R217). -/
def gzTail (g : Gazebo) (d : Dev) : Gazebo × Dev :=
  each (fun n (x : Gazebo × Dev) =>
    let (a, d) := gzLastMa n x.1 x.2
    ({ x.1 with cells := kset GzCell.init x.1.cells n (gzCharged g (d.pw.entryMs - g.ms) a n) }, d)) (cellsUsed d) (g, d)

/-- The charge that each cell of a GAZEBO has counted, mA s. -/
def gzCharges (g : Gazebo) : List (Nat × Nat) := each (fun n m => kset 0 m n (gzMas (kget GzCell.init g.cells n))) (upFrom 1 32) []

/-- A reset takes the device out of GAZEBO: the start that follows counts on from the charge of that GAZEBO (R211). No end of R217 is recorded. -/
def gzReset (d : Dev) : Dev :=
  match d.ba.gz with
  | none => d
  | some g =>
    let (g, d) := gzTail g d
    { d with ba := { d.ba with gz := none, gzQ := gzCharges g, gzStart := true } }

/-- GAZEBO ends with a reason and, for reason 0x2, a cell (R217); a wake, reason 0x5, ends it between cycles. -/
def gzEnd (reason cell : Nat) (d : Dev) : Dev :=
  match d.ba.gz with
  | none => d
  | some g =>
    let (g, d) := if reason = 5 then gzTail g d else (g, d)
    { d with ba := { d.ba with
        gz := none
        gzRes := packW [(reason, 0), (cell, 8), ((d.pw.entryMs / 60000) % 65536, 16)]
        gzDone := cellMap (fun n => (kget GzCell.init g.cells n).done)
        gzExp := cellMap (fun n => (kget GzCell.init g.cells n).exp)
        gzQ := gzCharges g
        gzStart := true } }

/-- P_REQ x 256 of a Gazebo plan, nW. -/
def gzReqN (g : Gazebo) (k : Nat) : Nat :=
  sumNat ((upFrom 1 k).map (fun n =>
    if gzRun g n then dissOf (kget GzCell.init g.cells n).ma (kget GzCell.init g.cells n).mohm * (g.plan.entry n).1 else 0))

/-- Dissipation of the Gazebo switches since the last cycle, nW. -/
def gzDiss (g : Gazebo) (k : Nat) : Nat :=
  if g.first || bit g.ctrl 0 then 0
  else sumNat ((upFrom 1 k).map (fun n =>
    if gzRun g n then
      dissOf (kget GzCell.init g.cells n).ma (kget GzCell.init g.cells n).mohm * ((g.plan.entry n).1 * g.k / 256) / 256
    else 0))

/-- Lowest-numbered configured cell below GZ_FLOOR, 0 when none is. -/
def gzLow (cap : List (Nat × Word)) (g : Gazebo) (r : GazeboReading) (k : Nat) : Nat :=
  if g.plan.floor = 0 then 0
  else ((upFrom 1 k).find? (fun n => decide (gzVolt cap r n < 100 * (g.plan.floor : Int)))).getD 0

/-- One cycle of GAZEBO at `ms` ms after entry (R214 to R217), with BAL_REXT at `rx`: the plan, and the reason and cell of its end, 0 for none. -/
def gzCycle (cap : List (Nat × Word)) (k pcap rx ms : Nat) (r : GazeboReading) (g : Gazebo) : Gazebo × Nat × Nat :=
  let dt := ms - g.ms
  let g := { g with ms := ms }
  let g := { g with cells := each (fun n m => kset GzCell.init m n (gzCount cap rx g dt r n)) (upFrom 1 k) g.cells }
  let diss := gzDiss g k
  let tAmb := if bit g.therm 3 && !r.ambBad then r.amb else ambientEst g.therm r.tdie diss
  let g' := { g with cells := each (fun n m => kset GzCell.init m n (gzJudge cap g r n (kget GzCell.init g.cells n))) (upFrom 1 k) g.cells }
  let fb := forbidden g.therm g.forbid tAmb r.tdie
  let kk := if bit g.ctrl 0 then (if fb then 0 else 256) else kOf fb (gzReqN g' k) (pMaxOf pcap tAmb)
  let g' := { g' with k := kk, forbid := fb, first := false }
  let low := gzLow cap g r k
  if low ≠ 0 then (g', 2, low)
  else if fb then (g', 4, 0)
  else if g'.plan.tlimit * 3600000 ≤ g'.ms then (g', 3, 0)
  else if (upFrom 1 32).all (fun n => !gzRun g' n) then (g', 1, 0)
  else (g', 0, 0)

end Sys2Proof.Machine
end

