-- ==== Sys2Proof/Machine/Check.lean ====
section
/-! DEFINITION. The general-purpose check-value units (R358 to R361) and the leak of event buckets (R355). -/

namespace Sys2Proof.Machine

/-- Unit n. -/
def chkUnit (d : Dev) (n : Nat) : ChkUnit := if n = 0 then d.ck.u0 else d.ck.u1

/-- Replace unit n. -/
def setChk (n : Nat) (u : ChkUnit) (d : Dev) : Dev :=
  if n = 0 then { d with ck := { d.ck with u0 := u } } else { d with ck := { d.ck with u1 := u } }

/-- Register of a unit. -/
def chkOff (base n : Nat) : Nat := base + 0x40 * n

/-- CHKn_RESULT (R358). -/
def ChkUnit.result (u : ChkUnit) : Nat := crcResult u.width u.state u.refout u.xorout

/-- CHKn_ALV_EXP. -/
def ChkUnit.alvExp (u : ChkUnit) : Word := packW [(u.exp % 65536, 0), (u.last % 65536, 16)]

/-- A command of a unit: there are two, and the C-die must be running. -/
def onChk (n : Nat) (f : Dev → Dev) (d : Dev) : Dev := if d.running && decide (n < 2) then f d else d

/-- Bytes fed to a unit, counted in STAT [31:16] (R358, R359). -/
def chkFeed (n bytes : Nat) (v : Word) (d : Dev) : Dev :=
  let u := chkUnit d n
  let st := reg d (chkOff R.chkStat n)
  setReg (chkOff R.chkStat n) (setFld st 31 16 (fld st 31 16 + bytes))
    (setChk n { u with state := crcFeed u.width u.poly u.refin u.state (leBytes bytes v.toNat) } d)

/-- CHK_DATA: a write to DATA8, DATA16 or DATA32 (R359). -/
def execChkData (n bytes : Nat) (v : Word) (s : State) : Host.Outcome State Fault Refusal :=
  act (onChk n (fun d => if bytes = 1 ∨ bytes = 2 ∨ bytes = 4 then chkFeed n bytes v d else d)) s

/-- RESTART latches the parameters, loads the state and resynchronises the alive check (R358). -/
def chkRestart (n : Nat) (d : Dev) : Dev :=
  let c := reg d (chkOff R.chkCfg n)
  let w := fld c 5 0
  let u := chkUnit d n
  setReg (chkOff R.chkStat n) (setFld (setFld (setFld (reg d (chkOff R.chkStat n)) 31 16 0) 6 6 0) 2 0 0)
    (setChk n { u with
      width := w
      poly := (reg d (chkOff R.chkPoly n)).toNat
      ini := (reg d (chkOff R.chkInit n)).toNat
      xorout := (reg d (chkOff R.chkXorout n)).toNat
      refin := bit c 8
      refout := bit c 9
      state := (reg d (chkOff R.chkInit n)).toNat % 2 ^ w
      synced := false } d)

/-- CHK_RESTART (R358). -/
def execChkRestart (n : Nat) (s : State) : Host.Outcome State Fault Refusal := act (onChk n (chkRestart n)) s

/-- COMPARE (R360). -/
def chkCompare (n : Nat) (d : Dev) : Dev :=
  let r := BitVec.ofNat 32 (chkUnit d n).result
  let e := reg d (chkOff R.chkExpect n)
  let d := setReg (chkOff R.chkStat n) (setFld (reg d (chkOff R.chkStat n)) 2 0 (if r = e then 5 else 6)) d
  if r ≠ e ∧ regBit d (chkOff R.chkCfg n) 16 then post 0x1801 n (wordBytes r ++ wordBytes e) d else d

/-- CHK_COMPARE (R360). -/
def execChkCompare (t : Time) (n : Nat) (s : State) : Host.Outcome State Fault Refusal :=
  actAt t (onChk n (chkCompare n)) s

/-- CHK_ALV_SYNC (R361, CHKn_CTRL). -/
def execChkAlvSync (n : Nat) (s : State) : Host.Outcome State Fault Refusal :=
  act (onChk n (fun d => setRegBit (chkOff R.chkStat n) 6 false (setChk n { chkUnit d n with synced := false } d))) s

/-- An alive error counts and, with ALV_EVT, posts (R361). -/
def alvError (n kind v exp : Nat) (d : Dev) : Dev :=
  let d := if kind = 1 then bump (chkOff R.chkAcnt n) 15 0 1 d else bump (chkOff R.chkAcnt n) 31 16 1 d
  if regBit d (chkOff R.chkCfg n) 17 then post 0x1802 n (BitVec.ofNat 8 kind :: (leBytes 2 v ++ leBytes 2 exp)) d else d

/-- A received alive counter v is checked (R361). ALV_OK, ALV_REPEAT and ALV_JUMP follow the latest check. -/
def alvCheck (n : Nat) (w : Word) (d : Dev) : Dev :=
  let v := fld w 15 0
  let u := chkUnit d n
  let a := reg d (chkOff R.chkAlvCfg n)
  let next := (v + fld a 7 0) % 2 ^ fld a 12 8 % 65536
  let stat (bits : Nat) (d : Dev) : Dev :=
    setReg (chkOff R.chkStat n) (setFld (reg d (chkOff R.chkStat n)) 6 3 (bits + 8)) d
  if !u.synced then stat 0 (setChk n { u with exp := next, synced := true, last := v } d)
  else if v = u.exp then stat 1 (setChk n { u with exp := next, last := v } d)
  else if v = u.last then alvError n 1 v u.exp (stat 2 d)
  else alvError n 2 v u.exp (stat 4 (setChk n { u with exp := next, last := v } d))

/-- CHK_ALV (R361). -/
def execChkAlv (t : Time) (n : Nat) (v : Word) (s : State) : Host.Outcome State Fault Refusal :=
  actAt t (onChk n (alvCheck n v)) s

/-! ### Bucket leaks (R355) -/

/-- A leak that ends a lasting instance ends what it kept present (R112, R311). -/
def bucketLeak (src inst : Nat) (d : Dev) : Dev :=
  if decide (src < 43) && decide (inst < bucketCount src) then
    let was := lasting d src inst
    let d := leak src inst d
    if was && !lasting d src inst then (match bucketFault src inst with
      | some c => gone c.1 c.2 d
      | none => d) else d
  else d

/-- BUCKET_LEAK (R355). Levels leak in STANDBY and ACTIVE and while closing. -/
def execBucketLeak (t : Time) (src inst : Nat) (s : State) : Host.Outcome State Fault Refusal :=
  actAt t (bucketLeak src inst) s

end Sys2Proof.Machine
end

