-- ==== Sys2Proof/Machine/LineCode.lean ====
section
/-! DEFINITION. The line code of a link port: 8b/10b with running disparity (R220) and the control characters of Table LINK-2 (R222).
The spec names IEEE 802.3 Clause 36 and gives none of its tables: the tables here are PRESUMED from it (log 85). A code group is a
number of 10 bits whose most significant bit is bit a, the first on the line. -/

namespace Sys2Proof.Machine

/-- Control characters of Table LINK-2 that the link uses. -/
inductive Ctl where
  | sync | sof | eof | abort | ack | nak | turn | train | tmark | fault
deriving DecidableEq, Repr

/-- A character as received: a data byte, a control character, or a code violation, which is any other code group (R222). -/
inductive Sym where
  | data (b : Byte)
  | ctl (c : Ctl)
  | bad
deriving DecidableEq, Repr

/-- Sub-block abcdei of each 5-bit value at negative running disparity. -/
def sixes : List Nat :=
  [0b100111, 0b011101, 0b101101, 0b110001, 0b110101, 0b101001, 0b011001, 0b111000, 0b111001, 0b100101, 0b010101, 0b110100,
    0b001101, 0b101100, 0b011100, 0b010111] ++
  [0b011011, 0b100011, 0b010011, 0b110010, 0b001011, 0b101010, 0b011010, 0b111010, 0b110011, 0b100110, 0b010110, 0b110110,
    0b001110, 0b101110, 0b011110, 0b101011]

/-- Sub-block fghj of each 3-bit value at negative running disparity; 7 in its primary form. -/
def fours : List Nat := [0b1011, 0b1001, 0b0101, 0b1100, 0b1101, 0b1010, 0b0110, 0b1110]

/-- Code group of a control character at negative running disparity: K28.5, K27.7, K29.7, K30.7, K28.1, K28.2, K28.6, K28.0, K28.3
and K28.7 (Table LINK-2). -/
def ctlGroup : Ctl → Nat
  | .sync => 0b0011111010
  | .sof => 0b1101101000
  | .eof => 0b1011101000
  | .abort => 0b0111101000
  | .ack => 0b0011111001
  | .nak => 0b0011110101
  | .turn => 0b0011110110
  | .train => 0b0011110100
  | .tmark => 0b0011110011
  | .fault => 0b0011111000

/-- All of them. -/
def ctls : List Ctl := [.sync, .sof, .eof, .abort, .ack, .nak, .turn, .train, .tmark, .fault]

/-- Ones among the low n bits. -/
def onesOf (n v : Nat) : Nat := (List.range n).foldl (fun s i => s + v / 2 ^ i % 2) 0

/-- Disparity after a block of n bits: true positive. A balanced block leaves it. -/
def rdAfter (n v : Nat) (rd : Bool) : Bool := if 2 * onesOf n v = n then rd else decide (n < 2 * onesOf n v)

/-- The abcdei sub-block of x: at positive disparity the complement where it is unbalanced, and for D.7. -/
def sixOf (rd : Bool) (x : Nat) : Nat :=
  let v := sixes.getD x 0
  if rd && (decide (onesOf 6 v ≠ 3) || decide (x = 7)) then 63 - v else v

/-- The fghj sub-block of y after the sub-block of x, at the disparity that one leaves. D.x.7 takes its alternate form where the
primary one would make a run of five (17, 18, 20 at negative disparity, 11, 13, 14 at positive). -/
def fourOf (rd : Bool) (x y : Nat) : Nat :=
  if y = 7 ∧ (if rd then x = 11 ∨ x = 13 ∨ x = 14 else x = 17 ∨ x = 18 ∨ x = 20) then (if rd then 0b1000 else 0b0111)
  else
    let v := fours.getD y 0
    if rd && (decide (onesOf 4 v ≠ 2) || decide (y = 3)) then 15 - v else v

/-- The code group of a data byte HGFEDCBA as D.x.y: x its low five bits, y its high three. -/
def dataGroup (rd : Bool) (b : Byte) : Nat :=
  let x := b.toNat % 32
  let six := sixOf rd x
  16 * six + fourOf (rdAfter 6 six rd) x (b.toNat / 32)

/-- The code group of a character at a disparity; a violation has none (0, which is no code group). -/
def symGroup (rd : Bool) : Sym → Nat
  | .data b => dataGroup rd b
  | .ctl c => if rd then 1023 - ctlGroup c else ctlGroup c
  | .bad => 0

/-- Encode characters from a disparity: the groups and the disparity after them. -/
def encodeSyms : Bool → List Sym → List Nat × Bool
  | rd, [] => ([], rd)
  | rd, c :: r =>
    let g := symGroup rd c
    let t := encodeSyms (rdAfter 10 g rd) r
    (g :: t.1, t.2)

/-- First index of a value in a list. -/
def indexOf? (v : Nat) (l : List Nat) : Option Nat :=
  match l.findIdx (fun e => e == v) with
  | i => if i < l.length then some i else none

/-- The character of a code group at a disparity. -/
def groupSym (rd : Bool) (g : Nat) : Sym :=
  let k := if rd then 1023 - g else g
  match ctls.find? (fun c => ctlGroup c == k) with
  | some c => .ctl c
  | none =>
    match indexOf? (g / 16) ((List.range 32).map (sixOf rd)) with
    | none => .bad
    | some x =>
      match indexOf? (g % 16) ((List.range 8).map (fourOf (rdAfter 6 (g / 16) rd) x)) with
      | none => .bad
      | some y => .data (BitVec.ofNat 8 (x + 32 * y))

/-- Decode groups from a disparity. A SYNC is taken at either disparity, which it sets (DESIGN CHOICE, log 85: the line is undriven
between bursts). A violation is followed by the disparity its ones show. -/
def decodeGroups : Bool → List Nat → List Sym × Bool
  | rd, [] => ([], rd)
  | rd, g :: r =>
    let rd := if g = ctlGroup .sync then false else if g = 1023 - ctlGroup .sync then true else rd
    let t := decodeGroups (rdAfter 10 g rd) r
    (groupSym rd g :: t.1, t.2)

end Sys2Proof.Machine
end

