-- ==== Sys2Proof/Machine/Tracker.lean ====
section
/-! DEFINITION. The engines' samples in shared SRAM and what is drawn from each: the counts of a job and the trackers (R160 to R163, R166, R182
to R185). The samples themselves come with the engine commands; current, absence, charge, corrections and rates are computed here. -/

namespace Sys2Proof.Machine

/-! ### Engines, cells, models -/

/-- Model slot of cell n. -/
def modelSlot (d : Dev) (n : Nat) : Nat := regFld d (R.engModelMap + 4 * ((n - 1) / 16)) (2 * ((n - 1) % 16) + 1) (2 * ((n - 1) % 16))

/-- The table of a slot; empty when none is loaded. -/
def model (d : Dev) (slot : Nat) : List Byte := kget [] d.en.models slot

/-- Is a slot valid? -/
def modelValid (d : Dev) (slot : Nat) : Bool := !(model d slot).isEmpty

/-- Is cell n tracked (R182)? -/
def tracked (d : Dev) (n : Nat) : Bool :=
  regBit d R.engCtrl 0 && decide (1 ≤ n) && decide (n ≤ ncells d) && modelValid d (modelSlot d n) &&
  !engineFailed d (engineOf d n)

/-- A float32 of a model table. -/
def modelF (t : List Byte) (off : Nat) : Rat := f32Rat (BitVec.ofNat 32 (tab32 t off))

/-- n float32 words of a model table. -/
def modelFs (t : List Byte) (off n : Nat) : List Rat := (upFrom 0 n).map (fun i => modelF t (off + 4 * i))

/-- Offset of the tables behind the grids (Table ENG-12). -/
def gridEnd (t : List Byte) : Nat := 0x40 + 4 * tab8 t 6 + 4 * tab8 t 7

/-- A temperature held to the range of a model's grid (DEDUCED: no rule extends a table). -/
def heldTemp (t : List Byte) (temp : Rat) : Rat :=
  let g := modelFs t (0x40 + 4 * tab8 t 6) (tab8 t 7)
  max (g.headD 0) (min (g.getLastD 0) temp)

/-- Table k of a model (0 charge branch, 1 discharge branch, 2 R0) over SoC at a temperature, row per temperature (R192). -/
def modelRow (t : List Byte) (k : Nat) (temp : Rat) : List (Rat × Rat) :=
  let S := tab8 t 6
  let K := tab8 t 7
  let temps := modelFs t (0x40 + 4 * S) K
  (upFrom 0 S).map (fun i =>
    let col := (upFrom 0 K).map (fun r => modelF t (gridEnd t + 4 * (k * K * S + r * S + i)))
    (modelF t (0x40 + 4 * i), (interp (heldTemp t temp) (temps.zip col)).getD (col.headD 0)))

/-- R0 of a model at a temperature and a SoC, which is held to the grid (R184). -/
def modelR0 (t : List Byte) (temp soc : Rat) : Rat :=
  let row := modelRow t 2 temp
  let lo := (row.headD (0, 0)).1
  let hi := (row.getLastD (0, 0)).1
  (interp (max lo (min hi soc)) row).getD 0

/-- The phase table of a model: temperature and phase at F_CHAR in degrees (R192). -/
def phaseTable (t : List Byte) : List (Rat × Rat) :=
  let o := gridEnd t + 12 * tab8 t 6 * tab8 t 7
  (upFrom 0 (tab8 t 8)).map (fun i => (modelF t (o + 8 * i), modelF t (o + 8 * i + 4)))

/-- Mean NTC temperature of the device in degrees (R183). Without a channel in mode 3 that reads one, no rule states it: it is free. -/
def meanNtc (d : Dev) : Rat × Dev :=
  match meanRat ((ntcTemps d).map (fun e => (e.2 : Rat) / 64)) with
  | some x => (x, d)
  | none => let (w, d) := freeWord d; ((signed 16 w.toNat : Rat) / 64, d)

/-! ### Samples (R160 to R163) -/

/-- Seconds of a number of ring-time LSBs. -/
def lsbSecs (n : Nat) : Rat := (n : Rat) / 200000000

/-- Output period of the engine grid in s (R160). -/
def engPeriod (d : Dev) : Rat := (curP2 (engIdx d) : Rat) / 400000000

/-- An injection of R86 on tap Cn or C(n-1) lies within 300 us of an instant (R162): it lasts 200 us. -/
def nearInjection (d : Dev) (n T : Nat) : Bool :=
  [n - 1, n].any (fun tap =>
    let a := kget (0 : Time) d.me.owAt tap
    decide (1 ≤ tap) && decide (a ≠ 0) && decide (a.toNat - 1 ≤ T + usT 300) && decide (T ≤ a.toNat - 1 + usT 500))

/-- An engine sample of a cell (R160, R162, R177): lane A corrected by both layers of R101 and, sample by sample, by R83. It is absent where the lane A
window carries STALE, OVR, OW or SUPPLY, or an open-wire injection is near. -/
def gridSample (d : Dev) (e : EngSample) : GridSample :=
  let n := e.x.cell
  let W := windowLen (engIdx d) 0
  let c := correction d e.inst e.x
  let v := quot (1000 * (laneSum d (laneIdx .a n) e.inst e.x.parts * corrDen + c.1 * scale31 * 65536)) (scale31 * 65536 * corrDen)
  let dip := inDip d W e.inst
  ⟨n, e.inst, v, e.sw,
    isStale d (laneIdx .a n) n W e.inst || laneUnstable e.x.input || decide (v < -2000000000 ∨ 5500000000 < v) || owCell d n || dip ||
      nearInjection d n e.inst.toNat,
    dip, c.2⟩

/-- The pack current of an instant as the ring holds it. -/
def packAt (d : Dev) (T : Time) : Option PackSample := d.en.packs.find? (fun p => p.inst == T)

/-- A pack sample may be used: its word carries neither STALE nor SUPPLY nor OVR (R162). -/
def PackSample.good (p : PackSample) : Bool := !bit p.word 7 && !bit p.word 6 && !bit p.word 1

/-- i_pack in A: the shunt voltage over the resistance that its frame carries (R161). -/
def PackSample.amps (p : PackSample) : Rat := (20 * signed 24 (fld p.word 31 8) : Rat) / (p.shunt.toNat : Rat)

/-- s of R161. -/
def packSign (d : Dev) : Rat := if regBit d R.engCtrl 2 then -1 else 1

/-- i_cell in A from the pack current and a switch current in uA (R161). -/
def cellAmps (d : Dev) (pack : Rat) (sw : Nat) : Rat := packSign d * pack - (sw : Rat) / 1000000

/-- Is no pack current taken (R160)? -/
def noPack (d : Dev) : Bool := decide (curSrc d = 0x3F)

/-- The usable pack current of an instant, in A. -/
def packAmps (d : Dev) (T : Time) : Option Rat :=
  match packAt d T with
  | some p => if p.good then some p.amps else none
  | none => none

/-- The pack current of an instant that counts, in A: where none is taken, i_cell is that of the switch alone (R160, R161). -/
def usedAmps (d : Dev) (T : Time) : Option Rat := if noPack d then some 0 else packAmps d T

/-- A grid sample of a cell is absent, with the current of the same instant (R162). Where no pack current is taken, none can be missing. -/
def isAbsent (d : Dev) (g : GridSample) : Bool := g.absent || (!noPack d && (packAmps d g.inst).isNone)

/-! ### What a job gathers (R162, R165, R180) -/

/-- Key of a point and a cell. -/
def pointKey (i n : Nat) : Nat := 32 * i + (n - 1)

/-- Does a sample of cell n at T count for point i (R172, R173)? In passive and combined jobs every one; in an active job those of the excitation of
the cell at that point. -/
def countsFor (j : ImpJob) (i n T : Nat) : Bool :=
  decide (impExc j.d ≠ 1) ||
  j.runs.any (fun r => decide (r.1 = i) && decide (r.2.1.cell = n) && decide (r.2.1.start.toNat ≤ T) && decide (T < r.2.1.stop.toNat))

/-- The points of a job for which a sample of cell n at T counts. -/
def pointsOf (j : ImpJob) (n T : Nat) : List Nat :=
  if j.begun && decide (n ∈ maskCells j.mask) && decide (j.startAt.toNat ≤ T) then
    (upFrom 0 j.points.length).filter (fun i => countsFor j i n T)
  else []

/-- One more sample. -/
def Gathered.add (g : Gathered) (absent supply unc : Bool) : Gathered :=
  ⟨g.total + 1, g.absent + b2n absent, g.supply || supply, g.unc || unc⟩

/-- More than 10 % of the samples were absent: LOSS (R165, Table ENG-7). -/
def Gathered.loss (g : Gathered) : Bool := decide (g.total < 10 * g.absent)

/-- The running IMPEDANCE job takes a sample. -/
def gather (g : GridSample) (d : Dev) : Dev :=
  match d.en.imp with
  | none => d
  | some j =>
    let absent := isAbsent d g
    let got := each (fun i l =>
      let k := pointKey i g.cell
      kset Gathered.init l k ((kget Gathered.init l k).add absent g.supply g.unc)) (pointsOf j g.cell g.inst.toNat) j.got
    let pack := |(packAmps d g.inst).getD 0|
    let big := if (pointsOf j g.cell g.inst.toNat).isEmpty then j.packMax else max j.packMax pack
    withEng (fun e => { e with imp := some { j with got := got, packMax := big } }) d

/-! ### Trackers (R182 to R185) -/

/-- The tracker state of a cell. -/
def trackOf (d : Dev) (n : Nat) : Track := (kget none d.en.track n).getD Track.init

/-- Replace it. -/
def setTrack (n : Nat) (x : Track) (d : Dev) : Dev := withEng (fun e => { e with track := kset none e.track n (some x) }) d

/-- The model bound to a cell. -/
def cellModel (d : Dev) (n : Nat) : List Byte := model d (modelSlot d n)

/-- Q_NOM in Ah. -/
def qNom (d : Dev) (n : Nat) : Rat := modelF (cellModel d n) 0x20

/-- The fitted capacity in Ah: the mean over the pairs, or what a restored record brought (R184). -/
def Track.cap (x : Track) : Option Rat :=
  match meanRat x.caps with
  | some c => some c
  | none => x.capOld

/-- Charge dq (A s) moves SoC by dq over the model's capacity (R183). -/
def Track.count (x : Track) (dq qnom : Rat) : Track :=
  { x with q := x.q + dq, soc := x.soc.map (fun s => s + 100 * dq / (3600 * qnom)) }

/-- A current sample i (A) at T reaches the counting: after gaps of up to 5 ms the absent samples are bridged linearly; a longer gap adds its length
times the larger adjacent |i| to the uncertainty and sets SOC_GAP (R183). P is the period in s. -/
def Track.current (x : Track) (T : Time) (i P qnom : Rat) : Track :=
  let y := match x.last with
    | none => x.count (i * P) qnom
    | some (t0, i0) =>
      let dt := lsbSecs (since t0 T)
      let gap := max 0 (dt - P)
      if gap ≤ 1 / 200 then x.count (gap * (i0 + i) / 2 + i * P) qnom
      else
        let x := x.count (i * P) qnom
        { x with sd := x.sd + 100 * (gap * max (|i0|) (|i|)) / (3600 * qnom), gap := true }
  { y with last := some (T, i) }

/-- |i_cell| is below I_REST, or the rest ends and the current gives the last direction (R183). -/
def Track.rest (x : Track) (T : Time) (i iRest : Rat) : Track :=
  if |i| < iRest then { x with restFrom := some (x.restFrom.getD T) }
  else { x with restFrom := none, rest0 := none, charging := decide (0 < i) }

/-- A load step: i_cell changed by 5 A or more within 10 ms, so dV/dI is the DC resistance, normalised through the model's R0 table to 25 degrees and
50 % SoC: scaled by the ratio of the table's values (R184, DEDUCED). Without a SoC the table gives no value. -/
def Track.step (x : Track) (dv di : Rat) (t : List Byte) (temp : Rat) : Track :=
  match x.soc with
  | some s =>
    let r := modelR0 t temp s
    if 5 ≤ |di| ∧ r ≠ 0 then { x with res := some (dv / di * modelR0 t 25 50 / r) } else x
  | none => x

/-- A usable sample of a tracked cell (R182 to R184). -/
def trackSample (g : GridSample) (d : Dev) : Dev :=
  if !tracked d g.cell then d
  else
    let n := g.cell
    let x := trackOf d n
    let x := { x with acc := if isAbsent d g then x.acc else (x.acc.1 + g.v, x.acc.2 + 1) }
    match (if isAbsent d g then none else usedAmps d g.inst) with
    | none => setTrack n x d
    | some p =>
      let t := cellModel d n
      let i := cellAmps d p g.sw
      let x := (x.current g.inst i (engPeriod d) (qNom d n)).rest g.inst i (modelF t 0x2C)
      let before := d.en.volts.find? (fun o => o.cell == n && decide (o.inst.toNat + msT 10 = g.inst.toNat) && !isAbsent d o)
      match before with
      | none => setTrack n x d
      | some o =>
        let i0 := cellAmps d ((usedAmps d o.inst).getD 0) o.sw
        if 5 ≤ |i - i0| then
          let (temp, d) := meanNtc d
          setTrack n (x.step (((g.v - o.v : Int) : Rat) / 1000000000) (i - i0) t temp) d
        else setTrack n x d

/-! ### The engines work through the ring (R160 to R165) -/

/-- Does an engine work on the samples of cell n? Not while it is unserved (R166), is being replayed (R165), or the load is shed (R168). -/
def engineLive (d : Dev) (n : Nat) : Bool := !engineFailed d (engineOf d n) && decide (n ∉ d.en.rebal) && !d.pw.persist

/-- One sample is taken by the engine of its cell. -/
def engineTake (g : GridSample) (d : Dev) : Dev := if engineLive d g.cell then trackSample g (gather g d) else d

/-- How far the engines can work: up to the end of the pack current at hand, and in any case up to 256 ms ago (R163). -/
def engineHorizon (d : Dev) : Nat :=
  if noPack d then d.now.toNat
  else
    match d.en.packs.getLast? with
    | some p => max p.inst.toNat (d.now.toNat - ringLen)
    | none => d.now.toNat - ringLen

/-- Samples reach the ring, which holds the last 256 ms of every configured cell; the engines take those for which the pack current is known. -/
def engineRun (l : List EngSample) (d : Dev) : Dev :=
  let ok (e : EngSample) : Bool := decide (1 ≤ e.x.cell) && decide (e.x.cell ≤ ncells d) && decide (e.inst.toNat ≤ d.now.toNat) &&
    onGrid (curP2 (engIdx d)) e.inst && decide (d.en.upTo.toNat < e.inst.toNat)
  let all := d.en.volts ++ (l.filter ok).map (gridSample d)
  let d := withEng (fun e => { e with volts := all }) d
  let h := engineHorizon d
  let d := each engineTake (all.filter (fun g => decide (d.en.upTo.toNat < g.inst.toNat) && decide (g.inst.toNat ≤ h))) d
  withEng (fun e => { e with
    upTo := BitVec.ofNat 64 (max e.upTo.toNat h)
    volts := e.volts.filter (fun g => decide (d.now.toNat ≤ g.inst.toNat + ringLen)) }) d

/-! ### Once a second (R183 to R185) -/

/-- A free number that is not negative. -/
def freeDev (d : Dev) : Rat × Dev := ((Config.freeRat d.free : Rat), { d with free := d.free + 1 })

/-- The mean of lane A over 10 s in V, once there are 10 s (R183). -/
def Track.restVolts (x : Track) : Option Rat :=
  let n := sumNat (x.secs.map Prod.snd)
  if x.secs.length = 10 ∧ n ≠ 0 then some ((sumInt (x.secs.map Prod.fst) : Rat) / (n : Rat) / 1000000000) else none

/-- SoC from the open-circuit voltage on the branch of the last current direction, where its slope is at least MIN_SLOPE (R183). -/
def ocvSoc (t : List Byte) (charging : Bool) (temp v : Rat) : Option Rat :=
  match invert v (modelRow t (if charging then 0 else 1) temp) with
  | some (s, slope) => if modelF t 0x34 ≤ slope then some s else none
  | none => none

/-- The latest correction since the last pair that lies at least 40 % SoC from `s` (R184). -/
def Track.mate (x : Track) (s : Rat) : Option (Time × (Rat × Rat)) := (x.rests.filter (fun e => decide (40 ≤ |s - e.2.1|))).getLast?

/-- A rest correction to `s` in the rest that began at `f` (R183, R184). Two corrections at least 40 % SoC apart make a capacity pair: of those since the
last pair, each rest's last one counts, and the latest that lies far enough is taken (DEDUCED, log 113). -/
def Track.correct (x : Track) (f : Time) (s sd : Rat) (life : Nat) : Track :=
  let y := match x.mate s with
    | some e => { x with caps := lastN 8 (x.caps ++ [|x.q - e.2.2| / 3600 * 100 / |s - e.2.1|]), capAt := life, rests := [] }
    | none => x
  { y with soc := some s, sd := sd, corrected := true, gap := false,
           rests := y.rests.filter (fun e => decide (e.1 ≠ f)) ++ [(f, (s, y.q))] }

/-- The drift of SoC over a rest of at least 12 h with no balancing, as a current in mA (R185). -/
def Track.drifted (x : Track) (s : Rat) (life qbal : Nat) (cap : Rat) : Track :=
  match x.rest0 with
  | some (s0, (t0, q0)) =>
    if q0 ≠ qbal then { x with rest0 := some (s, (life, qbal)) }
    else if 43200 ≤ life - t0 then { x with drift := some ((s0 - s) / 100 * cap * 1000 * 3600 / ((life - t0 : Nat) : Rat)) }
    else x
  | none => { x with rest0 := some (s, (life, qbal)) }

/-- MEM_LIFE, in s (R370). -/
def lifeSecs (d : Dev) : Nat := d.mm.life

/-- Charge that a cell has lost to its switch, as BAL_QBAL counts it, mA s (R211). -/
def qBal (d : Dev) (n : Nat) : Nat := (reg d (R.balQbal + 4 * (n - 1))).toNat

/-- The rest correction of a cell, if its rest, its voltage and its model allow one (R183, R184, R185). The deviation that remains is not stated: it is
free. -/
def restCorrect (n : Nat) (d : Dev) : Dev :=
  let x := trackOf d n
  let t := cellModel d n
  match x.restFrom, x.restVolts with
  | some f, some v =>
    if tab32 t 0x30 * lsbPerSec ≤ since f d.now then
      let (temp, d) := meanNtc d
      match ocvSoc t x.charging temp v with
      | some s =>
        let (sd, d) := freeDev d
        let y := x.correct f s sd (lifeSecs d)
        setTrack n (y.drifted s (lifeSecs d) (qBal d n) (y.cap.getD (qNom d n))) d
      | none => d
    else d
  | _, _ => d

/-- The daily balancing charge of cell c in a closed summary, mA s (Table MEM-8). -/
def dayCharge (blk : List Byte) (c : Nat) : Rat := (tab32 blk (0x80 + 24 * (c - 1) + 6) : Rat)

/-- e(c) of one day in mA: the median of the others' balancing charge less that of c, over 24 h (R185). -/
def dayExcess (k : Nat) (blk : List Byte) (c : Nat) : Rat :=
  (median (((upFrom 1 k).filter (fun n => decide (n ≠ c))).map (dayCharge blk)) - dayCharge blk c) / 86400

/-- The closed summaries of the window, oldest first (R185). -/
def anomDays (d : Dev) : List (List Byte) := (lastN (regFld d R.engAnomCfg 7 0) d.mm.sums).map Prod.snd

/-- Its balancing demand in mA: the mean of the daily balancing charge over the window of R185 (DEDUCED). -/
def dayDemand (d : Dev) (n : Nat) : Option Rat := meanRat ((anomDays d).map (fun b => dayCharge b n / 86400))

/-- The number of the latest closed summary. -/
def lastDay (d : Dev) : Nat := (d.mm.sums.getLast?.map Prod.fst).getD 0

/-- The anomaly detector for a cell, once for each closed summary (R185): the least-squares mean of e(c) exceeds SD_THRESH and its slope is not negative.
It needs eight configured cells. -/
def detect (n : Nat) (d : Dev) : Dev :=
  let x := trackOf d n
  if ncells d < 8 ∨ lastDay d = x.days then d
  else
    let e := (anomDays d).map (fun b => dayExcess (ncells d) b n)
    let m := (meanRat e).getD 0
    let hit := decide (modelF (cellModel d n) 0x38 < m) && decide (0 ≤ slopeRat e)
    let d := setTrack n { x with anom := some (m, slopeRat e), flagged := hit, days := lastDay d } d
    if hit then
      let d := withAcc n (fun a => { a with flags := a.flags ||| 16 }) d
      occur 25 (n - 1) 0x0E03 (wordBytes (f32OfRat m) ++ wordBytes (f32OfRat (slopeRat e))) d
    else d

/-- The second of a tracked cell ends (R183 to R185): its mean voltage joins the last ten, the uncertainty grows by an amount that no rule states, and in
external FET mode, where no switch current is sensed, the balancing charge counter supplies the charge (R182). -/
def trackSecond (n : Nat) (d : Dev) : Dev :=
  if !tracked d n then d
  else
    let x := trackOf d n
    let (g, d) := freeDev d
    let x := { x with secs := lastN 10 (x.secs ++ [x.acc]), acc := (0, 0), sd := x.sd + g }
    let dq := (qBal d n + 2 ^ 32 - x.qBal.getD (qBal d n)) % 2 ^ 32
    let x := { (if extFet d then x.count (-((dq : Rat) / 1000)) (qNom d n) else x) with qBal := some (qBal d n) }
    detect n (restCorrect n (setTrack n x d))

/-! ### Records of the tracker state (R182, Table MEM-6) -/

/-- Flags [7:0] of an ESTIMATE record that the tracker gives: SOC_COUNTED, SOC_GAP, not fitted, ANOMALY (Table ENG-11). -/
def Track.flags (x : Track) : Nat :=
  b2n (!x.corrected) + 2 * b2n x.gap + 4 * b2n x.cap.isNone + 8 * b2n x.res.isNone + 16 * b2n x.flagged

/-- A value rounded to an LSB of 1/k in n bytes; where it does not fit no rule says what the bytes hold, so they are free. -/
def recField (n k : Nat) (x : Rat) : List Byte :=
  let r := roundRat (x * (k : Rat))
  if 0 ≤ r ∧ r < 256 ^ n then leBytes n r.toNat else (upFrom 0 n).map (fun i => Config.freeByte (r.natAbs + i))

/-- SoC with an LSB of 0.01 %; 0xFFFF unknown. -/
def socField (x : Option Rat) : List Byte :=
  match x with
  | some s => recField 2 100 s
  | none => [0xFF, 0xFF]

/-- The 8 bytes of one cell in a tracker record (Table MEM-6); unknown SoC without a state. -/
def trackBytes (d : Dev) (n : Nat) : List Byte :=
  match kget none d.en.track n with
  | some x => socField x.soc ++ recField 1 10 x.sd ++
      [BitVec.ofNat 8 (x.flags + 64 * b2n (!modelValid d (modelSlot d n)) +
        128 * b2n (decide (regFld d (R.engToff + 4 * (n - 1)) 15 0 = 0x8000)))] ++
      recField 2 100 (x.cap.getD 0) ++ recField 2 1000000 (x.res.getD 0)
  | none => [0xFF, 0xFF] ++ zeros 6

/-- The state of a cell as 8 bytes of a record hold it. Bits 2 and 3 of its flags say whether capacity and resistance were fitted. -/
def restoredTrack (b : List Byte) : Track :=
  let f := BitVec.ofNat 32 (tab8 b 3)
  { Track.init with
    soc := if tab16 b 0 = 0xFFFF then none else some ((tab16 b 0 : Rat) / 100)
    sd := (tab8 b 2 : Rat) / 10
    gap := bit f 1
    capOld := if bit f 2 then none else some ((tab16 b 4 : Rat) / 100)
    res := if bit f 3 then none else some ((tab16 b 6 : Rat) / 1000000)
    flagged := bit f 4 }

end Sys2Proof.Machine
end

