-- ==== Sys2Proof/Machine/Engine.lean ====
section
/-! DEFINITION. The Xiava engines at work: assignment, failures, checkpoints and replays, IMPEDANCE, and the trackers' second (R163 to R182). The
spectra come with IMPEDANCE_END; what the spec computes from them is computed here. -/

namespace Sys2Proof.Machine

/-! ### Checkpoints and replays (R163, R165, R166) -/

/-- What the running job has gathered of a cell, by point. -/
def gotOf (d : Dev) (n : Nat) : List (Nat × Gathered) :=
  match d.en.imp with
  | some j => (upFrom 0 j.points.length).map (fun i => (i, kget Gathered.init j.got (pointKey i n)))
  | none => []

/-- Put back what the job had gathered of a cell by point. -/
def putGot (n : Nat) (l : List (Nat × Gathered)) (d : Dev) : Dev :=
  withEng (fun e => { e with imp := e.imp.map (fun j => { j with got := each (fun p g => kset Gathered.init g (pointKey p.1 n) p.2) l j.got }) }) d

/-- The checkpoint of a cell at the present. -/
def ckptNow (d : Dev) (n : Nat) : Ckpt := ⟨d.now, gotOf d n, kget none d.en.track n⟩

/-- Engine k writes a checkpoint of each of its cells (R163); a cell whose replay runs keeps the one that the replay starts from. -/
def writeCkpt (k : Nat) (d : Dev) : Dev :=
  if decide (k < 16) && !engineFailed d k then
    let d := each (fun n d => if n ∈ d.en.rebal then d else
      withEng (fun e => { e with ckpt := kset Ckpt.init e.ckpt n (ckptNow d n) }) d) (servedBy d k) d
    withEng (fun e => { e with wrote := kset 0 e.wrote k d.now }) d
  else d

/-- Checkpoints at a multiple of 100 ms (R163). -/
def checkpoint (engines : List Nat) (samples : List EngSample) (d : Dev) : Dev :=
  let d := engineRun samples d
  if d.now.toNat % msT 100 = 0 then each writeCkpt engines d else d

/-- ENGINE_CHECKPOINT (R163). -/
def execEngineCheckpoint (t : Time) (engines : List Nat) (samples : List EngSample) (s : State) : Host.Outcome State Fault Refusal :=
  actAwake t (checkpoint engines samples) s

/-- Engine k has written no checkpoint for 300 ms; the time counts from when it began to serve (R166). -/
def ckptLate (d : Dev) (k : Nat) : Bool := decide (msT 300 ≤ since (kget d.ca.laneAt d.en.wrote k) d.now)

/-- An engine fails: its memories, or no checkpoint for 300 ms while it serves a cell (R166). -/
def checkpointMissed (k cause : Nat) (d : Dev) : Dev :=
  if cause = 3 then (if !(servedBy d k).isEmpty && ckptLate d k then engineFail k 3 d else d) else engineFail k cause d

/-- ENGINE_CHECKPOINT_MISSED (R166). -/
def execEngineCheckpointMissed (t : Time) (k cause : Nat) (s : State) : Host.Outcome State Fault Refusal :=
  actAwake t (checkpointMissed k cause) s

/-- The checkpoint that a replay of cell n loads; without one, the state in which the lanes started. -/
def ckptOf (d : Dev) (n : Nat) : Ckpt := kget ⟨d.ca.laneAt, [], none⟩ d.en.ckpt n

/-- Grid instants between a checkpoint and the sample ring, which holds 256 ms (R165). -/
def lostInstants (d : Dev) (n : Nat) : List Nat :=
  let a := (ckptOf d n).inst.toNat
  let b := d.now.toNat - ringLen
  let p := curP2 (engIdx d)
  (upFrom (2 * a / p + 1) (2 * b / p - 2 * a / p)).map (fun m => m * p / 2)

/-- Lost samples of cell n count as absent (R165). -/
def loseSamples (n : Nat) (l : List Nat) (d : Dev) : Dev :=
  each (fun T d => match d.en.imp with
    | some j => putGot n ((pointsOf j n T).map (fun i => (i, (kget Gathered.init j.got (pointKey i n)).add true false false))) d
    | none => d) l d

/-- The new engine of cell n has loaded its checkpoint and replayed the sample ring from its instant on; it goes on live (R165). -/
def replayDone (n : Nat) (samples : List EngSample) (d : Dev) : Dev :=
  if n ∈ d.en.rebal && !engineFailed d (engineOf d n) then
    let d := engineRun samples d
    let c := ckptOf d n
    let lost := lostInstants d n
    let d := putGot n ((gotOf d n).map (fun p => (p.1, kget Gathered.init c.got p.1))) d
    let d := withEng (fun e => { e with
      track := if c.track.isNone then e.track else kset none e.track n c.track
      rebal := e.rebal.filter (fun k => k ≠ n) }) d
    let d := loseSamples n lost d
    let d := each engineTake (d.en.volts.filter (fun g => g.cell == n && decide (c.inst.toNat < g.inst.toNat) &&
      decide (g.inst.toNat ≤ d.en.upTo.toNat))) d
    if lost.isEmpty then d else occur 24 0 0x0E02 (BitVec.ofNat 8 n :: leBytes 4 lost.length) d
  else d

/-- REBALANCE_REPLAY_DONE (R165). -/
def execRebalanceReplayDone (t : Time) (cell : Nat) (samples : List EngSample) (s : State) : Host.Outcome State Fault Refusal :=
  actAwake t (replayDone cell samples) s

/-! ### IMPEDANCE (R167 to R181) -/

/-- While the load is shed no job is dispatched: it waits (R38; DESIGN CHOICE, log 109). -/
def holdJob (h : Nat) (c : Desc) (tab : List Byte) (d : Dev) : Dev := withEng (fun e => { e with held := e.held ++ [⟨h, c, tab⟩] }) d

/-- Engine work brings STANDBY to ACTIVE and holds ACTIVE for 10 ms after it (R50, R182). -/
def toActive (d : Dev) : Dev :=
  { d with pw := { d.pw with st := if d.pw.st = .standby then .active else d.pw.st, workAt := d.now } }

/-- The least multiple of the frame length at or after x (R160). -/
def boundaryAt (d : Dev) (x : Nat) : Nat := (x + frameLen d - 1) / frameLen d * frameLen d

/-- START of an IMPEDANCE descriptor. -/
def impStartArg (c : Desc) : Nat := (dWord c 5).toNat + 2 ^ 32 * (dWord c 6).toNat

/-- Effective CELLMASK: configured cells selected, all of them for 0. -/
def effMask (d : Dev) (w : Word) : Nat :=
  mapBits (fun n => decide (n ≤ ncells d) && (decide (w = 0) || bit w (n - 1))) 1 32

/-- Two frequencies lie within 0.5 % of each other. -/
def tooClose (a b : Word) : Bool :=
  match f32Num a, f32Num b with
  | some x, some y => if 0 < x ∧ 0 < y then decide (1000 * max x y ≤ 1005 * min x y) else decide (x = y)
  | _, _ => true

/-- Some pair of a list is too close. -/
def anyClose : List Word → Bool
  | [] => false
  | a :: r => r.any (tooClose a) || anyClose r

/-- The cell's integration time of a point at frequency w is at least 10 / f (R170, R175). `na` is the number of active
points. -/
def longEnough (c : Desc) (na : Nat) (w : Word) : Bool :=
  let parts := if impExc c = 0 then 1 else 2 * na
  f32Is w (fun v => decide (10 * f32One * parts ≤ v * (dFld c 4 15 0 : Int)))

/-- The points of LIST 0 as R169 and R170 bound them: FMIN, FMAX, their spacing, and the longest period. -/
def logPointsOk (c : Desc) : Bool :=
  let a := dWord c 7
  let b := dWord c 8
  let n := impNpts c
  freqOk a && freqOk b &&
  (match f32Num a, f32Num b with
    | some x, some y => decide (x ≤ y) && (decide (n = 1) ||
        (decide (x < y) && decide (x * 1005 ^ (n - 1) < y * 1000 ^ (n - 1))))
    | _, _ => false) && longEnough c n a

/-- IMPEDANCE's arguments (R169, R170) that the descriptor alone shows. -/
def okImpedance (c : Desc) : Bool :=
  decide (dFld c 2 7 3 = 0) && decide (dFld c 2 31 13 = 0) && decide (impExc c ≠ 3) &&
  decide (1 ≤ impNpts c ∧ impNpts c ≤ 16) && decide (1 ≤ dFld c 4 15 0 ∧ dFld c 4 15 0 ≤ 3600) && decide (dFld c 4 31 16 = 0) &&
  (if impList c then decide ((dWord c 7).toNat % 4 = 0) && decide (dWord c 8 = 0) else logPointsOk c) && zeroFrom c 9

/-- The points of LIST 1 in the host window (R169, R170). -/
def listPointsOk (c : Desc) (l : List Word) : Bool :=
  l.all (fun w => freqOk w || lineOk w) && !anyClose l &&
  (l.filter freqOk).all (longEnough c (l.filter freqOk).length)

/-- IMPEDANCE's arguments that the head checks against its ring time and the host window (R170). -/
def impedanceArg (c : Desc) (d : Dev) (x : Hst) : Bool :=
  decide (impStartArg c ≤ d.now.toNat + 60 * lsbPerSec) &&
  (!impList c ||
    (let off := (dWord c 7).toNat
     decide (off + 4 * impNpts c ≤ winSize) &&
     listPointsOk c ((upFrom 0 (impNpts c)).map (fun i => BitVec.ofNat 32 (leNat (winRead x (off + 4 * i) 4))))))

/-- DENIED_STATE of IMPEDANCE (R181). -/
def impDenied (c : Desc) (mask : Nat) (d : Dev) : Bool :=
  decide (mask = 0) || (decide (curSrc d = 0x3F) && decide (impExc c ≠ 1)) || (decide (impExc c = 1) && extFet d)

/-- The points of a job (R169): spaced from FMIN to FMAX, or the entries of its list. -/
def jobPoints (c : Desc) (list : List Byte) : List Word :=
  (upFrom 0 (impNpts c)).map (fun i =>
    if impList c then BitVec.ofNat 32 (tab32 list (4 * i)) else logPoint (dWord c 7) (dWord c 8) (impNpts c) i)

/-- An IMPEDANCE job is accepted (R167, R169, R181). -/
def impBegin (h : Nat) (c : Desc) (list : List Byte) (d : Dev) : Dev :=
  if d.pw.persist then holdJob h c list d else
  let mask := effMask d (dWord c 3)
  if impDenied c mask d then finish h St.deniedState [] d
  else if d.en.imp.isSome then finish h St.resourceBusy [] d
  else
    let s := impStartArg c
    let at0 := boundaryAt d (if s = 0 then d.now.toNat + msT 2 else max s d.now.toNat)
    let j : ImpJob :=
      { h := h, d := c, points := jobPoints c list, mask := mask, startAt := BitVec.ofNat 64 at0, begun := false, idx := engIdx d
        lost0 := 0, recomp := [], noact := [], skipped := [], half := none, thermal := [], runs := [], got := [], packMax := 0
        fault := (maskCells mask).any (fun n => engineFailed d (engineOf d n)), framed := false, late := 0 }
    toActive (withEng (fun e => { e with imp := some j }) d)

/-- What an excitation becomes when a shed of n LSBs has interrupted it, and what was over stays (R168). -/
def ChipRun.delayed (at0 : Time) (n : Nat) (r : ChipRun) : ChipRun :=
  if at0.toNat < r.stop.toNat then { r with start := later r.start n, stop := later r.stop n } else r

/-- After the load shed the running jobs resume from their checkpoints: every point of them counts as recomputed, and their ends move later by the
shed's length (R168). A job whose start fell into the shed begins at the next boundary (R38, R169). -/
def shedReplay (d : Dev) : Dev :=
  let n := since d.pw.shedAt d.now
  let d := each (fun c d => putGot c ((gotOf d c).map (fun p => (p.1, kget Gathered.init (ckptOf d c).got p.1))) d) (cellsUsed d) d
  let d := { d with ba := { d.ba with chips := d.ba.chips.map (ChipRun.delayed d.pw.shedAt n) } }
  withEng (fun e => { e with
    upTo := d.now
    imp := e.imp.map (fun j =>
      if j.begun then { j with
        recomp := maskCells j.mask
        runs := j.runs.map (fun r => (r.1, (r.2.1.delayed d.pw.shedAt n, r.2.2)))
        late := j.late + n }
      else { j with startAt := BitVec.ofNat 64 (boundaryAt d (max j.startAt.toNat d.now.toNat)) })
    est := e.est.map (fun j => { j with
      recomp := maskCells j.mask
      late := j.late + min n (since j.startAt d.now) }) }) d

/-- IMPEDANCE (R167, R169, R170, R181): in the head with the list of the host window, in a stack device with the one that BULK brought; before it has all
arrived nothing happens. -/
def execImpedance (t : Time) (h : Nat) (c : Desc) (s : State) : Host.Outcome State Fault Refusal :=
  actOpH 0x30 okImpedance t c (fun b =>
    match (if impList c then tableBytes h (dWord c 7).toNat (4 * impNpts c) b else some []) with
    | some l => (impBegin h c l b.1, b.2)
    | none => b) s

/-- May cell n be excited (R173)? -/
def eligible (d : Dev) (n : Nat) : Bool :=
  !extFet d && coefKnown d n && decide (1500000 ≤ laneAuV d n) && !regBit d R.cmpStatUv (n - 1)

/-- Cells of a mask and their neighbours, whose plan duty is suspended (R176). -/
def suspendedCells (d : Dev) (mask : Nat) : List Nat :=
  (cellsUsed d).filter (fun n => (maskCells mask).any (fun k => decide (k ≤ n + 1) && decide (n ≤ k + 1)))

/-- The job of handle h begins (R169, R173, R176). -/
def impStart (h : Nat) (d : Dev) : Dev :=
  match d.en.imp with
  | none => d
  | some j =>
    if decide (j.h = h) && !j.begun && !d.pw.persist && decide (j.startAt.toNat ≤ d.now.toNat) then
      let bad := if impExc j.d = 0 then [] else (maskCells j.mask).filter (fun n => !eligible d n)
      if impExc j.d = 1 ∧ bad = maskCells j.mask then impFinish St.inputNotReady [] d
      else
        let d := withEng (fun e => { e with imp := some { j with
          begun := true, idx := engIdx d, lost0 := regFld d R.curRxStat 15 0, noact := bad } }) d
        if impExc j.d = 0 then d
        else balUpdate { d with ba := { d.ba with excite := suspendedCells d j.mask } }
    else d

/-- IMPEDANCE_START (R169, R173, R176, R181). -/
def execImpedanceStart (t : Time) (h : Nat) (s : State) : Host.Outcome State Fault Refusal := actAwake t (impStart h) s

/-- Cells of a half: the odd or even eligible cells of the mask (R173). -/
def halfCells (j : ImpJob) (odd : Bool) : List Nat :=
  (maskCells j.mask).filter (fun n => decide (n ∉ j.noact) && decide (n % 2 = if odd then 1 else 0))

/-- Twice the predicted dissipation of switch n in nW: I_sw^2 x R_on, from the sensed current and resistance (R174). -/
def predicted2 (d : Dev) (n : Nat) : Nat := dissOf (balCell d n).ion (balCell d n).ron

/-- Do cells excited together fit the thermal manager's allowance, P_MAX (R174)? -/
def phaseFits (d : Dev) (l : List Nat) : Bool := decide (32 * sumNat (l.map (predicted2 d)) ≤ 1000000 * d.ba.pMax64)

/-- One more cell joins the last sub-phase where it fits, and else begins another. -/
def placeCell (d : Dev) (ph : List (List Nat)) (n : Nat) : List (List Nat) :=
  match ph.getLast? with
  | some g => if phaseFits d (g ++ [n]) then ph.dropLast ++ [g ++ [n]] else ph ++ [[n]]
  | none => [[n]]

/-- The sub-phases of a half (R174): cells in ascending order, as many to each as fit, which makes the fewest; a cell that does not fit by itself has
one of its own (DEDUCED). -/
def subPhases (d : Dev) (l : List Nat) : List (List Nat) := l.foldl (placeCell d) []

/-- Insert a point by its frequency. -/
def insertPoint (freq : Nat → Int) (i : Nat) : List Nat → List Nat
  | [] => [i]
  | a :: r => if freq i < freq a then i :: a :: r else a :: insertPoint freq i r

/-- The active points of a job in the order in which they run: those that are not line points, in ascending frequency (R173). -/
def activeOrder (j : ImpJob) : List Nat :=
  let f (i : Nat) : Int := (f32Num (j.points.getD i 0)).getD 0
  if impExc j.d = 0 then []
  else ((upFrom 0 j.points.length).filter (fun i => decide (0 < f i))).foldl (fun l i => insertPoint f i l) []

/-- DURATION in ring-time LSBs. -/
def impSpan (c : Desc) : Nat := dFld c 4 15 0 * lsbPerSec

/-- Ring time of sub-phase `sub` of k of a half of the active point that runs in place `pos`, and of its end (R173, R174): each point has
DURATION / Na, its first half for the odd cells. -/
def phaseTimes (j : ImpJob) (pos : Nat) (odd : Bool) (sub k : Nat) : Nat × Nat :=
  let na := (activeOrder j).length
  let x (s : Nat) : Nat := j.startAt.toNat + j.late + ((2 * pos + (if odd then 0 else 1)) * k + s) * impSpan j.d / (2 * na * k)
  (x sub, x (sub + 1))

/-- The chip period of a point: 0.4 / f rounded to a multiple of 20 us, in ring-time LSBs (R173). -/
def chipPeriod (w : Word) : Nat := (roundRat (20000 / f32Rat w)).toNat * usT 20

/-- Before a half of a point its sub-phases are fixed (R174). A cell that might not be excited now, as its coefficients have become unknown or its UV
pair has tripped (R82, R173), is left out of it. -/
def beginHalf (point : Nat) (odd : Bool) (j : ImpJob) (d : Dev) : ImpJob :=
  let l := halfCells j odd
  { j with
    half := some ((point, odd), subPhases d (l.filter (eligible d)))
    skipped := j.skipped ++ (l.filter (fun n => !eligible d n)).map (fun n => (point, n)) }

/-- A sub-phase of a half of a point begins (R173, R174, R176): its cells' switches follow the sequence, which restarts. -/
def excitePhase (h point : Nat) (odd : Bool) (sub : Nat) (d : Dev) : Dev :=
  match d.en.imp with
  | none => d
  | some j0 =>
    let j := if sub = 0 then beginHalf point odd j0 d else j0
    let ph := match j.half with
      | some x => if x.1 = (point, odd) then x.2 else []
      | none => []
    let k := max 1 ph.length
    let pos := (activeOrder j).idxOf point
    let x := phaseTimes j pos odd sub k
    if decide (j.h = h) && j.begun && decide (pos < (activeOrder j).length) && decide (sub < k) && !d.pw.persist && decide (d.now.toNat = x.1) then
      let now := ph.getD sub []
      let runs := now.map (fun n => ChipRun.mk n (BitVec.ofNat 64 x.1) (BitVec.ofNat 64 x.2) (chipPeriod (j.points.getD point 0)))
      let hot := if k = 1 then [] else now.map (fun n => (point, n))
      let d := withEng (fun e => { e with imp := some { j with
        runs := j.runs ++ runs.map (fun r => (point, (r, k)))
        thermal := j.thermal ++ hot.filter (fun q => decide (q ∉ j.thermal)) } }) d
      balUpdate { d with ba := { d.ba with
        chips := runs
        pExc := (quot (sumNat (now.map (predicted2 d))) 2000000).toNat } }
    else d

/-- EXCITATION_PHASE (R173, R174, R176). -/
def execExcitationPhase (t : Time) (h point : Nat) (odd : Bool) (sub : Nat) (s : State) :
    Host.Outcome State Fault Refusal :=
  actAwake t (excitePhase h point odd sub) s

/-! ### The estimate (R171, R172, R177, R178) -/

/-- Shunt resistance that the frames carry, LSB 1 nOhm (R161). -/
def frameShunt (d : Dev) : Rat :=
  match d.io.cu.frames.getLast? with
  | some f => (f.shunt.toNat : Rat)
  | none => (reg d R.curShunt).toNat

/-- A complex number. -/
abbrev Cx := Rat × Rat

/-- The spectra of a cell summed over an analysis band (R177), in the units of `SpecBin`. -/
structure BandSums where
  cell : Nat
  vv : Nat
  pp : Nat
  ss : Nat
  vp : Int × Int
  vs : Int × Int
  ps : Int × Int
deriving DecidableEq, Repr

/-- The spectra of v and i_cell of R161: v i* in nV uA, |i|^2 in uA^2. -/
structure Band where
  vi : Cx
  ii : Rat
deriving DecidableEq, Repr

/-- i_cell = s x i_pack - i_sw in the spectra of a cell (R161, R177); without pack current i_cell = -i_sw. -/
def bandOf (d : Dev) (r : BandSums) : Band :=
  let k : Rat := if noPack d then 0 else packSign d * 1000000 / frameShunt d
  ⟨(k * r.vp.1 - r.vs.1, k * r.vp.2 - r.vs.2), k * k * r.pp - 2 * k * r.ps.1 + r.ss⟩

/-- Z = V / I in ohm (R177); nV over uA is mohm. -/
def impedanceOf (b : Band) : Cx := (b.vi.1 / b.ii / 1000, b.vi.2 / b.ii / 1000)

/-- CONF: round (100 x gamma^2), of the magnitude-squared coherence (R177). -/
def confOf (b : Band) (vv : Nat) : Nat :=
  let den := (vv : Rat) * b.ii
  if den = 0 then 0 else (clampInt 0 100 (roundRat (100 * (b.vi.1 * b.vi.1 + b.vi.2 * b.vi.2) / den))).toNat

/-- I_band below a limit in uA. -/
def bandBelow (b : Band) (uA : Rat) : Bool := decide (b.ii < uA * uA)

/-- Square of the passive band current in A^2. -/
def packBand2 (d : Dev) (pp : Nat) : Rat := if noPack d then 0 else (pp : Rat) / (frameShunt d * frameShunt d)

/-- The spectra of cell n that lie in a band, summed. -/
def sumBins (n : Nat) (inBand : Nat → Bool) (l : List SpecBin) : BandSums :=
  let b := l.filter (fun x => inBand x.mHz)
  let cx (f : SpecBin → Int × Int) : Int × Int := (sumInt (b.map (fun x => (f x).1)), sumInt (b.map (fun x => (f x).2)))
  ⟨n, sumNat (b.map SpecBin.vv), sumNat (b.map SpecBin.pp), sumNat (b.map SpecBin.ss), cx SpecBin.vp, cx SpecBin.vs, cx SpecBin.ps⟩

/-- The spectra of cell n at a point in its band; none found means no excitation. -/
def spectraOf (inBand : Nat → Bool) (l : List CellSpectra) (n i : Nat) : BandSums :=
  match l.find? (fun r => decide (r.cell = n) && decide (r.point = i)) with
  | some r => sumBins n inBand r.bins
  | none => sumBins n inBand []

/-- Spectra at a point whatever the cell: pack current is the same for all. -/
def pointSpectra (inBand : Nat → Bool) (l : List CellSpectra) (i : Nat) : BandSums :=
  match l.find? (fun r => decide (r.point = i)) with
  | some r => sumBins r.cell inBand r.bins
  | none => sumBins 0 inBand []

/-- The fundamental that the engines look for, in mHz (R172). -/
def rippleBase (d : Dev) : Nat := if regBit d R.measCtrl 10 then 120000 else 100000

/-- The strongest line of a step within 2 Hz of the base (R172). -/
def strongest (base : Nat) (l : RippleStep) : Option (Nat × Nat) :=
  (l.filter (fun e => decide (base ≤ e.1 + 2000) && decide (e.1 ≤ base + 2000))).foldl
    (fun m e => match m with
      | some x => if x.2 < e.2 then some e else some x
      | none => some e) none

/-- The tracked ripple fundamental: mHz, and nV of shunt voltage rms. The latest step of 1 s gives it (DEDUCED, log 47: no rule says which of the tracked values a
result shows). -/
def tracked1 (d : Dev) (lines : List RippleStep) : Option (Nat × Nat) := (lines.getLast?).bind (strongest (rippleBase d))

/-- Does a frequency in mHz lie in the analysis band of a point (R177)? Of a line point within 0.5 Hz of its tracked line, else within f x 2^(+-1/12),
whose twelfth powers are compared. -/
def inPointBand (d : Dev) (lines : List RippleStep) (w : Word) (mHz : Nat) : Bool :=
  match lineOf w with
  | some k =>
    (match tracked1 d lines with
      | some e => decide (k * e.1 ≤ mHz + 500) && decide (mHz ≤ k * e.1 + 500)
      | none => false)
  | none => f32Is w (fun v => decide ((1000 * v) ^ 12 ≤ 2 * ((mHz : Int) * f32One) ^ 12) && decide (((mHz : Int) * f32One) ^ 12 ≤ 2 * (1000 * v) ^ 12))

/-- The fundamental carries 0.1 A rms or more (R172). -/
def lineFound (d : Dev) (lines : List RippleStep) : Bool :=
  match tracked1 d lines with
  | some e => decide (frameShunt d ≤ 10 * (e.2 : Rat)) && !noPack d
  | none => false

/-- The frequency used of a point (Table ENG-6): of a line point k times the tracked fundamental; where no line is seen at all no rule states one, and it
is free. -/
def freqUsed (d : Dev) (lines : List RippleStep) (w : Word) : Word :=
  match lineOf w with
  | none => w
  | some k =>
    match tracked1 d lines with
    | some e => f32OfRat ((k * e.1 : Nat) / 1000)
    | none => Config.freeWord d.free

/-- 0.78125 times the corner of an engine index, in 1/64 Hz (R171). -/
def freqLimit64 (idx : Nat) : Nat := 320000 / 4 ^ idx

/-- FRANGE of a point at the frequency used (R171). -/
def outOfRange (idx : Nat) (w : Word) : Bool := f32Is w (fun v => decide ((freqLimit64 idx : Int) * f32One < 64 * v))

/-- A point of a finished job: the frequency used, whether it is a line point, and whether its line was not found. -/
structure PointDone where
  freq : Word
  line : Bool
  lost : Bool
deriving DecidableEq, Repr

/-- Point i of a job at its end. -/
def pointDone (d : Dev) (j : ImpJob) (lines : List RippleStep) (i : Nat) : PointDone :=
  let w := j.points.getD i 0
  ⟨freqUsed d lines w, lineOk w, lineOk w && !lineFound d lines⟩

/-- The excitation of cell n at point i, if it had one. -/
def runAt (j : ImpJob) (i n : Nat) : Option (ChipRun × Nat) := (j.runs.find? (fun r => decide (r.1 = i) && decide (r.2.1.cell = n))).map Prod.snd

/-- I_a in mA: 0.1325 x I_sw, of the sensed switch current (R178). -/
def activeMa (d : Dev) (j : ImpJob) (i n : Nat) : Rat :=
  match runAt j i n with
  | some _ => (1325 : Rat) / 10000 * ((balCell d n).ion.getD 400 : Nat)
  | none => 0

/-- T_a in s: DURATION / (2 Na), divided by the number of sub-phases (R175). -/
def activeSecs (j : ImpJob) (i n : Nat) : Rat :=
  match runAt j i n with
  | some r => (dFld j.d 4 15 0 : Rat) / (2 * (activeOrder j).length * r.2 : Nat)
  | none => 0

/-- E of R178 in uV sqrt(s), where the rule states one: 31 for passive and combined jobs, 8 for active jobs with |i_pack| below 1 A and no line point above
0.1 A rms. -/
def noiseE (d : Dev) (j : ImpJob) (lines : List RippleStep) : Option Rat :=
  if impExc j.d ≠ 1 then some 31
  else if j.packMax < 1 ∧ !(j.points.any lineOk && lineFound d lines) then some 8
  else none

/-- SIGMA of an entry: E / sqrt(Ip^2 Tp + Ia^2 Ta), at least 0.1 uohm (R178); free where the rule states no E. -/
def sigmaOf (d : Dev) (j : ImpJob) (lines : List RippleStep) (i n pp : Nat) : Word :=
  match noiseE d j lines with
  | none => Config.freeWord (d.free + 1 + pointKey i n)
  | some e =>
    let tp : Rat := if impExc j.d = 1 then 0 else (dFld j.d 4 15 0 : Rat)
    let ia := activeMa d j i n / 1000
    let den := packBand2 d pp * tp + ia * ia * activeSecs j i n
    if den = 0 then f32Inf
    else f32Sqrt (max (1 / 100000000000000) (e * e / 1000000000000 / den))

/-! ### The result (R180, R181) -/

/-- A point record (Table ENG-6). -/
def pointBytes (d : Dev) (j : ImpJob) (p : PointDone) (pp : Nat) : List Byte :=
  let na := (activeOrder j).length
  wordBytes p.freq ++ wordBytes (if impExc j.d = 1 then 0 else f32Sqrt (packBand2 d pp)) ++
  wordBytes (if na = 0 ∨ p.line then 0 else f32Of (dFld j.d 4 15 0) (2 * na)) ++
  leBytes 4 (b2n (outOfRange j.idx p.freq) + 2 * b2n p.lost)

/-- What one cell entry says. -/
structure EntryFlags where
  noexc : Bool
  frange : Bool
  notcomp : Bool
deriving DecidableEq, Repr

/-- The flags of a cell entry that leave it without a result (R162, R171, R172, R166, R177): where every sample of a point was absent, its sums are
empty. -/
def entryFlags (d : Dev) (j : ImpJob) (i : Nat) (p : PointDone) (r : BandSums) : EntryFlags :=
  let g := kget Gathered.init j.got (pointKey i r.cell)
  ⟨bandBelow (bandOf d r) 2000 || p.lost || (decide (g.total ≠ 0) && decide (g.total ≤ g.absent)), outOfRange j.idx p.freq,
    engineFailed d (engineOf d r.cell)⟩

/-- The spectra of cell n at point i of a job, over the point's band. -/
def pointSums (d : Dev) (j : ImpJob) (lines : List RippleStep) (l : List CellSpectra) (n i : Nat) : BandSums :=
  spectraOf (inPointBand d lines (j.points.getD i 0)) l n i

/-- A cell entry (Table ENG-7). Its active band current in mA is rounded to the nearest integer (DESIGN CHOICE, log 106: no rule says how). -/
def entryBytes (d : Dev) (j : ImpJob) (lines : List RippleStep) (i : Nat) (r : BandSums) : List Byte :=
  let f := entryFlags d j i (pointDone d j lines i) r
  let g := kget Gathered.init j.got (pointKey i r.cell)
  let b := bandOf d r
  let v (w : Word) : List Byte := wordBytes (if f.noexc || f.frange || f.notcomp then qnan else w)
  v (f32OfRat (impedanceOf b).1) ++ v (f32OfRat (impedanceOf b).2) ++ v (sigmaOf d j lines i r.cell r.pp) ++
  [BitVec.ofNat 8 (confOf b r.vv), BitVec.ofNat 8 (min 255 (roundRat (activeMa d j i r.cell)).toNat)] ++
  leBytes 2 (pack [(b2n f.noexc, 0), (b2n f.frange, 1), (b2n g.loss, 2), (b2n g.unc, 3), (b2n (decide (r.cell ∈ j.noact) || decide ((i, r.cell) ∈ j.skipped)), 4),
    (b2n (decide ((i, r.cell) ∈ j.thermal)), 5), (b2n (decide (r.cell ∈ j.recomp)), 6), (b2n f.notcomp, 7), (b2n g.supply, 8)])

/-- The result of an IMPEDANCE job and whether every entry has one (R180, R181). -/
def impResult (d : Dev) (j : ImpJob) (lines : List RippleStep) (l : List CellSpectra) : List Byte × Bool :=
  let idxs := upFrom 0 (impNpts j.d)
  let cells := maskCells j.mask
  let full := cells.all (fun n => idxs.all (fun i =>
    let f := entryFlags d j i (pointDone d j lines i) (pointSums d j lines l n i)
    !f.noexc && !f.frange && !f.notcomp))
  (impHeader d j cells.length (idxs.any (fun i => (pointDone d j lines i).lost)) 0 ++
    idxs.flatMap (fun i => pointBytes d j (pointDone d j lines i)
      (pointSpectra (inPointBand d lines (j.points.getD i 0)) l i).pp) ++
    cells.flatMap (fun n => idxs.flatMap (fun i => entryBytes d j lines i (pointSums d j lines l n i))), full)

/-- Integration ends (R168, R177, R180, R181). Without a current frame in its first 100 ms, a job that uses pack current has
ended INPUT_NOT_READY. -/
def impEnd (h : Nat) (lines : List RippleStep) (l : List CellSpectra) (samples : List EngSample) (d : Dev) : Dev :=
  let d := engineRun samples d
  match d.en.imp with
  | none => d
  | some j =>
    if decide (j.h = h) && j.begun && !d.pw.persist then
      if impExc j.d ≠ 1 ∧ !j.framed then
        (if msT 100 ≤ since j.startAt d.now then impFinish St.inputNotReady [] d else d)
      else if impSpan j.d + j.late ≤ since j.startAt d.now then
        let r := impResult d j lines l
        impFinish (if r.2 then St.done else St.partial') r.1 { d with free := d.free + 513 }
      else d
    else d

/-- IMPEDANCE_END (R177, R178, R180, R181). -/
def execImpedanceEnd (t : Time) (h : Nat) (lines : List RippleStep) (spectra : List CellSpectra) (samples : List EngSample) (s : State) :
    Host.Outcome State Fault Refusal :=
  actAwake t (impEnd h lines spectra samples) s

/-! ### Trackers (R182) -/

/-- Tables that waited for a tracker boundary replace theirs (R191). -/
def takeModels (d : Dev) : Dev :=
  withEng (fun e => { e with
    models := each (fun m l => kset [] l m.1 m.2) e.newModels e.models
    newModels := [] }) d

/-- A second has passed since the last tracker update (R182). -/
def trackDue (d : Dev) : Bool :=
  match d.en.trackAt with
  | some t => passed lsbPerSec t d.now
  | none => true

/-- The 1 s boundary: busy fractions, trackers, waiting models (R182 to R185, R191, R194). An update is engine work (R50). -/
def trackerUpdate (samples : List EngSample) (load : List Nat) (d : Dev) : Dev :=
  let d := engineRun samples d
  if trackDue d then
    let d := withEng (fun e => { e with trackAt := some d.now }) d
    let d := each (fun k d => setReg (R.engLoad + 4 * k) (packW [(min 65535 (load.getD k 0), 0)]) d) (upFrom 0 16) d
    let d := if regBit d R.engCtrl 0 then toActive (each trackSecond (cellsUsed d) d) else d
    takeModels d
  else d

/-- TRACKER_UPDATE (R182 to R185, R191). -/
def execTrackerUpdate (t : Time) (samples : List EngSample) (load : List Nat) (s : State) :
    Host.Outcome State Fault Refusal :=
  actAwake t (trackerUpdate samples load) s

/-- Save the tracker state: parts 0 to 5, six cells each (R182, Table MEM-6). -/
def trackSave (d : Dev) : Dev :=
  if regBit d R.engCtrl 0 then
    let pay := (upFrom 0 6).map (fun p => (upFrom (6 * p + 1) 6).flatMap (trackBytes d))
    withEng (fun e => { e with savedAt := some d.now }) (each (fun p d => logRec 3 p (pay.getD p []) d) (upFrom 0 6) d)
  else d

/-- TRACKER_STATE_SAVE: 600 s after the last one (R182); `beginClosing` saves it too. -/
def execTrackerStateSave (t : Time) (s : State) : Host.Outcome State Fault Refusal :=
  actAwake t (fun d => match d.en.savedAt with
    | some x => if passed (600 * lsbPerSec) x d.now then trackSave d else d
    | none => trackSave d) s

/-- The latest readable record of a kind and part in the log. -/
def lastRec (d : Dev) (kind part : Nat) : Option LogRec :=
  ((d.mm.sectors.flatMap LogSector.recs).filter (fun r => decide (r.kind = kind) && decide (r.part = part) && !r.cut)).getLast?

/-- The state of cell n as the latest tracker record holds it; none where its SoC is unknown. -/
def restored (d : Dev) (n : Nat) : Option Track :=
  match lastRec d 3 ((n - 1) / 6) with
  | none => none
  | some r =>
    let b := (r.pay.drop (8 * ((n - 1) % 6))).take 8
    if tab16 b 0 = 0xFFFF then none else some (restoredTrack b)

/-- Restore the trackers at a start (R182). -/
def trackRestore (d : Dev) : Dev :=
  withEng (fun e => { e with track := each (fun n l => kset none l n (restored d n)) (upFrom 1 32) [] }) d

/-! ### Status words -/

/-- ENG_STAT. -/
def engStat (d : Dev) : Word :=
  packW [(d.en.failed, 0), (mapBits (modelValid d) 0 4, 16), (b2n (regBit d R.engCtrl 0 && d.awake), 20), (b2n d.en.imp.isSome, 21),
    (b2n d.en.est.isSome, 22), (b2n (!d.en.rebal.isEmpty), 23)]

/-- ENG_LOADk: CELLS is counted, and a failed engine serves none (R166); BUSY is kept. -/
def engLoadWord (d : Dev) (k : Nat) : Word :=
  packW [(regFld d (R.engLoad + 4 * k) 15 0, 0), (if engineFailed d k then 0 else min 8 (servedBy d k).length, 16)]

end Sys2Proof.Machine
end

