-- ==== Sys2Proof/Machine/Estimate.lean ====
section
/-! DEFINITION. ESTIMATE and MODEL_LOAD (R186 to R193). -/

namespace Sys2Proof.Machine

/-! ### ESTIMATE (R186 to R190) -/

/-- Operation bits. -/
def estOps (c : Desc) : Nat := dFld c 2 4 0

/-- Does the job measure for TEMP_S? -/
def estMeasures (c : Desc) : Bool := bit (dWord c 2) 3 || bit (dWord c 2) 4

/-- Effective TEMP_S in seconds. -/
def tempS (c : Desc) : Nat := if dFld c 2 15 8 = 0 then 30 else dFld c 2 15 8

/-- ESTIMATE's arguments (R188). -/
def okEstimate (c : Desc) : Bool :=
  decide (dFld c 2 7 5 = 0) && decide (dFld c 2 31 16 = 0) && decide (estOps c ≠ 0) &&
  !(bit (dWord c 2) 3 && bit (dWord c 2) 4) && !(decide (1 ≤ dFld c 2 15 8) && decide (dFld c 2 15 8 ≤ 9)) && zeroFrom c 4

/-- DENIED_STATE of ESTIMATE (R190). -/
def estDenied (c : Desc) (mask : Nat) (d : Dev) : Bool :=
  decide (mask = 0) || (decide (dFld c 2 2 0 ≠ 0) && !regBit d R.engCtrl 0) || (estMeasures c && decide (curSrc d = 0x3F))

/-- Is a MODEL_LOAD of this slot running: accepted here and not completed (R190)? -/
def loadRuns (slot : Nat) (b : Both) : Bool :=
  let is (c : Desc) : Bool := decide (dOp c = 0x32) && decide (dFld c 2 1 0 = slot)
  if b.1.head then b.2.cmds.any (fun c => c.sent && is c.d && decide (dTarget c.d = 0 ∨ dTarget c.d = 0x3F))
  else b.1.ex.cmds.any (fun c => is c.d)

/-- An ESTIMATE job is accepted (R167, R190). -/
def estBegin (h : Nat) (c : Desc) (b : Both) : Both :=
  let d := b.1
  if d.pw.persist then (holdJob h c [] d, b.2) else
  let mask := effMask d (dWord c 3)
  if estDenied c mask d then (finish h St.deniedState [] d, b.2)
  else if d.en.est.isSome || (maskCells mask).any (fun n => loadRuns (modelSlot d n) b) then (finish h St.resourceBusy [] d, b.2)
  else (toActive (withEng (fun e => { e with est := some ⟨h, c, mask, d.now, [], if bit (dWord c 2) 4 then ntcDetail d else 0, 0⟩ }) d), b.2)

/-- ESTIMATE (R167, R188, R190). -/
def execEstimate (t : Time) (h : Nat) (c : Desc) (s : State) : Host.Outcome State Fault Refusal :=
  actOpH 0x31 okEstimate t c (estBegin h c) s

/-! ### Internal temperature (R186, R187) -/

/-- F_CHAR of the model bound to a cell: a frequency or a line point (Table ENG-12). -/
def fChar (d : Dev) (n : Nat) : Word := BitVec.ofNat 32 (tab32 (cellModel d n) 0x28)

/-- The spectra of cell n over an ESTIMATE's interval, in the band of its F_CHAR (R172, R177, R186). -/
def charSums (d : Dev) (lines : List RippleStep) (l : List CellSpectra) (n : Nat) : BandSums :=
  spectraOf (inPointBand d lines (fChar d n)) l n 0

/-- The spectra of every configured cell at its F_CHAR. -/
def charBands (d : Dev) (lines : List RippleStep) (l : List CellSpectra) : List BandSums := (cellsUsed d).map (charSums d lines l)

/-- Those of cell n. -/
def bandAt (l : List BandSums) (n : Nat) : BandSums := (l.find? (fun r => decide (r.cell = n))).getD (sumBins n (fun _ => false) [])

/-- Band current at F_CHAR, the rms of i_cell (R177), below a limit in A rms. -/
def bandLow (d : Dev) (r : BandSums) (amps : Rat) : Bool := bandBelow (bandOf d r) (amps * 1000000)

/-- The measured phase of Z at F_CHAR, in degrees (R186). -/
def phaseOf (d : Dev) (r : BandSums) : Rat := phaseDeg (bandOf d r).vi.1 (bandOf d r).vi.2

/-- Is the cell not characterised (ENG_TOFF)? -/
def noToff (d : Dev) (n : Nat) : Bool := decide (regFld d (R.engToff + 4 * (n - 1)) 15 0 = 0x8000)

/-- ENG_TOFFn in degrees; none of a cell that is not characterised. -/
def toffOf (d : Dev) (n : Nat) : Rat := if noToff d n then 0 else (signed 16 (regFld d (R.engToff + 4 * (n - 1)) 15 0) : Rat) / 1000

/-- Phase at F_CHAR after ENG_TOFFn (Table ENG-11). -/
def phaseLeft (d : Dev) (r : BandSums) : Rat := phaseOf d r - toffOf d r.cell

/-- Detail code of a failed CHAR precondition, 0 for none (R187, Table ENG-10). -/
def charDetail (d : Dev) (j : EstJob) (l : List BandSums) : Nat :=
  let rs := (maskCells j.mask).map (fun n => bandAt l n)
  if j.bad ≠ 0 then j.bad
  else if ntcDetail d ≠ 0 then ntcDetail d
  else if rs.any (fun r => bandLow d r 2) then 4
  else if rs.any (fun r => decide (confOf (bandOf d r) r.vv < 90)) then 5
  else 0

/-- CHAR sets the phase offset of a cell: the measured phase less the model's at the mean NTC temperature (R187). Where the table has none the value is
free. -/
def setToff (l : List BandSums) (n : Nat) (d : Dev) : Dev :=
  let (temp, d) := meanNtc d
  let want := (interp temp (phaseTable (cellModel d n))).map (fun p => roundRat (1000 * (phaseOf d (bandAt l n) - p)))
  let (v, d) := fitS 16 (want.getD (2 ^ 20)) d
  hwStand (R.engToff + 4 * (n - 1)) 0xFFFF (BitVec.ofNat 32 v) d

/-- Is the cell without any value: no valid model, or its engine has failed (R166, R182)? -/
def noValues (d : Dev) (n : Nat) : Bool := !modelValid d (modelSlot d n) || engineFailed d (engineOf d n)

/-- TEMP gives no value for a cell: band current below 0.5 A rms (R186, Table ENG-8). -/
def noTemp (d : Dev) (r : BandSums) : Bool := noValues d r.cell || bandLow d r (1 / 2)

/-- The internal temperature in 1/64 degree: the model's phase table at the phase less the offset (R186). Beyond the table no rule states a value: it is
free. -/
def tempField (d : Dev) (r : BandSums) : Nat :=
  match (interp (phaseLeft d r) (swapped (phaseTable (cellModel d r.cell)))).map (fun t => roundRat (64 * t)) with
  | some z => unsigned 16 z
  | none => (Config.freeWord (d.free + r.cell)).toNat % 2 ^ 16

/-! ### Result (R189, R190) -/

/-- A value that was asked for and is there; quiet not-a-number otherwise. -/
def estField (want : Bool) (x : Option Rat) : List Byte := wordBytes (if want then f32Opt x else qnan)

/-- A standard deviation that no rule states: free, where the value is there. -/
def freeSd (d : Dev) (k : Nat) (x : Option Rat) : Option Rat := x.map (fun _ => ((Config.freeRat (d.free + k) : NNRat) : Rat))

/-- Values that an ESTIMATE gives of a cell from its tracker state. -/
def selfRate (d : Dev) (n : Nat) : Option Rat :=
  let x := trackOf d n
  match x.drift, dayDemand d n with
  | none, none => none
  | a, b => some (Config.selfDischarge a b)

/-- A cell record (Table ENG-11): what was not requested or is not there reads not-a-number. -/
def estRecord (d : Dev) (j : EstJob) (l : List BandSums) (n : Nat) : List Byte :=
  let x := trackOf d n
  let t := cellModel d n
  let r := bandAt l n
  let no := noValues d n
  let op (b : Nat) : Bool := bit (dWord j.d 2) b && !no
  let cap := x.cap
  let temp := op 3 && !noTemp d r
  let flags := x.flags + pack [(b2n (!temp), 5), (b2n (!modelValid d (modelSlot d n)), 6), (b2n (noToff d n), 7), (b2n (decide (n ∈ j.recomp)), 8)]
  [BitVec.ofNat 8 n, BitVec.ofNat 8 (modelSlot d n)] ++ leBytes 2 flags ++
  estField (op 0) x.soc ++ estField (op 0) (x.soc.map (fun _ => x.sd)) ++
  estField (op 1) cap ++ estField (op 1) (freeSd d (64 + n) cap) ++ estField (op 1) (cap.map (fun c => 100 * c / modelF t 0x20)) ++
  estField (op 1) x.res ++ estField (op 1) (x.res.map (fun v => 100 * (v / modelF t 0x24 - 1))) ++
  estField (op 2) (selfRate d n) ++ estField (op 2) (freeSd d (96 + n) (selfRate d n)) ++
  estField (op 2) (x.anom.map Prod.fst) ++ estField (op 2) (x.anom.map Prod.snd) ++
  (if temp then leBytes 2 (tempField d r) ++ leBytes 2 ((Config.freeWord (d.free + 128 + n)).toNat % 2 ^ 16) else [0x00, 0x80, 0x00, 0x80]) ++
  estField (op 3 || op 4) (if bandLow d r (2 / 1000) then none else some (phaseLeft d r)) ++
  (if op 1 && !x.caps.isEmpty then leBytes 4 ((lifeSecs d - x.capAt) / 86400) else wordBytes qnan) ++ zeros 4

/-- Is every requested value there for every cell (R190)? -/
def estFull (d : Dev) (j : EstJob) (l : List BandSums) : Bool :=
  let op (b : Nat) : Bool := bit (dWord j.d 2) b
  (maskCells j.mask).all (fun n =>
    let x := trackOf d n
    !noValues d n && (!op 0 || x.soc.isSome) && (!op 1 || (x.cap.isSome && x.res.isSome && !x.caps.isEmpty)) &&
    (!op 2 || ((selfRate d n).isSome && x.anom.isSome)) && (!op 3 || !noTemp d (bandAt l n)))

/-- The open summary takes the internal temperatures (Table MEM-8). -/
def noteTemps (j : EstJob) (l : List BandSums) (d : Dev) : Dev :=
  if bit (dWord j.d 2) 3 then
    each (fun n d => if noTemp d (bandAt l n) then d
      else withAcc n (fun a => { a with tsum := a.tsum + signed 16 (tempField d (bandAt l n)), tn := a.tn + 1 }) d) (maskCells j.mask) d
  else d

/-- The band current at F_CHAR that the header shows, in A rms: that of the first cell of the mask (DEDUCED: the header has one place for it). -/
def headBand (d : Dev) (j : EstJob) (l : List BandSums) : Word :=
  if estMeasures j.d then f32Sqrt ((bandOf d (bandAt l ((maskCells j.mask).headD 1))).ii / 1000000000000) else qnan

/-- The ESTIMATE job ends (R186 to R190); a failed precondition ends it at once (R187). -/
def estEnd (h : Nat) (lines : List RippleStep) (sp : List CellSpectra) (d : Dev) : Dev :=
  match d.en.est with
  | none => d
  | some j =>
    let l := charBands d lines sp
    let char := bit (dWord j.d 2) 4
    let done := !estMeasures j.d || decide (tempS j.d * lsbPerSec + j.late ≤ since j.startAt d.now)
    if decide (j.h = h) && !d.pw.persist && (done || (char && decide (j.bad ≠ 0))) then
      let detail := if char then charDetail d j l else 0
      if detail ≠ 0 then estFinish St.inputNotReady (estHeader d j 0 detail (headBand d j l) 0) d
      else
        let d := noteTemps j l (if char then each (setToff l) (maskCells j.mask) d else d)
        let cells := maskCells j.mask
        let res := estHeader d j cells.length 0 (headBand d j l) 0 ++ cells.flatMap (estRecord d j l)
        estFinish (if estFull d j l then St.done else St.partial') res { d with free := d.free + 256 }
    else d

/-- ESTIMATE_END (R186, R187, R189, R190). -/
def execEstimateEnd (t : Time) (h : Nat) (spectra : EstSpectra) (s : State) : Host.Outcome State Fault Refusal :=
  actAwake t (estEnd h spectra.lines spectra.cells) s

/-! ### MODEL_LOAD (R191 to R193) -/

/-- SLOT. -/
def mlSlot (c : Desc) : Nat := dFld c 2 1 0
/-- SRC_OFF. -/
def mlOff (c : Desc) : Nat := (dWord c 3).toNat
/-- LEN. -/
def mlLen (c : Desc) : Nat := (dWord c 4).toNat

/-- MODEL_LOAD's arguments (R191). -/
def okModelLoad (c : Desc) : Bool :=
  decide (dFld c 2 31 2 = 0) && decide (mlOff c % 8 = 0) && decide (120 ≤ mlLen c) && decide (mlLen c ≤ 8192) &&
  zeroFrom c 5

/-- n float32 words of a table from an offset. -/
def tabWords (t : List Byte) (off n : Nat) : List Word := (upFrom 0 n).map (fun i => BitVec.ofNat 32 (tab32 t (off + 4 * i)))

/-- Neighbours of a list satisfy r, of their values times 2^149. -/
def f32Chain (r : Int → Int → Bool) : List Word → Bool
  | [] => true
  | [a] => (f32Num a).isSome
  | a :: b :: l =>
    (match f32Num a, f32Num b with
      | some x, some y => r x y
      | _, _ => false) && f32Chain r (b :: l)

/-- Rows of a grid of words, n to a row. -/
def rowsOfGrid (n : Nat) : Nat → List Word → List (List Word)
  | 0, _ => []
  | k + 1, l => l.take n :: rowsOfGrid n k (l.drop n)

/-- Every value of a list lies in [lo, hi] (times 2^149). -/
def f32Within (lo hi : Int) (l : List Word) : Bool := l.all (fun w => f32Is w (fun v => decide (lo ≤ v) && decide (v ≤ hi)))

/-- A model table's detail code (R192, R193); 0 when every check passes. The lowest code that applies is given (DEDUCED). -/
def modelDetail (len : Nat) (t : List Byte) : Nat :=
  let S := tab8 t 6
  let K := tab8 t 7
  let P := tab8 t 8
  let soc := tabWords t 0x40 S
  let tmp := tabWords t (0x40 + 4 * S) K
  let o := 0x40 + 4 * S + 4 * K
  let chg := tabWords t o (K * S)
  let dis := tabWords t (o + 4 * K * S) (K * S)
  let r0 := tabWords t (o + 8 * K * S) (K * S)
  let ph := tabWords t (o + 12 * K * S) (2 * P)
  let phT := (upFrom 0 P).map (fun i => ph.getD (2 * i) qnan)
  let phV := (upFrom 0 P).map (fun i => ph.getD (2 * i + 1) qnan)
  let lt (x y : Int) : Bool := decide (x < y)
  let pos (w : Word) : Bool := f32Is w (fun v => decide (0 < v))
  let at32 (off : Nat) : Word := BitVec.ofNat 32 (tab32 t off)
  if tab32 t 0 ≠ 0x4C444D58 ∨ tab16 t 4 ≠ 1 then 1
  else if tab32 t 0x0C ≠ len ∨ len ≠ 68 + 4 * S + 4 * K + 12 * K * S + 8 * P then 2
  else if S < 2 ∨ 64 < S ∨ K < 1 ∨ 8 < K ∨ P < 2 ∨ 32 < P then 3
  else if !(f32Chain lt soc && f32Chain lt tmp && f32Chain lt phT) then 4
  else if !((rowsOfGrid S K chg).all (f32Chain (fun x y => decide (x ≤ y))) &&
      (rowsOfGrid S K dis).all (f32Chain (fun x y => decide (x ≤ y))) &&
      (List.zip dis chg).all (fun p => f32Chain (fun x y => decide (x ≤ y)) [p.1, p.2])) then 5
  else if crc32 (t.take (len - 4)) ≠ tab32 t (len - 4) then 6
  else if leNat ((t.drop 9).take 3) ≠ 0 ∨ tab32 t 0x3C ≠ 0 ∨ !pos (at32 0x20) ∨ !pos (at32 0x24) ∨
      !(freqOk (at32 0x28) || lineOk (at32 0x28)) ∨ tab32 t 0x30 < 60 ∨ 86400 < tab32 t 0x30 ∨
      !([0x2C, 0x34, 0x38].all (fun k => (f32Num (at32 k)).isSome)) ∨
      !f32Within 0 (100 * f32One) soc ∨ !f32Within (-40 * f32One) (105 * f32One) tmp ∨
      !f32Within 0 (11 * f32One / 2) chg ∨ !f32Within 0 (11 * f32One / 2) dis ∨ !r0.all pos ∨
      !(f32Chain lt phV || f32Chain (fun x y => decide (y < x)) phV) then 7
  else 0

/-- Is a slot used by running trackers (R191)? -/
def slotTracked (d : Dev) (slot : Nat) : Bool := (cellsUsed d).any (fun n => tracked d n && decide (modelSlot d n = slot))

/-- Is an ESTIMATE running with a cell bound to the slot (R193)? -/
def slotBusy (d : Dev) (slot : Nat) : Bool :=
  match d.en.est with
  | some j => (maskCells j.mask).any (fun n => decide (modelSlot d n = slot))
  | none => false

/-- The table of MODEL_LOAD is checked and loaded (R191 to R193). -/
def loadModel (h : Nat) (c : Desc) (t : List Byte) (d : Dev) : Dev :=
  if d.pw.persist then holdJob h c t d else
  let slot := mlSlot c
  let k := modelDetail (mlLen c) t
  let res := [BitVec.ofNat 8 slot, BitVec.ofNat 8 k, 0, 0] ++ leBytes 4 (tab32 t (mlLen c - 4))
  if slotBusy d slot then finish h St.resourceBusy [] d
  else if k ≠ 0 then finish h St.checkFail res d
  else
    let d := if slotTracked d slot then withEng (fun e => { e with newModels := e.newModels.filter (fun m => m.1 ≠ slot) ++ [(slot, t)] }) d
      else withEng (fun e => { e with models := kset [] e.models slot t }) d
    finish h St.done res d

/-- MODEL_LOAD (R191 to R193): in the head the table at SRC_OFF of the host window, in a stack device the one that BULK brought; before it has all arrived
nothing happens. -/
def execModelLoad (t : Time) (h : Nat) (c : Desc) (s : State) : Host.Outcome State Fault Refusal :=
  actOpH 0x32 okModelLoad t c (fun b => match tableBytes h (mlOff c) (mlLen c) b with
    | some tab => (loadModel h c tab b.1, b.2)
    | none => b) s

end Sys2Proof.Machine
end

