-- ==== Sys2Proof/Machine/Memory.lean ====
section
/-! DEFINITION. Memories and their error correction, the non-volatile sweep, lifetime, daily summaries, history reads and
marks, and firmware installs (file 13). -/

namespace Sys2Proof.Machine

/-- Change the memory fields. -/
def withMem (f : Mem → Mem) (d : Dev) : Dev := { d with mm := f d.mm }

/-! ### Error-correcting code (R363) -/

/-- Shift one more bit, most significant first, into the remainder of division by g(x) = 0x4377 (R363). -/
def bchStep (r b : Nat) : Nat :=
  let s := 2 * r + b
  if s.testBit 14 then s ^^^ 0x4377 else s

/-- The check bits of a 64-bit word, by long division of the word followed by 14 zeros (R363). -/
def bchCheck (w : BitVec 64) : Nat :=
  let z := w.toNat * 2 ^ 14
  (upFrom 0 78).foldl (fun r i => bchStep r (b2n (z.testBit (77 - i)))) 0

/-- XOR of the low n bits. -/
def parityOf (v : Nat) : Nat → Bool
  | 0 => false
  | n + 1 => v.testBit n != parityOf v n

/-- The 79-bit code word: data, check bits, overall parity (R363). -/
def codeWord (w : BitVec 64) : BitVec 79 :=
  let body := w.toNat + 2 ^ 64 * bchCheck w
  BitVec.ofNat 79 (body + 2 ^ 78 * b2n (parityOf body 78))

/-- The bits that read changed in a code word. -/
def errCount (e : BitVec 79) : Nat := ((upFrom 0 79).filter (fun i => e.getLsbD i)).length

/-- Changed bits that lead from a code word to another, which no decoder can see: the code is linear (R363). -/
def errHidden (e : BitVec 79) : Bool := decide (e = codeWord (BitVec.ofNat 64 e.toNat))

/-- Bits that decoding reports (R363): up to two corrected, three uncorrectable, none where the word is another code word; where more have
changed no rule states what decoding finds, so it is free. -/
def decoded (e : BitVec 79) (d : Dev) : Nat × Dev :=
  let n := errCount e
  if n ≤ 3 then (n, d)
  else if errHidden e then (0, d)
  else
    let (w, d) := freeWord d
    (1 + w.toNat % 3, d)

/-! ### Wear (R368) -/

/-- One more erase of an area: 0 and 1 the firmware banks, 2 and 3 calibration slots, 4 and 5 configuration slots, 6 and 7 repair
record slots, 9 the wear reserve in rotation, 16 + s a refreshed sector s. -/
def addWear (area : Nat) (d : Dev) : Dev := withMem (fun m => { m with wear := kset 0 m.wear area (kget 0 m.wear area + 1) }) d

/-- Erases of an area written in rotation over n sectors of which it holds the latest `hold`, from the number of sectors begun (R368, R369). -/
def rotationWear (begun hold n : Nat) : Nat := (begun - hold + n - 1) / n

/-- Sectors of the event log begun. -/
def logBegun (d : Dev) : Nat :=
  match d.mm.sectors.getLast? with
  | some x => x.seq + 1
  | none => 0

/-- First sector of the wear reserve that holds neither copy of the remap table (Table MEM-3, R368; log 121). -/
def reserveFrom : Nat := 0xE56

/-- Sectors of the wear reserve without the two copies of the remap table (Table MEM-3, R368; log 121). -/
def reserveSize : Nat := 426

/-- Highest erase count of any sector (R368). -/
def highestWear (d : Dev) : Nat :=
  let l := d.mm.wear.map (fun e => if e.1 = 9 then (e.2 + reserveSize - 1) / reserveSize else e.2)
  (l ++ [rotationWear (logBegun d) (logSectors - 2) logSectors, rotationWear ((d.mm.summ.num + 2) / 4) 2336 2336,
    rotationWear ((d.bi.recSeq + 15) / 16) 16 16]).foldl max 0

/-- Free sectors of the wear reserve: none that replaces a retired sector, nor the copy sector of a refresh (R366, R368). -/
def freeReserve (d : Dev) : Nat := reserveSize - d.mm.remap.length - b2n d.mm.refresh.isSome

/-- MEM_WEAR. -/
def memWearWord (d : Dev) : Word := packW [(min 0xFFFFF (highestWear d), 0), (freeReserve d, 20)]

/-- Sector s is retired: the next sector of the reserve replaces it in the remap table (R368). -/
def retire (s : Nat) (d : Dev) : Dev :=
  if freeReserve d = 0 then d
  else withMem (fun m => { m with remap := m.remap ++ [(s, reserveFrom + m.remap.length)] }) d

/-- MEM_NV_STAT. -/
def nvStat (d : Dev) : Word :=
  packW [(b2n d.mm.sweepOn, 0), (b2n d.mm.refresh.isSome, 1), (b2n d.mm.overBudget, 2), (min 65535 d.mm.sweepAt, 16)]

/-! ### Errors (R364, R368) -/

/-- Is mem an index of Table MEM-1? -/
def memIndex (m : Nat) : Bool := decide (m ≤ 0x41) || decide (m = 0x50)

/-- Count an error and note where it was (R364). -/
def noteError (m addr bits : Nat) (d : Dev) : Dev :=
  let off := if bits ≤ 2 then R.memCeCnt else R.memUeCnt
  let d := if m = 0x50 then bump off 31 16 1 d else bump off 15 0 1 d
  withMem (fun x => { x with
    lastErr := packW [(m, 0), (if bits ≤ 2 then bits else 3, 8)]
    lastAddr := BitVec.ofNat 32 addr }) d

/-- Data of an ECC event. -/
def eccData (m addr bits : Nat) : List Byte := BitVec.ofNat 8 m :: (leBytes 4 addr ++ [BitVec.ofNat 8 bits])

/-- "ECC corrected" of a memory index was posted less than a second ago (R364). -/
def ceRecent (m : Nat) (d : Dev) : Bool :=
  let k := kget 0 d.mm.ceSec m
  decide (k ≠ 0) && !passed lsbPerSec (BitVec.ofNat 64 (k - 1)) d.now

/-- A corrected error: posted at most once per memory index per second, recorded once per summary period (R364, R371). -/
def corrected (m addr bits : Nat) (d : Dev) : Dev :=
  let d := noteError m addr bits d
  if ceRecent m d then d
  else
    let first := decide (m ∉ d.mm.summ.ce)
    let d := withMem (fun x => { x with
      ceSec := kset 0 x.ceSec m (d.now.toNat + 1)
      summ := if first then { x.summ with ce := x.summ.ce ++ [m] } else x.summ }) d
    postAt d.now 0x1A01 0 0xFF 0 false first (eccData m addr bits) d

/-- An uncorrectable error: posted each time; the word is kept where later reads meet it (R364). -/
def uncorrectable (m addr : Nat) (d : Dev) : Dev :=
  let d := post 0x1A02 0 (eccData m addr 0) (noteError m addr 3 d)
  if (0x20 ≤ m ∧ m ≤ 0x3F) ∨ m = 0x50 then
    withMem (fun x => { x with bad := if (m, addr) ∈ x.bad then x.bad else x.bad ++ [(m, addr)] }) d
  else d

/-- Byte of the host window at which a word of memory 0x20 to 0x23 lies (Table MEM-1). -/
def windowByte (e : Nat × Nat) : Nat := (e.1 - 0x20) * 0x10000 + 8 * e.2

/-- The uncorrectable words that n bytes of the host window from `off` touch (R364). -/
def windowBad (d : Dev) (off n : Nat) : List (Nat × Nat) :=
  d.mm.bad.filter (fun e => decide (0x20 ≤ e.1 ∧ e.1 ≤ 0x23) && decide (off < windowByte e + 8) && decide (windowByte e < off + n))

/-- Change a firmware bank. -/
def setBank (b : Bool) (x : FwBank) (d : Dev) : Dev :=
  withMem (fun m => if b then { m with bankB := x } else { m with bankA := x }) d

/-- A firmware bank. -/
def fwBank (d : Dev) (b : Bool) : FwBank := if b then d.mm.bankB else d.mm.bankA

/-- A bank that holds nothing. -/
def FwBank.erased : FwBank := ⟨false, 0, 0, none, none⟩

/-- Its SUPERSEDED word is 0 (R380). -/
def FwBank.superseded (x : FwBank) : Bool := x.marker.any (fun m => decide (m.superseded = 0))

/-- Its marker is valid: magic, and the image's hash (R380). -/
def FwBank.marked (x : FwBank) : Bool := x.marker.any (fun m => decide (m.magic = 0x4B4D5746) && decide (m.hash = x.hash))

/-- Sequence number of its marker. -/
def FwBank.seq (x : FwBank) : Nat := (x.marker.map FwMarker.seq).getD 0

/-- A self-test record with an uncorrectable word at byte `o`: the word reads free, and the check fails (R364, R390). -/
def spoiled (o : Nat) (r : List Byte) : List Byte :=
  let body := (upFrom 0 252).map (fun i => if i / 8 = o / 8 then Config.freeByte (2 ^ 25 + 256 * tab32 r 8 + i) else r.getD i 0)
  body ++ leBytes 4 ((crc32 body + 1) % 2 ^ 32)

/-- The record in the slot of the self-test ring at byte `o` of it is lost (R368, R390). -/
def recLost (o : Nat) (d : Dev) : Dev :=
  let first := d.bi.recSeq - d.bi.recs.length
  withBist (fun t => { t with recs := (List.zip (upFrom first t.recs.length) t.recs).map (fun e =>
    if e.1 % 256 = o / 256 then spoiled (o % 256) e.2 else e.2) }) d

/-- An uncorrectable non-volatile word at byte address `a` makes its bank or slot invalid (R368). -/
def nvmLost (a : Nat) (d : Dev) : Dev :=
  if a < 0x180000 then setBank false { d.mm.bankA with image := false } d
  else if a < 0x300000 then setBank true { d.mm.bankB with image := false } d
  else if a < 0x308000 then setCalSlot 0 { d.ca.s0 with set := none } d
  else if a < 0x310000 then setCalSlot 1 { d.ca.s1 with set := none } d
  else if 0x320000 ≤ a ∧ a < 0x321000 then { d with pr := { d.pr with c0 := { d.pr.c0 with data := none } } }
  else if 0x321000 ≤ a ∧ a < 0x322000 then { d with pr := { d.pr with c1 := { d.pr.c1 with data := none } } }
  else if 0x322000 ≤ a ∧ a < 0x323000 then { d with bi := { d.bi with slot0 := none } }
  else if 0x323000 ≤ a ∧ a < 0x324000 then { d with bi := { d.bi with slot1 := none } }
  else if 0x324000 ≤ a ∧ a < 0x334000 then recLost (a - 0x324000) d
  else d

/-- The refresh of the sector at word address a is to begin: without a free sector in the reserve there is none to copy it to (R366). -/
def startRefresh (a : Nat) (d : Dev) : Dev :=
  if freeReserve d = 0 then d else withMem (fun m => { m with refresh := some (a, 1), refreshAt := d.now }) d

/-- A sector in which a read needed correction is refreshed, behind any that is being refreshed (R366). -/
def beginRefresh (addr : Nat) (d : Dev) : Dev :=
  let a := addr / 512 * 512
  match d.mm.refresh with
  | none => startRefresh a d
  | some (x, _) => if x = a ∨ a ∈ d.mm.refreshQ then d else withMem (fun m => { m with refreshQ := m.refreshQ ++ [a] }) d

/-- Words of a sector. -/
def sectorWords : Nat := 512

/-- "Non-volatile refresh" of the sector at word address `addr`; the next that waits begins. -/
def refreshDone (addr : Nat) (d : Dev) : Dev :=
  let d := post 0x1A03 0 (leBytes 4 addr ++ leBytes 4 sectorWords)
    (addWear (16 + addr / 512) (addWear 9 (withMem (fun m => { m with refresh := none }) d)))
  match d.mm.refreshQ with
  | [] => d
  | a :: l => startRefresh a (withMem (fun m => { m with refreshQ := l }) d)

/-- An error of `bits` bits in a memory (R364, R166, R366, R368). A lockstep case is the reset's concern. -/
def memError (m addr bits : Nat) (d : Dev) : Dev :=
  if bits ≤ 2 then
    let d := corrected m addr bits d
    if m = 0x50 then beginRefresh addr d else d
  else
    let d := uncorrectable m addr d
    if m < 0x20 then engineFail (m % 16) 2 d
    else if m = 0x50 then nvmLost (8 * addr) d
    else d

/-! ### Sweep and refresh (R366) -/

/-- 30 days in seconds. -/
def sweepEvery : Nat := 30 * 86400

/-- A sweep begins (R366). -/
def sweepStart (d : Dev) : Dev :=
  if !d.mm.sweepOn && !d.pw.persist && decide (d.mm.sweepStart + sweepEvery ≤ d.mm.life) then
    withMem (fun m => { m with sweepOn := true, sweepAt := 0, sweepStart := m.life, sweepLast := d.now }) d
  else d

/-- NV_SWEEP_START (R366). -/
def execNvSweepStart (t : Time) (s : State) : Host.Outcome State Fault Refusal := actAwake t sweepStart s

/-- Sectors of the non-volatile memory. -/
def nvmSectors : Nat := 4096

/-- One word of the non-volatile memory is read with changed bits (R363, R364). -/
def nvmWord (addr : Nat) (e : BitVec 79) (d : Dev) : Dev :=
  let (n, d) := decoded e d
  if n = 0 then d else memError 0x50 addr n d

/-- The next sector is read, 100 ms after the one before; a corrected word begins a refresh (R366). -/
def sweepSector (found : List (Nat × BitVec 79)) (d : Dev) : Dev :=
  if d.mm.sweepOn && !d.pw.warn && !d.pw.persist && passed (msT 100) d.mm.sweepLast d.now then
    let at0 := d.mm.sweepAt
    let d := withMem (fun m => { m with sweepAt := m.sweepAt + 1, sweepLast := d.now }) d
    let d := each (fun w d => nvmWord (sectorWords * at0 + w.1 % sectorWords) w.2 d) found d
    if nvmSectors ≤ d.mm.sweepAt then withMem (fun m => { m with sweepOn := false }) d else d
  else d

/-- NV_SWEEP_SECTOR (R366). -/
def execNvSweepSector (t : Time) (found : List (Nat × BitVec 79)) (s : State) : Host.Outcome State Fault Refusal :=
  actAwake t (sweepSector found) s

/-- One step of a refresh completes (R366). -/
def refreshNext (d : Dev) : Dev :=
  match d.mm.refresh with
  | none => d
  | some (a, k) =>
    if 4 ≤ k then refreshDone a d else withMem (fun m => { m with refresh := some (a, k + 1), refreshAt := d.now }) d

/-- A refresh cut off by a reset is completed from its copy at the next start; without a copy nothing was erased, and it begins again (R366). -/
def refreshResume (d : Dev) : Dev :=
  match d.mm.refresh with
  | none => d
  | some (a, k) => if 2 ≤ k then refreshDone a d else withMem (fun m => { m with refresh := some (a, 1), refreshAt := d.now }) d

/-! ### Lifetime and checkpoints (R370, R372) -/

/-- Write a lifetime record (R370); it waits for a supply warning to clear (R37). -/
def lifeSave (d : Dev) : Dev :=
  if d.pw.warn then withDue (fun w => { w with life := true }) d
  else logRec 5 0 (leBytes 8 d.mm.life) (withMem (fun m => { m with lifePrev := m.lifeRec, lifeRec := m.life }) d)

/-- LIFETIME_RECORD (R370): every 3,600 s. -/
def execLifetimeRecord (t : Time) (s : State) : Host.Outcome State Fault Refusal :=
  actAwake t (fun d => if d.mm.lifeRec + 3600 ≤ d.mm.life then lifeSave d else d) s

/-- k bytes of a summary that no rule fills, by block number and offset. -/
def unfilled (num off k : Nat) : List Byte := (upFrom 0 k).map (fun i => Config.freeByte (1024 * num + off + i))

/-- A number in k bytes; where it does not fit no rule says what the bytes hold, so they are free. -/
def numBytes (k num off n : Nat) : List Byte := if n < 256 ^ k then leBytes k n else unfilled num off k

/-- A voltage of a cell entry in 100 uV, clamped to 16 bits (Table MEM-8). -/
def voltBytes (v : Int) : List Byte := leBytes 2 (clampInt 0 65535 v).toNat

/-- A 2-byte engine value of a cell entry: 0xFFFF without a tracker state or with TRACK_EN at 0 (R373, Table MEM-8). -/
def engineValue (d : Dev) (n : Nat) (f : Track → List Byte) : List Byte :=
  match kget none d.en.track n with
  | some x => if regBit d R.engCtrl 0 then f x else [0xFF, 0xFF]
  | none => [0xFF, 0xFF]

/-- A value in 2 bytes with an LSB of 1/k; 0xFFFF where the tracker has none. -/
def engineField (k : Nat) (x : Option Rat) : List Byte :=
  match x with
  | some v => recField 2 k v
  | none => [0xFF, 0xFF]

/-- A self-discharge rate in 2 bytes, signed, LSB 0.01 mA; free where it does not fit. -/
def rateField (d : Dev) (n : Nat) : List Byte :=
  match selfRate d n with
  | some v =>
    let r := roundRat (100 * v)
    if -32768 ≤ r ∧ r ≤ 32767 then leBytes 2 (unsigned 16 r) else (upFrom 0 2).map (fun i => Config.freeByte (r.natAbs + i))
  | none => [0xFF, 0xFF]

/-- The 24 bytes of a cell (Table MEM-8); zeros above NCELLS. -/
def summaryCell (d : Dev) (n : Nat) : List Byte :=
  if ncells d < n then zeros 24
  else
    let a := kget CellAcc.none d.mm.summ.cells n
    let num := d.mm.summ.num
    let at0 := 0x80 + 24 * (n - 1)
    (if a.n = 0 then unfilled num at0 6
      else voltBytes (quot a.lo 100) ++ voltBytes (quot a.hi 100) ++ voltBytes (quot a.sum (100 * a.n))) ++
    leBytes 4 (((reg d (R.balQbal + 4 * (n - 1))).toNat + 2 ^ 32 - a.q0) % 2 ^ 32) ++
    engineValue d n (fun x => socField x.soc) ++ engineValue d n (fun x => engineField 1000000 x.res) ++
    engineValue d n (fun x => engineField 100 x.cap) ++ engineValue d n (fun _ => rateField d n) ++
    numBytes 2 num (at0 + 0x12) (quot a.dis 10).toNat ++
    (if a.tn = 0 then [0x00, 0x80] else leBytes 2 (unsigned 16 (quot a.tsum a.tn))) ++
    leBytes 2 (a.flags % 32 + 32 * b2n (!tracked d n))

/-- A minimum and maximum of 2 bytes each; unfilled while nothing was read. -/
def rangeBytes (num off : Nat) (r : Int × Int) : List Byte :=
  if r.2 < r.1 then unfilled num off 4 else leBytes 2 (unsigned 16 r.1) ++ leBytes 2 (unsigned 16 r.2)

/-- Flags of a summary (Table MEM-7). -/
def summaryFlags (d : Dev) : Nat :=
  d.mm.summ.flags ||| (4 * b2n (!regBit d R.curCtrl 0)) ||| (8 * b2n d.mm.overBudget)

/-- Bytes 0x000 to 0x3BF of the open summary (Table MEM-7). -/
def summaryBody (d : Dev) : List Byte :=
  let s := d.mm.summ
  leBytes 4 0x4D555344 ++ leBytes 2 1 ++ leBytes 2 (summaryFlags d) ++ leBytes 4 s.num ++ leBytes 4 s.first ++ leBytes 4 s.last ++
  [BitVec.ofNat 8 d.rg.pos, BitVec.ofNat 8 (ncells d)] ++ numBytes 1 s.num 0x16 s.starts ++ numBytes 1 s.num 0x17 s.fulls ++
  leBytes 8 s.utc ++ numBytes 4 s.num 0x20 s.secs ++ numBytes 4 s.num 0x24 s.awake ++
  leBytes 8 (unsigned 64 (s.pos / qUnit)) ++ leBytes 8 (unsigned 64 (-(-s.neg / qUnit))) ++ wordBytes (reg d R.curShunt) ++
  numBytes 2 s.num 0x3C s.latches ++ numBytes 2 s.num 0x3E s.seals ++ (upFrom 0 43).map (fun k => BitVec.ofNat 8 (kget 0 s.occ k)) ++ zeros 13 ++
  padTo 8 d.mm.sumHash ++ (upFrom 1 32).flatMap (summaryCell d) ++
  (upFrom 0 8).flatMap (fun k => rangeBytes s.num (0x380 + 4 * k) (kget (1, 0) s.aux k)) ++
  (upFrom 0 2).flatMap (fun k => rangeBytes s.num (0x3A0 + 4 * k) (kget (1, 0) s.die k)) ++ zeros 24

/-- The 48-byte parts of a checkpoint, numbered from i. -/
def checkParts (i : Nat) : List Byte → Nat → Dev → Dev
  | _, 0, d => d
  | l, n + 1, d => checkParts (i + 1) (l.drop 48) n (logRec 4 i (l.take 48) d)

/-- The open summary as it goes on after a start: the balancing counters restart, and the charge of the period so far stays in
it (R211, R372, DEDUCED). -/
def rebase (d : Dev) : Summary :=
  let one (n : Nat) (l : List (Nat × CellAcc)) : List (Nat × CellAcc) :=
    let a := kget CellAcc.none l n
    kset CellAcc.none l n { a with q0 := (a.q0 + 2 ^ 32 - (reg d (R.balQbal + 4 * (n - 1))).toNat) % 2 ^ 32 }
  { d.mm.summ with cells := each one (upFrom 1 32) d.mm.summ.cells }

/-- Save a summary checkpoint (R372); it waits for a supply warning to clear (R37). -/
def summarySave (d : Dev) : Dev :=
  if d.pw.warn then withDue (fun w => { w with check := true }) d
  else checkParts 0 (summaryBody d) 20 (withMem (fun m => { m with checkPrev := m.checkpoint, checkpoint := some (rebase d), checkLife := m.life }) d)

/-- SUMMARY_CHECKPOINT (R372): every 21,600 s. -/
def execSummaryCheckpoint (t : Time) (s : State) : Host.Outcome State Fault Refusal :=
  actAwake t (fun d => if d.mm.checkLife + 21600 ≤ d.mm.life then summarySave d else d) s

/-- Summaries the area holds (Table MEM-3). -/
def maxSums : Nat := 9344

/-- A new summary opens (R372): it counts balancing charge from here. -/
def openSummary (num utc flags : Nat) (d : Dev) : Dev :=
  let cells := each (fun n l => kset CellAcc.none l n { CellAcc.none with q0 := (reg d (R.balQbal + 4 * (n - 1))).toNat })
    (cellsUsed d) []
  withMem (fun m => { m with
    summ := { Summary.init num m.nextSeq utc with flags := flags, cells := cells }
    sumClose := m.life
    checkpoint := none
    checkPrev := none
    overBudget := false }) d

/-- Byte address of the block of summary `num` (Table MEM-3). -/
def summaryAt (num : Nat) : Nat := 0x534000 + 1024 * ((num - 1) % maxSums)

/-- Sign and program the open summary with further flags and open the next (R372, R373, R375). The area reclaims four at a time. -/
def closeNow (flags utc nextFlags : Nat) (d : Dev) : Dev :=
  let d := withMem (fun m => { m with summ := { m.summ with flags := m.summ.flags ||| flags } }) d
  let body := summaryBody d
  let blk := body ++ padTo 64 (deviceSign body)
  let num := d.mm.summ.num
  let d := if (num - 1) % 4 = 0 then clearBad (summaryAt num) 4096 d else d
  let d := withMem (fun m => { m with
    sums := (if m.sums.length < maxSums then m.sums else m.sums.drop 4) ++ [(num, blk)]
    sumHash := (sha256 blk).take 8 }) d
  openSummary (num + 1) utc nextFlags d

/-- Close the open summary; the close waits for a supply warning to clear (R37, R372). -/
def closeSummary (flags utc nextFlags : Nat) (d : Dev) : Dev :=
  if d.pw.warn then withDue (fun w => { w with close := some (flags, utc, nextFlags) }) d else closeNow flags utc nextFlags d

/-- The supply warning has cleared: what waited is written, records first, in their order (R37). -/
def writeDue (d : Dev) : Dev :=
  let w := d.mm.due
  let d := withDue (fun _ => NvDue.none) d
  let d := each (fun r d => logWrite r.1 r.2.1 r.2.2 d) w.recs d
  let d := withMem (fun m => { m with seals := m.seals ++ w.seals }) d
  let d := if w.life then lifeSave d else d
  let d := if w.check then summarySave d else d
  match w.close with
  | some c => closeNow c.1 c.2.1 c.2.2 d
  | none => d

/-- SUMMARY_CLOSE (R372): 90,000 lifetime seconds after opening. -/
def execSummaryClose (t : Time) (s : State) : Host.Outcome State Fault Refusal :=
  actAwake t (fun d => if d.mm.sumClose + 90000 ≤ d.mm.life then closeSummary 1 0 0 d else d) s

/-! ### HIST_READ (R377) -/

/-- AREA. -/
def hrArea (c : Desc) : Nat := dFld c 2 2 0

/-- HIST_READ's arguments (R377). -/
def okHistRead (c : Desc) : Bool :=
  let n := (dWord c 4).toNat
  decide (dFld c 2 31 3 = 0) && zeroFrom c 5 && decide (1 ≤ n) &&
  (match hrArea c with
    | 0 => decide (n ≤ 64)
    | 1 => decide (n ≤ 16)
    | 2 | 3 => decide (n = 1) && decide (dWord c 3 = 0)
    | _ => false)

/-- The identity record (Table MEM-9). The die revisions are those of SYS_ID, MREV first (log 122). -/
def identityRecord (d : Dev) : List Byte :=
  let body := leBytes 4 0x44495154 ++ leBytes 8 d.mm.serial ++ leBytes 4 0x3264 ++
    [BitVec.ofNat 8 Config.mrev.toNat, BitVec.ofNat 8 Config.crev.toNat] ++ leBytes 8 Config.factoryUtc ++
    publicKey ++ (sha256 publicKey).take 8 ++ (upFrom 98 154).map Config.identity
  body ++ leBytes 4 (crc32 body)

/-- A certificate behind its length in 2 bytes (Table MEM-9). -/
def certBytes (l : List Byte) : List Byte := leBytes 2 l.length ++ l

/-- The identity record and the certificates: the device's, the intermediate one, and 0xFF (Table MEM-9). -/
def identityBytes (d : Dev) : List Byte :=
  identityRecord d ++ (certBytes Config.deviceCert ++ certBytes Config.qorhornCert ++ List.replicate 12032 0xFF).take 12032

/-- The seal record (Table MEM-9, R349). -/
def sealBytes (d : Dev) : List Byte :=
  let l := (d.mm.seals.take 1024).flatMap (fun e => leBytes 8 e.1 ++ leBytes 4 e.2.1 ++ leBytes 4 e.2.2)
  (l ++ List.replicate 16384 0xFF).take 16384

/-- Does a bad non-volatile word lie in n bytes from address a? -/
def badWithin (d : Dev) (a n : Nat) : Bool :=
  d.mm.bad.any (fun e => decide (e.1 = 0x50) && decide (a ≤ 8 * e.2) && decide (8 * e.2 < a + n))

/-- A 16-byte HIST_READ header. -/
def histHeader (area blocks flags first oldest newest : Nat) : List Byte :=
  [BitVec.ofNat 8 area, BitVec.ofNat 8 blocks, BitVec.ofNat 8 flags, 0] ++ leBytes 4 first ++ leBytes 4 oldest ++ leBytes 4 newest

/-- Blocks `first` on, `n` of them, among held ones: number, bytes, a bad word within. `newest` and `oldest` describe the held
blocks; with none held they are free, as is the first block of an empty answer. -/
def histBlocks (area first n : Nat) (held : List (Nat × (List Byte × Bool))) (h : Nat) (d : Dev) : Dev :=
  let hit := held.filter (fun b => decide (first ≤ b.1) && decide (b.1 < first + n))
  let missing := decide (hit.length < n)
  let (w1, d) := freeWord d
  let (w2, d) := freeWord d
  let lo := match held.head? with
    | some b => b.1
    | none => w1.toNat
  let hi := match held.getLast? with
    | some b => b.1
    | none => w1.toNat
  let f := match hit.head? with
    | some b => b.1
    | none => w2.toNat
  finish h (if missing then St.partial' else St.done)
    (histHeader area hit.length (2 * b2n (hit.any (fun b => b.2.2)) + 4 * b2n missing) f lo hi ++ hit.flatMap (fun b => b.2.1)) d

/-- One open block; `bad` says that it holds an uncorrectable word (R377). -/
def histOpen (area num : Nat) (bad : Bool) (bytes : List Byte) (lo hi : Nat) (h : Nat) (d : Dev) : Dev :=
  finish h St.done (histHeader area 1 (1 + 2 * b2n bad) num lo hi ++ bytes) d

/-- Read the history (R377). -/
def histRead (h : Nat) (c : Desc) (d : Dev) : Dev :=
  let first := (dWord c 3).toNat
  let n := (dWord c 4).toNat
  let sums := d.mm.sums.map (fun s => (s.1, (s.2, badWithin d (summaryAt s.1) 1024)))
  let secs := d.mm.sectors.map (fun s => (s.seq, (s.bytes, badWithin d (0x334000 + 4096 * (s.seq % logSectors)) 4096)))
  let closed := secs.filter (fun b => (d.mm.sectors.filter (fun s => s.sig.isSome)).any (fun s => s.seq == b.1))
  let (w, d) := freeWord d
  let ends {α : Type} (l : List (Nat × α)) : Nat × Nat :=
    match l.head?, l.getLast? with
    | some a, some b => (a.1, b.1)
    | _, _ => (w.toNat, w.toNat)
  match hrArea c with
  | 0 =>
    if first = 0xFFFFFFFF then histOpen 0 d.mm.summ.num false (summaryBody d ++ zeros 64) (ends sums).1 (ends sums).2 h d
    else histBlocks 0 first n sums h d
  | 1 =>
    if first = 0xFFFFFFFF then
      (match d.mm.sectors.getLast? with
        | some x =>
          if x.sig.isNone then histOpen 1 x.seq (badWithin d (0x334000 + 4096 * (x.seq % logSectors)) 4096) x.bytes (ends closed).1 (ends closed).2 h d
          else histBlocks 1 (x.seq + 1) 1 closed h d
        | none => histBlocks 1 0 1 closed h d)
    else histBlocks 1 first n closed h d
  | 2 => finish h St.done (histHeader 2 1 (2 * b2n (badWithin d 0x310000 0x3000)) 0 0 0 ++ identityBytes d) d
  | _ => finish h St.done (histHeader 3 1 (2 * b2n (badWithin d 0x314000 0x4000)) 0 0 0 ++ sealBytes d) d

/-- HIST_READ (R377). -/
def execHistRead (t : Time) (h : Nat) (c : Desc) (s : State) : Host.Outcome State Fault Refusal :=
  actOp 0x40 okHistRead t c (histRead h c) s

/-! ### HIST_MARK (R378) -/

/-- HIST_MARK's arguments. -/
def okHistMark (c : Desc) : Bool := decide (dFld c 2 31 3 = 0) && decide (dFld c 2 2 0 ≠ 0) && zeroFrom c 13

/-- HIST_MARK is dispatched: its record, of two parts, is formed and is to be programmed (R378). -/
def histMark (h : Nat) (c : Desc) (d : Dev) : Dev :=
  let utc := (dWord c 3).toNat + 2 ^ 32 * (dWord c 4).toNat
  let kind := dFld c 2 2 0
  let j : MarkJob := ⟨h, utc, kind, leBytes 8 utc ++ leBytes 8 d.now.toNat ++ [BitVec.ofNat 8 kind] ++ zeros 31,
    wordsBytes ((upFrom 5 8).map (dWord c)), d.now⟩
  withMem (fun m => { m with marks := m.marks ++ [j] }) d

/-- The record is programmed and the mark acts (R372, R378). -/
def markActs (j : MarkJob) (d : Dev) : Dev :=
  let d := logRec 2 1 j.p1 (logRec 2 0 j.p0 d)
  let back := if j.utc < d.mm.lastUtc then 16 else 0
  let d := withMem (fun m => { m with lastUtc := j.utc }) d
  if decide (j.kind / 2 % 2 = 1) && decide (d.mm.sumClose + 3600 ≤ d.mm.life) then closeSummary 0 j.utc back d
  else withMem (fun m => { m with summ := { m.summ with flags := m.summ.flags ||| back } }) d

/-- The programming of the oldest mark's record ends (R378). -/
def markDone (ok : Bool) (d : Dev) : Dev :=
  match d.mm.marks with
  | [] => d
  | j :: r =>
    let d := withMem (fun m => { m with marks := r }) d
    if ok then finish j.h St.done [] (markActs j d) else finish j.h St.nvmFail [] d

/-- HIST_MARK (R372, R378). -/
def execHistMark (t : Time) (h : Nat) (c : Desc) (s : State) : Host.Outcome State Fault Refusal :=
  actOp 0x41 okHistMark t c (histMark h c) s

/-! ### Firmware (R380 to R383) -/

/-- FW_UPDATE's arguments (R382). -/
def okFwUpdate (c : Desc) : Bool :=
  decide ((dWord c 2).toNat % 256 = 0) && decide (4096 ≤ (dWord c 3).toNat) &&
  decide ((dWord c 3).toNat ≤ 0x180000 - 4096) && zeroFrom c 4

/-- Why FW_UPDATE is refused (R383). -/
def fwRefusal (d : Dev) : Option Nat :=
  if !windowOpen d then some St.deniedWindow
  else if d.pw.persist || d.ca.store.isSome || d.bi.job.isSome then some St.deniedState
  else if d.mm.install.isSome then some St.resourceBusy
  else none

/-- Bytes of the header that R380 gives no meaning: each is 0. -/
def fwBlank (x : List Byte) : Bool :=
  [(6, 2), (0x12, 2), (0x18, 8), (0x80, 128)].all (fun r => ((x.drop r.1).take r.2).all (fun b => b == 0))

/-- The Qorhorn signature over bytes 0x00 to 0x3F (R380). -/
def fwSigned (x : List Byte) : Bool := ecVerify Config.romKey (sha256 (x.take 64)) ((x.drop 64).take 64)

/-- SEC of a header. -/
def fwSec (x : List Byte) : Nat := tab16 x 0x10

/-- Detail code of the header checks of step 1, in the order of Table MEM-10: magic, part, LEN, SEC, signature; 0 when they pass (R380, R383).
The header's LEN is the command's (DEDUCED). -/
def fwDetail (d : Dev) (len : Nat) (x : List Byte) : Nat :=
  if tab32 x 0 ≠ 0x57464D54 ∨ tab16 x 4 ≠ 1 then 1
  else if tab32 x 8 ≠ 0x3264 then 3
  else if tab32 x 0x14 ≠ len ∨ !fwBlank x then 1
  else if fwSec x < d.mm.minsec ∨ 4095 < fwSec x then 4
  else if !fwSigned x then 2
  else 0

/-- The 8-byte result (R383). -/
def fwResult (b : Bool) (detail : Nat) (v : Word) : List Byte :=
  [BitVec.ofNat 8 (b2n b), BitVec.ofNat 8 detail, 0, 0] ++ wordBytes v

/-- An install ends. -/
def fwEnd (j : Install) (st detail : Nat) (d : Dev) : Dev :=
  finish j.h st (fwResult j.bankB detail j.ver) (withMem (fun m => { m with install := none }) d)

/-- The target bank is erased. -/
def fwWipe (j : Install) (d : Dev) : Dev :=
  clearBad (0x180000 * b2n j.bankB) 0x180000 (addWear (b2n j.bankB) (setBank j.bankB FwBank.erased d))

/-- An install withdraws the marker of its target, which is without a valid one before step 5 (R382; log 123). -/
def unmark (b : Bool) (d : Dev) : Dev := setBank b { fwBank d b with marker := none } d

/-- The header is there: step 1 of Table MEM-10. A failed check leaves the target bank erased (R383). -/
def fwHeader (j : Install) (x : List Byte) (d : Dev) : Dev :=
  let j := { j with ver := BitVec.ofNat 32 (tab32 x 0x0C), sec := fwSec x, hash := (x.drop 0x20).take 32 }
  let k := fwDetail d j.len x
  if k ≠ 0 then fwEnd j St.checkFail k (fwWipe j d)
  else withMem (fun m => { m with install := some { j with step := 2, at0 := d.now } }) d

/-- The first 256 bytes of the image that BULK has brought, once they are there. -/
def bulkHeader (d : Dev) (h : Nat) : Option (List Byte) :=
  let x := (bulkBytes d h 496).take 256
  if x.length = 256 then some x else none

/-- BULK has brought more of a running install's image (R382). -/
def fwArrived (d : Dev) : Dev :=
  match d.mm.install with
  | some j => if j.step = 1 then (match bulkHeader d j.h with
      | some x => fwHeader j x d
      | none => d) else d
  | none => d

/-- FW_UPDATE begins (R382, R383): the head reads the header in its window, a stack device once BULK has brought it. -/
def fwBegin (h : Nat) (c : Desc) (b : Both) : Both :=
  match fwRefusal b.1 with
  | some st => (finish h st [] b.1, b.2)
  | none =>
    let off := (dWord c 2).toNat
    let j : Install := ⟨h, !b.1.mm.bootB, (dWord c 3).toNat, off, 0, 0, [], 1, b.1.now⟩
    let d := unmark j.bankB b.1
    if d.head then (fwHeader j (winRead b.2 off 256) d, b.2)
    else (fwArrived (withMem (fun m => { m with install := some j }) d), b.2)

/-- FW_UPDATE (R382, R383). -/
def execFwUpdate (t : Time) (h : Nat) (c : Desc) (s : State) : Host.Outcome State Fault Refusal :=
  actOpH 0xA0 okFwUpdate t c (fwBegin h c) s

/-- The image of a running install, once all of it is there. -/
def fwImage (b : Both) : Option (List Byte) :=
  match b.1.mm.install with
  | some j => tableBytes j.h j.off j.len b
  | none => none

/-- Detail code of the checks of step 4 over the bank: hash, then signature; 0 when they pass (Table MEM-10). -/
def fwVerify (x : List Byte) : Nat :=
  if sha256 (x.drop 256) ≠ (x.drop 0x20).take 32 then 5 else if !fwSigned x then 2 else 0

/-- A non-volatile operation of the install completes (Table MEM-10). Programming is complete only when the whole image `x` has arrived. -/
def fwNvm (op : NvmOp) (ok : Bool) (x : Option (List Byte)) (d : Dev) : Dev :=
  match d.mm.install with
  | none => d
  | some j =>
    let step (n : Nat) (d : Dev) : Dev := withMem (fun m => { m with install := some { j with step := n, at0 := d.now } }) d
    match op, j.step with
    | .fwErase, 2 => if ok then step 3 (fwWipe j d) else fwEnd j St.nvmFail 0 (fwWipe j d)
    | .fwProgram, 3 =>
      (match x with
        | none => d
        | some x =>
          if !ok then fwEnd j St.nvmFail 0 d
          else
            let k := fwVerify x
            if k ≠ 0 then fwEnd j St.checkFail k (fwWipe j d) else step 5 d)
    | .fwMarker, 5 =>
      if !ok then fwEnd j St.nvmFail 0 d
      else
        let d := setBank j.bankB ⟨true, j.sec, j.ver, some j.hash, some ⟨0x4B4D5746, (fwBank d d.mm.bootB).seq + 1, some j.hash, 0xFFFFFFFF⟩⟩ d
        let d := if j.bankB then setBank false { d.mm.bankA with marker := d.mm.bankA.marker.map (fun m => { m with superseded := 0 }) } d else d
        fwEnd j St.done 0 d
    | _, _ => d

/-- A bank whose image, marker or SEC fails verification (R380, R381). -/
def bankBad (d : Dev) (x : FwBank) : Bool := !x.image || !x.marked || decide (x.sec < d.mm.minsec) || decide (4095 < x.sec)

/-- MEM_FW_STAT. -/
def fwStat (d : Dev) : Word :=
  packW [(b2n d.mm.bootB, 0), (b2n (!bankBad d d.mm.bankA), 1), (b2n (!bankBad d d.mm.bankB), 2), (b2n d.mm.bankA.superseded, 3),
    (b2n d.mm.install.isSome, 4), (min 4095 d.mm.minsec, 16)]

/-- MEM_FW_VER of a bank: 0 if invalid. -/
def fwVersion (d : Dev) (b : Bool) : Word := if bankBad d (fwBank d b) then 0 else (fwBank d b).version

end Sys2Proof.Machine
end

