-- ==== Sys2Proof/Machine/SelfTest.lean ====
section
/-! DEFINITION. Memory and logic self-tests and their record, repair, online tests, SELFTEST, REPAIR and boundary scan
(file 14). -/

namespace Sys2Proof.Machine

/-- The banks of a memory test with their results. An engine whose bank fails is excluded until a later test passes its banks
(R387). -/
def testBanks (l : List BankFails) (d : Dev) : Dev :=
  let d := each testBank l (withBist (fun t => { t with unrep := 0 }) d)
  let ex := mapBits (fun k => l.any (fun b => decide (b.mem < 0x20) && decide (b.mem % 16 = k) && bankFails (bankRepair d b.mem) b)) 0 16
  withBist (fun t => { t with engines := ex, recDue := t.recDue || decide (t.engines ≠ ex) }) d

/-! ### The record (R384, R387, R389, R390) -/

/-- Conditions of R384 and R385 that failed: bit 0 VCORE outside 0.78 V to 0.82 V, 1 the root clock outside 196 MHz to 204 MHz, 2 a die
temperature outside -40 to 125 degrees, 3 a secret that did not read back zero. -/
def testCond (r : SelfTestRun) : Nat :=
  b2n (decide (r.vcoreMin < 780) || decide (820 < r.vcoreMax)) + 2 * b2n (decide (r.clkMin < 19600) || decide (20400 < r.clkMax)) +
  4 * b2n (decide (r.tLow < -2560) || decide (8000 < r.tHigh)) + 8 * b2n (!r.cleared)

/-- The conditions of R384 held throughout the tests. -/
def testHeld (r : SelfTestRun) : Bool := decide (testCond r % 8 = 0)

/-- The memory test ran to its end: the conditions held throughout it (R384). Conditions that were lost were lost in one of the tests. -/
def memRan (r : SelfTestRun) : Bool := testHeld r || (r.memHeld && !r.logicHeld)

/-- The logic test ran to its end: every secret had been cleared, and the conditions held throughout it (R384, R385). -/
def logicRan (r : SelfTestRun) : Bool := r.cleared && (testHeld r || (r.logicHeld && !r.memHeld))

/-- Memory result: 0 pass, 1 fail, 3 not run (R384, R387). -/
def memResult (d : Dev) (r : SelfTestRun) : Nat :=
  if !memRan r then 3
  else b2n (r.banks.any (fun b => b.decoderFail || (decide (0x20 ≤ b.mem) && bankFails (bankRepair d b.mem) b)))

/-- Patterns programmed (R388, R389). -/
def testPatterns : Nat := 32768

/-- Logic result: pass only with every pattern complete and the golden signature (R389). -/
def logicResult (r : SelfTestRun) : Nat :=
  if !logicRan r then 3 else b2n (!(decide (r.patterns = testPatterns) && decide (r.misr = 0)))

/-- The signature a record holds: the seed, which is the programmed pattern count, until a response has entered the MISR (R389). -/
def signature (r : SelfTestRun) : BitVec 64 := if r.patterns = 0 then BitVec.ofNat 64 testPatterns else Config.goldenMisr ^^^ r.misr

/-- A map over memories 0x00 to 0x41 as 16 bytes. -/
def memMap (p : Nat → Bool) : List Byte := leBytes 16 (mapBits p 0 66)

/-- A 256-byte record (Table BIST-2). `found` gives the failure entries. -/
def testRecord (d : Dev) (kind abort : Nat) (r : SelfTestRun) (mem logic : Nat) (entries : List (List Byte)) (repaired : Nat) :
    List Byte :=
  let shown := entries.take 20
  let body := leBytes 4 0x54535442 ++ leBytes 2 1 ++ [BitVec.ofNat 8 kind, BitVec.ofNat 8 abort] ++
    leBytes 4 d.bi.recSeq ++ leBytes 4 d.mm.startNo ++
    [BitVec.ofNat 8 mem, BitVec.ofNat 8 logic, BitVec.ofNat 8 (testCond r % 16), BitVec.ofNat 8 shown.length] ++
    leBytes 4 testPatterns ++ leBytes 4 r.patterns ++
    leBytes 2 (min 65535 (sumNat (r.banks.map (fun b => (failWords b.fails).length)))) ++ [BitVec.ofNat 8 repaired, 0] ++
    leBytes 8 (signature r).toNat ++ leBytes 2 r.vcoreMin ++ leBytes 2 r.vcoreMax ++ leBytes 2 r.clkMin ++ leBytes 2 r.clkMax ++
    leBytes 2 (unsigned 16 r.tHigh) ++ leBytes 2 (unsigned 16 r.tLow) ++ zeros 4 ++
    memMap (fun m => r.banks.any (fun b => decide (b.mem = m) && bankFails (bankRepair d m) b)) ++
    memMap (fun m => d.bi.unrep.testBit m) ++
    (shown.flatten ++ List.replicate 160 0xFF).take 160 ++ zeros 4
  body ++ leBytes 4 (crc32 body)

/-- Append a record to the ring of 256; reclaim erases the oldest 16 (R390). -/
def appendRec (rec : List Byte) (d : Dev) : Dev :=
  let d := if d.bi.recSeq % 16 = 0 then clearBad (0x324000 + 256 * (d.bi.recSeq % 256)) 4096 d else d
  withBist (fun t => { t with
    recs := (if t.recs.length < 256 then t.recs else t.recs.drop 16) ++ [rec]
    recSeq := t.recSeq + 1
    recSecs := some d.pw.secs }) { d with pw := { d.pw with secValid := true, fullSince := false } }

/-- "Self-test result" of both tests (R391). -/
def postResults (mem logic : Nat) (d : Dev) : Dev :=
  post 0x1C01 0 [2, BitVec.ofNat 8 logic] (post 0x1C01 0 [1, BitVec.ofNat 8 mem] d)

/-- Banks in memory-index order (Table BIST-2). -/
def inOrder (l : List BankFails) : List BankFails := (upFrom 0 66).flatMap (fun m => l.filter (fun b => b.mem == m))

/-- The memory test: the device after its repairs and, where it ran to its end, the failure entries and the number of banks repaired (R386, R387). -/
def runMem (transparent : Bool) (r : SelfTestRun) (d : Dev) : Dev × List (List Byte) × Nat :=
  if memRan r then
    let u := testBanks (withRoom transparent d r.banks) d
    (u, r.banks.flatMap (fun b => bankEntries (bankRepair u b.mem) b), repairedBanks d.bi.banks u.bi.banks)
  else (d, [], 0)

/-- Run a self-test: the device after repairs, the record, and the two results (R384 to R391). In a closing, and in a full start after an
aborted one, some banks are tested transparently (R386). -/
def runTest (kind : Nat) (transparent : Bool) (r : SelfTestRun) (d : Dev) : Dev × List Byte × Nat × Nat :=
  let r := { r with banks := inOrder r.banks }
  let x := runMem transparent r d
  let mem := memResult x.1 { r with banks := withRoom transparent d r.banks }
  (x.1, testRecord x.1 kind 0 r mem (logicResult r) x.2.1 x.2.2, mem, logicResult r)

/-- What an aborted closing had measured and found by step `step` of Table PWR-8: no rule gives it, so it is free. No pattern is complete before
step 6, and in step 7 those of a logic test that ran to its end all are. -/
def abortedRun (step : Nat) (d : Dev) : SelfTestRun :=
  let w (i : Nat) : Nat := (Config.freeWord (d.free + i)).toNat
  let banks : List BankFails := (Config.freeFails d.free).map (fun b => ⟨b.1, b.2.1.filter (fun f => decide (f.2 < 79)), b.2.2.1, b.2.2.2⟩)
  let r : SelfTestRun := ⟨if step < 6 then [] else inOrder banks, w 2 % testPatterns, BitVec.ofNat 64 (w 3 + 2 ^ 32 * w 4), w 5 % 65536,
    w 6 % 65536, w 7 % 65536, w 8 % 65536, (w 9 % 32768 : Nat) - 16384, (w 10 % 32768 : Nat) - 16384, Config.freeBit d.free,
    Config.freeBit (d.free + 1), Config.freeBit (d.free + 11)⟩
  { r with patterns := if step < 6 then 0 else if step = 7 ∧ logicRan r then testPatterns else r.patterns }

/-- The free values that an aborted run takes. -/
def abortedFree : Nat := 12

/-- The self-test of a closing that is aborted in step `step` of Table PWR-8: the device, the record and the results. The test that was running and
every test after it read aborted, one that its conditions had ended reads not run, and one that had run to its end has its result, with its
failures and its repairs (R54, R384, R391). -/
def abortTest (step : Nat) (d : Dev) : Dev × List Byte × Nat × Nat :=
  let r := abortedRun step d
  let x := if step < 6 then (d, [], 0) else runMem true r d
  let mem := if step < 5 then 2 else if !memRan r then 3 else if step < 6 then 2
    else memResult x.1 { r with banks := withRoom true d r.banks }
  let logic := if step < 6 then 2 else if !logicRan r then 3 else if step < 7 then 2 else logicResult r
  (x.1, testRecord x.1 1 step r mem logic x.2.1 x.2.2, mem, logic)

/-- A record whose writing a reset cut off: 256 bytes that fail the check (R390). -/
def cutRecord (d : Dev) : List Byte :=
  let body := (upFrom 0 252).map (fun i => Config.freeByte (2 ^ 25 + 256 * d.bi.recSeq + i))
  body ++ leBytes 4 ((crc32 body + 1) % 2 ^ 32)

/-! ### Repair record (R398) -/

/-- The record image before its CRC (Table BIST-7). -/
def repairImage (engines : Nat) (banks : List (Nat × BankRepair)) : List Byte :=
  leBytes 4 0x52504552 ++ leBytes 2 1 ++ leBytes 2 engines ++ zeros 8 ++
  (upFrom 0 66).flatMap (fun m =>
    let x := kget BankRepair.init banks m
    x.rows.flatMap (leBytes 2) ++ x.cols.map (BitVec.ofNat 8) ++ [BitVec.ofNat 8 x.fused, BitVec.ofNat 8 x.unusable] ++ zeros 4)

/-- A record whose CRC checks (R398, R119). -/
def RepairRec.valid (r : RepairRec) : Bool := decide (r.crc = crc32 (repairImage r.engines r.banks))

/-- Valid slot with the higher sequence number (R398). -/
def bestRepair (d : Dev) : Option RepairRec :=
  match d.bi.slot0.filter RepairRec.valid, d.bi.slot1.filter RepairRec.valid with
  | some a, some b => some (if a.seq < b.seq then b else a)
  | some a, none => some a
  | none, x => x

/-- A spare whose repair is only soft: in use and not fused. -/
def softSpares (x : BankRepair) : Nat :=
  ((upFrom 0 4).filter (fun i => decide (x.rows.getD i 0xFFFF ≠ 0xFFFF) && !x.fused.testBit i)).length +
  ((upFrom 0 2).filter (fun i => decide (x.cols.getD i 0xFF ≠ 0xFF) && !x.fused.testBit (4 + i))).length

/-- Number of fused spares. -/
def fusedSpares (x : BankRepair) : Nat := ((upFrom 0 6).filter (fun i => x.fused.testBit i)).length

/-- All banks. -/
def allBanks (d : Dev) : List BankRepair := (upFrom 0 66).map (bankRepair d)

/-- What a fuse alone repairs: the fused spares of a bank. -/
def fusedOnly (x : BankRepair) : BankRepair :=
  { x with
    rows := (upFrom 0 4).map (fun i => if x.fused.testBit i then x.rows.getD i 0xFFFF else 0xFFFF)
    cols := (upFrom 0 2).map (fun i => if x.fused.testBit (4 + i) then x.cols.getD i 0xFF else 0xFF)
    unusable := 0
    badFuse := 0 }

/-- A bank's repairs by its fuses first, then by the record, which covers the spares that no fuse holds (R398). -/
def joined (fuses x : BankRepair) : BankRepair :=
  { x with
    rows := (upFrom 0 4).map (fun i => if fuses.fused.testBit i then fuses.rows.getD i 0xFFFF else x.rows.getD i 0xFFFF)
    cols := (upFrom 0 2).map (fun i => if fuses.fused.testBit (4 + i) then fuses.cols.getD i 0xFF else x.cols.getD i 0xFF)
    fused := x.fused ||| fuses.fused }

/-- Step 2 of a start: fuse repairs, then the record (R398). -/
def applyRepair (d : Dev) : Dev :=
  match bestRepair d with
  | some r =>
    let l := each (fun m l => kset BankRepair.init l m (joined (kget BankRepair.init d.bi.banks m) (kget BankRepair.init r.banks m))) (upFrom 0 66) []
    withBist (fun t => { t with banks := l, engines := r.engines, applied := true
                                soft0 := sumNat ((l.map Prod.snd).map softSpares) }) d
  | none => withBist (fun t => { t with
      banks := each (fun m l => kset BankRepair.init l m (fusedOnly (kget BankRepair.init t.banks m))) (upFrom 0 66) []
      engines := 0, applied := false, soft0 := 0 }) d

/-- A new repair record goes into slot 0: it is the older one, or empty (R398). -/
def repairInto0 (d : Dev) : Bool :=
  match d.bi.slot0, d.bi.slot1 with
  | some a, some b => decide (a.seq < b.seq)
  | some _, none => false
  | none, _ => true

/-- A new repair record is written into the other slot (R398). -/
def writeRepair (d : Dev) : Dev :=
  let seq := match bestRepair d with
    | some r => r.seq + 1
    | none => 1
  let into0 := repairInto0 d
  let x : RepairRec := ⟨seq, d.bi.engines, d.bi.banks, crc32 (repairImage d.bi.engines d.bi.banks)⟩
  let d := withBist (fun t => { t with recDue := false, slot0 := if into0 then some x else t.slot0, slot1 := if into0 then t.slot1 else some x }) d
  addWear (if into0 then 6 else 7) d

/-- The repair record's write completes (R398, R399). -/
def repairNvm (ok : Bool) (d : Dev) : Dev :=
  if d.bi.recDue then
    let d := if ok then writeRepair d else withBist (fun t => { t with recDue := false }) d
    match d.bi.job with
    | some j => finish j.h (if ok then j.status else St.nvmFail) j.res (withBist (fun t => { t with job := none }) d)
    | none => d
  else d

/-! ### REPAIR (R399) -/

/-- MEM. -/
def rpMem (c : Desc) : Nat := dFld c 2 7 0

/-- REPAIR's arguments (R399). -/
def okRepair (c : Desc) : Bool :=
  decide (dFld c 2 31 8 = 0) && (decide (rpMem c ≤ 0x41) || decide (rpMem c = 0xFF)) && zeroFrom c 3

/-- Soft spares of a bank, by number: rows 0 to 3, columns 4 and 5. -/
def softList (x : BankRepair) : List Nat :=
  (upFrom 0 4).filter (fun i => decide (x.rows.getD i 0xFFFF ≠ 0xFFFF) && !x.fused.testBit i) ++
  ((upFrom 0 2).filter (fun i => decide (x.cols.getD i 0xFF ≠ 0xFF) && !x.fused.testBit (4 + i))).map (fun i => 4 + i)

/-- Why REPAIR is refused (R399). -/
def repairRefusal (d : Dev) : Option Nat :=
  if !windowOpen d then some St.deniedWindow
  else if d.pw.persist || d.mm.install.isSome || d.ca.store.isSome then some St.deniedState
  else if d.bi.job.isSome then some St.resourceBusy
  else none

/-- Time to program one 16-bit fuse word at 20 us per bit (R399). -/
def fuseTime : Nat := usT 320

/-- Fuse what is in scope, one word after the other; the command completes when the record is written (R399). `bad` are the words that fail
verification. A reset ends the sequence: the word it meets is left part-programmed, and its parity fails. -/
def repairBegin (h : Nat) (c : Desc) (bad : List (Nat × Nat)) (d : Dev) : Dev :=
  match repairRefusal d with
  | some st => finish h st [] d
  | none =>
    let mems := if rpMem c = 0xFF then upFrom 0 66 else [rpMem c]
    let todo := mems.flatMap (fun m => (softList (bankRepair d m)).map (fun i => (m, i)))
    let good := todo.filter (fun e => decide (e ∉ bad))
    let rows := (good.filter (fun e => decide (e.2 < 4))).length
    let cols := good.length - rows
    let fails := todo.length - good.length
    let at' (i : Nat) : Time := later d.now (fuseTime * i)
    let due := insertDue ⟨at' todo.length, .fuseEnd⟩ d.ca.todo
    let due := (List.zip (upFrom 1 todo.length) todo).reverse.foldl (fun l e => insertDue ⟨at' e.1, .fuse e.2.1 e.2.2 (decide (e.2 ∉ bad))⟩ l) due
    withBist (fun t => { t with job := some ⟨h, if fails = 0 then St.done else St.partial',
      leBytes 2 rows ++ [BitVec.ofNat 8 cols, BitVec.ofNat 8 fails]⟩ }) { d with ca := { d.ca with todo := due } }

/-- REPAIR (R399). -/
def execRepair (t : Time) (h : Nat) (c : Desc) (bad : List (Nat × Nat)) (s : State) : Host.Outcome State Fault Refusal :=
  actOp 0x71 okRepair t c (repairBegin h c bad) s

/-! ### Online tests (R392 to R394) -/

/-- The next cell whose stage is tested in turn (R392). -/
def stageNext (d : Dev) (g : LaneGroup) : Nat := if (stages d g).next ≤ ncells d then (stages d g).next else 1

/-- The scheduled test of a lane stage begins: the lanes go in ascending cell order, one of each group at a time; none begins in a relief slot,
after a failure in the group, or before a SELFTEST that waits (R392, R393, R396). -/
def laneStage (g : LaneGroup) (cell : Nat) (spareOk stageOk : Bool) (d : Dev) : Dev :=
  if decide (1 ≤ cell) && decide (cell ≤ ncells d) && decide (cell = stageNext d g) && !spareStageFailed d g && !laneFailed d g &&
      !relieved d (laneIdx g cell) && (stages d g).on.isNone && (stages d g).queue.isNone then
    stageBegin g ⟨cell, none, spareOk, stageOk⟩ (withStages g (fun s => { s with next := cell + 1 }) d)
  else d

/-- LANE_STAGE_TEST (R392, R393). -/
def execLaneStageTest (t : Time) (g : LaneGroup) (cell : Nat) (spareOk stageOk : Bool) (s : State) :
    Host.Outcome State Fault Refusal :=
  actAwake t (laneStage g cell spareOk stageOk) s

/-- A slot of group k begins at ring time t (R394): slot j, 0.9 s and j seconds after lane start, takes group j mod 4. -/
def cmpSlot (d : Dev) (k : Nat) (t : Time) : Bool :=
  let x := since d.ca.laneAt t
  decide (msT 900 ≤ x) && decide ((x - msT 900) % lsbPerSec < msT 1) && decide ((x - msT 900) / lsbPerSec % 4 = k) &&
  d.ca.cmpFrom.isNone

/-- CMP_GROUP_TEST (R394). -/
def execCmpGroupTest (t : Time) (k : Nat) (pairs : List PairSeen) (s : State) : Host.Outcome State Fault Refusal :=
  actAwake t (fun d => if cmpSlot d k t && !(groupCells d k).isEmpty then cmpBegin k none pairs d else d) s

/-! ### SELFTEST (R396) -/

/-- TYPE. -/
def stType (c : Desc) : Nat := dFld c 2 2 0
/-- INDEX. -/
def stIndex (c : Desc) : Nat := dFld c 2 13 8

/-- SELFTEST's arguments (R396, Table BIST-6). -/
def okSelftest (c : Desc) : Bool :=
  decide (dFld c 2 7 3 = 0) && decide (dFld c 2 31 14 = 0) && zeroFrom c 3 &&
  (match stType c with
    | 0 => decide (stIndex c = 0)
    | 1 => true
    | 2 => decide (stIndex c ≤ 3)
    | 3 => decide (stIndex c ≤ 15)
    | _ => false)

/-- TYPE 0: the newest record, and after a full start every captured failure. Without a record it is free. -/
def reportRecord (h : Nat) (d : Dev) : Dev :=
  match d.bi.recs.getLast? with
  | some r =>
    let full := decide (r.getD 6 0 = 2)
    finish h St.done (r ++ (if full then d.bi.captured.flatMap (fun e => e.2.flatten) else [])) d
  | none => finish h St.done ((upFrom 0 256).map Config.freeByte) d

/-- A SELFTEST of TYPE 1 runs or waits. -/
def stageAsked (d : Dev) : Bool :=
  [d.bi.stA, d.bi.stB].any (fun s => s.queue.isSome || (match s.on with
    | some x => x.h.isSome
    | none => false))

/-- TYPE 1 (R392, R396): behind the scheduled test of the same group, and outside the lane's relief slot. -/
def testLane (h m : Nat) (r : OnlineTest) (d : Dev) : Dev :=
  let g : LaneGroup := if m < 32 then .a else .b
  let cell := m % 32 + 1
  if ncells d < cell ∨ laneFailed d g ∨ spareStageFailed d g then finish h St.deniedState [] d
  else if stageAsked d then finish h St.resourceBusy [] d
  else stageTry g (withStages g (fun s => { s with queue := some ⟨cell, some h, r.spareOk, r.stageOk⟩ }) d)

/-- TYPE 2 (R394, R396): behind the test that runs. -/
def testGroup (h k : Nat) (r : OnlineTest) (d : Dev) : Dev :=
  let cells := groupCells d k
  if cells.isEmpty then finish h St.deniedState [] d
  else if d.bi.cmpJob || d.bi.cmpQueue.isSome then finish h St.resourceBusy [] d
  else if d.ca.cmpFrom.isSome then withBist (fun t => { t with cmpQueue := some (h, k, r.pairs) }) d
  else if cells.all (pairSkipped d) then finish h St.inputNotReady [] d
  else cmpBegin k (some h) r.pairs d

/-- Time that a memory test of one engine takes: R396 bounds it by 5 ms, and the model takes the whole of it. -/
def engTestLen : Nat := msT 5

/-- TYPE 3 (R396): the banks of engine k. -/
def testEngine (h k : Nat) (r : OnlineTest) (d : Dev) : Dev :=
  if !(servedBy d k).isEmpty then finish h St.deniedState [] d
  else if d.bi.engTest.isSome || !d.en.rebal.isEmpty then finish h St.resourceBusy [] d
  else withBist (fun t => { t with engTest := some k })
    { d with ca := { d.ca with todo := insertDue ⟨later d.now engTestLen, .engEnd h k r.bank⟩ d.ca.todo } }

/-- SELFTEST runs (R396). -/
def selftest (h : Nat) (c : Desc) (r : OnlineTest) (d : Dev) : Dev :=
  if d.pw.persist then finish h St.deniedState [] d
  else match stType c with
    | 0 => reportRecord h d
    | 1 => testLane h (stIndex c) r d
    | 2 => testGroup h (stIndex c) r d
    | _ => testEngine h (stIndex c) r d

/-- SELFTEST (R396). -/
def execSelftest (t : Time) (h : Nat) (c : Desc) (r : OnlineTest) (s : State) : Host.Outcome State Fault Refusal :=
  actOp 0x70 okSelftest t c (selftest h c r) s

/-! ### Status words -/

/-- The newest record. -/
def newestRec (d : Dev) : List Byte := d.bi.recs.getLast?.getD []

/-- Does a record's CRC check? -/
def recOk (r : List Byte) : Bool := decide (r.length = 256) && decide (crc32 (r.take 252) = tab32 r 252)

/-- BIST_STAT. -/
def bistStat (d : Dev) : Word :=
  let r := newestRec d
  packW [(tab8 r 0x10 % 4, 0), (tab8 r 0x11 % 4, 2), (tab8 r 6 % 4, 4), (b2n (recOk r), 6), (b2n d.bi.engTest.isSome, 7),
    (tab8 r 0x12, 8)]

/-- BIST_REC_SEQ. -/
def bistRecSeq (d : Dev) : Word := BitVec.ofNat 32 (tab32 (newestRec d) 8)

/-- BIST_AGE. -/
def bistAge (d : Dev) : Word :=
  match d.bi.recSecs with
  | some k => if d.pw.secValid then BitVec.ofNat 32 (d.pw.secs - k) else 0xFFFFFFFF
  | none => 0xFFFFFFFF

/-- BIST_PATCNT. -/
def bistPatcnt (d : Dev) : Word :=
  let r := newestRec d
  packW [(min 65535 (tab32 r 0x14), 0), (min 65535 (tab32 r 0x18), 16)]

/-- BIST_REPAIR. -/
def bistRepairWord (d : Dev) : Word :=
  packW [(min 511 d.bi.soft0, 0), (min 511 (sumNat ((allBanks d).map fusedSpares)), 16), (b2n d.bi.applied, 25), (b2n d.bi.job.isSome, 26)]

/-! ### Boundary scan (R400 to R402, R330) -/

/-- Instructions that take the pins (R402). -/
def holdsPins (ir : Nat) : Bool := decide (ir ∈ [0x00, 0x03, 0x04, 0x05, 0x06])

/-- BIST_JTAG. -/
def bistJtag (d : Dev) : Word :=
  packW [(d.bi.ir, 0), (b2n (holdsPins d.bi.ir), 5), (b2n (holdsPins d.bi.ir && !windowOpen d), 6)]

/-- The instruction that a code selects (Table BIST-9): every code not listed selects BYPASS. -/
def tapSelect (ir : Nat) : Nat := if ir ≤ 0x06 then ir else 0x1F

end Sys2Proof.Machine
end

