-- ==== Sys2Proof/Machine/Link.lean ====
section
/-! DEFINITION. The link ports: bursts, frames, acknowledgement and retries, training, hops going down, delay measurement, the
fault tone and the wake stream (file 08). -/

namespace Sys2Proof.Machine

/-- Change a port. -/
def withPort (p : Port) (f : LinkPort → LinkPort) (d : Dev) : Dev := setPort p (f (port d p)) d

/-- Change the ring fields. -/
def withRing (f : Ring → Ring) (d : Dev) : Dev := { d with rg := f d.rg }

/-- Change the fault tone's fields. -/
def withTone (f : Tone → Tone) (d : Dev) : Dev := { d with tn := f d.tn }

/-! ### Breaks as the head recognises them (R268) -/

/-- The highest position of a list. -/
def highest (l : List Nat) : Nat := l.foldl max 0

/-- The lowest position of a list, `none'` where it is empty. -/
def lowest (none' : Nat) (l : List Nat) : Nat := l.foldl min none'

/-- BREAK_LO and BREAK_HI: each from the neighbour's event where it has come, else from the positions seen in the latest
heartbeat that returned on that side; 0, or n + 1, where none was seen (R268). -/
def placeBreak (d : Dev) : Dev :=
  withRing (fun r => { r with
    lo := if r.loEv then r.lo else highest r.inN
    hi := if r.hiEv then r.hi else lowest (r.n + 1) r.inS }) d

/-- The head recognises a break (R268). -/
def recognise (d : Dev) : Dev :=
  if d.head && !d.rg.brk then
    let d := placeBreak (withRing (fun r => { r with brk := true, brkAt := d.now, upAt := none }) d)
    occur 35 0 0x1201 [BitVec.ofNat 8 d.rg.lo, BitVec.ofNat 8 d.rg.hi] d
  else d

/-- A bound of the break from a hop-down event: `low` for BREAK_LO (R268). -/
def bound (low : Bool) (k : Nat) (d : Dev) : Dev :=
  if d.head then
    recognise (withRing (fun r => if low then { r with lo := k, loEv := true } else { r with hi := k, hiEv := true }) d)
  else d

/-! ### Rates and states (R221, R236, R237) -/

/-- MAXRATE of a port. -/
def rateLimit (d : Dev) : Port → Nat
  | .north => regFld d R.linkCtrl 1 0
  | .south => regFld d R.linkCtrl 3 2

/-- The rate at which training begins: the limit, or slower after link errors (R237). -/
def startRate (d : Dev) (p : Port) : Nat := max (rateLimit d p) (port d p).cap

/-- The port begins to train (R236). -/
def beginTraining (p : Port) (d : Dev) : Dev :=
  let r := startRate d p
  withPort p (fun x => { x with
    st := .training, trial := r, cycles := 0, tries := 0, locked := false, rxN := 0, txN := 0, ownTo := 0, sent := none, ackDue := none,
    wakeTx := false, wakeRx := false, rxHead := none, rxBad := false, cut := false, again := false, quietAt := none, trainAt := d.now,
    listenAt := d.now }) d

/-- A port that trains: with the wake stream on it, it has not begun (R244). -/
def training (x : LinkPort) : Bool := decide (x.st = .training) && !x.wakeRx

/-- LINK_CNT register k of a port. -/
def cntOff (p : Port) (k : Nat) : Nat :=
  match p with
  | .north => R.linkCntN + 4 * k
  | .south => R.linkCntS + 4 * k

/-- The hop of a port goes down; cause as "hop down" numbers them (R237, Table REG-5). Frames that wait are held, the
outstanding one first. `cap` bounds the rate of the next training. -/
def hopDown (p : Port) (cause cap : Nat) (d : Dev) : Dev :=
  let x := port d p
  let wait := match x.out with
    | some f => f :: x.queue
    | none => x.queue
  let d := setPort p { x with queue := wait, out := none, retries := 0, dly := [], cap := cap } d
  let d := withRing (fun r => { r with upAt := none }) (beginTraining p d)
  let d := occur 32 (portIdx p) 0x1003 [BitVec.ofNat 8 cause] d
  match p with
  | .north => bound true 0 d
  | .south => bound false (d.rg.n + 1) d

/-- Take an UP hop down. -/
def downIfUp (p : Port) (cause cap : Nat) (d : Dev) : Dev := if (port d p).isUp then hopDown p cause cap d else d

/-- No valid burst has come for 100 us (R237), counted from the end of the own burst that answered the last one, during which the peer
sends none (DEDUCED, log 118): a reclaim of the line (R224) moves it no further. -/
def silent (x : LinkPort) (now : Time) : Bool := passed (usT 100) x.burstAt now && decide (x.waitAt.toNat + usT 100 ≤ now.toNat)

/-- HOP_DOWN_TIMEOUT (R237): no valid burst for 100 us. -/
def execHopDownTimeout (t : Time) (p : Port) (s : State) : Host.Outcome State Fault Refusal :=
  actAwake t (fun d => if silent (port d p) d.now then downIfUp p 1 0 d else d) s

/-- RETRAIN of a port: an UP hop goes down; one that trains or is broken starts again from the limit (R237, LINK_CMD). -/
def retrain (p : Port) (d : Dev) : Dev :=
  match (port d p).st with
  | .up => hopDown p 4 0 d
  | .training | .broken => beginTraining p (withPort p (fun x => { x with cap := 0 }) d)
  | .bypass => d

/-- A write to LINK_CMD (R237). -/
def linkCmd (v : Word) (d : Dev) : Dev :=
  let d := if bit v 0 then retrain .north d else d
  if bit v 1 then retrain .south d else d

/-- LINK_RETRAIN (R237). -/
def execLinkRetrain (t : Time) (v : Word) (s : State) : Host.Outcome State Fault Refusal := actAt t (linkCmd v) s

/-- The rate after a rate: the next lower one, after the slowest the first again (R236). -/
def nextRate (d : Dev) (p : Port) : Nat := if (port d p).trial < 2 then (port d p).trial + 1 else startRate d p

/-- A port that trains begins at a rate, not locked (R236). -/
def LinkPort.tryRate (rate : Nat) (now : Time) (x : LinkPort) : LinkPort :=
  { x with trial := rate, locked := false, rxN := 0, txN := 0, trainAt := now, listenAt := now }

/-- A rate fails: the next lower one; when every rate from the limit down has failed a new cycle, and after three cycles BROKEN (R236). A
south end counts the attempts that failed to it in the same way (DESIGN CHOICE, log 118). -/
def rateFailed (p : Port) (d : Dev) : Dev :=
  let x := port d p
  let y := x.tryRate (nextRate d p) d.now
  if x.tries + 1 < 3 - startRate d p then setPort p { y with tries := x.tries + 1 } d
  else if x.cycles < 2 then setPort p { y with tries := 0, cycles := x.cycles + 1 } d
  else occur 33 (portIdx p) 0x1004 [] (setPort p { y with st := .broken, cycles := 3 } d)

/-- Does a list of code groups hold a code violation (R222)? -/
def violated (rd : Bool) (groups : List Nat) : Bool := (decodeGroups rd groups).1.any (fun c => decide (c = .bad))

/-- The present rate has failed: 1.0 ms without a lock, or once locked a code violation (R236). -/
def checkFailed (p : Port) (groups : List Nat) (d : Dev) : Bool :=
  let x := port d p
  if x.locked then violated x.rxRd groups else passed (msT 1) x.trainAt d.now

/-- TRAIN_RATE_TIMEOUT (R236). -/
def execTrainRateTimeout (t : Time) (p : Port) (groups : List Nat) (s : State) : Host.Outcome State Fault Refusal :=
  actAwake t (fun d => if training (port d p) && checkFailed p groups d then rateFailed p d else d) s

/-- The south end listens at each rate at or below its limit in turn, 100 us at each, until it locks (R236). Where a line on which it has
locked then carries nothing valid for 100 us it listens again (DESIGN CHOICE, log 118). -/
def listenNext (p : Port) (d : Dev) : Dev :=
  let x := port d p
  if training x && decide (p = .south) && passed (usT 100) (if x.locked then x.lineAt else x.listenAt) d.now then
    setPort p { x.tryRate (nextRate d p) d.now with trainAt := if x.locked then d.now else x.trainAt } d
  else d

/-- TRAIN_LISTEN_RATE (R236). -/
def execTrainListenRate (t : Time) (p : Port) (s : State) : Host.Outcome State Fault Refusal := actAwake t (listenNext p) s

/-- TRAIN_RETRY (R236): a BROKEN port tries again every 100 ms. -/
def execTrainRetry (t : Time) (p : Port) (s : State) : Host.Outcome State Fault Refusal :=
  actAwake t (fun d => if (port d p).st = .broken ∧ passed (msT 100) (port d p).trainAt d.now then beginTraining p d else d) s

/-- A cell trip confirmed in SLEEP or GAZEBO latches once the link is up (R57). The comparators show what is then present. -/
def latchTrip (e : Nat × Bool) (d : Dev) : Dev :=
  gone 0 e.1 (latch 0 e.1 (withAcc e.1 (fun a => { a with flags := a.flags ||| (if e.2 then 2 else 4) }) d))

/-- The trips that woke the device latch (R57). -/
def latchTrips (d : Dev) : Dev :=
  { each latchTrip d.pw.tripWake d with pw := { d.pw with tripWake := [] } }

/-! ### Bursts as sent (R220, R222 to R228) -/

/-- Transmit class of a frame (Table LINK-3). -/
def frameClass (typ : Nat) : Nat :=
  match typ with
  | 0x07 => 1
  | 0x08 | 0x04 | 0x0A => 2
  | 0x01 | 0x02 | 0x05 | 0x03 | 0x09 => 3
  | 0x06 => 4
  | _ => 5

/-- The first frame of the lowest class in a queue (R225). -/
def firstOf (q : List Frame) : Option Frame :=
  (upFrom 1 5).findSome? (fun c => q.find? (fun f => frameClass f.typ == c))

/-- The bytes of a frame as port p sends it (R226, R228, Table LINK-4). -/
def frameBytes (p : Port) (alive : Nat) (f : Frame) : List Byte :=
  let head := [BitVec.ofNat 8 (pack [(f.dest % 64, 0), (portIdx p, 6), (b2n f.loc, 7)]), BitVec.ofNat 8 (f.src % 64),
    BitVec.ofNat 8 f.typ, BitVec.ofNat 8 f.seq, BitVec.ofNat 8 (alive + 16 * f.stat)] ++ leBytes 2 f.pay.length
  let head := head ++ [BitVec.ofNat 8 (crc8h head)]
  head ++ f.pay ++ leBytes 4 (crc32c (head ++ f.pay))

/-- The characters of an answer (R232). -/
def answerSyms : Option (Bool × Nat × Nat) → List Sym
  | none => []
  | some (ack, a, b) => [.ctl (if ack then .ack else .nak), .data (BitVec.ofNat 8 a), .data (BitVec.ofNat 8 b)]

/-- The characters of a burst before its frame (R222, R223, R232). -/
def burstHead (ls : Nat) (ans : Option (Bool × Nat × Nat)) : List Sym := [.ctl .sync, .data (BitVec.ofNat 8 ls)] ++ answerSyms ans

/-- The characters of a burst (R223): a TMARK precedes the SOF of a beacon (R256); 60 TRAIN fill a training burst (R236). -/
def burstSyms (b : Burst) : List Sym :=
  burstHead b.ls b.ans ++ (if b.train then List.replicate 60 (.ctl .train) else []) ++
  (match b.frame with
  | none => []
  | some l => (if b.mark then [.ctl .tmark] else []) ++ [.ctl .sof] ++ l.map .data ++ [.ctl (if b.aborted then .abort else .eof)]) ++
  [.ctl .turn]

/-- The code groups of a burst on the line (R220). -/
def burstGroups (b : Burst) : List Nat := (encodeSyms b.rd (burstSyms b)).1

/-- Link-state byte of a burst of port p (R222). -/
def linkState (d : Dev) (p : Port) : Nat :=
  pack [((port d p).rate, 0), (b2n (decide (p = .north)), 2), (b2n d.tn.hold, 3)]

/-- Is the fault tone on the line of port p (R240 to R242)? -/
def toneOn (d : Dev) (p : Port) : Bool := (port d p).rxTone || (port d p).toneTx || decide (d.tn.fwd = some p)

/-- Does the device drive its own tone, on either port (R240)? -/
def driving (d : Dev) : Bool := d.ln.toneTx || d.ls.toneTx

/-- A BEACON as it departs (R256): the head's T0, or the residence time since the TMARK arrived added to CORR, for a TMARK that leaves at
`at'`. -/
def departing (head : Bool) (at' : Nat) (f : Frame) : Frame :=
  if f.typ ≠ 0x07 then f
  else if head && decide (f.src = 0) then { f with pay := leBytes 8 at' ++ f.pay.drop 8 }
  else { f with
    pay := f.pay.take 8 ++ leBytes 4 (leNat ((f.pay.drop 8).take 4) + 5 * (8 * at' - f.stamp)) ++ f.pay.drop 12 }

/-- A REQUEST of the head with a descriptor departs: the accept timeout runs from its first departure (R251). -/
def noteDeparture (at' : Nat) (f : Frame) (d : Dev) : Dev :=
  let h := leNat (f.pay.take 2)
  if d.head && decide (f.typ = 0x01) && decide (f.src = 0) && decide (f.pay.length = 68) && d.ex.departed.all (fun e => e.1 ≠ h) then
    { d with ex := { d.ex with departed := d.ex.departed ++ [(h, BitVec.ofNat 64 at')] } }
  else d

/-- End of a burst of n characters that begins at `start`. -/
def burstEnd (start : Time) (rate n : Nat) : Time := start + BitVec.ofNat 64 (charTime rate * n)

/-- The end of the own burst that answers a valid burst: `fin`, the end of the burst that begins, where one has come since the burst
before (R237). -/
def LinkPort.waits (x : LinkPort) (fin : Time) : Time := if x.ownFrom.toNat ≤ x.burstAt.toNat then fin else x.waitAt

/-- The port sends its burst, beginning at `start`: the answer due, then the next frame of the queue, or the frame outstanding where the
peer's burst brings it again or the tone cut it off (R223, R225, R233, R242). While it waits for the peer's burst it sends no frame. No
burst starts while the tone is on the line (R240, R242). -/
def sendBurst (p : Port) (start : Time) (d : Dev) : Dev :=
  if toneOn d p then d
  else
    let x := port d p
    let next := match x.out with
      | some f => if x.again || x.cut then some f else none
      | none => firstOf x.queue
    let queue := match x.out, next with
      | none, some f => x.queue.erase f
      | _, _ => x.queue
    let ls := linkState d p
    let mark := start.toNat + charTime x.rate * (burstHead ls x.ackDue).length
    let b : Burst := ⟨ls, x.ackDue, (next.map (departing d.head mark)).map (frameBytes p x.alive),
      decide (next.map Frame.typ = some 0x07), false, false, x.txRd⟩
    let fin := burstEnd start x.rate (burstSyms b).length
    let d := match next with
      | some f => noteDeparture mark f d
      | none => d
    setPort p { x with
      ownFrom := start
      ownTo := fin
      waitAt := x.waits fin
      out := x.out.orElse (fun _ => next)
      queue := queue
      ackDue := none
      cut := false
      again := false
      txRd := (encodeSyms b.rd (burstSyms b)).2
      sent := some b } d

/-- A port that trains sends a training burst at the rate it tries, beginning at `start` (R236). -/
def trainBurst (p : Port) (start : Time) (d : Dev) : Dev :=
  if toneOn d p then d
  else
    let x := port d p
    let b : Burst := ⟨linkState (setPort p { x with rate := x.trial } d) p, none, none, false, false, true, x.txRd⟩
    let n := (burstSyms b).length
    setPort p { x with
      ownFrom := start
      ownTo := burstEnd start x.trial n
      txN := if x.locked then x.txN + n else x.txN
      txRd := (encodeSyms b.rd (burstSyms b)).2
      sent := some b } d

/-- The burst that answers a TURN starts 100 ns to 200 ns after it: how long is free (R224). -/
def answerBurst (send : Port → Time → Dev → Dev) (p : Port) (d : Dev) : Dev :=
  let (w, d) := freeWord d
  send p (d.now + BitVec.ofNat 64 (20 + w.toNat % 21)) d

/-! ### Delay and the way to UP (R236 to R238) -/

/-- t3 - t2 as the south end sends it in two bytes, LSB 5 ns (R238). -/
def turnTime (e : DlyStamps) : Nat := (quot ((e.t3 - e.t2 : Nat) : Int) 8).toNat % 65536

/-- The hop delay of an exchange at a rate, in 0.0125 ns (R238). -/
def exchangeDelay (rate : Nat) (e : DlyStamps) : Int :=
  25 * (((e.t4 : Int) - e.t1)) - 200 * (turnTime e : Int) - (Config.linkLatency rate : Int)

/-- 4,096 characters in each direction at a rate: a hop is not UP before (R236, Table LINK-9). -/
def checkTime (rate : Nat) : Nat := 8192 * charTime rate

/-- The check has passed: 4,096 characters in each direction since the lock, in the time that they take (R236, Table LINK-9). -/
def LinkPort.checked (x : LinkPort) (now : Time) : Bool :=
  x.locked && decide (4096 ≤ x.rxN) && decide (4096 ≤ x.txN) && passed (checkTime x.trial) x.trainAt now

/-- Originating ends any forwarding: a port that was forwarded to and that drives no own burst falls quiet (R241, R242). -/
def endForward (d : Dev) : Dev :=
  let d := match d.tn.fwd with
    | some q => if (port d q).toneTx then d else withPort q (fun x => { x with quietAt := some d.now, lineAt := d.now }) d
    | none => d
  withTone (fun n => { n with fwd := none }) d

/-- A tone latched during the start begins on the port whose hop is UP (R427). -/
def toneOnUp (p : Port) (d : Dev) : Dev := endForward (withPort p (LinkPort.startTone d.now) d)

/-- The 64 exchanges are complete and the hop is UP: ALIVE and the last accepted value reset, the north end sends the first
burst, a tone latched during the start is driven on this port (R224, R234, R236, R238, R427). -/
def linkUp (p : Port) (ex : List DlyStamps) (d : Dev) : Dev :=
  let x := port d p
  if training x && decide (ex.length = 64) && x.checked d.now then
    let due := x.toneDue
    let d := setPort p { x with
      st := .up, rate := x.trial, cycles := 0, ups := (x.ups + 1) % 65536, alive := 0, lastAlive := none, rxBuf := [],
      dly := ex.map (exchangeDelay x.trial), dlyAt := d.now, burstAt := d.now, lineAt := d.now, ownTo := 0, waitAt := d.now,
      sent := none, toneDue := false } d
    let d := latchTrips d
    if due then toneOnUp p d else if p = .north then sendBurst p d.now d else d
  else d

/-- LINK_UP (R236, R238, R427). -/
def execLinkUp (t : Time) (p : Port) (ex : List DlyStamps) (s : State) : Host.Outcome State Fault Refusal :=
  actAwake t (linkUp p ex) s

/-- One exchange every 10 s replaces the oldest of 64 (R238). -/
def exchange (p : Port) (e : DlyStamps) (d : Dev) : Dev :=
  let x := port d p
  if x.isUp && passed (msT 10000) x.dlyAt d.now then
    setPort p { x with dly := lastN 64 (x.dly ++ [exchangeDelay x.rate e]), dlyAt := d.now } d
  else d

/-- DELAY_EXCHANGE (R238). -/
def execDelayExchange (t : Time) (p : Port) (e : DlyStamps) (s : State) : Host.Outcome State Fault Refusal :=
  actAwake t (exchange p e) s

/-- Mean hop delay in 0.1 ns (R238). -/
def hopDelay (x : LinkPort) : Nat := if x.dly.isEmpty then 0 else (quot x.dly.sum (8 * x.dly.length)).toNat

/-- LINK_DLY of a port. -/
def linkDly (x : LinkPort) : Word := packW [(min 65535 (hopDelay x), 0), (b2n (decide (64 ≤ x.dly.length)), 16)]

/-- LINK_STAT of a port: TONE and WAKE show over the other states. -/
def linkStat (d : Dev) (p : Port) : Word :=
  let x := port d p
  let base := match x.st with
    | .bypass => 0
    | .training => 1
    | .up => 2
    | .broken => 3
  let st := if x.wakeTx || x.wakeRx then 5 else if toneOn d p then 4 else base
  packW [(st, 0), (x.rate, 4), (b2n (x.owns d.now), 6), (b2n (decide (rateLimit d p < x.rate)), 7), (x.ups, 16)]

/-! ### What the peer says of a frame (R233, R234) -/

/-- The outstanding frame is done with: ALIVE advances (R234). -/
def nextAlive (p : Port) (d : Dev) : Dev :=
  withPort p (fun x => { x with out := none, retries := 0, again := false, alive := (x.alive + 1) % 16 }) d

/-- The third retry has failed: the frame is dropped (R233); at N the hop goes down (R237). -/
def dropFrame (p : Port) (f : Frame) (d : Dev) : Dev :=
  let d := bump (cntOff p 1) 31 16 1 (nextAlive p d)
  let was := lasting d 31 (portIdx p)
  let d := occur 31 (portIdx p) 0x1002 [BitVec.ofNat 8 f.typ, BitVec.ofNat 8 f.dest, BitVec.ofNat 8 f.src] d
  if lasting d 31 (portIdx p) && !was then downIfUp p 2 0 d else d

/-- What the peer's burst says of the outstanding frame (R233). One that the fault tone cut off is sent again without a retry (R242). -/
def takeAnswer (p : Port) (ans : Option Answer) (d : Dev) : Dev :=
  let x := port d p
  match x.out with
  | none => d
  | some f =>
    if x.cut then d else
    let hit := match ans with
      | some a => decide (a.src = f.src) && decide (a.alive = x.alive)
      | none => false
    match ans, hit with
    | some ⟨none, _, _⟩, true => nextAlive p d
    | some ⟨some 1, _, _⟩, true => setPort p { x with again := true } d
    | _, _ =>
      if x.retries < 3 then bump (cntOff p 1) 15 0 1 (setPort p { x with retries := x.retries + 1, again := true } d)
      else dropFrame p f d

/-- The line has carried no valid character for 2.0 us, and this end does not own it (R224). -/
def LinkPort.quiet (x : LinkPort) (now : Time) : Bool := passed (usT 2) x.lineAt now && decide (x.ownTo.toNat + usT 2 ≤ now.toNat)

/-- The north end reclaims a line on which no valid character has come for 2.0 us (R224), in training with a training burst (R236). -/
def reclaimLine (d : Dev) : Dev :=
  if !d.ln.quiet d.now then d
  else if d.ln.isUp then sendBurst .north d.now d
  else if training d.ln then trainBurst .north d.now d
  else d

/-- LINE_RECLAIM (R224). -/
def execLineReclaim (t : Time) (s : State) : Host.Outcome State Fault Refusal := actAt t reclaimLine s

/-! ### Characters as received (R220, R222, R223) -/

/-- A link error of a port: 1 CRC, 2 header, 3 code; at N the hop retrains at the next lower rate (R237, R245). -/
def linkError (p : Port) (cause : Nat) (d : Dev) : Dev :=
  let d := match cause with
    | 1 => bump (cntOff p 0) 15 0 1 d
    | 2 => bump (cntOff p 2) 15 0 1 d
    | _ => bump (cntOff p 0) 31 16 1 d
  let was := lasting d 30 (portIdx p)
  let d := occur 30 (portIdx p) 0x1001 [BitVec.ofNat 8 cause] d
  if lasting d 30 (portIdx p) && !was then downIfUp p 5 (min 2 ((port d p).rate + 1)) d else d

/-- The code violations among characters: each counts (R222, R245). -/
def countBad (p : Port) (l : List Sym) (d : Dev) : Dev := (l.filter (fun c => decide (c = .bad))).foldl (fun d _ => linkError p 3 d) d

/-- An answer's characters. An ACK whose byte does not carry the complement of ALIVE matches no frame (R232, DEDUCED). -/
def readAnswer : List Sym → Option Answer
  | .ctl .ack :: .data a :: .data b :: _ =>
    if b.toNat / 16 + b.toNat % 16 = 15 then some ⟨none, a.toNat, b.toNat % 16⟩ else none
  | .ctl .nak :: .data a :: .data b :: _ => some ⟨some (b.toNat / 16), a.toNat, b.toNat % 16⟩
  | _ => none

/-- The start of a burst: its link-state byte and its answer (R222, R223, R232). -/
def readHead : List Sym → Option (Nat × Option Answer)
  | .ctl .sync :: .data b :: r => some (b.toNat, readAnswer r)
  | _ => none

/-- Does a link-state byte fit the peer of port p (R222): the hop's rate, the other end, bits [7:4] 0? -/
def lsFits (d : Dev) (p : Port) (ls : Nat) : Bool :=
  decide (ls % 4 = (port d p).rate) && decide (ls / 4 % 2 = portIdx p) && decide (ls < 16)

/-- Has a receiver locked: 16 consecutive valid characters, aligned on the comma of SYNC (R236)? -/
def locks : List Sym → Bool
  | [] => false
  | c :: r => (decide (c = .ctl .sync) && decide (15 ≤ r.length) && (r.take 15).all (fun e => decide (e ≠ .bad))) || locks r

/-- A burst comes to a port that trains (R236): it locks; once locked a violation fails the rate, every character counts for the check, and
TURN is answered with a training burst. What comes before the lock shows nothing. -/
def trainRx (p : Port) (groups : List Nat) (d : Dev) : Dev :=
  let x := port d p
  let r := decodeGroups x.rxRd groups
  if !(x.locked || locks r.1) then d
  else if r.1.any (fun c => decide (c = .bad)) && x.locked then rateFailed p d
  else
    let d := setPort p { x with
      rxRd := r.2, lineAt := d.now, locked := true, rxN := x.rxN + r.1.length, trainAt := if x.locked then x.trainAt else d.now } d
    if r.1.getLast? = some (.ctl .turn) then answerBurst trainBurst p d else d

/-- A burst of the peer ends with TURN: what it said is taken and the port's own burst begins (R223, R224, R233). Characters that end
otherwise pass no line. A burst is valid with a start that fits and no violation outside its frame (R237, DEDUCED). -/
def burstRx (p : Port) (groups : List Nat) (d : Dev) : Dev :=
  if training (port d p) then trainRx p groups d
  else if (port d p).isUp then
    let r := decodeGroups (port d p).rxRd groups
    let x := port d p
    let start := (readHead r.1).orElse (fun _ => x.rxHead)
    let bad := x.rxBad || r.1.any (fun c => decide (c = .bad))
    let d := setPort p { x with
      rxRd := r.2, rxHead := none, rxBad := false
      lineAt := if r.1.all (fun c => decide (c = .bad)) then x.lineAt else d.now } d
    let d := countBad p r.1 d
    if r.1.getLast? = some (.ctl .turn) ∧ (port d p).isUp = true then
      let d := match start with
        | some (ls, _) => if !bad && lsFits d p ls then withPort p (fun x => { x with burstAt := d.now, peerLs := ls }) d else d
        | none => d
      let d := takeAnswer p (start.bind Prod.snd) d
      if (port d p).isUp then answerBurst sendBurst p d else d
    else d
  else d

/-- LEN of a header. -/
def hdrLen (b : List Byte) : Nat := leNat ((b.drop 5).take 2)

/-- Is the header valid (R229)? -/
def headerOk (b : List Byte) : Bool :=
  decide (8 ≤ b.length) && decide (crc8h (b.take 7) = (b.getD 7 0).toNat) && decide (hdrLen b ≤ 256) &&
  decide ((b.getD 1 0).toNat ≤ 62)

/-- Does the frame's CRC-32C check, over a payload of LEN bytes (R228)? -/
def crcOk (b : List Byte) : Bool :=
  decide (b.length = 12 + hdrLen b) && decide (crc32c (b.take (8 + hdrLen b)) = leNat (b.drop (8 + hdrLen b)))

/-- The frame that good bytes spell. -/
def frameOf (b : List Byte) : Frame :=
  let b0 := (b.getD 0 0).toNat
  ⟨b0 % 64, decide (128 ≤ b0), (b.getD 1 0).toNat % 64, (b.getD 2 0).toNat, (b.getD 3 0).toNat, (b.getD 4 0).toNat / 16,
    (b.drop 8).take (hdrLen b), false, 0⟩

/-- The answer due in the next burst (R232): an ACK, or a NAK with its reason. -/
def setAnswer (p : Port) (nak : Option Nat) (src alive : Nat) (d : Dev) : Dev :=
  withPort p (fun x => { x with ackDue := some (nak.isNone, src, match nak with
    | none => alive + 16 * (15 - alive)
    | some r => alive + 16 * r) }) d

/-! ### Forwarding (R231, R248 to R250) -/

/-- Does the outgoing port q own its line at ring time `th`, with room for a frame in its burst, at the incoming rate or slower (R231)? -/
def cutThrough (d : Dev) (p q : Port) (th : Nat) : Bool :=
  let x := port d q
  x.isUp && !toneOn d q && decide ((port d p).rate ≤ x.rate) && x.out.isNone && (x.sent.map Burst.frame == some none) &&
  decide (x.ownFrom.toNat ≤ th) && decide (th + charTime x.rate < x.ownTo.toNat)

/-- A copy goes out by port q in the burst that it is sending, from within 0.4 us of `th` on, a BEACON after its TMARK (R256); `aborted`
says ABORT ends it (R231). -/
def cutSend (q : Port) (th : Nat) (f : Frame) (aborted : Bool) (d : Dev) : Dev :=
  let (w, d) := freeWord d
  let x := port d q
  match x.sent with
  | none => d
  | some b =>
    let start := th + w.toNat % 81
    let mark := decide (f.typ = 0x07)
    let b := { b with frame := some (frameBytes q x.alive (departing d.head start f)), mark := mark, aborted := aborted }
    let fin := burstEnd (BitVec.ofNat 64 start) x.rate (f.pay.length + 15 + b2n mark)
    setPort q { x with
      sent := some b
      out := if aborted then none else some f
      txRd := (encodeSyms b.rd (burstSyms b)).2
      waitAt := if x.waitAt = x.ownTo then fin else x.waitAt
      ownTo := fin } d

/-- DIR with which a position's EVENT leaves it for the head (Table RING-1): true south. -/
def eventSouth (d : Dev) (src : Nat) : Bool := d.rg.castled && decide (src ≤ d.rg.b)

/-- Has an EVENT that came by port p been turned (R250)? It then travels against its source's route; no bit of the frame says so
(DEDUCED, log 86). -/
def wasTurned (d : Dev) (p : Port) (f : Frame) : Bool := decide (f.typ = 0x03) && (eventSouth d f.src != decide (p = .north))

/-- Send a frame that came by port p on, by the other port: cut-through where R231 allows it, else by the queue. An EVENT whose hop is
not UP is turned once, then dropped (R248, R250). -/
def forward (th : Nat) (p : Port) (f : Frame) (d : Dev) : Dev :=
  if f.typ = 0x03 ∧ !(port d (otherPort p)).isUp then
    if wasTurned d p f then bump R.ringCnt 15 0 1 d else enqueue p { f with turned := true } d
  else if cutThrough d p (otherPort p) th then cutSend (otherPort p) th f false d
  else enqueue (otherPort p) f d

/-- Does the payload's length suit the type (R230, Table RING-2, Table SENS-3)? Reserved types have none. A REQUEST of a KIND that is not
listed has the length of one that is: its KIND is no data error. -/
def lenOk (f : Frame) : Bool :=
  let n := f.pay.length
  match f.typ with
  | 0x01 => (match (f.pay.getD 2 0).toNat with
    | 0 => decide (n = 68)
    | 1 => decide (n = 4)
    | 2 => decide (n = 5)
    | _ => decide (n = 4 ∨ n = 5 ∨ n = 68))
  | 0x02 => decide (12 ≤ n)
  | 0x03 => decide (n = 32)
  | 0x04 | 0x08 => decide (n = 16)
  | 0x05 => decide (n = 256 ∨ n = 64)
  | 0x06 => decide (n = 144)
  | 0x07 => decide (n = 24)
  | 0x09 => decide (4 ≤ n ∧ n ≤ 128)
  | 0x0A => decide (n = 130)
  | 0x0B => decide (8 ≤ n)
  | 0x0C => decide (12 ≤ n)
  | 0x10 => true
  | _ => false

/-- Bytes lo to hi of a payload are 0. -/
def zeroBytes (l : List Byte) (lo n : Nat) : Bool := ((l.drop lo).take n).all (fun b => b == 0)

/-- The reserved fields of a payload are 0 (R230, Table RING-2). -/
def reservedOk (f : Frame) : Bool :=
  let l := f.pay
  match f.typ with
  | 0x01 => zeroBytes l 3 1
  | 0x03 => zeroBytes l 6 2
  | 0x04 => zeroBytes l 13 3 && decide ((l.getD 12 0).toNat < 2)
  | 0x05 => l.length != 64 || (zeroBytes l 0x39 7 && decide ((l.getD 3 0).toNat < 8))
  | 0x06 => zeroBytes l 15 1 && decide ((l.getD 14 0).toNat < 8)
  | 0x07 => zeroBytes l 16 8 && decide ((l.getD 13 0).toNat < 2)
  | 0x08 => zeroBytes l 9 1 && zeroBytes l 12 4
  | 0x09 => decide ((l.getD 3 0).toNat < 2) && (upFrom 0 ((l.length - 4) / 2)).all (fun i => decide ((l.getD (4 + 2 * i) 0).toNat < 16))
  | 0x0A => zeroBytes l 3 1 && decide ((l.getD 2 0).toNat < 4) && (upFrom 0 63).all (fun i => decide ((l.getD (5 + 2 * i) 0).toNat < 8))
  | 0x0B => zeroBytes l 2 2
  | _ => true

/-- Does the payload suit its consumer (R230)? -/
def payloadOk (f : Frame) : Bool := lenOk f && reservedOk f

/-- Frames that each device changes before it forwards them; their own commands forward them (R253, R256, R262). One with a data error
is forwarded as it is (R229). -/
def selfForwarded (f : Frame) : Bool := decide (f.typ = 0x07 ∨ f.typ = 0x09 ∨ f.typ = 0x0A) && payloadOk f

/-- A SWEEP_TRIGGER goes on while the next position in its direction is not past its range (R264), and with a data error as any frame does
(R229). DEDUCED: a trigger whose range begins farther on must reach it, as step 11 of Table RING-11 shows. -/
def triggerOn (d : Dev) (p : Port) (f : Frame) : Bool :=
  decide (d.rg.pos = 0x3F) || !payloadOk f ||
  (match p with
  | .south => decide (d.rg.pos + 1 ≤ (f.pay.getD 11 0).toNat)
  | .north => decide ((f.pay.getD 10 0).toNat + 1 ≤ d.rg.pos))

/-- A frame that no command of its own consumes: SWEEP_DATA, and a REQUEST of a KIND that is not listed, which nothing acts on. -/
def unbuffered (f : Frame) : Bool := decide (f.typ = 0x05) || (decide (f.typ = 0x01) && decide (2 < (f.pay.getD 2 0).toNat))

/-- A frame that a command of its own consumes waits in the receive buffer for it (R232); its header had come at ring time th. -/
def buffer (p : Port) (th : Nat) (f : Frame) (d : Dev) : Dev :=
  if unbuffered f then d else withPort p (fun x => { x with rxBuf := x.rxBuf ++ [⟨f.typ, f.stat, BitVec.ofNat 64 th⟩] }) d

/-- A frame is consumed: a data error is counted; a LOCAL LINK_TEST is returned; what `take` does with the others (R229, R230). -/
def consume (take : Port → Frame → Dev → Dev) (th : Nat) (p : Port) (f : Frame) (d : Dev) : Dev :=
  if !payloadOk f then bump R.linkDataErr 15 0 1 d
  else if f.typ = 0x10 then
    (if f.loc then enqueue p ⟨0, true, d.rg.pos % 63, 0x10, f.seq, statusNibble d, f.pay, false, 0⟩ d else d)
  else take p f (buffer p th f d)

/-- An accepted frame, whose header had come at ring time th (R246, R248, R264). -/
def deliver (take : Port → Frame → Dev → Dev) (th : Nat) (p : Port) (f : Frame) (d : Dev) : Dev :=
  let placed := decide (d.rg.pos ≤ 62)
  if f.loc || (placed && decide (f.dest = d.rg.pos)) then consume take th p f d
  else if placed && decide (f.src = d.rg.pos) then d
  else
    let d := if f.dest = 0x3F ∧ (placed = true ∨ f.typ = 0x07 ∨ f.typ = 0x09) then consume take th p f d else d
    if f.dest = 0x3F ∧ selfForwarded f then d
    else if f.typ = 0x04 then (if triggerOn d p f then forward th p f d else d)
    else forward th p f d

/-! ### Frames as received (R222, R229, R231 to R235, R242) -/

/-- How a frame ended (R222, R231, R232, R242). -/
inductive FrameEnd where
  | eof | abort | tone | other
deriving DecidableEq, Repr

/-- A frame's characters: what came before its SOF, its bytes (none a violation), and how it ended. -/
structure FrameChars where
  head : List Sym
  body : List (Option Byte)
  fin : FrameEnd
deriving DecidableEq, Repr

/-- A data byte, or none for a violation, inside a frame; another character ends it. -/
def Sym.body : Sym → Option (Option Byte)
  | .data b => some (some b)
  | .bad => some none
  | .ctl _ => none

/-- Split the characters that came into a frame (R226). -/
def splitFrame (l : List Sym) : FrameChars :=
  let head := l.takeWhile (fun c => decide (c ≠ .ctl .sof))
  let rest := (l.dropWhile (fun c => decide (c ≠ .ctl .sof))).drop 1
  let body := rest.takeWhile (fun c => c.body.isSome)
  ⟨head, body.filterMap Sym.body, match (rest.dropWhile (fun c => c.body.isSome)).head? with
    | some (.ctl .eof) => .eof
    | some (.ctl .abort) => .abort
    | some (.ctl .fault) => .tone
    | _ => .other⟩

/-- Ring time at which the last header character of a frame had come, when `n` characters came after it (R231). -/
def headerAt (now : Time) (rate n : Nat) : Nat := now.toNat - charTime rate * n

/-- A frame that fails its check, or ends with ABORT, after its copy had begun: the copy ends with ABORT (R231). -/
def abortCopy (p : Port) (th : Nat) (f : Frame) (d : Dev) : Dev :=
  let own := decide (d.rg.pos ≤ 62) && (decide (f.dest = d.rg.pos) || decide (f.src = d.rg.pos))
  let copied := !f.loc && !own && (decide (f.typ ≠ 0x04) || triggerOn d p f) && cutThrough d p (otherPort p) th
  if copied then cutSend (otherPort p) th f true d else d

/-- Is the header of the bytes that came valid, and its frame no repeat: can its copy have begun (R229, R231, R234)? -/
def begun (p : Port) (body : List (Option Byte)) (d : Dev) : Bool :=
  let b := body.filterMap id
  (body.take 8).all Option.isSome && headerOk b && decide ((port d p).lastAlive ≠ some ((b.getD 4 0).toNat % 16))

/-- When the last character of the header of a frame of these characters had come (R231). -/
def headerTime (p : Port) (body : List (Option Byte)) (d : Dev) : Nat := headerAt d.now (port d p).rate (body.length - 8 + 1)

/-- A frame that is not good: a copy of it that has begun ends with ABORT (R231). -/
def endCopy (p : Port) (body : List (Option Byte)) (d : Dev) : Dev :=
  if begun p body d then abortCopy p (headerTime p body d) (frameOf (body.filterMap id)) d else d

/-- A received frame that ends at EOF or breaks off otherwise (R232 to R235). A frame with a violation counts the violations alone, then
comes the header, then the CRC (DESIGN CHOICE, log 87). -/
def checkFrame (take : Port → Frame → Dev → Dev) (p : Port) (fin : FrameEnd) (body : List (Option Byte)) (d : Dev) : Dev :=
  let clean := body.all Option.isSome
  let b := body.filterMap id
  let h := (body.take 8).all Option.isSome && headerOk b
  let alive := (b.getD 4 0).toNat % 16
  let src := if h then (b.getD 1 0).toNat % 64 else 0x3F
  let f := frameOf b
  let again := decide ((port d p).lastAlive = some alive)
  let refuse (d : Dev) : Dev := setAnswer p (some 0) src alive (endCopy p body d)
  if !clean then refuse d
  else if !h then linkError p 2 (refuse d)
  else if !crcOk b then linkError p 1 (refuse d)
  else if fin ≠ .eof then refuse d
  else if again then bump (cntOff p 2) 31 16 1 (setAnswer p none src alive d)
  else if 4 ≤ (port d p).rxBuf.length then setAnswer p (some 1) src alive d
  else deliver take (headerTime p body d) p f (withPort p (fun x => { x with lastAlive := some alive }) (setAnswer p none src alive d))

/-- A frame has arrived on port p (R222, R229, R231 to R235, R242). One ended by ABORT is discarded without an answer, and of one that the
tone cut off nothing counts. -/
def frameRx (take : Port → Frame → Dev → Dev) (p : Port) (groups : List Nat) (d : Dev) : Dev :=
  if (port d p).isUp then
    let r := decodeGroups (port d p).rxRd groups
    let c := splitFrame r.1
    let x := port d p
    let d := setPort p { x with
      rxRd := r.2
      rxHead := (readHead c.head).orElse (fun _ => x.rxHead)
      rxBad := x.rxBad || c.head.any (fun s => decide (s = .bad))
      lineAt := if r.1.all (fun s => decide (s = .bad)) then x.lineAt else d.now } d
    let d := countBad p (if c.fin = .tone then c.head else r.1) d
    if !(port d p).isUp || decide (.ctl .sof ∉ r.1) then d
    else match c.fin with
      | .tone => d
      | .abort => endCopy p c.body d
      | _ => checkFrame take p c.fin c.body d
  else d

/-! ### Fault tone (R240 to R242) -/

/-- The tone has ended on a hop: the line is to be retaken (R242). Its FAULT characters were valid characters (R224). -/
def LinkPort.fallQuiet (now : Time) (x : LinkPort) : LinkPort := if x.rxTone then x else { x with quietAt := some now, lineAt := now }

/-- The same of a port of the device. -/
def quietFrom (p : Port) (d : Dev) : Dev := withPort p (LinkPort.fallQuiet d.now) d

/-- Is the next burst of a port's schedule due, 1 ms after the one before (R240)? -/
def LinkPort.burstDue (x : LinkPort) (now : Time) : Bool := !x.toneTx && decide (0 < x.toneLeft) && passed (msT 1) x.toneFrom now

/-- It begins. -/
def LinkPort.repeatTone (now : Time) (x : LinkPort) : LinkPort :=
  if x.burstDue now then { x.cutOff now with toneTx := true, toneLeft := x.toneLeft - 1, toneFrom := now } else x

/-- The next burst of the schedule on each port where it is due (R240, R427); it ends any forwarding. -/
def toneRepeat (d : Dev) : Dev :=
  if d.ln.burstDue d.now || d.ls.burstDue d.now then
    endForward { d with ln := d.ln.repeatTone d.now, ls := d.ls.repeatTone d.now }
  else d

/-- FAULT_TONE_REPEAT (R240). -/
def execFaultToneRepeat (t : Time) (s : State) : Host.Outcome State Fault Refusal := actAt t toneRepeat s

/-- The 20 us burst on a port is over (R240). -/
def LinkPort.burstOver (x : LinkPort) (now : Time) : Bool := x.toneTx && passed (usT 20) x.toneFrom now

/-- It ends. -/
def LinkPort.endTone (now : Time) (x : LinkPort) : LinkPort :=
  if x.burstOver now then { x.fallQuiet now with toneTx := false } else x

/-- The 20 us bursts end; holdoff begins once the device drives none (R240, R241). -/
def toneBurstEnd (d : Dev) : Dev :=
  if d.ln.burstOver d.now || d.ls.burstOver d.now then
    let d := { d with ln := d.ln.endTone d.now, ls := d.ls.endTone d.now }
    if driving d then d else withTone (fun n => { n with hold := true, holdAt := d.now }) d
  else d

/-- FAULT_TONE_BURST_END (R240, R241). -/
def execFaultToneBurstEnd (t : Time) (s : State) : Host.Outcome State Fault Refusal := actAt t toneBurstEnd s

/-- A tone arriving at port p is ignored: the device originates, is in holdoff, or forwards out of p (R241). -/
def toneIgnored (d : Dev) (p : Port) : Bool := driving d || d.tn.hold || decide (d.tn.fwd = some p)

/-- A FAULT character arrives (R241): it is forwarded, unless the other port's came within 1 us. What the ports of the tone were sending is
cut off (R242). -/
def toneRx (p : Port) (d : Dev) : Dev :=
  let q := otherPort p
  let both := (port d q).rxTone && decide (since (port d q).rxAt d.now ≤ usT 1)
  let d := withPort p (fun x => { x.cutOff d.now with rxTone := true, rxAt := d.now, rxOk := false, quietAt := none, lineAt := d.now }) d
  if driving d || d.tn.hold then d
  else if both then withTone (fun n => { n with fwd := none }) d
  else if d.tn.fwd.isNone then withPort q (fun x => { x.cutOff d.now with quietAt := none }) (withTone (fun n => { n with fwd := some q }) d)
  else d

/-- TONE_RX (R241). -/
def execToneRx (t : Time) (p : Port) (s : State) : Host.Outcome State Fault Refusal := actAt t (toneRx p) s

/-- The tone has lasted 2.0 us: "fault tone received" latches (R242, R311). -/
def toneConfirm (p : Port) (d : Dev) : Dev :=
  let x := port d p
  if x.rxTone && !x.rxOk && decide (usT 2 ≤ since x.rxAt d.now) && !toneIgnored d p then
    latch 3 0 (bump R.linkToneCnt 15 0 1 (setPort p { x with rxOk := true } d))
  else d

/-- TONE_CONFIRM (R242, R311). -/
def execToneConfirm (t : Time) (p : Port) (s : State) : Host.Outcome State Fault Refusal := actAt t (toneConfirm p) s

/-- The tone ends: forwarding stops, one shorter than 2.0 us counts with its length in 10 ns (R241, R242, R245). -/
def toneEnd (p : Port) (d : Dev) : Dev :=
  let x := port d p
  if x.rxTone then
    let len := since x.rxAt d.now
    let short := decide (len < usT 2) && !x.rxOk && !toneIgnored d p
    let d := quietFrom p (setPort p { x with rxTone := false } d)
    let d := { d with sf := { d.sf with toneQuiet := d.now } }
    let d := if d.tn.fwd = some (otherPort p) then
      quietFrom (otherPort p) (withTone (fun n => { n with fwd := none, hold := true, holdAt := d.now }) d) else d
    let d := if short then occur 34 0 0x1005 (leBytes 2 (len / 2)) (bump R.linkToneCnt 31 16 1 d) else d
    if !d.ln.rxTone && !d.ls.rxTone then gone 3 0 d else d
  else d

/-- TONE_END (R241, R242). -/
def execToneEnd (t : Time) (p : Port) (s : State) : Host.Outcome State Fault Refusal := actAt t (toneEnd p) s

/-- TONE_HOLDOFF_END (R241): 100 us after the holdoff began. -/
def execToneHoldoffEnd (t : Time) (s : State) : Host.Outcome State Fault Refusal :=
  actAt t (fun d => if passed (usT 100) d.tn.holdAt d.now then withTone (fun n => { n with hold := false }) d else d) s

/-- 2.0 us after the tone ended on a hop its north end takes the line (R242). -/
def lineRetake (p : Port) (d : Dev) : Dev :=
  match p, (port d p).quietAt with
  | .north, some q =>
    if d.ln.isUp && !toneOn d .north && passed (usT 2) q d.now then
      sendBurst .north d.now (withPort .north (fun x => { x with quietAt := none }) d)
    else d
  | _, _ => d

/-- TONE_LINE_RETAKE (R242). -/
def execToneLineRetake (t : Time) (p : Port) (s : State) : Host.Outcome State Fault Refusal := actAt t (lineRetake p) s

/-- LINK_TONE. -/
def linkTone (d : Dev) : Word :=
  packW [(b2n d.ln.rxTone, 0), (b2n d.ls.rxTone, 1), (b2n (driving d), 2), (b2n d.tn.fwd.isSome, 3), (b2n d.tn.hold, 4),
    (b2n (faultBit d 3), 5)]

/-! ### Wake stream (R243, R244) -/

/-- The wake stream has come to an UP port for 20 us: its hop goes down, to train once the stream has ended (R244). -/
def wakeOnUp (p : Port) (d : Dev) : Dev :=
  if (port d p).isUp then
    let d := hopDown p 3 0 d
    withPort p (fun x => { x with wakeRx := true, wakeAt := d.now }) d
  else d

/-- WAKE_STREAM_ON_UP (R237, R244). -/
def execWakeStreamOnUp (t : Time) (p : Port) (s : State) : Host.Outcome State Fault Refusal := actAwake t (wakeOnUp p) s

/-- The port drives the wake stream for 2.0 ms (R243). -/
def driveWake (p : Port) (d : Dev) : Dev := withPort p (fun x => { x with wakeTx := true, wakeAt := d.now }) d

/-- The stream has ended on a port: 2.0 ms after it began where the port drives it, 1.98 ms after its 20 us where it arrives (R243,
R244). Ring time does not run in a low-power state, whose M-die counts the 2.0 ms. -/
def wakeOver (d : Dev) (p : Port) : Bool :=
  let x := port d p
  (x.wakeTx && (!d.running || passed (msT 2) x.wakeAt d.now)) || (x.wakeRx && passed (usT 1980) x.wakeAt d.now)

/-- The stream ends on a port; a hop that it took down trains (R244). -/
def wakeOverAt (p : Port) (d : Dev) : Dev :=
  if wakeOver d p then
    (if (port d p).wakeRx then beginTraining p d else withPort p (fun x => { x with wakeTx := false }) d)
  else d

/-- A stream ends (R243); with the driven ones a REQUEST of kind 0x02 is answered (R296). It is held as a command without a
descriptor. -/
def wakeStreamEnd (d : Dev) : Dev :=
  let drove := (d.ln.wakeTx || d.ls.wakeTx)
  let d := wakeOverAt .south (wakeOverAt .north d)
  if drove && !d.ln.wakeTx && !d.ls.wakeTx then
    each (fun c d => finish c.h St.done [] d) (d.ex.cmds.filter (fun c => c.d.isEmpty)) d
  else d

/-- WAKE_STREAM_END (R243): also while a sleeping device relays it. -/
def execWakeStreamEnd (t : Time) (s : State) : Host.Outcome State Fault Refusal :=
  act (fun d => wakeStreamEnd (if d.running then tick t d else d)) s

end Sys2Proof.Machine
end

