-- ==== Sys2Proof/Machine/Ring.lean ====
section
/-! DEFINITION. The ring as a network: routes, enumeration, beacons and the timebase, heartbeats as the head sends them
(file 09, R246 to R257, R262). -/

namespace Sys2Proof.Machine

/-! ### Routes (R247, R249, R251) -/

/-- Change the timebase's fields. -/
def withTime (f : Timebase → Timebase) (d : Dev) : Dev := { d with tb := f d.tb }

/-- The port by which the head reaches a position (Table RING-1). -/
def towards (d : Dev) (p : Nat) : Port := if d.rg.castled && decide (d.rg.b < p) then .south else .north

/-- May the ring reach a position, intact or castled (R251, R268)? -/
def reachable (d : Dev) (p : Nat) : Bool :=
  decide (p = 0) || !(d.rg.brk && decide (d.rg.lo < p) && decide (p < d.rg.hi))

/-- The highest enumerated position. -/
def topPos (d : Dev) : Nat := highest (d.rg.recs.map Prod.fst)

/-- Hops from the head to a position along its route, 0 for a position that is not enumerated (R254). -/
def hopsTo (d : Dev) (p : Nat) : Nat :=
  if p = 0 ∨ !(enumerated d p) then 0
  else match towards d p with
    | .north => p
    | .south => topPos d + 1 - p

/-- Last position of the north half (R247). -/
def northHalf (d : Dev) : Nat := (d.rg.n + 1) / 2

/-- Hops that a position's sweep data take: its near port while the ring is intact (R247, Table RING-1). DEDUCED: Table
RING-8 says only "Hops". -/
def dataHops (d : Dev) (p : Nat) : Nat :=
  if d.rg.castled || decide (p ≤ northHalf d) then hopsTo d p
  else if enumerated d p then topPos d + 1 - p else 0

/-- The port by which this stack device sends sweep data (Table RING-1). Not castled, its near port: in the north half the south port
(R247). Position k of n lies in the north half where k <= n + 1 - k, which is the hops of a beacon copy that comes by the north port
(R256): the device keeps those of the latest one, also while a break lets none through. Before it has had one it takes the south port
(DESIGN CHOICE, log 86). -/
def dataPort (d : Dev) : Port :=
  if d.rg.castled then headPort d
  else match d.tb.hopsN with
    | some h => if d.rg.pos ≤ h then .south else .north
    | none => .south

/-! ### Enumeration (R253, R254) -/

/-- The bytes of an ENUM payload (R253). -/
def enumBytes (e : EnumMsg) : List Byte :=
  [BitVec.ofNat 8 e.op, BitVec.ofNat 8 e.next, BitVec.ofNat 8 e.count, BitVec.ofNat 8 (b2n e.overflow)] ++
  e.entries.flatMap (fun x => [x.1, x.2])

/-- A frame for every position, as source `src` built it with status nibble `stat`. -/
def allFrame (src stat typ seq : Nat) (pay : List Byte) : Frame := ⟨0x3F, false, src, typ, seq % 256, stat, pay, false, 0⟩

/-- The head sends an ENUM frame. -/
def sendEnum (p : Port) (e : EnumMsg) (d : Dev) : Dev := enqueue p (allFrame 0 (statusNibble d) 0x09 0 (enumBytes e)) d

/-- Send a frame on that a command of its own took out of port p's receive buffer: cut-through where R231 allows it (R226, R231). -/
def passOn (p : Port) (f : Frame) (d : Dev) : Dev := forward (port d p).rxTh.toNat p f d

/-- A device sends a frame of the head on, as it changed it, with the STATUS it came with. -/
def sendOn (p : Port) (typ seq : Nat) (pay : List Byte) (d : Dev) : Dev := passOn p (allFrame 0 (port d p).rxStat typ seq pay) d

/-- The same for a BEACON, whose TMARK arrived at `stamp`. -/
def sendBeaconOn (p : Port) (seq : Nat) (pay : List Byte) (stamp : Nat) (d : Dev) : Dev :=
  passOn p { allFrame 0 (port d p).rxStat 0x07 seq pay with stamp := stamp } d

/-- Rate byte of this device: north code in [1:0], south code in [3:2] (R253). -/
def rateByte (d : Dev) : Nat := d.ln.rate + 4 * d.ls.rate

/-- Frames queued for a hop that is not UP are discarded (Table RING-10 step 2). -/
def dropStuck (d : Dev) : Dev :=
  let f (x : LinkPort) : LinkPort := if x.isUp then x else { x with queue := [] }
  withPort .south f (withPort .north f d)

/-- Route with B (R253): 0x3F while the ring is intact. -/
def setRoute (b : Nat) (d : Dev) : Dev :=
  let d := withRing (fun r => { r with b := b, castled := decide (b ≠ 0x3F) }) d
  if b = 0x3F then d else dropStuck d

/-- The OP 0x10 message. -/
def routeMsg (b : Nat) : EnumMsg := ⟨0x10, b, 0, false, []⟩

/-- A stack device takes NEXT as its position, or stays unassigned at 63 (Table RING-3 step 2), and sends the frame on. -/
def takePosition (p : Port) (e : EnumMsg) (d : Dev) : Dev :=
  if 1 ≤ e.next ∧ e.next ≤ 62 then
    let next := if e.op = 1 then e.next + 1 else e.next - 1
    let entry := (BitVec.ofNat 8 (rateByte d), BitVec.ofNat 8 (ncells d))
    let d := withRing (fun r => { r with pos := e.next }) d
    sendOn p 0x09 0 (enumBytes ⟨e.op, next, e.count + 1, e.overflow, e.entries ++ [entry]⟩) d
  else
    let d := withRing (fun r => { r with pos := 0x3F }) d
    sendOn p 0x09 0 (enumBytes ⟨e.op, e.next, e.count, true, e.entries⟩) d

/-- The head's record of a position as an enumeration finds it; what it knew of its power state stays (R56). -/
def freshRec (d : Dev) (p rate ncells : Nat) : Nat × PosRec :=
  (p, ⟨ncells, rate, d.now, false, 0, 0, (posRec d p).low, 0⟩)

/-- Records of positions from p on, from the entries of the first pass. -/
def entryRecs (d : Dev) : Nat → List (Byte × Byte) → List (Nat × PosRec)
  | _, [] => []
  | p, e :: r => freshRec d p (e.1.toNat % 16) e.2.toNat :: entryRecs d (p + 1) r

/-- Positions that are no longer enumerated, or are in a low-power state, cannot be missed: "position lost" is no longer present for
them (R328, R56). -/
def forgetLost (d : Dev) : Dev :=
  let off := d.sf.lost.filter (fun p => !enumerated d p || (posRec d p).low)
  let d := { d with sf := { d.sf with lost := d.sf.lost.filter (fun p => decide (p ∉ off)) } }
  each (gone 13) off d

/-- The northward frame is back at the head's south port: n = NEXT - 1, and OP 0x10 with B 0x3F goes out (Table RING-3
step 3). -/
def enumBack (e : EnumMsg) (d : Dev) : Dev :=
  let recs := entryRecs d 1 e.entries
  let d := withRing (fun r => { r with
    recs := recs, n := e.next - 1, overflow := e.overflow, second := false, brk := false, lo := 0x3F, hi := 0x3F, loEv := false,
    hiEv := false, inN := [], inS := [], enumPass := 3 }) d
  sendEnum .north (routeMsg 0x3F) (setRoute 0x3F (forgetLost d))

/-- A device takes an ENUM frame (R253); one of another OP it sends on as it came (R229). -/
def enumRx (p : Port) (e : EnumMsg) (d : Dev) : Dev :=
  if d.head then
    (if e.op = 1 ∧ p = .south ∧ d.rg.enumPass = 1 then enumBack e d else d)
  else if e.op = 0x10 then
    let d := setRoute e.next d
    sendOn p 0x09 0 (enumBytes e) d
  else if e.op = 1 ∨ e.op = 2 then takePosition p e d
  else sendOn p 0x09 0 (enumBytes e) d

/-- ENUM_RX (R253). -/
def execEnumRx (t : Time) (p : Port) (e : EnumMsg) (s : State) : Host.Outcome State Fault Refusal :=
  actAt t (fun d => enumRx p e (unbuffer p 0x09 d)) s

/-- Is a command to a stack position outstanding? A broadcast is one. -/
def stackCommand (x : Hst) : Bool := x.cmds.any (fun c => decide (dTarget c.d ≠ 0))

/-- RING_ENUM begins (R253, R254). -/
def enumBegin (h : Nat) (b : Both) : Both :=
  let d := b.1
  if !d.head then b
  else if !d.sw.collect.isEmpty || d.rg.enumH.isSome || stackCommand b.2 then (finish h St.resourceBusy [] d, b.2)
  else if !d.ln.isUp && !d.ls.isUp then (finish h St.ringBreak [] d, b.2)
  else
    let d := withRing (fun r => { r with enumH := some h, enumPass := 1, enumAt := d.now }) d
    (sendEnum .north ⟨1, 1, 0, false, []⟩ d, b.2)

/-- RING_ENUM (R253, R254). It takes no arguments. -/
def execRingEnum (t : Time) (h : Nat) (c : Desc) (s : State) : Host.Outcome State Fault Refusal :=
  actOpH 0x80 (fun c => zeroFrom c 2) t c (enumBegin h) s

/-- The 4 bytes of a position in the RING_ENUM result (R254). -/
def enumEntry (d : Dev) (p : Nat) : List Byte :=
  if enumerated d p then
    let r := posRec d p
    [BitVec.ofNat 8 (hopsTo d p), BitVec.ofNat 8 r.rate, BitVec.ofNat 8 r.ncells, 0]
  else zeros 4

/-- The RING_ENUM result (R254). -/
def enumResult (d : Dev) : List Byte :=
  [BitVec.ofNat 8 d.rg.n, BitVec.ofNat 8 d.rg.b,
    BitVec.ofNat 8 (pack [(b2n d.rg.castled, 0), (b2n d.rg.overflow, 1), (b2n d.rg.second, 2)])] ++ zeros 5 ++
  (upFrom 1 62).flatMap (enumEntry d)

/-- A position that the second pass left known by its heartbeat slot alone: no frame brings its rate byte and NCELLS to the
head, so they are free. -/
def unknownRec (p : Nat) (acc : List (Nat × PosRec) × Dev) : List (Nat × PosRec) × Dev :=
  let (w, d) := freeWord acc.2
  let (v, d) := freeWord d
  (acc.1 ++ [freshRec d p (w.toNat % 16) (v.toNat % 33)], d)

/-- Positions that the two sides' heartbeats show. -/
def heardPositions (d : Dev) : List Nat :=
  (upFrom 1 62).filter (fun p => decide (p ∈ d.rg.inN ∧ p ≤ d.rg.b) || decide (p ∈ d.rg.inS ∧ d.rg.b < p))

/-- The head's records after a second pass. -/
def secondRecs (d : Dev) : Dev :=
  let r := each unknownRec (heardPositions d) ([], d)
  placeBreak (forgetLost (withRing (fun x => { x with recs := r.1, n := r.1.length }) r.2))

/-- RING_ENUM completes with the next HEARTBEAT (Table RING-3 step 4); after a second pass once heartbeats sent on both
ports have had 5 ms to return (DESIGN CHOICE: nothing signals that pass's end). -/
def enumFinish (d : Dev) : Dev :=
  match d.rg.enumH with
  | none => d
  | some h =>
    let second := decide (d.rg.enumPass = 2) && decide (msT 5 ≤ since d.rg.enumAt d.now)
    if decide (d.rg.enumPass = 3) || second then
      let d := if second then secondRecs d else d
      let d := withRing (fun r => { r with enumH := none, enumPass := 0, enumDone := true }) d
      finish h (if d.rg.second || d.rg.overflow then St.partial' else St.done) (enumResult d) d
    else d

/-! ### Heartbeats as the head sends them (R262, R249, R250) -/

/-- State of the timebase (R257): LOCKED needs CLK_LOCKED; in the head it reads 2. -/
def timeState (d : Dev) : Nat :=
  if d.head then 2
  else match d.tb.st with
    | .none => 0
    | .acquiring => 1
    | .locked => if d.pw.locked then 2 else 1
    | .holdover => 3
    | .lost => 4

/-- Second byte of this device's heartbeat slot (R262). -/
def slotSecond (d : Dev) : Nat :=
  pack [(b2n (fltN d), 0), (b2n (decide (timeState d = 2)), 1), (b2n (!(d.ln.isUp && d.ls.isUp)), 2)]

/-- First byte of this device's heartbeat slot (R262). -/
def slotFirst (d : Dev) : Nat := d.rg.hbCtr % 16 + 16 * statusNibble d

/-- The bytes of a HEARTBEAT payload (R262). -/
def hbBytes (hb : Heartbeat) : List Byte :=
  padTo 130 (leBytes 2 hb.num ++ [BitVec.ofNat 8 (b2n hb.unassigned + 2 * b2n hb.turned), 0] ++ hb.slots.flatMap (fun x => [x.1, x.2]))

/-- Queue a HEARTBEAT of the head for port p; where that hop is not UP it is turned (R250). -/
def queueHeartbeat (p : Port) (stat : Nat) (hb : Heartbeat) (d : Dev) : Dev :=
  let turn := !(port d p).isUp && (port d (otherPort p)).isUp
  let hb := if turn then { hb with turned := true } else hb
  let f := allFrame 0 stat 0x0A hb.num (hbBytes hb)
  if turn then enqueue (otherPort p) { f with turned := true } d else enqueue p f d

/-- A heartbeat is over: a position that has been seen neither in it nor in a later one has missed it (R305). -/
def hbOver (e : OpenHb) (d : Dev) : Dev :=
  withRing (fun r =>
    let l := r.hbOpen.filter (fun x => x.num ≠ e.num)
    { r with
      hbOpen := l
      recs := r.recs.map (fun p =>
        if (e :: l).any (fun x => decide (p.1 ∈ x.seen)) then p else (p.1, { p.2 with missed := min 65535 (p.2.missed + 1) })) }) d

/-- Heartbeats that have not come back after 5 ms are over (R268). -/
def hbLate (d : Dev) : Dev := each hbOver (d.rg.hbOpen.filter (fun e => passed (msT 5) e.at0 d.now)) d

/-- The head sends a HEARTBEAT: north, and on both ports from the moment it recognises a break (R249, R262, R268). -/
def heartbeatSend (d : Dev) : Dev :=
  if d.head then
    let d := hbLate (enumFinish d)
    let d := withRing (fun r => { r with hbCtr := (r.hbCtr + 1) % 16, hbOpen := r.hbOpen ++ [⟨r.hbNum, d.now, []⟩] }) d
    let hb : Heartbeat := ⟨d.rg.hbNum, false, false, [(BitVec.ofNat 8 (slotFirst d), BitVec.ofNat 8 (slotSecond d))]⟩
    let d := withRing (fun r => { r with hbNum := (r.hbNum + 1) % 65536 }) d
    let d := queueHeartbeat .north (statusNibble d) hb d
    if d.rg.brk || d.rg.castled then queueHeartbeat .south (statusNibble d) hb d else d
  else d

/-- HEARTBEAT_SEND (R262): at every ring time 0.5 ms past a multiple of 1 ms. -/
def execHeartbeatSend (t : Time) (s : State) : Host.Outcome State Fault Refusal :=
  actAwake t (fun d => if d.now.toNat % msT 1 = usT 500 then heartbeatSend d else d) s

/-- BREAK_DETECT_TIMEOUT (R268): no heartbeat has returned for 5 ms. -/
def execBreakDetectTimeout (t : Time) (s : State) : Host.Outcome State Fault Refusal :=
  actAwake t (fun d => if decide (msT 5 ≤ since d.rg.hbBack d.now) then recognise d else d) s

/-! ### Timebase (R255 to R257) -/

/-- The bytes of a BEACON payload (Table RING-4). -/
def beaconBytes (t0 corr hops : Nat) (locked : Bool) (num : Nat) : List Byte :=
  leBytes 8 t0 ++ leBytes 4 corr ++ [BitVec.ofNat 8 hops, BitVec.ofNat 8 (b2n locked)] ++ leBytes 2 num ++ zeros 8

/-- The head sends a BEACON on both ports (R256). T0 is set as its TMARK departs (`departing`). -/
def beaconSend (d : Dev) : Dev :=
  if d.head then
    let f := allFrame 0 (statusNibble d) 0x07 d.rg.beNum (beaconBytes d.now.toNat 0 1 d.pw.locked d.rg.beNum)
    let d := withRing (fun r => { r with beNum := (r.beNum + 1) % 65536 }) d
    enqueue .south f (enqueue .north f d)
  else d

/-- BEACON_SEND (R256): at every ring time that is a multiple of 1 ms. -/
def execBeaconSend (t : Time) (s : State) : Host.Outcome State Fault Refusal :=
  actAwake t (fun d => if d.now.toNat % msT 1 = 0 then beaconSend d else d) s

/-- LINK_DLY of a port in 0.125 ns. -/
def delayEighths (x : LinkPort) : Nat := (quot ((hopDelay x * 4 : Nat) : Int) 5).toNat

/-- Beacons from number m to number n, going up modulo 65,536. -/
def numAhead (m n : Nat) : Nat := (n + 65536 - m) % 65536

/-- A copy that comes after a later beacon has: at most 8 numbers behind. -/
def lateCopy (m n : Nat) : Bool := decide (65528 ≤ numAhead m n)

/-- Is this copy of a beacon used (R256)? The first copy of a beacon is, unless the copy in use has fewer hops and brought
the beacon before; a second copy is where it has fewer hops, or as many and came by the north port (DEDUCED). -/
def useCopy (d : Dev) (p : Port) (b : Beacon) : Bool :=
  let better := decide (b.hops < d.tb.hops) || (decide (b.hops = d.tb.hops) && decide (p = .north))
  let same := decide (d.tb.fromS = decide (p = .south)) && decide (b.hops = d.tb.hops)
  match d.tb.num with
  | none => true
  | some n =>
    if lateCopy n b.num then false
    else if b.num = n then better else better || same || decide (numAhead n b.num ≠ 1)

/-- Sweep results, commits and job starts held under the old time are discarded (R255), and streams end (R304). -/
def dropTimed (d : Dev) : Dev :=
  let gone := (match d.en.imp with
    | some j => if j.begun then [] else [j.h]
    | none => []) ++ (match d.en.est with
    | some j => if d.now.toNat < j.startAt.toNat then [j.h] else []
    | none => [])
  let streams := (d.ex.streams.filter (fun s => !s.started)).map StreamSrc.h
  let late := d.pr.commits.filterMap (fun c => match c.src with
    | .single h => some h
    | .broadcast h => some h
    | .register => none)
  { d with
    sw := { d.sw with held := [], wanted := [] }
    pr := { d.pr with commits := [], seen := [] }
    en := { d.en with
      imp := match d.en.imp with
        | some j => if j.begun then some j else none
        | none => none
      est := match d.en.est with
        | some j => if d.now.toNat < j.startAt.toNat then none else some j
        | none => none }
    ex := { d.ex with cmds := d.ex.cmds.filter (fun c => c.h ∉ gone ++ late ++ streams), streams := [] } }

/-- Timebase restart (R255): the beacon's time is taken directly. The time since the latest HEARTBEAT counts on (R328). -/
def timeRestart (new : Time) (d : Dev) : Dev :=
  let old := d.now
  let d := dropTimed d
  let d := { d with
    now := new, ba := { d.ba with mark := new }
    sf := { d.sf with hbRx := BitVec.ofNat 64 (new.toNat - since d.sf.hbRx old) } }
  occur 38 0 0x1206 (leBytes 8 old.toNat) d

/-- A step of ring time is no time without a HEARTBEAT (R328). -/
def shiftHb (n : Nat) (d : Dev) : Dev := { d with sf := { d.sf with hbRx := d.sf.hbRx + BitVec.ofNat 64 n } }

/-- A beacon error beyond 1 us steps ring time (R257). A backward step holds it still until the beacon's time has caught
up: `advance` never runs back. -/
def timeStep (e : Int) (d : Dev) : Dev :=
  let d := bump R.ringTimeCnt 15 0 1 d
  let d := if 0 < e then shiftHb (e / 40).toNat (advance (d.now + BitVec.ofNat 64 (e / 40).toNat) d) else d
  occur 36 0 0x1204 (leBytes 8 (unsigned 64 e)) d

/-- The beacon used: error, state and ring time (R257). With |e| at most 1 us ring time is slewed over the next 1 ms, which
the times of later commands show. -/
def takeBeacon (t : Time) (p : Port) (b : Beacon) (d : Dev) : Dev :=
  let new8 : Int := (b.t0.toNat * 40 + b.corr + delayEighths (port d p) : Nat)
  let e : Int := new8 - ((t.toNat * 40 + 5 * b.frac : Nat) : Int)
  let new : Time := BitVec.ofNat 64 (new8.toNat / 40 + since t d.now)
  let small := decide (-80 ≤ e) && decide (e ≤ 80)
  let left := decide (d.tb.st = .holdover) || decide (d.tb.st = .lost) || decide (d.tb.st = .none)
  let good := if small then (if left then 1 else min 16 (d.tb.good + 1)) else 0
  let d := if e < -8000000000 then timeRestart new d else if e < -8000 ∨ 8000 < e then timeStep e d else d
  withTime (fun x => { x with
    st := if 16 ≤ good && d.pw.locked then .locked else .acquiring
    hops := b.hops, fromS := decide (p = .south), err := clampInt (-32768) 32767 e, good := good, rxAt := d.now, num := some b.num }) d

/-- Beacons that did not come before number n (RING_TIME_CNT.MISSED). -/
def countMissed (n : Nat) (d : Dev) : Dev :=
  match d.tb.heard with
  | some m =>
    if n = m ∨ lateCopy m n = true then d
    else withTime (fun x => { x with heard := some n }) 
      (if numAhead m n < 32768 then bump R.ringTimeCnt 31 16 (numAhead m n - 1) d else d)
  | none => withTime (fun x => { x with heard := some n }) d

/-- A beacon, whose TMARK arrived at t, comes to a stack device (R256, R257) and goes on with its CORR and HOPS increased; its residence is
added as it departs. -/
def beaconRx (t : Time) (p : Port) (b : Beacon) (d : Dev) : Dev :=
  if d.head then d
  else
    let dly := delayEighths (port d p)
    let use := useCopy d p b
    let age := since t d.now
    let d := countMissed b.num (if p = .north then withTime (fun x => { x with hopsN := some b.hops }) d else d)
    let d := if use then takeBeacon t p b d else d
    sendBeaconOn p b.num (beaconBytes b.t0.toNat (b.corr + dly) (b.hops + 1) b.locked b.num) (8 * (d.now.toNat - age) + b.frac) d

/-- BEACON_RX (R256, R257). -/
def execBeaconRx (t : Time) (p : Port) (b : Beacon) (s : State) : Host.Outcome State Fault Refusal :=
  actAt t (fun d => beaconRx t p b (unbuffer p 0x07 d)) s

/-- No beacon for 3 ms (R257). -/
def holdover (d : Dev) : Dev :=
  if !d.head && (decide (d.tb.st = .acquiring) || decide (d.tb.st = .locked)) && decide (msT 3 ≤ since d.tb.rxAt d.now) then
    withTime (fun x => { x with st := .holdover, good := 0 }) d
  else d

/-- TIMEBASE_HOLDOVER (R257). -/
def execTimebaseHoldover (t : Time) (s : State) : Host.Outcome State Fault Refusal := actAt t holdover s

/-- HOLDOVER for more than 50 ms (R257). -/
def timeLost (d : Dev) : Dev :=
  if !d.head && decide (d.tb.st = .holdover) && decide (msT 53 ≤ since d.tb.rxAt d.now) then
    occur 37 0 0x1205 [] (withTime (fun x => { x with st := .lost }) d)
  else d

/-- TIMEBASE_LOST (R257). -/
def execTimebaseLost (t : Time) (s : State) : Host.Outcome State Fault Refusal := actAt t timeLost s

/-! ### Castling, steps 1 and 2 (R269) -/

/-- The head castles with B: OP 0x10 on both ports, event "ring castled", its own stuck frames dropped, one castling
counted; sweeps that collect carry it. -/
def castleRoute (b : Nat) (d : Dev) : Dev :=
  let d := sendEnum .south (routeMsg b) (sendEnum .north (routeMsg b) d)
  let d := bump R.ringCnt 31 16 1 (setRoute b d)
  let d := { d with sw := { d.sw with collect := d.sw.collect.map (fun c => { c with castled := true }) } }
  post 0x1202 0 [BitVec.ofNat 8 b] d

/-- Is every hop UP, as far as the head knows (R269): its own two, and by the second byte of the slot of each awake position that the latest
heartbeats have seen? A position that they have not seen has no hop of its own while its neighbours' hops are UP: it is bypassed (R239). -/
def allUp (d : Dev) : Bool :=
  d.ln.isUp && d.ls.isUp && d.rg.recs.all (fun r => decide (r.1 = 0) || r.2.low || !r.2.seen || decide (r.2.second / 4 % 2 = 0))

/-- Since when every hop has been UP (R269). -/
def noteAllUp (d : Dev) : Dev :=
  withRing (fun r => { r with upAt := if allUp d then some (r.upAt.getD d.now) else none }) d

/-- The ring is restored (R269): every hop has been UP for 1 s and no sweep collects; OP 0x10 with B 0x3F goes out. -/
def ringRestore (d : Dev) : Dev :=
  let long := match d.rg.upAt with
    | some a => allUp d && passed (msT 1000) a d.now
    | none => false
  if d.head && d.rg.castled && d.sw.collect.isEmpty && long then
    let d := withRing (fun r => { r with brk := false, lo := 0x3F, hi := 0x3F, loEv := false, hiEv := false }) d
    let d := sendEnum .south (routeMsg 0x3F) (sendEnum .north (routeMsg 0x3F) (setRoute 0x3F d))
    post 0x1203 0 [0x3F] d
  else d

/-- RING_RESTORE (R269). -/
def execRingRestore (t : Time) (s : State) : Host.Outcome State Fault Refusal := actAwake t ringRestore s

/-! ### Status (R246, R249, R268) -/

/-- RING_POS. -/
def ringPos (d : Dev) : Word :=
  packW [(d.rg.pos, 0), (b2n d.head, 6), (if d.head then d.rg.n else 0, 8), (d.rg.b, 16), (b2n d.rg.castled, 22)]

/-- RING_STAT. -/
def ringStatWord (d : Dev) : Word :=
  packW [(d.rg.lo, 0), (b2n d.rg.brk, 6), (d.rg.hi, 8), (b2n d.rg.unas, 14), (b2n d.rg.overflow, 15)]

/-- RING_TIME_STAT. -/
def ringTimeStat (d : Dev) : Word :=
  packW [(timeState d, 0), (d.tb.hops % 64, 8), (b2n d.tb.fromS, 14), (unsigned 16 d.tb.err, 16)]

end Sys2Proof.Machine
end

