-- ==== Sys2Proof/Machine/Flags.lean ====
section
/-! DEFINITION. What each register reads: committed copies and stored status words, and the status words that follow their
cause (R335, R336, R403 to R405, R410). -/

namespace Sys2Proof.Machine

/-! ### SYS -/

/-- SYS_ID (R407). -/
def sysId (d : Dev) : Word :=
  packW [(0x3264, 0), (Config.mrev.toNat, 16), (Config.crev.toNat, 20), (b2n d.pw.mode, 24)]

/-- SYS_PWR_STATE. -/
def sysPwrState (d : Dev) : Word :=
  packW [(d.pw.st.code, 0), (b2n d.pw.floorActive, 3), (b2n d.pw.locked, 4), (b2n d.pw.quick, 5), (d.pw.fullReason, 8)]

/-- SYS_SUPPLY (R34, R37, R38). -/
def sysSupply (d : Dev) : Word :=
  packW [(b2n d.pw.warn, 0), (b2n d.pw.persist, 1), (b2n d.pw.nvmSusp, 2), (b2n d.pw.dropout, 3), (b2n (anyLasting d 6), 4)]

/-- SYS_XDOM_BUSY (R353). -/
def xdomBusy (d : Dev) : Word := packW [(b2n d.pr.xM.isSome, 0), (b2n d.pr.xA.isSome, 1)]

/-! ### PROT -/

/-- Does some shadow of a group differ from its committed value (R336)? -/
def groupPending (d : Dev) (g : Nat) : Bool := (groupOffsets g).any (fun o => decide (shadow d o ≠ reg d o))

/-- The active protected configuration record (R345). -/
def cfgActiveRec (d : Dev) : Option CfgRec :=
  if d.pr.recValid then (if d.pr.cfgActive = 0 then d.pr.c0 else d.pr.c1).data else none

/-- The value that a recorded register would take at a start now (R345). -/
def recordedValue (d : Dev) (off : Nat) : Word :=
  match cfgActiveRec d with
  | none => regReset off
  | some r => (match r.entries.find? (fun e => e.1 == off) with
    | some e => e.2
    | none => regReset off)

/-- REC_DIRTY (R345). -/
def recDirty (d : Dev) : Bool := recordOffsets.any (fun o => decide (reg d o ≠ recordedValue d o))

/-- PROT_STAT. -/
def protStat (d : Dev) : Word :=
  packW [(mapBits (groupPending d) 0 8, 0), (b2n d.pr.scrcBad, 8), (b2n !d.pr.cfgFaults.isEmpty, 9), (b2n d.pr.recValid, 10),
    (b2n (recDirty d), 11), (b2n d.pr.storing.isSome, 12)]

/-- PROT_CFG_BLK (R339). -/
def protCfgBlk (d : Dev) : Word := BitVec.ofNat 32 (mapBits (fun k => d.pr.cfgFaults.any (fun f => blockNum f.1 == k)) 0 32)

/-- PROT_CFG_FAULT: the lowest register at fault among the faults present (R339). -/
def protCfgFault (d : Dev) : Word :=
  match d.pr.cfgFaults with
  | [] => 0
  | f :: r =>
    let low := r.foldl (fun a g => if g.1 < a.1 then g else a) f
    packW [(low.1, 0), (low.2.1, 16)]

/-- PROT_SVC_STAT (R346, R347). -/
def svcStat (d : Dev) : Word :=
  let left := match d.pr.svcUntil with
    | some t => (since d.now t + lsbPerSec - 1) / lsbPerSec
    | none => 0
  packW [(b2n (windowOpen d), 0), (b2n d.pr.svcUntil.isSome, 1), (b2n d.pr.svcHead, 2), (b2n d.pr.svcLow, 3), (left % 4096, 16)]

/-- PROT_SEAL_STAT (R349). -/
def sealStat (d : Dev) : Word := packW [(b2n d.pr.sealOpen, 0), (b2n d.pr.sealValid, 1), (min 65535 d.mm.sealCount, 16)]

/-! ### HOST -/

/-- HOST_STAT (R278, R280, R307). -/
def hostStat (d : Dev) (x : Hst) : Word :=
  packW [(mapBits (fun p => (pair x p).run) 0 4, 0), (b2n x.eq.run, 4), (b2n x.kept, 5), (b2n (hint d x), 6),
    (mapBits (pairCond d x) 0 4, 8), (b2n (eqCond d x), 12), (x.cmds.length % 512, 16)]

/-- The stream slot of a number. -/
def streamSlot (x : Hst) (k : Nat) : Option StreamSlot := x.streams.find? (fun s => s.k == k)

/-- What a HOST register reads in the head (R272 to R307). -/
def hostWord (d : Dev) (x : Hst) (off : Nat) : Word :=
  let p := off % 0x100 / 0x20
  if off = R.hostIfStat then packW [(b2n x.octal, 0), (b2n x.lastErr, 1)]
  else if off = R.hostStat then hostStat d x
  else if off = R.hostEqTail then packW [(x.eq.tail, 0), (b2n x.eq.phase, 16)]
  else if 0x5200 ≤ off then
    (match streamSlot x ((off - 0x5200) / 8) with
    | none => 0
    | some s => if off % 8 = 0 then packW [(s.wr, 0)] else packW [(s.cnt, 0), (s.h, 16)])
  else if 0x5100 ≤ off ∧ off % 0x20 = 0x14 then packW [((pair x p).sqHead, 0)]
  else if 0x5100 ≤ off ∧ off % 0x20 = 0x1C then packW [((pair x p).cqTail, 0), (b2n (pair x p).phase, 16)]
  else reg d off

/-! ### Other blocks -/

/-- A word of EVT_LASTING (R355, R356). -/
def lastingWord (d : Dev) (k : Nat) : Word :=
  BitVec.ofNat 32 (mapBits (fun s => decide (s < 43) && anyLasting d s) (32 * k) 32)

/-- EVT_LVLj: four level bytes (R356); byte 3 of EVT_LVL124 is reserved. -/
def levelWord (d : Dev) (j : Nat) : Word :=
  BitVec.ofNat 32 (leNat ((upFrom (4 * j) 4).map (fun b => if b < 0x1F3 then BitVec.ofNat 8 (kget 0 d.ev.lvl b) else 0)))

/-- A word of BIST_UNREP. -/
def unrepWord (d : Dev) (j : Nat) : Word := BitVec.ofNat 32 (d.bi.unrep / 2 ^ (32 * j))

/-- RING_SWEEP (R265). -/
def ringSweep (d : Dev) : Word :=
  packW [(d.sw.lastH % 65536, 0), (b2n (d.sw.held.any (fun s => s.h == d.sw.lastH)), 16), (b2n d.sw.lastLate, 17)]

/-- A word of SAFE_HB_MISS (R328). -/
def hbMiss (d : Dev) (k : Nat) : Word := BitVec.ofNat 32 (mapBits (fun p => decide (p ∈ d.sf.lost)) (32 * k) 32)

/-- The SPU_EN bits of AUX_WIRE_CFG read 0 for a port whose overload bucket is at N (R154). -/
def wireCfgWord (d : Dev) : Word := setFld (reg d R.auxWireCfg) 7 4 (mapBits (spuAllowed d) 0 4)

/-- Index of a register in its run of 4-byte steps. -/
def runIdx (base off : Nat) : Nat := (off - base) / 4

/-- Words of SYS and PROT. -/
def readSysProt (d : Dev) (off : Nat) : Word :=
  if off = R.sysId then sysId d
  else if off = R.sysSerialLo then BitVec.ofNat 32 d.mm.serial
  else if off = R.sysSerialHi then BitVec.ofNat 32 (d.mm.serial / 2 ^ 32)
  else if off = R.sysPwrState then sysPwrState d
  else if off = R.sysRstCause then d.pw.rstCause
  else if off = R.sysSupply then sysSupply d
  else if off = R.sysXdomBusy then xdomBusy d
  else if off = R.protStat then protStat d
  else if off = R.protCfgBlk then protCfgBlk d
  else if off = R.protCfgFault then protCfgFault d
  else if off = R.protSvcStat then svcStat d
  else if off = R.protSealStat then sealStat d
  else reg d off

/-- Words of MEAS, CAL, CMP, CUR and AUX. -/
def readMeas (d : Dev) (off : Nat) : Word :=
  if off = R.measStat then measStat d
  else if off = R.calStat then calStat d
  else if off = R.calRotStat then calRotStat d
  else if off = R.calLapsedA then lapsedMap d 0
  else if off = R.calLapsedB then lapsedMap d 32
  else if off = R.calWsCrc then wsCrc d
  else if off = R.cmpTestStat then packW [(d.ca.cmpGroup % 4, 0), (b2n (cmpActive d), 7)]
  else if off = R.curStat then curStatWord d
  else if off = R.auxWireCfg then wireCfgWord d
  else if off = R.auxWireStat then wireStat d
  else if R.auxWireId ≤ off ∧ off < R.auxWireId + 32 then wireIdWord d (runIdx R.auxWireId off / 2) (runIdx R.auxWireId off % 2)
  else reg d off

/-- Words of BAL and ENG. -/
def readBalEng (d : Dev) (off : Nat) : Word :=
  if off = R.balStat then balStat d
  else if off = R.balThermStat then balThermStat d
  else if off = R.balPwr then balPwr d
  else if off = R.balHold then balMap d .held
  else if off = R.balDone then balMap d .done
  else if off = R.balExp then balMap d .expired
  else if off = R.balGzResult then d.ba.gzRes
  else if off = R.balGzDone then d.ba.gzDone
  else if off = R.balGzExp then d.ba.gzExp
  else if R.balCell ≤ off ∧ off < R.balCell + 128 then balCellWord d (runIdx R.balCell off + 1)
  else if off = R.engStat then engStat d
  else if R.engLoad ≤ off ∧ off < R.engLoad + 64 then engLoadWord d (runIdx R.engLoad off)
  else reg d off

/-- Words of LINK and RING. -/
def readLinkRing (d : Dev) (off : Nat) : Word :=
  if off = R.linkStat then linkStat d .north
  else if off = R.linkStat + 4 then linkStat d .south
  else if off = R.linkDly then linkDly d.ln
  else if off = R.linkDly + 4 then linkDly d.ls
  else if off = R.linkTone then linkTone d
  else if off = R.ringPos then ringPos d
  else if off = R.ringStat then ringStatWord d
  else if off = R.ringTimeLo then BitVec.ofNat 32 d.now.toNat
  else if off = R.ringTimeHi then BitVec.ofNat 32 (d.now.toNat / 2 ^ 32)
  else if off = R.ringTimeStat then ringTimeStat d
  else if off = R.ringSweep then ringSweep d
  else if off = R.ringSweepOfs then BitVec.ofInt 32 d.sw.lastOfs
  else reg d off

/-- Words of SAFE. -/
def readSafe (d : Dev) (off : Nat) : Word :=
  if off = R.safeStat then safeStat d
  else if off = R.safeInStat then safeInStat d
  else if off = R.safeFault then BitVec.ofNat 32 (faultMap d)
  else if off = R.safeHbMiss then (if d.head then hbMiss d 0 else 0)
  else if off = R.safeHbMiss + 4 then (if d.head then hbMiss d 1 else 0)
  else if off = R.safeLast then packW [(d.sf.lastBit, 0), (d.sf.lastPos, 8)]
  else if off = R.safeLastTimeLo then BitVec.ofNat 32 d.sf.lastTime.toNat
  else if off = R.safeLastTimeHi then BitVec.ofNat 32 (d.sf.lastTime.toNat / 2 ^ 32)
  else reg d off

/-- Words of CHK. -/
def readChk (d : Dev) (off : Nat) : Word :=
  let n := (off - 0x6000) / 0x40
  if off % 0x40 = R.chkResult % 0x40 then BitVec.ofNat 32 (chkUnit d n).result
  else if off % 0x40 = R.chkAlvExp % 0x40 then (chkUnit d n).alvExp
  else reg d off

/-- Words of MEM and BIST. -/
def readMemBist (d : Dev) (off : Nat) : Word :=
  if off = R.memLastErr then d.mm.lastErr
  else if off = R.memLastAddr then d.mm.lastAddr
  else if off = R.memNvStat then nvStat d
  else if off = R.memWear then memWearWord d
  else if off = R.memHistSeq then BitVec.ofNat 32 d.mm.nextSeq
  else if off = R.memSumNo then BitVec.ofNat 32 d.mm.summ.num
  else if off = R.memStartNo then BitVec.ofNat 32 d.mm.startNo
  else if off = R.memLifeLo then BitVec.ofNat 32 d.mm.life
  else if off = R.memLifeHi then BitVec.ofNat 32 (d.mm.life / 2 ^ 32)
  else if off = R.memFwStat then fwStat d
  else if off = R.memFwVerA then fwVersion d false
  else if off = R.memFwVerB then fwVersion d true
  else if off = R.bistStat then bistStat d
  else if off = R.bistRecSeq then bistRecSeq d
  else if off = R.bistAge then bistAge d
  else if off = R.bistMisrLo then BitVec.ofNat 32 (tab32 (newestRec d) 0x20)
  else if off = R.bistMisrHi then BitVec.ofNat 32 (tab32 (newestRec d) 0x24)
  else if off = R.bistPatcnt then bistPatcnt d
  else if R.bistUnrep ≤ off ∧ off < R.bistUnrep + 12 then unrepWord d (runIdx R.bistUnrep off)
  else if off = R.bistRepair then bistRepairWord d
  else if off = R.bistJtag then bistJtag d
  else reg d off

/-- Words of EVT. -/
def readEvt (d : Dev) (off : Nat) : Word :=
  if off = R.evtLasting then lastingWord d 0
  else if off = R.evtLasting + 4 then lastingWord d 1
  else if R.evtLvl ≤ off then levelWord d (runIdx R.evtLvl off)
  else reg d off

/-- The word that a register of class safety, parity, direct or status reads. -/
def readHeld (b : Both) (off : Nat) : Word :=
  let d := b.1
  if off < 0x1000 then readSysProt d off
  else if off < 0x3000 then readMeas d off
  else if off < 0x4000 then readBalEng d off
  else if off < 0x5000 then readLinkRing d off
  else if off < 0x5800 then (if d.head then hostWord d b.2 off else regReset off)
  else if off < 0x6000 then readSafe d off
  else if off < 0x6800 then readChk d off
  else if off < 0x7800 then readMemBist d off
  else readEvt d off

/-- What Belvedere and the host read at an offset: 0 where no register is, and 0 from a trigger register (R333, R335, R404,
R405). In the stack-device role the HOST block reads its reset values. -/
def readWord (b : Both) (off : Nat) : Word :=
  match regInfo off with
  | none => 0
  | some r => if r.cls = .trigger then 0 else readHeld b off

/-- What a master reads at an offset (Table REG-3): an engine reads a dangerous register as 0. -/
def masterRead (m : Master) (b : Both) (off : Nat) : Word :=
  match m with
  | .engine => (match regInfo off with
    | some r => if r.priv = .dangerous then 0 else readWord b off
    | none => 0)
  | .belvedere | .hostPort | .executor => readWord b off

end Sys2Proof.Machine
end

