-- ==== Sys2Proof/Machine/Operands.lean ====
section
/-! DEFINITION. Descriptors as the head checks them: opcodes, targets, arguments, tables in the host window, largest results and
deadlines (file 10, R281 to R285, R294 to R306). -/

namespace Sys2Proof.Machine

/-! ### Opcodes and targets (Table HOST-9) -/

/-- What the Targets column of Table HOST-9 allows: only the head, any single position, or also every position. -/
inductive Targets where
  | head | one | broadcast
deriving DecidableEq, Repr

/-- Targets of an opcode; none for an unknown one (R283, R294). -/
def opTargets (op : Nat) : Option Targets :=
  if op ∈ [0x10, 0x80, 0x81] then some .head
  else if op ∈ [0x02, 0x04, 0x20, 0x21, 0x32, 0x41, 0x90, 0xA0] then some .broadcast
  else if op ∈ [0x01, 0x03, 0x11, 0x12, 0x30, 0x31, 0x40, 0x50, 0x51, 0x52, 0x60, 0x70, 0x71, 0xF0] then some .one
  else none

/-- Is TARGET allowed (R284, R294)? -/
def targetOk (k : Targets) (p : Nat) : Bool :=
  match k with
  | .head => decide (p = 0)
  | .one => decide (p ≤ 62)
  | .broadcast => decide (p ≤ 63)

/-- Default deadline in seconds (Table HOST-9). -/
def defaultDeadline (c : Desc) : Nat :=
  match dOp c with
  | 0x10 => 11
  | 0x30 => dFld c 4 15 0 + 70
  | 0x31 => tempS c + 10
  | 0x40 | 0x41 | 0x70 => 60
  | 0x51 => 2
  | 0x52 => 10
  | 0x71 | 0xA0 => 600
  | _ => 1

/-- Deadline after acceptance in seconds (Table HOST-4). -/
def deadline (c : Desc) : Nat :=
  let n := dFld c 0 30 24
  if n = 0 then defaultDeadline c else if bit (dWord c 0) 31 then 64 * n else n

/-! ### Arguments (R297 to R306, R263) -/

/-- REG_READ's arguments (R297). -/
def okRegRead (c : Desc) : Bool :=
  let off := (dWord c 2).toNat
  let n := (dWord c 3).toNat
  decide (off % 4 = 0) && decide (off < 0x10000) && decide (1 ≤ n ∧ n ≤ 64) && zeroFrom c 4

/-- REG_WRITE's arguments (R298). The bounds of OFFSET are those of R297 (DEDUCED). -/
def okRegWrite (c : Desc) : Bool :=
  let off := (dWord c 2).toNat
  let n := (dWord c 3).toNat
  decide (off % 4 = 0) && decide (off < 0x10000) && decide (1 ≤ n ∧ n ≤ 12) && zeroFrom c (4 + n)

/-- REG_MODIFY's arguments (R299). -/
def okRegModify (c : Desc) : Bool :=
  let off := (dWord c 2).toNat
  decide (off % 4 = 0) && decide (off < 0x10000) && zeroFrom c 5

/-- TIMED of COMMIT. -/
def cmTimed (c : Desc) : Bool := bit (dWord c 2) 8

/-- The apply time that COMMIT's words 3 and 4 give. -/
def cmTime (c : Desc) : Nat := (dWord c 3).toNat + 2 ^ 32 * (dWord c 4).toNat

/-- MASK of COMMIT. -/
def cmMask (c : Desc) : Nat := dFld c 2 7 0

/-- COMMIT's arguments (R300), but for the bound of its apply time. -/
def okCommit (c : Desc) : Bool := decide (cmMask c ≠ 0) && zeroFrom c (if cmTimed c then 5 else 3)

/-- START of SWEEP (R263). -/
def swStart (c : Desc) : Nat := (dWord c 2).toNat + 2 ^ 32 * (dWord c 3).toNat

/-- MASK of SWEEP (R263). -/
def swMask (c : Desc) : Nat := (dWord c 4).toNat + 2 ^ 32 * (dWord c 5).toNat

/-- SWEEP's arguments (R263), but for the bounds of START. -/
def okSweep (c : Desc) : Bool := !bit (dWord c 5) 31 && zeroFrom c 6

/-- SRC of STREAM_START (R302). -/
def ssSrc (c : Desc) : Nat := dFld c 2 4 0
/-- DECIM of STREAM_START. -/
def ssDecim (c : Desc) : Nat := dFld c 2 31 16
/-- BUF_OFF of STREAM_START. -/
def ssOff (c : Desc) : Nat := (dWord c 3).toNat
/-- BUF_SIZE of STREAM_START. -/
def ssSize (c : Desc) : Nat := (dWord c 4).toNat

/-- STREAM_START's arguments (R302), but for the overlap with rings and areas. -/
def okStreamStart (c : Desc) : Bool :=
  decide (ssSrc c ≠ 0) && decide (ssDecim c ≠ 0) && decide (ssOff c % 64 = 0) && decide (ssSize c % 64 = 0) &&
  decide (1024 ≤ ssSize c ∧ ssSize c ≤ 65536) && decide (ssOff c + ssSize c ≤ winSize) && zeroFrom c 5

/-- STREAM_STOP's arguments (R304). -/
def okStreamStop (c : Desc) : Bool := zeroFrom c 3

/-- STATE of POWER (R301). -/
def pwState (c : Desc) : Nat := dFld c 2 2 0

/-- POWER's arguments (R301). -/
def okPower (c : Desc) : Bool := decide (1 ≤ pwState c ∧ pwState c ≤ 5) && zeroFrom c 3

/-- The arguments of a descriptor, as it alone shows them. -/
def argsOk (c : Desc) : Bool :=
  match dOp c with
  | 0x01 => okRegRead c
  | 0x02 => okRegWrite c
  | 0x03 => okRegModify c
  | 0x04 => okCommit c
  | 0x10 => okSweep c
  | 0x11 => okStreamStart c
  | 0x12 => okStreamStop c
  | 0x20 => okBalPlan c
  | 0x21 => okBalStop c
  | 0x30 => okImpedance c
  | 0x31 => okEstimate c
  | 0x32 => okModelLoad c
  | 0x40 => okHistRead c
  | 0x41 => okHistMark c
  | 0x50 => okCalRead c
  | 0x51 => okCalStore c
  | 0x52 => okCalUser c
  | 0x60 => okWireXfer c
  | 0x70 => okSelftest c
  | 0x71 => okRepair c
  | 0x80 | 0x81 => zeroFrom c 2
  | 0x90 => okPower c
  | 0xA0 => okFwUpdate c
  | _ => true

/-! ### Rings and areas in the host window (R278, R279) -/

/-- Start and length of the rings and areas that a configuration enables; `look` gives its words. -/
def areasOf (look : Nat → Word) : List (Nat × Nat) :=
  let en := look R.hostRingEn
  let ring (off unit : Nat) : Nat × Nat := (fld (look off) 13 0 * unit, fld (look off) 26 16 * unit)
  let res (p : Nat) : List (Nat × Nat) :=
    let w := look (pairOff R.hostResCfg p)
    if fld w 28 16 = 0 then [] else [(fld w 11 0 * 64, fld w 28 16 * 64)]
  (upFrom 0 4).flatMap (fun p =>
    if bit en p then [ring (pairOff R.hostSqCfg p) 64, ring (pairOff R.hostCqCfg p) 16] ++ res p else []) ++
  (if bit en 4 then [ring R.hostEqCfg 32] else [])

/-- Two ranges overlap. -/
def overlap (a b : Nat × Nat) : Bool := decide (a.1 < b.1 + b.2) && decide (b.1 < a.1 + a.2)

/-- The areas in use. -/
def areas (d : Dev) : List (Nat × Nat) := areasOf (reg d)

/-! ### Acceptance (R283 to R285) -/

/-- Arguments that the head checks against its ring time, its host window and its registers. -/
def argsNow (c : Desc) (d : Dev) (x : Hst) : Bool :=
  match dOp c with
  | 0x04 => !cmTimed c || decide (cmTime c ≤ d.now.toNat + 10 * lsbPerSec)
  | 0x10 => decide (swStart c = 0) || (decide (d.now.toNat ≤ swStart c) && decide (swStart c ≤ d.now.toNat + 10 * lsbPerSec))
  | 0x11 => !(areas d).any (overlap (ssOff c, ssSize c))
  | 0x30 => impedanceArg c d x
  | 0x52 => calUserArg d c
  | _ => true

/-- The table or list that a descriptor names in the host window: offset and length (R288). -/
def tableOf (c : Desc) : Option (Nat × Nat) :=
  match dOp c with
  | 0x20 => some ((dWord c 2).toNat, planLen)
  | 0x30 => if impList c then some ((dWord c 7).toNat, 4 * impNpts c) else none
  | 0x32 => some (mlOff c, mlLen c)
  | 0xA0 => some ((dWord c 2).toNat, (dWord c 3).toNat)
  | _ => none

/-- Number of positions that a SWEEP can deliver at most. -/
def swCount (c : Desc) : Nat :=
  if swMask c = 0 then 63 else ((upFrom 0 63).filter (fun p => (swMask c).testBit p)).length

/-- Cells that a CELLMASK can select at most. -/
def maskMax (w : Word) : Nat := if w = 0 then 32 else maskCount w.toNat

/-- Largest possible result in bytes (R283). -/
def maxResult (c : Desc) : Nat :=
  if dTarget c = 0x3F then 64
  else match dOp c with
    | 0x01 => 4 * (dWord c 3).toNat
    | 0x03 | 0x11 | 0x20 | 0x32 | 0xA0 => 8
    | 0x04 => 16
    | 0x10 => 1040 + 320 * swCount c
    | 0x30 => 64 + 16 * impNpts c * (1 + maskMax (dWord c 3))
    | 0x31 => 32 + 64 * maskMax (dWord c 3)
    | 0x40 => 16 + (match hrArea c with
        | 0 => 1024 * (dWord c 4).toNat
        | 1 => 4096 * (dWord c 4).toNat
        | 2 => 12288
        | _ => 16384)
    | 0x50 => (match dFld c 2 1 0 with
        | 0 => 1040
        | 1 => 1024
        | _ => 560)
    | 0x52 | 0x60 => 40
    | 0x70 => (match stType c with
        | 0 => 256 + 66 * 16 * 8
        | 3 => 8 + 256
        | _ => 4)
    | 0x71 => 4
    | 0x80 => 256
    | 0x81 => 520
    | 0xF0 => 64
    | _ => 0

/-- REASON of a malformed descriptor, 0 for none (R283). The order is the model's. -/
def malformed (c : Desc) (p : Nat) (d : Dev) (x : Hst) : Nat :=
  match opTargets (dOp c) with
  | none => 0x01
  | some k =>
    if dFld c 0 15 14 ≠ 0 ∨ dFld c 0 23 18 ≠ 0 then 0x02
    else if !targetOk k (dTarget c) then 0x03
    else if !argsOk c then 0x04
    else if (match tableOf c with
      | some r => decide (winSize < r.1 + r.2)
      | none => false) then 0x06
    else if !argsNow c d x then 0x04
    else if resLen d p < maxResult c then 0x05
    else 0

/-- Commands outstanding on a pair. -/
def outstanding (x : Hst) (p : Nat) : Nat := (x.cmds.filter (fun c => c.pair == p)).length

/-- REASON of a full head or completion ring, 0 for none (R285). -/
def headFull (p : Nat) (d : Dev) (x : Hst) : Nat :=
  if 256 ≤ x.cmds.length then 0x10
  else if ringSize d (pairOff R.hostCqCfg p) - 1 ≤ outstanding x p + (pair x p).written.length then 0x11
  else 0

end Sys2Proof.Machine
end

