-- ==== Sys2Proof/Machine/HostQueue.lean ====
section
/-! DEFINITION. The doorbells of the host rings: descriptors taken and answered in word 1, head indices of completion and event
rings, deadlines and interrupt moderation (file 10, R281 to R287, R290, R291, R307). -/

namespace Sys2Proof.Machine

/-- The host port operates: a head role, out of reset, enabled (R272). -/
def hostOn (b : Both) : Bool := b.1.head && b.1.running && b.2.on && !portsClosed b.1

/-- A command of the host port or of the head's rings: it has an effect only while the port operates. -/
def actHost (t : Time) (f : Both → Both) (s : State) : Host.Outcome State Fault Refusal :=
  actH (fun b =>
    if b.1.running then
      let b := (tick t b.1, b.2)
      if hostOn b then f b else b
    else b) s

/-- Count an ignored doorbell (R290). -/
def badDoorbell (b : Both) : Both := (bump R.hostErr 31 24 1 b.1, b.2)

/-- Entries from index i to index j in a ring of n. -/
def ringDist (n i j : Nat) : Nat := if i ≤ j then j - i else j + n - i

/-- INDEX of a doorbell word. -/
def doorIndex (w : Word) : Nat := fld w 9 0

/-! ### Submission (R281 to R286) -/

/-- May a handle be assigned (R286)? -/
def handleFree (d : Dev) (x : Hst) (h : Nat) : Bool :=
  x.cmds.all (fun c => c.h ≠ h) && !x.timedOut.any (fun e => e.1 == h && decide (lifeNow d < e.2 + hour))

/-- The handle after h (R286). -/
def handleAfter (h : Nat) : Nat := if h < 0xFFFE then h + 1 else 1

/-- The first free handle from h on; n bounds the search. -/
def pickHandle (d : Dev) (x : Hst) : Nat → Nat → Nat
  | 0, h => h
  | n + 1, h => if handleFree d x h then h else pickHandle d x n (handleAfter h)

/-- The descriptor at an offset of the host window. -/
def readDesc (x : Hst) (off : Nat) : Desc := (upFrom 0 16).map (fun i => BitVec.ofNat 32 (leNat (winRead x (off + 4 * i) 4)))

/-- Word 1 as the head writes it (R283). -/
def word1 (h code reason : Nat) : List Byte := leBytes 2 h ++ [BitVec.ofNat 8 code, BitVec.ofNat 8 reason]

/-- The head takes the descriptor at its submission index: it copies it, checks it, and answers in word 1 (R281 to R286). -/
def takeDesc (p : Nat) (b : Both) : Both :=
  let (d, x) := b
  let q := pair x p
  let cfg := pairOff R.hostSqCfg p
  let off := ringBase d cfg 64 + 64 * q.sqHead
  let c := readDesc x off
  let x := setPair p { q with sqHead := nextIdx (ringSize d cfg) q.sqHead } x
  let bad := malformed c p d x
  let full := headFull p d x
  if bad ≠ 0 then (d, devWrite d.now (off + 4) (word1 0 2 bad) x)
  else if full ≠ 0 then (d, devWrite d.now (off + 4) (word1 0 3 full) x)
  else
    let h := pickHandle d x (x.cmds.length + x.timedOut.length + 1) x.nextH
    let x := devWrite d.now (off + 4) (word1 h 1 0) x
    (d, { x with nextH := handleAfter h, cmds := x.cmds ++ [⟨h, p, c, d.now, false, [], [], [], 0, false, [], 0, 0⟩] })

/-- Take n descriptors in ring order. -/
def takeDescs (p : Nat) : Nat → Both → Both
  | 0, b => b
  | n + 1, b => takeDescs p n (takeDesc p b)

/-- A write to HOST_SQ_TAILp (R281, R290); it is a command that ends a closing (R54). A tail of SIZE or above is counted as a head of SIZE or above is (DEDUCED). -/
def sqBell (p : Nat) (w : Word) (b : Both) : Both :=
  let n := ringSize b.1 (pairOff R.hostSqCfg p)
  let q := pair b.2 p
  if !q.run || decide (n ≤ doorIndex w) then badDoorbell b
  else if q.sqHead = doorIndex w then b
  else
    let b := takeDescs p (ringDist n q.sqHead (doorIndex w)) b
    (abortClosing 7 b.1, b.2)

/-- SQ_DOORBELL (R281 to R286). -/
def execSqDoorbell (t : Time) (p : Nat) (tail : Word) (s : State) : Host.Outcome State Fault Refusal :=
  actHost t (fun b => if p < 4 then sqBell p tail b else b) s

/-! ### Consumption (R290, R291) -/

/-- A write to HOST_CQ_HEADp: entries passed free their result space, and completions that waited follow (R290, R291). -/
def cqBell (p : Nat) (w : Word) (b : Both) : Both :=
  let n := ringSize b.1 (pairOff R.hostCqCfg p)
  let q := pair b.2 p
  let k := ringDist n q.cqHead (doorIndex w)
  if !q.run || decide (n ≤ doorIndex w) || decide (ringDist n q.cqHead q.cqTail < k) then badDoorbell b
  else
    let x := setPair p { q with cqHead := doorIndex w, written := q.written.drop k } b.2
    (b.1, drainWaiting p b.1 q.waiting.length x)

/-- CQ_HEAD_DOORBELL (R290, R291). -/
def execCqHeadDoorbell (t : Time) (p : Nat) (head : Word) (s : State) : Host.Outcome State Fault Refusal :=
  actHost t (fun b => if p < 4 then cqBell p head b else b) s

/-- A write to HOST_EQ_HEAD (R290). -/
def eqBell (w : Word) (b : Both) : Both :=
  let n := ringSize b.1 R.hostEqCfg
  let e := b.2.eq
  let k := ringDist n e.head (doorIndex w)
  if !e.run || decide (n ≤ doorIndex w) || decide (ringDist n e.head e.tail < k) then badDoorbell b
  else (b.1, { b.2 with eq := { e with head := doorIndex w, unserved := e.unserved.drop k } })

/-- EQ_HEAD_DOORBELL (R290). -/
def execEqHeadDoorbell (t : Time) (head : Word) (s : State) : Host.Outcome State Fault Refusal := actHost t (eqBell head) s

/-! ### Deadlines and moderation (R287, R307) -/

/-- Ring time since the head accepted a command, also before a start that kept it (R280, R287). -/
def HeadCmd.age (c : HeadCmd) (now : Time) : Nat := Sys2Proof.Machine.since c.since now + c.spent

/-- Command h has reached its deadline: TIMEOUT; a broadcast completes with the answers it has (R287, R295). -/
def deadlineEnd (h : Nat) (b : Both) : Both :=
  match findCmd b.2 h with
  | none => b
  | some c =>
    if isWaiting b.2 c || decide (c.age b.1.now < deadline c.d * lsbPerSec) then b
    else if dTarget c.d = 0x3F then (b.1, completeBroadcast c b.1 b.2)
    else (b.1, complete c St.timeout [] b.1 b.2)

/-- COMMAND_DEADLINE (R287, R295). -/
def execCommandDeadline (t : Time) (h : Nat) (s : State) : Host.Outcome State Fault Refusal := actHost t (deadlineEnd h) s

/-- INT_TIME_EXPIRE (R307). HINT_N and HOST_STAT.INT follow ring time and the rings, so ring time alone moves here. -/
def execIntTimeExpire (t : Time) (_ring : Nat) (s : State) : Host.Outcome State Fault Refusal := actHost t id s

end Sys2Proof.Machine
end

