-- ==== Sys2Proof/Machine/Commit.lean ====
section
/-! DEFINITION. Commits: snapshot, the blocks' checks, and what each block does with its new configuration (file 12, R333 to R342;
R260, R261, R300, and the chapters that give each register). -/

namespace Sys2Proof.Machine

/-- Change the protection fields. -/
def withProt (f : Prot → Prot) (d : Dev) : Dev := { d with pr := f d.pr }

/-- Is group g in a mask? -/
def inMask (mask g : Nat) : Bool := mask.testBit g

/-! ### Checks of a block (R338) -/

/-- One rule: the register at fault, the kind, the groups whose commit checks it, and whether it holds. -/
abbrev CfgRule := Nat × Nat × Nat × Bool

/-- lo <= n <= hi. -/
def within (lo hi n : Nat) : Bool := decide (lo ≤ n) && decide (n ≤ hi)

/-- Rules of SYS and PROT. -/
def rulesSys (look : Nat → Word) : List CfgRule :=
  [(R.sysWakeTimer, 2, 0x01, within 1 86400 (fld (look R.sysWakeTimer) 16 0)),
   (R.sysQsCfg, 2, 0x01, within 1 30 (fld (look R.sysQsCfg) 4 0)),
   (R.protSvcCfg, 2, 0x01, within 1 60 (fld (look R.protSvcCfg) 5 0))]

/-- NCELLS of a role (R65). -/
def ncellsOk (head : Bool) (n : Nat) : Bool := if head then decide (n ≤ 32) else decide (n = 0) || within 4 32 n

/-- Rules of MEAS and CAL (R65, R67, R70, R91, R100, R111). -/
def rulesMeas (head : Bool) (look : Nat → Word) : List CfgRule :=
  let c := look R.measCtrl
  let notchOk (en lo : Nat) : Bool := !bit c en || decide (4 ≤ fld c (lo + 2) lo)
  [(R.measCtrl, 2, 0x02, decide (fld c 2 0 ≠ 7) && decide (fld c 6 4 ≠ 7)),
   (R.measCtrl, 3, 0x02, notchOk 8 0 && notchOk 9 4),
   (R.measCells, 2, 0x04, ncellsOk head (fld (look R.measCells) 5 0)),
   (R.measDisCfg, 2, 0x04, decide (0x64 ≤ fld (look R.measDisCfg) 15 0) && within 10 60000 (fld (look R.measDisCfg) 31 16)),
   (R.measOwCfg, 2, 0x04, decide (5 ≤ fld (look R.measOwCfg) 7 0)),
   (R.calCtrl, 2, 0x08, decide (5 ≤ fld (look R.calCtrl) 15 8)),
   (R.calBgCfg, 2, 0x04, within 50 1000 (fld (look R.calBgCfg) 9 0))]

/-- Rules of CMP (R92, R93). -/
def rulesCmp (look : Nat → Word) : List CfgRule :=
  (upFrom 0 (min 32 (fld (look R.measCells) 5 0))).map (fun i =>
    let w := look (R.cmpThr + 4 * i)
    (R.cmpThr + 4 * i, 3, 0x04, decide (fld w 25 16 < fld w 9 0))) ++
  [(R.cmpCfg, 2, 0x04, within 1 1000 (fld (look R.cmpCfg) 9 0))]

/-- Rules of CUR and AUX. -/
def rulesCur (look : Nat → Word) : List CfgRule :=
  [(R.curCtrl, 2, 0x10, decide (fld (look R.curCtrl) 6 4 ≠ 7) && decide (fld (look R.curCtrl) 10 8 ≤ 3)),
   (R.curShunt, 2, 0x10, within 1000 100000000 (look R.curShunt).toNat),
   (R.curLimCfg, 2, 0x04, within 1 500 (fld (look R.curLimCfg) 8 0)),
   (R.curDisCfg, 2, 0x04, within 10 60000 (fld (look R.curDisCfg) 31 16)),
   (R.auxCfg, 2, 0x20, within 1 100 (fld (look R.auxCfg) 6 0) && decide (fld (look R.auxCfg) 10 8 ≠ 0)),
   (R.auxWireCfg, 2, 0x20, within 1 1000 (fld (look R.auxWireCfg) 17 8))]

/-- Rules of BAL (R206, R208). A commit of AUX_CH is checked against the ambient channel too. -/
def rulesBal (look : Nat → Word) : List CfgRule :=
  let t := look R.balTherm
  let ch := fld t 2 0
  [(R.balCtrl, 2, 0x80, decide (fld (look R.balCtrl) 3 2 ≠ 3)),
   (R.balTherm, 2, 0x80, within 40 105 (fld t 23 16) && within 60 120 (fld t 31 24)),
   (R.balTherm, 3, 0xA0, !bit t 3 || decide (fld (look R.auxCh) (2 * ch + 1) (2 * ch) = 3)),
   (R.balPcap, 2, 0x80, within 100 1500 (fld (look R.balPcap) 10 0))]

/-- Engine of cell n under a configuration (R164). -/
def engineIn (look : Nat → Word) (n : Nat) : Nat :=
  fld (look (R.engAssign0 + 4 * ((n - 1) / 8))) (4 * ((n - 1) % 8) + 3) (4 * ((n - 1) % 8))

/-- Rules of ENG (R164, R185). A commit of NCELLS is checked against the assignment too. -/
def rulesEng (failed : Nat) (look : Nat → Word) : List CfgRule :=
  let cells := upFrom 1 (min 32 (fld (look R.measCells) 5 0))
  let ok (n : Nat) : Bool :=
    let k := engineIn look n
    !failed.testBit k && decide ((cells.filter (fun m => engineIn look m == k)).length ≤ 8)
  (R.engAnomCfg, 2, 0x40, within 7 60 (fld (look R.engAnomCfg) 7 0)) ::
  (upFrom 0 4).map (fun j => (R.engAssign0 + 4 * j, 3, 0x44, (cells.filter (fun n => (n - 1) / 8 == j)).all ok))

/-- Rules of LINK, RING and SAFE. -/
def rulesRing (look : Nat → Word) : List CfgRule :=
  let r := look R.ringCfg
  let i := look R.safeInCfg
  let disc (lo : Nat) : Bool := within 10 2000 (fld i (lo + 10) lo)
  let out (lo : Nat) : Bool := !bit i (lo + 11) || decide (fld i (lo + 14) (lo + 13) ≠ 0)
  [(R.linkCtrl, 2, 0x01, decide (fld (look R.linkCtrl) 1 0 ≠ 3) && decide (fld (look R.linkCtrl) 3 2 ≠ 3)),
   (R.ringCfg, 2, 0x01, within 1 100 (fld r 7 0) && within 5 4000 (fld r 19 8) && decide (fld r 23 20 ≠ 0) &&
     decide (fld r 25 24 ≠ 3)),
   (R.safeInCfg, 2, 0x04, disc 0 && disc 16),
   (R.safeInCfg, 3, 0x04, out 0 && out 16),
   (R.safeHbCfg, 2, 0x04, within 1 100 (fld (look R.safeHbCfg) 6 0))]

/-- Rules of EVT (R356). -/
def rulesEvt (look : Nat → Word) : List CfgRule :=
  (upFrom 0 43).map (fun s =>
    let w := look (evtCfgOff s)
    (evtCfgOff s, 2, if s < 6 then 0x04 else 0x01, decide (fld w 7 0 ≠ 0) && within 1 8640000 (fld w 31 8)))

/-- The rings and areas of a configuration: register, bit of HOST_RING_EN, unit in bytes. -/
def hostRings : List (Nat × Nat × Nat) :=
  (upFrom 0 4).map (fun p => (pairOff R.hostSqCfg p, p, 64)) ++ (upFrom 0 4).map (fun p => (pairOff R.hostCqCfg p, p, 16)) ++
  [(R.hostEqCfg, 4, 32)]

/-- Enabled ranges with their registers. -/
def hostRanges (look : Nat → Word) : List (Nat × Nat × Nat) :=
  let en := look R.hostRingEn
  (hostRings.filter (fun r => bit en r.2.1)).map (fun r =>
    (r.1, fld (look r.1) 13 0 * r.2.2, fld (look r.1) 26 16 * r.2.2)) ++
  ((upFrom 0 4).filter (fun p => bit en p && decide (fld (look (pairOff R.hostResCfg p)) 28 16 ≠ 0))).map (fun p =>
    let o := pairOff R.hostResCfg p
    (o, fld (look o) 11 0 * 64, fld (look o) 28 16 * 64))

/-- Is the ring of a bit of HOST_RING_EN running? -/
def ringRuns (x : Hst) (i : Nat) : Bool := if i = 4 then x.eq.run else (pair x i).run

/-- Rules of HOST (R279). A field outside its own range is kind 2, the other cases are kind 3 (DEDUCED). -/
def rulesHost (b : Both) (look : Nat → Word) : List CfgRule :=
  let d := b.1
  let x := b.2
  let en := look R.hostRingEn
  let rs := hostRanges look
  let modOk (o : Nat) : Bool := decide (fld (look o) 7 0 ≤ 1) || decide (fld (look o) 31 16 ≠ 0)
  hostRings.map (fun r => (r.1, 2, 0x01, !bit en r.2.1 || within 2 1024 (fld (look r.1) 26 16))) ++
  (upFrom 0 4).map (fun p => (pairOff R.hostResCfg p, 2, 0x01, decide (fld (look (pairOff R.hostResCfg p)) 28 16 ≤ 4096))) ++
  rs.map (fun r => (r.1, 3, 0x01, decide (r.2.1 + r.2.2 ≤ winSize) &&
    rs.all (fun q => decide (q.1 = r.1) || !overlap q.2 r.2))) ++
  hostRings.map (fun r => (r.1, 3, 0x01, !ringRuns x r.2.1 || decide (look r.1 = reg d r.1))) ++
  ((R.hostEqMod :: (upFrom 0 4).map (pairOff R.hostImod)).map (fun o => (o, 3, 0x01, modOk o))) ++
  [(R.hostRingEn, 3, 0x01, (upFrom 0 4).all (fun p => bit en p || !(pair x p).run || decide (outstanding x p = 0)))]

/-- Every rule of a configuration. -/
def cfgRules (b : Both) (look : Nat → Word) : List CfgRule :=
  rulesSys look ++ rulesMeas b.1.head look ++ rulesCmp look ++ rulesCur look ++ rulesBal look ++ rulesEng b.1.en.failed look ++
  rulesRing look ++ rulesEvt look ++ (if b.1.head then rulesHost b look else [])

/-- Rules that a commit of `mask` breaks. -/
def broken (b : Both) (mask : Nat) (look : Nat → Word) : List CfgRule :=
  (cfgRules b look).filter (fun r => !r.2.2.2 && decide (r.2.2.1 &&& mask ≠ 0))

/-- The fault of each block: its lowest register at fault, a value before a combination (R339). -/
def blockFaults (l : List CfgRule) : List CfgRule :=
  l.filter (fun r => l.all (fun q => decide (blockNum q.1 ≠ blockNum r.1) || decide (r.1 < q.1) ||
    (decide (r.1 = q.1) && decide (r.2.1 ≤ q.2.1)))) |>.dedup

/-- Commit group of a register; 8 for none. -/
def groupOf (off : Nat) : Nat :=
  match regInfo off with
  | some r => r.group
  | none => 8

/-- Groups whose commit, applied without fault, clears a fault of this register and kind. -/
def clearedBy (off kind group : Nat) : Nat :=
  if off = R.balTherm ∧ kind = 3 then 0xA0
  else if R.engAssign0 ≤ off ∧ off ≤ R.engAssign0 + 12 ∧ kind = 3 then 0x44
  else 2 ^ group

/-! ### What a new configuration does -/

/-- Cells above the new NCELLS lose their results and their findings (R65), and what was to come of their reliefs (R116); newly enabled lanes start (R76, R109); all
coefficients become unknown, so running cells wait for their step tests (R82, Table BAL-5); jobs end (R127, R168). -/
def cellsCommit (old : Nat) (d : Dev) : Dev :=
  let k := ncells d
  let drop (n : Nat) (d : Dev) : Dev :=
    let d := setReg (resOff .b n) 0x80 (setReg (resOff .a n) 0x80 d)
    let d := each (fun o d => setRegBit o (n - 1) false d)
      [R.cmpStatOv, R.cmpStatUv, R.measDisStat, R.measDisFault, R.measUncomp, R.measOwStat] d
    gone 0 n (if lasting d 1 (n - 1) then d else gone 4 n d)
  let start (n : Nat) (d : Dev) : Dev :=
    { d with
      me := { d.me with since := kset 0 (kset 0 d.me.since (laneIdx .a n) d.now) (laneIdx .b n) d.now }
      ca := { d.ca with epoch := kset 0 (kset 0 d.ca.epoch (laneIdx .a n) 0) (laneIdx .b n) 0 } }
  let d := each drop ((upFrom 1 32).filter (fun n => decide (k < n))) d
  let d := each start ((upFrom 1 32).filter (fun n => decide (old < n) && decide (n ≤ k))) d
  let d := { d with ca := { d.ca with
      relief := d.ca.relief.filter (fun r => decide (laneCell r.1 ≤ k))
      todo := d.ca.todo.filter (fun x => match x.step with
        | .checkIn l _ | .fit (some l) _ | .apply (some l) _ | .checkOut l _ => decide (laneCell l ≤ k)
        | _ => true) } }
  let d := updateTaps (each forgetCoef (upFrom 1 32) d)
  let d := each (fun n d => withBal n (fun c => { c with tested := false }) d) (upFrom 1 32) d
  balUpdate (userAbort (jobsAbort 2 (endTest d)))

/-- Corner index and notch of a lane group. -/
def laneSetup (d : Dev) (g : LaneGroup) : Nat × Nat := (corner d g, notch d g)

/-- A commit that changes a lane group's corner index or notch: its results are stale from here (R76), and CAL_USER ends
(R127). -/
def lanesCommit (old : Dev) (g : LaneGroup) (d : Dev) : Dev :=
  if laneSetup old g = laneSetup d g then d
  else
    let d := each (fun n d => { d with me := { d.me with since := kset 0 d.me.since (laneIdx g n) d.now } }) (cellsUsed d) d
    userAbort d

/-- A commit of BAL_CTRL.DRIVE: every switch opens, one that is being excited too; all coefficients become unknown, and running cells wait (Table
BAL-5). -/
def driveCommit (d : Dev) : Dev :=
  let d := each forgetCoef (upFrom 1 32) d
  let d := each (fun n d => withBal n (fun c => { c with tested := false }) d) (upFrom 1 32) d
  let d := { d with ba := { d.ba with chips := [], gaps := [] } }
  updateTaps (balUpdate (endTest d))

/-- A new N re-evaluates every instance of its source; what a lasting instance keeps latched follows (R356, R311). -/
def evtCommit (old : Dev) (s : Nat) (d : Dev) : Dev :=
  if bucketN old s = bucketN d s then d
  else
    let was := lastingList old s
    let d := reevaluate was s d
    let d := if s = 13 then withdraw d else d
    each (fun i d =>
      match bucketFault s i with
      | none => d
      | some c =>
        if lasting d s i then (if i ∈ was then d else latch c.1 c.2 d)
        else if i ∈ was then gone c.1 c.2 d else d) (upFrom 0 (bucketCount s)) d

/-- A commit of group 2 that changes the outputs' configuration while one is on switches both off, without a latch (R318). -/
def safeCommit (old : Dev) (mask : Nat) (d : Dev) : Dev :=
  let same := [R.safeInCfg, R.safeOutCfg, R.safeHbCfg].all (fun o => reg old o == reg d o)
  if same || !(d.sf.outA.on || d.sf.outB.on) then d
  else post 0x1607 0 [BitVec.ofNat 8 mask] (outOff .sob (outOff .soa d))

/-- A stream's source stops with a reason (R304). In the head its slot is freed; a stack device tells the head by the event
(DESIGN CHOICE: no rule gives the head another sign). -/
def streamStopped (reason h : Nat) (b : Both) : Both :=
  let early := b.1.ex.streams.any (fun s => s.h == h && !s.started)
  let d := { b.1 with ex := { b.1.ex with
    streams := b.1.ex.streams.filter (fun s => s.h ≠ h)
    cmds := if early then b.1.ex.cmds.filter (fun c => c.h ≠ h) else b.1.ex.cmds } }
  (post 0x1401 0 (leBytes 2 h ++ [BitVec.ofNat 8 reason]) d,
    if b.1.head then { b.2 with streams := b.2.streams.filter (fun s => s.h ≠ h) } else b.2)

/-- Every stream of this device stops. -/
def streamsStopped (reason : Nat) (b : Both) : Both := each (streamStopped reason) (b.1.ex.streams.map StreamSrc.h) b

/-- Rings whose bit of HOST_RING_EN has been set start, those whose bit has been cleared stop (R278). -/
def ringsCommit (b : Both) : Both :=
  let en := reg b.1 R.hostRingEn
  let one (p : Nat) (x : Hst) : Hst :=
    let q := pair x p
    if bit en p = q.run then x
    else if bit en p then setPair p { Pair.init with run := true } x else setPair p { q with run := false } x
  let x := each one (upFrom 0 4) b.2
  let x := if bit en 4 = x.eq.run then x
    else if bit en 4 then { x with eq := { EvtRing.init with run := true } } else { x with eq := { x.eq with run := false } }
  (b.1, x)

/-- Corrections that a commit replaces stay known for the windows that straddle it (R101, R131). -/
def corrCommit (old : Dev) (d : Dev) : Dev :=
  each (fun o d => if reg old o = reg d o then d else
    { d with ca := { d.ca with was := (d.now, o, reg old o) :: d.ca.was.filter (fun e => decide (since e.1 d.now < lsbPerSec)) } })
    ([R.calIsaOff, R.calIsaGain, R.calIsbOff, R.calIsbGain] ++
      (upFrom 0 64).flatMap (fun l => [R.calOff + 4 * l, R.calGain + 4 * l, R.calK2 + 4 * l])) d

/-- BCAST and BC_IDX of CUR_CTRL. -/
def bcSetup (d : Dev) : Bool × Nat := (regBit d R.curCtrl 1, bcIdx d)

/-- EN and CORNER of CUR_CTRL. -/
def curSetup (d : Dev) : Bool × Nat := (regBit d R.curCtrl 0, regFld d R.curCtrl 6 4)

/-- What shapes the results of the lanes and the current channels: the lanes' indices and notches, NCELLS, the balancing mode and drive, and CUR_CTRL. -/
def resultSetup (d : Dev) : List Word := [reg d R.measCtrl, reg d R.measCells, reg d R.balCtrl, reg d R.curCtrl]

/-- A commit that sets EN: the samples of the channel begin at it (R136). -/
def enCommit (was : Bool) (d : Dev) : Dev := if curOn d && !was then withCur (fun c => { c with rawTo := d.now }) d else d

/-- Everything that follows from a commit of `mask` that took the device from `old` to the present configuration. -/
def commitEffects (old : Dev) (mask : Nat) (b : Both) : Both :=
  let d := corrCommit old (each (evtCommit old) (upFrom 0 43) b.1)
  let d := if resultSetup old = resultSetup d then d else keepConf old d
  let moved := decide (reg old R.measCells ≠ reg d R.measCells)
  let cornerA := decide (corner old .a ≠ corner d .a)
  let d := lanesCommit old .b (lanesCommit old .a d)
  let d := if moved then cellsCommit (ncells old) d else d
  let d := if reg old R.measTaprLim = reg d R.measTaprLim then d else updateTaps d
  let d := if reg old R.measOwCfg = reg d R.measOwCfg then d else owCommit d
  let d := if reg old R.calBgCfg = reg d R.calBgCfg then d else bgJudge d
  let d := if curSetup old = curSetup d then d else enCommit (curSetup old).1 (curRestart d)
  let d := if (curSetup old).2 = (curSetup d).2 then d else userAbort d
  let d := if bcSetup old = bcSetup d then d else bcRestart d
  let d := if reg old R.curSrc = reg d R.curSrc then d else srcChange (srcAbort d)
  let d := idxAbort (engIdx old) d
  let d := if reg old R.auxWireCfg = reg d R.auxWireCfg then d else wireCommit d
  let d := engineMoves (assignment old) d
  let d := if regBit old R.balCtrl 0 = regBit d R.balCtrl 0 then d else driveCommit d
  let d := pairCommit old 1 (pairCommit old 0 (safeCommit old mask d))
  let b := ringsCommit (d, b.2)
  if moved || cornerA then streamsStopped 4 b else b

/-! ### Snapshot and application (R337, R338, R260) -/

/-- Shadows of the groups of a mask. -/
def snapshot (d : Dev) (mask : Nat) : List (Nat × Word) :=
  ((upFrom 0 8).filter (inMask mask)).flatMap (fun g => (groupOffsets g).map (fun o => (o, shadow d o)))

/-- Offsets of the dangerous registers that have shadows. -/
def dangerousOffsets : List Nat :=
  (allRows.filter (fun r => r.shadowed && decide (r.priv = .dangerous))).flatMap RegRow.offsets

/-- A word of a snapshot taken while a reversion waits: of a dangerous register what the reversion will leave (R348). -/
def revertedWord (d : Dev) (e : Nat × Word) : Nat × Word :=
  if d.pr.revert.isSome && decide (e.1 ∈ dangerousOffsets) then (e.1, reg d e.1) else e

/-- A shadow as it stood before the writes of the present cycle (R354). -/
def shadowBefore (d : Dev) (off : Nat) : Word :=
  match d.cyc.old.find? (fun e => e.1 == off) with
  | some e => e.2
  | none => shadow d off

/-- The words of a timed commit whose time comes: shadows written in the same cycle as they stood before (R354). -/
def dueWords (d : Dev) (mask : Nat) : List (Nat × Word) :=
  (snapshot d mask).map (fun e => revertedWord d (e.1, shadowBefore d e.1))

/-- The words of a local commit's snapshot (R337). -/
def localWords (d : Dev) (c : PendCommit) : List (Nat × Word) :=
  if c.after then (snapshot d c.mask).map (revertedWord d) else snapshot d c.mask

/-- The least multiple of 20 us at or after n. -/
def ceil20 (n : Nat) : Nat := (n + 3999) / 4000 * 4000

/-- The committed copies that a snapshot leaves; blocks at fault keep theirs. A rewritten copy has good parity (R342). Where a
register stands twice its first word counts, as in `lookIn`. -/
def takeWords (bad : List Nat) (snap : List (Nat × Word)) (d : Dev) : Dev :=
  each (fun e d =>
    if blockNum e.1 ∈ bad then d
    else withProt (fun p => { p with parBad := p.parBad.filter (fun o => o ≠ e.1) }) (setReg e.1 e.2 d)) snap.reverse d

/-- A word as the snapshot names it, else as committed. -/
def lookIn (d : Dev) (snap : List (Nat × Word)) (off : Nat) : Word :=
  match snap.find? (fun e => e.1 == off) with
  | some e => e.2
  | none => reg d off

/-- The 16 bytes of a COMMIT result (R300). -/
def commitResult (at0 : Nat) (late fault mismatch : Bool) : List Byte :=
  leBytes 8 at0 ++ [BitVec.ofNat 8 (pack [(b2n late, 0), (b2n fault, 1), (b2n mismatch, 2)])] ++ zeros 7

/-! Checks at the snapshot (R338, R342) -/

/-- A parity mismatch is found for the first time: counted, and a configuration fault of kind 1 (R342). -/
def parityFound (off : Nat) (d : Dev) : Dev := cfgFault off 1 (groupOf off) false (bump R.protErrCnt 31 24 1 d)

/-- The shadows of a mask's groups whose parity is at fault, and whether an earlier commit found them so (R342). -/
def shadowFaults (d : Dev) (mask : Nat) : List (Nat × Bool) := d.pr.parShad.filter (fun e => inMask mask (groupOf e.1))

/-- The shadows' parity is checked: a mismatch counts once (R342). -/
def shadowCheck (mask : Nat) (d : Dev) : Dev :=
  let fresh := (shadowFaults d mask).filter (fun e => !e.2)
  let d := withProt (fun p => { p with parShad := p.parShad.map (fun e => (e.1, e.2 || inMask mask (groupOf e.1))) }) d
  each (fun e d => parityFound e.1 d) fresh d

/-- The registers of a snapshot at fault: shadows of bad parity (kind 1), and those that break a rule (R338, R342). -/
def snapFaults (mask : Nat) (words : List (Nat × Word)) (b : Both) : List (Nat × Nat) :=
  (shadowFaults b.1 mask).map (fun e => (e.1, 1)) ++ (blockFaults (broken b mask (lookIn b.1 words))).map (fun r => (r.1, r.2.1))

/-- A commit's snapshot: every block checks its registers, and a block at fault raises its configuration fault (R338, R342). -/
def takeSnap (mask : Nat) (words : List (Nat × Word)) (b : Both) : Snap × Both :=
  let bad := snapFaults mask words b
  let d := each (fun r d => cfgFault r.1 r.2 (groupOf r.1) false d) (bad.filter (fun r => r.2 ≠ 1)) (shadowCheck mask b.1)
  (⟨words, bad⟩, (d, b.2))

/-- A device answers a broadcast COMMIT: the head to itself, a stack device by its final RESPONSE (R260). -/
def answerAll (h status : Nat) (res : List Byte) (d : Dev) : Dev :=
  if d.head then finish h status res d
  else sendFinal h status res { d with ex := { d.ex with
    results := d.ex.results.filter (fun r => r.h ≠ h) ++ [⟨h, status, res, d.now⟩] } }

/-- Apply one commit with its snapshot: the blocks at fault keep their registers (R338, R339, R341). -/
def applyCommit (c : PendCommit) (x : Snap) (b : Both) : Both :=
  let old := b.1
  let blocks := x.bad.map (fun r => blockNum r.1)
  let d := takeWords blocks x.words old
  let d := withProt (fun p => { p with cfgFaults := p.cfgFaults.filter (fun f =>
    decide (blockNum f.1 ∈ blocks) || decide (clearedBy f.1 f.2.1 f.2.2 &&& c.mask = 0)) }) d
  let b := commitEffects old c.mask (d, b.2)
  let d := b.1
  let mismatch := inMask c.mask 2 && decide (imageCrc d ≠ reg d R.protScrcRef)
  let res := commitResult d.now.toNat (decide (c.late ≠ 0)) (!x.bad.isEmpty) mismatch
  let status := if !x.bad.isEmpty || mismatch then St.checkFail else St.done
  let d := match c.src with
    | .register => d
    | .single h => finish h status res d
    | .broadcast h =>
      let d := if c.late = 0 then d else occur 39 0 0x1207 (leBytes 2 h ++ leBytes 4 (min 0xFFFFFFFF c.late)) d
      answerAll h status res d
  (d, b.2)

/-- May a commit be applied now? -/
def commitReady (d : Dev) (c : PendCommit) : Bool := !c.waitM && !c.waitA && decide (c.due.toNat ≤ d.now.toNat)

/-- A commit whose time has come: a timed one takes its snapshot now (R260). -/
def commitNow (c : PendCommit) (b : Both) : Both :=
  match c.snap with
  | some x => applyCommit c x b
  | none =>
    let (x, b) := takeSnap c.mask (dueWords b.1 c.mask) b
    applyCommit c x b

/-- Apply every commit that is due, oldest first. -/
def applyDue (b : Both) : Both :=
  let go := b.1.pr.commits.filter (commitReady b.1)
  let d := withProt (fun p => { p with commits := p.commits.filter (fun c => !commitReady b.1 c) }) b.1
  each commitNow go (d, b.2)

/-- COMMIT_APPLY (R260, R261, R337 to R339). -/
def execCommitApply (t : Time) (s : State) : Host.Outcome State Fault Refusal :=
  actH (fun b => if b.1.running then applyDue (tick t b.1, b.2) else b) s

/-- A commit joins those that wait. -/
def pushCommit (c : PendCommit) (b : Both) : Both := (withProt (fun p => { p with commits := p.commits ++ [c] }) b.1, b.2)

/-- A commit of this device's own that waits for the posted writes in flight (R337), for the first multiple of 20 us at least 4 us on and
not before ring time `from0`. -/
def localPend (from0 mask : Nat) (src : CommitSource) (late : Nat) (timed : Bool) (d : Dev) : PendCommit :=
  ⟨BitVec.ofNat 64 (ceil20 (max from0 (d.now.toNat + usT 4))), mask, src, d.pr.xM.isSome, d.pr.xA.isSome, late, timed,
    d.pr.revert.isSome, none⟩

/-- A local commit: its snapshot is taken at once, or once the posted writes in flight have landed (R337, R338). A mask of 0 names no
group. -/
def localCommit (mask : Nat) (src : CommitSource) (late : Nat) (b : Both) : Both :=
  if mask = 0 then b
  else
    let c := localPend 0 mask src late false b.1
    if c.waitM || c.waitA then pushCommit c b
    else
      let (x, b) := takeSnap mask (localWords b.1 c) b
      pushCommit { c with snap := some x } b

/-- A posted write has landed for one commit: where nothing that it waits for is in flight any more, it takes its snapshot, a timed one
as it applies (R337). -/
def landCommit (aon : Bool) (c : PendCommit) (b : Both) : Both :=
  let wm := c.waitM && aon
  let wa := c.waitA && !aon
  if !c.waitM && !c.waitA then pushCommit c b
  else if wm || wa then pushCommit { c with waitM := wm, waitA := wa } b
  else
    let c := { c with waitM := false, waitA := false, due := BitVec.ofNat 64 (max c.due.toNat (ceil20 b.1.now.toNat)) }
    if c.timed then pushCommit c b
    else
      let (x, b) := takeSnap c.mask (localWords b.1 c) b
      pushCommit { c with snap := some x } b

/-- A posted write has landed: the commits that waited for it go on (R337). -/
def landCommits (aon : Bool) (b : Both) : Both :=
  each (landCommit aon) b.1.pr.commits (withProt (fun p => { p with commits := [] }) b.1, b.2)

/-- A timed commit of one target: a local commit with the given apply time, at once where that has passed (R300, R337). -/
def timedLocal (at0 mask h : Nat) (b : Both) : Both :=
  let late := b.1.now.toNat - at0
  if late ≠ 0 then localCommit mask (.single h) late b
  else pushCommit (localPend at0 mask (.single h) 0 true b.1) b

/-- A broadcast commit is scheduled; one whose time has passed applies at once (R260). -/
def timedCommit (at0 mask h : Nat) (b : Both) : Both :=
  let late := b.1.now.toNat - at0
  let c : PendCommit := ⟨BitVec.ofNat 64 at0, mask, .broadcast h, false, false, late, true, false, none⟩
  if late = 0 then pushCommit c b else applyDue (pushCommit c b)

/-- A broadcast COMMIT reaches a device, which takes it once (R260); one without a position takes none (R246, R248). -/
def commitFrame (at0 : Time) (mask h : Nat) (b : Both) : Both :=
  if 62 < b.1.rg.pos ∨ (h, at0) ∈ b.1.pr.seen then b
  else timedCommit at0.toNat mask h (withProt (fun p => { p with seen := lastN 16 (p.seen ++ [(h, at0)]) }) b.1, b.2)

/-- COMMIT_FRAME_RX (R260). -/
def execCommitFrameRx (t : Time) (apply : Time) (mask h : Nat) (s : State) : Host.Outcome State Fault Refusal :=
  actH (fun b => if b.1.running then (let b := (tick t b.1, b.2); let b := (unbufferAny 0x08 b.1, b.2); if b.1.head then b else commitFrame apply mask h b) else b) s

/-- The payload of a COMMIT frame (R260). -/
def commitBytes (at0 mask h : Nat) : List Byte := leBytes 8 at0 ++ [BitVec.ofNat 8 mask, 0] ++ leBytes 2 h ++ zeros 4

/-- LEAD in ring-time LSBs. -/
def leadT (d : Dev) : Nat := usT 10 * regFld d R.ringCfg 19 8

/-- REQ_TIMEOUT in ring-time LSBs. -/
def reqTimeout (d : Dev) : Nat := msT (regFld d R.ringCfg 23 20)

/-- The head sends a COMMIT on both ports, takes it itself, and marks positions in a low-power state as missing (R260). -/
def commitAll (h : Nat) (c : Desc) (b : Both) : Both :=
  let d := b.1
  let at0 := if cmTimed c then cmTime c else d.now.toNat + leadT d
  let f := allFrame 0 (statusNibble d) 0x08 h (commitBytes at0 (cmMask c) h)
  let d := enqueue .south f (enqueue .north f d)
  let low := (d.rg.recs.filter (fun r => r.2.low)).map Prod.fst
  let x := match findCmd b.2 h with
    | some k => setCmd { k with answers := low.map (fun p => (p, 3)), applyAt := at0 } b.2
    | none => b.2
  timedCommit at0 (cmMask c) h (d, x)

/-- COMMIT at a single target or, in the head, to all (R260, R300). -/
def commitOp (h : Nat) (c : Desc) (b : Both) : Both :=
  if dTarget c = 0x3F then (if b.1.head then commitAll h c b else b)
  else if cmTimed c then timedLocal (cmTime c) (cmMask c) h b
  else localCommit (cmMask c) (.single h) 0 b

/-- COMMIT (R260, R300). -/
def execCommit (t : Time) (h : Nat) (c : Desc) (s : State) : Host.Outcome State Fault Refusal :=
  actOpH 0x04 okCommit t c (commitOp h c) s

/-- REQ_TIMEOUT after its apply time a broadcast COMMIT completes with the answers it has (R260). -/
def commitAnswerEnd (h : Nat) (b : Both) : Both :=
  match findCmd b.2 h with
  | some c =>
    if dTarget c.d = 0x3F ∧ dOp c.d = 0x04 ∧ !isWaiting b.2 c ∧ c.applyAt + reqTimeout b.1 ≤ b.1.now.toNat ∧ c.sent then
      (b.1, completeBroadcast c b.1 b.2)
    else b
  | none => b

/-- COMMIT_ANSWER_TIMEOUT (R260). -/
def execCommitAnswerTimeout (t : Time) (h : Nat) (s : State) : Host.Outcome State Fault Refusal := actHost t (commitAnswerEnd h) s

end Sys2Proof.Machine
end

