-- ==== Sys2Proof/Machine/Prot.lean ====
section
/-! DEFINITION. Register protection beside commits: parity findings, the protected configuration record, the service window, posted
writes as they land (file 12, R342 to R348, R353). -/

namespace Sys2Proof.Machine

/-! ### Parity (R342) -/

/-- Does a register carry a parity bit over its committed copy (R342)? -/
def hasParity (off : Nat) : Bool :=
  match regInfo off with
  | none => false
  | some r => (match r.cls with
    | .parity | .direct => true
    | .safety | .trigger | .status => false)

/-- A direct register's copy is good again: its parity fault ends (R342). A fault of a register with a commit group stays until
that group's commit (R339). -/
def parityGood (off : Nat) (d : Dev) : Dev :=
  withProt (fun p => { p with
    parBad := p.parBad.filter (fun o => o ≠ off)
    cfgFaults := p.cfgFaults.filter (fun f => !(decide (f.1 = off) && decide (f.2.1 = 1) && decide (f.2.2 = 8))) }) d

/-- Has a register a shadow with a parity bit (R342)? -/
def shadowParity (off : Nat) : Bool :=
  match regInfo off with
  | none => false
  | some r => decide (r.cls = .parity)

/-- Shadows are upset; the next commit of their groups finds their parity at fault (R342). -/
def upsetShadows (l : List Nat) (d : Dev) : Dev :=
  let fresh := ((l.filter shadowParity).dedup).filter (fun o => d.pr.parShad.all (fun e => e.1 ≠ o))
  withProt (fun p => { p with parShad := p.parShad ++ fresh.map (fun o => (o, false)) }) d

/-- A block uses committed copies whose parity is bad: each mismatch not yet found is found (R342). -/
def parityUse (l : List Nat) (d : Dev) : Dev :=
  let fresh := ((l.filter hasParity).dedup).filter (fun o => decide (o ∉ d.pr.parBad))
  each parityFound fresh (withProt (fun p => { p with parBad := p.parBad ++ fresh }) d)

/-- The scan of every committed copy, 1 ms after the one before, which finds those of `bad` at fault and the others good (R342). -/
def parityScan (bad : List Nat) (d : Dev) : Dev :=
  if !passed (msT 1) d.pr.parAt d.now then d
  else
    let d := each parityGood (d.pr.parBad.filter (fun o => decide (o ∉ bad))) d
    parityUse bad (withProt (fun p => { p with parAt := d.now }) d)

/-- PARITY_SCAN (R342): what upsets there have been, what a use of a copy finds, and the scan. -/
def execParityScan (t : Time) (x : ParitySeen) (s : State) : Host.Outcome State Fault Refusal :=
  actAt t (fun d => parityScan (x.scan ++ x.uses) (parityUse x.uses (upsetShadows x.shadows d))) s

/-! ### Protected configuration record (R343 to R345) -/

/-- A slot of the record. -/
def cfgSlot (d : Dev) (i : Nat) : CfgSlot := if i = 0 then d.pr.c0 else d.pr.c1

/-- Replace a slot of the record. -/
def setCfgSlot (i : Nat) (x : CfgSlot) (d : Dev) : Dev :=
  withProt (fun p => if i = 0 then { p with c0 := x } else { p with c1 := x }) d

/-- The record image before its CRC (Table REG-6). -/
def CfgRec.head (r : CfgRec) : List Byte :=
  leBytes 4 0x47464350 ++ leBytes 2 1 ++ leBytes 2 r.entries.length ++ leBytes 8 r.serial ++ leBytes 8 r.life ++ wordBytes r.ref ++
  zeros 4 ++ r.entries.flatMap (fun e => leBytes 2 e.1 ++ zeros 2 ++ wordBytes e.2)

/-- The record CRC (Table REG-6). -/
def CfgRec.crc (r : CfgRec) : Nat := crc32 r.head

/-- Sequence number of the next record (R344). -/
def cfgNextSeq (d : Dev) : Nat :=
  match cfgActiveRec d with
  | some r => (r.seq + 1) % 2 ^ 32
  | none => (match d.pr.c0.mark, d.pr.c1.mark with
    | some a, some b => (max a b + 1) % 2 ^ 32
    | some a, none => (a + 1) % 2 ^ 32
    | none, some b => (b + 1) % 2 ^ 32
    | none, none => 1)

/-- "Protected configuration not stored". -/
def notStored (reason : Nat) (d : Dev) : Dev := post 0x0207 0 [BitVec.ofNat 8 reason] d

/-- A store is refused in the present state (R343). -/
def cfgRefused (d : Dev) : Bool :=
  d.pr.storing.isSome || groupPending d 0 || groupPending d 2 || !d.pr.cfgFaults.isEmpty || d.pr.scrcBad

/-- A store of the record begins (R343, R344): the slot without the active record, erased first if it is not blank, in place of the
background erase that waits for it (R122). -/
def cfgStoreBegin (d : Dev) : Dev :=
  if cfgRefused d then notStored 1 d
  else
    let i := if d.pr.recValid then 1 - d.pr.cfgActive else 0
    let r : CfgRec := ⟨cfgNextSeq d, d.mm.serial, d.mm.life, reg d R.protScrcRef, recordOffsets.map (fun o => (o, reg d o))⟩
    let step := if (cfgSlot d i).blank then 3 else 2
    withProt (fun p => { p with storing := some ⟨i, r, step, d.now⟩, cfgCleanup := none }) d

/-- A write of `key` to PROT_CFG_STORE that its privilege allows (R343). -/
def cfgStoreKey (key : Word) (d : Dev) : Dev := if key = 0x5A5A0003 then cfgStoreBegin d else d

/-- The store goes on with another step. -/
def cfgStep (x : CfgStore) (n : Nat) (d : Dev) : Dev := withProt (fun p => { p with storing := some { x with step := n, at0 := d.now } }) d

/-- The store ends. -/
def cfgStoreEnd (d : Dev) : Dev := withProt (fun p => { p with storing := none }) d

/-- Erase a slot of the record. -/
def cfgErase (i : Nat) (d : Dev) : Dev := addWear (4 + i) (setCfgSlot i CfgSlot.empty d)

/-- The store has succeeded. -/
def cfgStored (x : CfgStore) (d : Dev) : Dev := cfgStoreEnd (post 0x0206 0 (leBytes 4 x.data.seq ++ leBytes 4 x.data.crc) d)

/-- A read-back of step `n` fails (R121 as R343 takes it): the target is erased and the steps from 3 repeated once. -/
def cfgFail (x : CfgStore) (n : Nat) (d : Dev) : Dev := cfgStep x (if x.step < 10 then 12 else 20 + n) d

/-- One operation of a store completes. Steps are those of Table CAL-6: 2 erase, 3 image, 5 marker, 7 erase the old slot; 12 to 15
repeat 2 to 5; 24 and 26 erase the target after a second failure (R343). -/
def cfgStoreNext (ok : Bool) (x : CfgStore) (d : Dev) : Dev :=
  let again := decide (10 ≤ x.step)
  let next (n : Nat) : Nat := if again then n + 10 else n
  match x.step % 10, decide (20 ≤ x.step) with
  | _, true => cfgStoreEnd (notStored 2 (cfgErase x.slot d))
  | 2, _ => cfgStep x (next 3) (cfgErase x.slot d)
  | 3, _ =>
    let d := setCfgSlot x.slot ⟨none, none, false⟩ d
    if ok then cfgStep x (next 5) d else cfgFail x 4 d
  | 5, _ =>
    if ok then
      let d := setCfgSlot x.slot ⟨some x.data, some x.data.seq, false⟩ d
      let d := withProt (fun p => { p with recValid := true, cfgActive := x.slot }) d
      if (cfgSlot d (1 - x.slot)).blank then cfgStored x d else cfgStep x 7 d
    else cfgFail x 6 d
  | 7, _ => cfgStored x (cfgErase (1 - x.slot) d)
  | _, _ => d

/-- A non-volatile operation of the record's slots completes. -/
def cfgNvm (op : NvmOp) (ok : Bool) (d : Dev) : Dev :=
  match op with
  | .cfgCleanup =>
    (match d.pr.cfgCleanup with
      | some i => cfgErase i (withProt (fun p => { p with cfgCleanup := none }) d)
      | none => d)
  | _ =>
    (match d.pr.storing with
      | some x => cfgStoreNext ok x d
      | none => d)

/-- A record of a slot is valid: its image is this device's own (R344). -/
def cfgValid (d : Dev) (x : CfgSlot) : Option CfgRec :=
  match x.data with
  | some r => if r.serial = d.mm.serial then some r else none
  | none => none

/-- The slot with the valid record of the highest sequence number; equal numbers give slot 0 (R345, R122). -/
def cfgPick (d : Dev) : Option (Nat × CfgRec) :=
  match cfgValid d d.pr.c0, cfgValid d d.pr.c1 with
  | some a, some b => if a.seq < b.seq then some (1, b) else some (0, a)
  | some a, none => some (0, a)
  | none, some b => some (1, b)
  | none, none => none

/-- Rules that values of a record meet at its load (R345, R338). -/
def recordRules (head : Bool) (look : Nat → Word) : List CfgRule :=
  rulesSys look ++ rulesMeas head look ++ rulesCmp look ++ rulesCur look ++ rulesRing look ++ rulesEvt look

/-- The values of a record that pass their checks, and the faults of those that do not: register and kind. Each failing value
falls away before the rest is checked again; n bounds the number. -/
def checkRecord (d : Dev) : Nat → List (Nat × Word) → List (Nat × Word) × List (Nat × Nat)
  | 0, vals => (vals, [])
  | n + 1, vals =>
    match (recordRules d.head (lookIn d vals)).find? (fun r => !r.2.2.2 && vals.any (fun e => e.1 == r.1)) with
    | none => (vals, [])
    | some r =>
      let x := checkRecord d n (vals.filter (fun e => e.1 ≠ r.1))
      (x.1, (r.1, r.2.1) :: x.2)

/-- Load one record (R344, R345): a foreign entry is ignored with a fault, a failing value keeps its reset value. -/
def loadEntries (r : CfgRec) (d : Dev) : Dev :=
  let own := r.entries.filter (fun e => decide (e.1 ∈ recordOffsets))
  let foreign := r.entries.filter (fun e => decide (e.1 ∉ recordOffsets))
  let d := each (fun e d => cfgFault e.1 2 (groupOf e.1) true d) foreign d
  let x := checkRecord d own.length own
  let d := each (fun e d => setBoth e.1 e.2 d) x.1.reverse d
  each (fun f d => cfgFault f.1 f.2 (groupOf f.1) true d) x.2 d

/-- Step 9 of a start loads the record, or leaves reset values and forms the reference itself (R345). The other slot is erased
after READY where it is not blank; a store that a reset cut off is reported (R122 as R343 takes it). -/
def loadRecord (d : Dev) : Dev :=
  let d := withProt (fun p => { p with recValid := false, storing := none, cfgCleanup := none }) d
  match cfgPick d with
  | none => setBoth R.protScrcRef (imageCrc d) d
  | some (i, r) =>
    let other := cfgSlot d (1 - i)
    let d := withProt (fun p => { p with recValid := true, cfgActive := i, cfgCleanup := if other.blank then none else some (1 - i) }) d
    let d := setBoth R.protScrcRef r.ref (loadEntries r d)
    if other.blank || (cfgValid d other).isSome then d else notStored 3 d

/-- SYS_QS_CFG as step 2 of a start takes it from the valid record, checked; without one its reset value (R60). -/
def storedQsCfg (d : Dev) : Word :=
  match cfgPick d with
  | none => regReset R.sysQsCfg
  | some (_, r) => (match r.entries.find? (fun e => e.1 == R.sysQsCfg) with
    | some e => if within 1 30 (fld e.2 4 0) then e.2 else regReset R.sysQsCfg
    | none => regReset R.sysQsCfg)

/-! ### Service window (R346 to R348) -/

/-- The dangerous shadows that differ are set back, and the closing is posted with their number (R348). -/
def revertNow (reason : Nat) (d : Dev) : Dev :=
  let l := dangerousOffsets.filter (fun o => decide (shadow d o ≠ reg d o))
  let d := each (fun o d => setShadow o (reg d o) d) l d
  let d := withProt (fun p => { p with parShad := p.parShad.filter (fun e => decide (e.1 ∉ l)) }) d
  post 0x0204 0 (BitVec.ofNat 8 reason :: leBytes 2 (min 65535 l.length)) (withProt (fun p => { p with revert := none }) d)

/-- What follows when the position's window has closed: the reversion, once no posted write is in flight (R348). With EXTEST
in force the outputs drop, since they follow the boundary cells only in an open window (R330, R402). -/
def windowClosed (was : Bool) (reason : Nat) (d : Dev) : Dev :=
  if was && !windowOpen d then
    let d := if d.sf.extest then outOff .sob (outOff .soa d) else d
    if d.pr.xM.isSome || d.pr.xA.isSome then withProt (fun p => { p with revert := some reason }) d else revertNow reason d
  else d

/-- The local window closes with a reason. -/
def closeLocal (reason : Nat) (d : Dev) : Dev :=
  if d.pr.svcUntil.isSome then
    windowClosed (windowOpen d) reason (withProt (fun p => { p with svcUntil := none }) d)
  else d

/-- MINUTES of the committed PROT_SVC_CFG. -/
def svcMinutes (d : Dev) : Nat := regFld d R.protSvcCfg 5 0

/-- Can there have been 2,000 low samples of SVC_N, one a millisecond? Sampling began at the start's completion, and the last high
sample cuts the hold (R346). -/
def svcHeld (d : Dev) : Bool :=
  match d.pr.svcFrom with
  | some t => passed (msT 1999) t d.now
  | none => false

/-- SVC_N has given `samples` consecutive low samples of the present hold, 0 when it reads high. 2,000 open or restart the local
window, once in a hold (R346). -/
def svcSamples (samples : Nat) (d : Dev) : Dev :=
  if samples = 0 then withProt (fun p => { p with svcLow := false, svcSpent := false, svcFrom := some d.now }) d
  else
    let d := withProt (fun p => { p with svcLow := true }) d
    if 2000 ≤ samples ∧ svcHeld d ∧ !d.pr.svcSpent then
      let m := svcMinutes d
      let d := withProt (fun p => { p with svcSpent := true, svcUntil := some (BitVec.ofNat 64 (d.now.toNat + m * 60 * lsbPerSec)) }) d
      post 0x0203 0 [1, BitVec.ofNat 8 m] d
    else d

/-- SERVICE_WINDOW_OPEN (R346). SVC_N is sampled in STANDBY and ACTIVE. -/
def execServiceWindowOpen (t : Time) (samples : Nat) (s : State) : Host.Outcome State Fault Refusal :=
  actAwake t (svcSamples samples) s

/-- MINUTES have elapsed (R346). -/
def svcExpire (d : Dev) : Dev :=
  match d.pr.svcUntil with
  | some u => if u.toNat ≤ d.now.toNat then closeLocal 1 d else d
  | none => d

/-- SERVICE_WINDOW_TIMEOUT (R346). -/
def execServiceWindowTimeout (t : Time) (s : State) : Host.Outcome State Fault Refusal := actAt t svcExpire s

/-- A write to PROT_SVC_CLOSE (R348). -/
def svcCloseWrite (v : Word) (d : Dev) : Dev := if bit v 0 then closeLocal 2 d else d

/-- PROT_SVC_CLOSE (R348). -/
def execProtSvcClose (t : Time) (v : Word) (s : State) : Host.Outcome State Fault Refusal := actAt t (svcCloseWrite v) s

/-- A HEARTBEAT shows the head's window open or closed (R347). -/
def svcFromHead (seen : Bool) (d : Dev) : Dev :=
  if d.head || seen = d.pr.svcHead then d
  else
    let was := windowOpen d
    let d := withProt (fun p => { p with svcHead := seen }) d
    if seen then (if was then d else post 0x0203 0 [2, 0] d) else windowClosed was 3 d

/-- No HEARTBEAT has arrived for 10 ms: a window opened through the head closes (R347). -/
def svcHeadLost (d : Dev) : Dev :=
  if d.pr.svcHead && decide (msT 10 ≤ since d.sf.hbRx d.now) then
    let was := windowOpen d
    windowClosed was 4 (withProt (fun p => { p with svcHead := false }) d)
  else d

/-- SVC_HEAD_TIMEOUT (R347). -/
def execSvcHeadTimeout (t : Time) (s : State) : Host.Outcome State Fault Refusal := actAt t svcHeadLost s

/-! ### Posted writes (R353) -/

/-- A posted write lands in its shadow. Commits and a reversion that waited for it go on (R337, R348). -/
def postedLand (aon : Bool) (b : Both) : Both :=
  match (if aon then b.1.pr.xA else b.1.pr.xM) with
  | none => b
  | some w =>
    let d := swShadow w.off w.mask w.v b.1
    let d := withProt (fun p => if aon then { p with xA := none } else { p with xM := none }) d
    let b := landCommits aon (d, b.2)
    match b.1.pr.revert with
    | some r => if b.1.pr.xM.isSome || b.1.pr.xA.isSome then b else (revertNow r b.1, b.2)
    | none => b

/-- POSTED_WRITE_LAND (R353). -/
def execPostedWriteLand (t : Time) (aon : Bool) (s : State) : Host.Outcome State Fault Refusal :=
  actBoth t (postedLand aon) s

end Sys2Proof.Machine
end

