-- ==== Sys2Proof/Machine/RegWrite.lean ====
section
/-! DEFINITION. Writes to registers: width, alignment and privilege, what each class does with a written value, bit aliases, and the
opcodes REG_READ, REG_WRITE and REG_MODIFY (file 12, R333 to R336, R350 to R354; file 10, R297 to R299; file 15, R404 to R411). -/

namespace Sys2Proof.Machine

/-! ### Refusals (R335, R350, R353) -/

/-- A write from the host port that the register model refuses shows there too (R276, R335, R350). -/
def portRefused (m : Master) (b : Both) : Both :=
  match m with
  | .hostPort => (bump R.hostErr 23 16 1 b.1, { b.2 with lastErr := true })
  | .belvedere | .executor | .engine => b

/-- A write of a wrong width or alignment (R350). -/
def refuseAlign (m : Master) (b : Both) : Both := portRefused m (misaligned b.1, b.2)

/-- A write into a domain that is busy (R353). -/
def refuseBusy (m : Master) (b : Both) : Both := portRefused m (bump R.protErrCnt 15 8 1 b.1, b.2)

/-- A write refused by privilege (R335). -/
def refusePriv (m : Master) (off : Nat) (p : Priv) (b : Both) : Both := portRefused m (denied m off p b.1, b.2)

/-- May a master write a dangerous register now (Table REG-3)? -/
def dangerousOk (m : Master) (d : Dev) : Bool :=
  match m with
  | .belvedere => true
  | .hostPort | .executor => windowOpen d
  | .engine => false

/-! ### Trigger registers -/

/-- A write to CHKn_CTRL: RESTART, COMPARE, ALV_SYNC. -/
def chkCtrlWrite (n : Nat) (v : Word) (d : Dev) : Dev :=
  let d := if bit v 0 then chkRestart n d else d
  let d := if bit v 1 then chkCompare n d else d
  if bit v 2 then setRegBit (chkOff R.chkStat n) 6 false (setChk n { chkUnit d n with synced := false } d) else d

/-- A write to a trigger register of unit n, by its place in the unit. -/
def chkTrigger (n at0 : Nat) (v : Word) (d : Dev) : Dev :=
  match at0 with
  | 0x10 => chkFeed n 1 v d
  | 0x14 => chkFeed n 2 v d
  | 0x18 => chkFeed n 4 v d
  | 0x1C => chkCtrlWrite n v d
  | 0x30 => alvCheck n v d
  | _ => d

/-- A write to SYS_RESET: the key asks for a reset 10 ms on (R408). -/
def sysResetWrite (v : Word) (d : Dev) : Dev := if v = 0x5A5A0001 then { d with pw := { d.pw with swReset := some d.now } } else d

/-- A write to a trigger register acts at once (R333). -/
def trigger (off : Nat) (v : Word) (b : Both) : Both :=
  let dev (f : Dev → Dev) : Both := (f b.1, b.2)
  if off = R.sysReset then dev (sysResetWrite v)
  else if off = R.protCommit then localCommit (fld v 7 0) .register 0 b
  else if off = R.protSvcClose then dev (svcCloseWrite v)
  else if off = R.protCfgStore then dev (cfgStoreKey v)
  else if off = R.linkCmd then dev (linkCmd v)
  else if off = R.hostEqHead then eqBell v b
  else if 0x5100 ≤ off ∧ off < 0x5180 then
    (if off % 0x20 = 0x10 then sqBell (off % 0x100 / 0x20) v b else cqBell (off % 0x100 / 0x20) v b)
  else if off = R.safeOutCmd then dev (outCmd (bit v 0) (bit v 1) (bit v 2) (bit v 3))
  else if off = R.safeReset then dev (safeResetWrite v)
  else dev (chkTrigger ((off - 0x6000) / 0x40) (off % 0x40) v)

/-! ### Direct registers (R359, R361) -/

/-- What a direct register takes of a written word: a WIDTH outside 3 to 32 is ignored (R359), as is an ALV_CFG whose STEP is 0
modulo 2^AWIDTH (R361). -/
def directWord (off : Nat) (old v : Word) : Word :=
  if off % 0x40 = 0 then (if within 3 32 (fld v 5 0) then v else setFld v 5 0 (fld old 5 0))
  else if off % 0x40 = 0x2C then (if fld v 7 0 % 2 ^ fld v 12 8 = 0 then old else v)
  else v

/-- A direct register takes a word; its copy has good parity again (R342). -/
def directWrite (off : Nat) (v : Word) (d : Dev) : Dev := parityGood off (setReg off (directWord off (reg d off) v) d)

/-! ### The write (R335, R336, R350, R353) -/

/-- Bits [8*(lane+size)-1 : 8*lane], the byte lanes of a narrow access. -/
def laneMask (lane size : Nat) : Word := BitVec.ofNat 32 ((2 ^ (8 * size) - 1) * 2 ^ (8 * lane))

/-- Bits that software may write. -/
def RegRow.writable (r : RegRow) : Word := BitVec.ofNat 32 r.wmask

/-- Is a posted write of the register's domain in flight (R353)? -/
def domainBusy (d : Dev) (off : Nat) : Bool :=
  if onAon off then d.pr.xA.isSome else if onMdie off then d.pr.xM.isSome else false

/-- A shadow takes the bits of `mask` from a word: at once on the C-die, as a posted write elsewhere (R336, R353). -/
def shadowWrite (off : Nat) (mask v : Word) (d : Dev) : Dev :=
  if onAon off then withProt (fun p => { p with xA := some ⟨off, mask, v⟩ }) d
  else if onMdie off then withProt (fun p => { p with xM := some ⟨off, mask, v⟩ }) d
  else swShadow off mask v d

/-- The value of a register before a write: shadow, or held word without the increments of the same cycle (R10). Triggers read 0. -/
def oldWord (r : RegRow) (off : Nat) (b : Both) : Word :=
  if r.shadowed then shadow b.1 off else unsummed b.1 off (readWord b off)

/-- A register takes the bits of `mask` from `v`, its privilege and domain allowing (R333, R336). -/
def regTake (r : RegRow) (off : Nat) (mask v : Word) (b : Both) : Both :=
  let bits := mask &&& r.writable
  match r.cls with
  | .safety | .parity => (shadowWrite off bits v b.1, b.2)
  | .direct => (directWrite off (mergeBits bits (readWord b off) v) b.1, b.2)
  | .status => (sumWrite off (mergeBits bits (unsummed b.1 off (reg b.1 off)) v) b.1, b.2)
  | .trigger => trigger off v b

/-- Is the access aligned (R350)? Widths are 1, 2 and 4 bytes. -/
def aligned (off size : Nat) : Bool :=
  decide (size = 1) || (decide (size = 2) && decide (off % 2 = 0)) || (decide (size = 4) && decide (off % 4 = 0))

/-- Registers of the HOST block in a stack device ignore writes (R405). -/
def hostIgnored (d : Dev) (off : Nat) : Bool := !d.head && decide (0x5000 ≤ off) && decide (off < 0x5800)

/-- A write of `size` bytes at an offset, the value in its low bytes (R335, R350, R353, R404, R405). -/
def regStore (m : Master) (off size : Nat) (v : Word) (b : Both) : Both :=
  let o := off / 4 * 4
  let lane := off % 4
  match regInfo o with
  | none => if aligned off size then b else refuseAlign m b
  | some r =>
    if !aligned off size || (decide (r.cls = .trigger) && decide (size ≠ 4)) then refuseAlign m b
    else if hostIgnored b.1 o then b
    else match r.priv with
      | .read => b
      | .any => if domainBusy b.1 o then refuseBusy m b else regTake r o (laneMask lane size) (v <<< (8 * lane)) b
      | .dangerous =>
        if !dangerousOk m b.1 then refusePriv m o .dangerous b
        else if domainBusy b.1 o then refuseBusy m b
        else regTake r o (laneMask lane size) (v <<< (8 * lane)) b

/-- A write by a master; one from the host port is a transaction of its own (R275). -/
def masterStore (m : Master) (off size : Nat) (v : Word) (b : Both) : Both :=
  match m with
  | .hostPort => if hostOn b then regStore m off size v (b.1, { b.2 with lastErr := false }) else b
  | .belvedere | .executor | .engine => regStore m off size v b

/-- REGISTER_WRITE (R335, R350). -/
def execRegisterWrite (t : Time) (m : Master) (off size : Nat) (v : Word) (s : State) : Host.Outcome State Fault Refusal :=
  actBoth t (masterStore m off size v) s

/-- PROT_COMMIT: a write of `v` to it by a master (R337). -/
def execProtCommit (t : Time) (m : Master) (v : Word) (s : State) : Host.Outcome State Fault Refusal :=
  actBoth t (masterStore m R.protCommit 4 v) s

/-- PROT_CFG_STORE: a write of `key` to it by a master (R343). -/
def execProtCfgStore (t : Time) (m : Master) (key : Word) (s : State) : Host.Outcome State Fault Refusal :=
  actBoth t (masterStore m R.protCfgStore 4 key) s

/-- SYS_RESET: a write of `key` to it by a master (R408). -/
def execSysReset (t : Time) (m : Master) (key : Word) (s : State) : Host.Outcome State Fault Refusal :=
  actBoth t (masterStore m R.sysReset 4 key) s

/-! ### Bit aliases (R276, R352, R411) -/

/-- First address of the alias region. -/
def aliasBase : Nat := 0x02000000

/-- Register offset and bit of an alias word. -/
def aliasBit (addr : Nat) : Nat × Nat := ((addr - aliasBase) / 128 * 4, (addr - aliasBase) / 4 % 32)

/-- A write to an aligned alias word: bit 0 sets or clears the one bit (R352). -/
def aliasTake (r : RegRow) (off i : Nat) (on : Bool) (b : Both) : Both :=
  let one : Word := BitVec.ofNat 32 (2 ^ i)
  if decide (r.cls = .trigger) && !on then b
  else if domainBusy b.1 off then refuseBusy .hostPort b
  else regTake r off one (if on then one else 0) b

/-- A host-port write of `size` bytes in the alias region (R276, R350, R352, R411). -/
def aliasStore (addr size : Nat) (v : Word) (b : Both) : Both :=
  if size ≠ 4 ∨ addr % 4 ≠ 0 then refuseAlign .hostPort b
  else
    let (off, i) := aliasBit addr
    match regInfo off with
    | none => b
    | some r =>
      if !bit r.writable i then b
      else match r.priv with
        | .read => b
        | .any => aliasTake r off i (bit v 0) b
        | .dangerous =>
          if windowOpen b.1 then aliasTake r off i (bit v 0) b
          else if decide (r.cls = .trigger) && !bit v 0 then b
          else refusePriv .hostPort off .dangerous b

/-- Is an address in the alias region? -/
def inAlias (addr : Nat) : Bool := decide (aliasBase ≤ addr) && decide (addr < aliasBase + 0x200000)

/-- ALIAS_WRITE (R276, R352, R411). -/
def execAliasWrite (t : Time) (addr size : Nat) (v : Word) (s : State) : Host.Outcome State Fault Refusal :=
  actHost t (fun b => if inAlias addr then aliasStore addr size v (b.1, { b.2 with lastErr := false }) else b) s

/-! ### Register opcodes (R297 to R299) -/

/-- The dangerous registers of a range of words. -/
def dangerousIn (off n : Nat) : List Nat :=
  ((upFrom 0 n).map (fun i => off + 4 * i)).filter (fun o => match regInfo o with
    | some r => decide (r.priv = .dangerous)
    | none => false)

/-- The executor waits for the domain of its write to be free (R353). -/
def execWait (off : Nat) (b : Both) : Both := if domainBusy b.1 off then postedLand (onAon off) b else b

/-- One register write of the executor. -/
def execStore (off : Nat) (v : Word) (b : Both) : Both := regStore .executor off 4 v (execWait off b)

/-- Refused writes of a range are counted (R298). -/
def denyAll (l : List Nat) (d : Dev) : Dev := each (fun o d => denied .executor o .dangerous d) l d

/-- REG_READ (R297): the words are read at one moment, so the halves of a 64-bit value agree. -/
def regReadOp (h : Nat) (c : Desc) (b : Both) : Both :=
  let off := (dWord c 2).toNat
  (finish h St.done (wordsBytes ((upFrom 0 (dWord c 3).toNat).map (fun i => masterRead .executor b (off + 4 * i)))) b.1, b.2)

/-- REG_READ (R297). -/
def execRegRead (t : Time) (h : Nat) (c : Desc) (s : State) : Host.Outcome State Fault Refusal :=
  actOpH 0x01 okRegRead t c (regReadOp h c) s

/-- REG_WRITE (R298). -/
def regWriteOp (h : Nat) (c : Desc) (b : Both) : Both :=
  let off := (dWord c 2).toNat
  let n := (dWord c 3).toNat
  let l := dangerousIn off n
  if !l.isEmpty && !windowOpen b.1 then (finish h St.deniedWindow [] (denyAll l b.1), b.2)
  else
    let b := each (fun i b => execStore (off + 4 * i) (dWord c (4 + i)) b) (upFrom 0 n) b
    (finish h St.done [] b.1, b.2)

/-- REG_WRITE (R298). -/
def execRegWrite (t : Time) (h : Nat) (c : Desc) (s : State) : Host.Outcome State Fault Refusal :=
  actOpH 0x02 okRegWrite t c (regWriteOp h c) s

/-- The old word of REG_MODIFY: of a shadowed register its shadow (DEDUCED, as R352 has it for an alias write), of a trigger
register 0 (R299). -/
def modifyOld (off : Nat) (b : Both) : Word :=
  match regInfo off with
  | none => 0
  | some r => oldWord r off b

/-- REG_MODIFY (R299). -/
def regModifyOp (h : Nat) (c : Desc) (b : Both) : Both :=
  let off := (dWord c 2).toNat
  let l := dangerousIn off 1
  if !l.isEmpty && !windowOpen b.1 then (finish h St.deniedWindow [] (denyAll l b.1), b.2)
  else
    let b := execWait off b
    let old := modifyOld off b
    let new := mergeBits (dWord c 3) old (dWord c 4)
    let b := execStore off new b
    (finish h St.done (wordBytes old ++ wordBytes new) b.1, b.2)

/-- REG_MODIFY (R299). -/
def execRegModify (t : Time) (h : Nat) (c : Desc) (s : State) : Host.Outcome State Fault Refusal :=
  actOpH 0x03 okRegModify t c (regModifyOp h c) s

end Sys2Proof.Machine
end

