-- ==== Sys2Proof/Machine/Sweep.lean ====
section
/-! DEFINITION. Requested sample instants and sweeps: triggers, sampling, delivery, collection at the head (file 09, R259, R263 to
R266, R270; file 03, R73; file 05, R138). -/

namespace Sys2Proof.Machine

/-- Change the sweep fields. -/
def withSweep (f : Sweeps → Sweeps) (d : Dev) : Dev := { d with sw := f d.sw }

/-- SYNC_MODE (R259). -/
def syncMode (d : Dev) : Nat := regFld d R.ringCfg 25 24

/-- The SYNC pin is driven high (R259): for 1 us at a sample instant of a SWEEP. -/
def syncHigh (d : Dev) : Bool :=
  match d.sw.syncAt with
  | some t => decide (since t d.now < usT 1)
  | none => false

/-- 100 ms after the sample instant (R265, R266). -/
def holdTime (T : Time) : Nat := T.toNat + msT 100

/-! ### Collection at the head (R266, Table RING-8) -/

/-- Is a position's entry final? -/
def SweepSlot.final (x : SweepSlot) : Bool := decide (x.missing ≠ 0) || (x.f0.isSome && x.f1.isSome)

/-- Flags of a delivered frame 1 (Table RING-7). -/
def SweepSlot.flags (x : SweepSlot) : Nat := ((x.f1.getD []).getD 3 0).toNat

/-- State of an entry: 1 on time, 2 late, 3 missing. -/
def SweepSlot.state (x : SweepSlot) : Nat := if x.missing ≠ 0 then 3 else if x.flags % 2 = 1 then 2 else 1

/-- The 16 bytes of a requested position (Table RING-8), with the offset of its block. -/
def SweepSlot.entry (d : Dev) (x : SweepSlot) (at0 : Nat) : List Byte :=
  let fl := x.flags
  let sent := decide (x.missing = 0)
  [BitVec.ofNat 8 x.state,
    BitVec.ofNat 8 (if sent then pack [(fl / 4 % 2, 0), (fl / 2 % 2, 1), (b2n x.viaS, 2)] else 16 * x.missing),
    BitVec.ofNat 8 (dataHops d x.pos), 0] ++
  (if sent then ((x.f1.getD []).drop 4).take 4 ++ leBytes 4 at0 ++ leBytes 4 320 else zeros 12)

/-- Entries of positions from p on; n bounds the number. Blocks stand one after another from `at0`. -/
def sweepEntries (d : Dev) (l : List SweepSlot) : Nat → Nat → Nat → List Byte
  | 0, _, _ => []
  | n + 1, p, at0 =>
    match l.find? (fun x => x.pos == p) with
    | none => zeros 16 ++ sweepEntries d l n (p + 1) at0
    | some x => x.entry d at0 ++ sweepEntries d l n (p + 1) (if x.missing = 0 then at0 + 320 else at0)

/-- Number of entries of a state. -/
def countState (l : List SweepSlot) (k : Nat) : Nat := (l.filter (fun x => x.state == k)).length

/-- The sweep result (R266). -/
def sweepResult (d : Dev) (c : Collect) : List Byte :=
  leBytes 2 c.h ++ [BitVec.ofNat 8 c.slots.length, BitVec.ofNat 8 (b2n c.castled + 2 * b2n (!d.pw.locked)),
    BitVec.ofNat 8 (countState c.slots 1), BitVec.ofNat 8 (countState c.slots 2), BitVec.ofNat 8 (countState c.slots 3), 0] ++
  leBytes 8 c.T.toNat ++ leBytes 8 d.now.toNat ++ zeros 8 ++ sweepEntries d c.slots 63 0 1040 ++
  c.slots.flatMap (fun x => if x.missing = 0 then x.f0.getD [] ++ x.f1.getD [] else [])

/-- Complete every sweep whose entries are all final (R266). -/
def sweepsDone (d : Dev) : Dev :=
  let ready := d.sw.collect.filter (fun c => c.slots.all SweepSlot.final)
  let d := withSweep (fun s => { s with collect := s.collect.filter (fun c => !c.slots.all SweepSlot.final) }) d
  each (fun c d => finish c.h
    (if countState c.slots 1 = c.slots.length ∧ !c.castled then St.done else St.partial') (sweepResult d c) d) ready d

/-- Change a position's entry in a collecting sweep, unless it is final. -/
def setSlot (h p : Nat) (f : SweepSlot → SweepSlot) (d : Dev) : Dev :=
  withSweep (fun s => { s with collect := s.collect.map (fun c =>
    if c.h = h then { c with slots := c.slots.map (fun x => if x.pos = p ∧ !x.final then f x else x) } else c) }) d

/-- Entries whose position is known to be unreachable become missing (R266). -/
def dropUnreachable (d : Dev) : Dev :=
  sweepsDone (withSweep (fun s => { s with collect := s.collect.map (fun c =>
    { c with slots := c.slots.map (fun x => if !x.final && !reachable d x.pos then { x with missing := 1 } else x) }) }) d)

/-- What a change of the break's bounds makes unreachable, in a castled ring (R266, R270). -/
def dropCut (d : Dev) : Dev := if d.rg.castled then dropUnreachable d else d

/-- A position has entered a low-power state: its entries that are not final become missing (R266). -/
def dropLow (p : Nat) (d : Dev) : Dev :=
  sweepsDone (withSweep (fun s => { s with collect := s.collect.map (fun c =>
    { c with slots := c.slots.map (fun x => if !x.final && decide (x.pos = p) then { x with missing := 2 } else x) }) }) d)

/-- SWEEP_DATA reaches the head: SEQ names frame and handle (Table RING-2). -/
def sweepData (p : Port) (f : Frame) (d : Dev) : Dev :=
  match d.sw.collect.find? (fun c => c.h % 128 == f.seq / 2) with
  | none => d
  | some c =>
    let one := decide (f.seq % 2 = 1)
    if f.pay.length ≠ (if one then 64 else 256) then d
    else
      sweepsDone (setSlot c.h f.src (fun x =>
        if one then { x with f1 := some f.pay, viaS := decide (p = .south) } else { x with f0 := some f.pay }) d)

/-! ### Sampling (R73, R265) -/

/-- Words of a lane group for cells 1 to 32. -/
def laneBytes (d : Dev) (g : LaneGroup) : List Byte := wordsBytes ((upFrom 1 32).map (fun n => reg d (resOff g n)))

/-- Frame 0 (R265). -/
def sweepFrame0 (d : Dev) : List Byte := laneBytes d .a ++ laneBytes d .b

/-- The 2 bytes of an auxiliary channel (Table RING-7). -/
def sweepAux (d : Dev) (k : Nat) : List Byte :=
  let w := reg d (R.auxRes + 4 * k)
  match auxMode d k with
  | 0 => [0, 0]
  | 3 => leBytes 2 (fld w 31 16)
  | _ => leBytes 2 (fld w 15 0)

/-- Frame 1 (Table RING-7), FETCHED clear. -/
def sweepFrame1 (d : Dev) (h : Nat) (late : Bool) (ofs : Int) : List Byte :=
  leBytes 2 h ++ [BitVec.ofNat 8 (ncells d), BitVec.ofNat 8 (b2n late + 2 * b2n (decide (timeState d ≠ 2)))] ++
  leBytes 4 (unsigned 32 ofs) ++ wordBytes (reg d R.curResA) ++ wordBytes (reg d R.curResB) ++
  wordBytes (reg d R.curQsnapLo) ++ wordBytes (reg d R.curQsnapHi) ++ (upFrom 0 8).flatMap (sweepAux d) ++
  wordBytes (reg d R.auxTdie) ++ wordBytes (measStat d) ++ wordBytes (reg d R.cmpStatOv) ++ wordBytes (reg d R.cmpStatUv) ++
  [BitVec.ofNat 8 (statusNibble d)] ++ zeros 7

/-- A stack device sends the two frames of a sweep; `fetched` sets FETCHED (R265). -/
def sendSweep (h : Nat) (f0 f1 : List Byte) (fetched : Bool) (d : Dev) : Dev :=
  let f1 := if fetched then f1.set 3 (f1.getD 3 0 ||| 4) else f1
  let p := dataPort d
  let d := enqueue p (ownFrame d 0 0x05 (h % 128 * 2) f0) d
  enqueue p (ownFrame d 0 0x05 (h % 128 * 2 + 1) f1) d

/-- A sweep has been sampled at this position at t: its frames are held for 100 ms, of two sweeps at most, and go to the head; LATE where it was
sampled at another time than T, or on a RETRIG (R265). -/
def sweepTaken (h : Nat) (T t : Time) (soon : Bool) (d : Dev) : Dev :=
  let ofs : Int := (t.toNat : Int) - T.toNat
  let late := soon || decide (t ≠ T)
  let f0 := sweepFrame0 d
  let f1 := sweepFrame1 d h late ofs
  let d := withSweep (fun s => { s with
    held := lastN 2 (s.held.filter (fun x => x.h ≠ h) ++ [⟨h, T, f0, f1⟩])
    lastH := h, lastLate := late, lastOfs := ofs,
    syncAt := if syncMode d = 1 then some t else s.syncAt }) d
  if d.head then sweepsDone (setSlot h 0 (fun x => { x with f0 := some f0, f1 := some f1 }) d) else sendSweep h f0 f1 false d

/-- The results of a requested instant T: both lanes of every cell, in the measurement mode of the request, the current channel, and the charge
snapshot (R73, R75, R138, R207). -/
def sampleNow (T : Time) (mode : Nat) (a b : List LaneSample) (cur : List CurSample) (raw : List CurRaw) (d : Dev) : Dev :=
  let d0 := asOf T d
  let d := each (fun x d => writeLane .a x.cell (laneEvalIn mode d0 .a T x) d) (inUse d0 (inUse d a)) d
  let d := each (fun x d => writeLane .b x.cell (laneEvalIn mode d0 .b T x) d) (inUse d0 (inUse d b)) d
  let d := curSamples T.toNat raw d
  let d := match cur with
    | [x, y] => if curOn d && curOn d0 then writeCur true (curEval d0 T true y) (writeCur false (curEval d0 T false x) d) else d
    | _ => d
  setReg R.curQsnapHi (reg d R.curQaccHi) (setReg R.curQsnapLo (reg d R.curQaccLo) d)

/-- A request is served at t: at its instant exactly, or, if it came at or after it or with RETRIG, within 2 us of its arrival (R73, R265). -/
def servedAt (t : Time) (w : Wanted) : Bool :=
  if !w.soon && decide (w.got.toNat < w.T.toNat) then decide (t = w.T) else decide (w.got.toNat ≤ t.toNat) && decide (t.toNat ≤ w.got.toNat + usT 2)

/-- What was requested for `req` is served at t; the results are there within 20 us (R73, R75, R265). -/
def requestedInstant (t req : Time) (a b : List LaneSample) (cur : List CurSample) (raw : List CurRaw) (d : Dev) : Dev :=
  match d.sw.wanted.filter (fun w => decide (w.T = req) && servedAt t w) with
  | [] => d
  | w0 :: r =>
    if fresh d t then
      let d := withSweep (fun s => { s with wanted := s.wanted.filter (fun w => !(decide (w.T = req) && servedAt t w)) })
        (sampleNow t w0.mode a b cur raw d)
      each (fun w d => match w.h with
        | some h => sweepTaken h w.T t w.soon d
        | none => d) (w0 :: r) d
    else d

/-- REQUESTED_INSTANT (R73, R138, R207, R265). -/
def execRequestedInstant (t req : Time) (a b : List LaneSample) (cur : CurNow) (s : State) : Host.Outcome State Fault Refusal :=
  actAwake t (requestedInstant t req a b cur.res cur.raw) s

/-- Ask for a sample at T, or with `soon` at once. -/
def want (T : Time) (h : Option Nat) (soon : Bool) (d : Dev) : Dev :=
  withSweep (fun s => { s with wanted := s.wanted ++ [⟨T, h, d.now, measMode d, soon⟩] }) d

/-- SYNC_INPUT_EDGE (R259). -/
def execSyncInputEdge (t : Time) (s : State) : Host.Outcome State Fault Refusal :=
  actAwake t (fun d => if syncMode d = 2 then want d.now none false d else d) s

/-! ### Triggers (R264, R265) -/

/-- A trigger reaches a position of its range (R265): it samples at T; with RETRIG, frames that it holds are sent again, and where it holds none
it samples on arrival, in place of a sample that waits for T. -/
def triggerRx (tr : Trigger) (d : Dev) : Dev :=
  if d.head || decide (d.rg.pos = 0x3F) || decide (d.rg.pos < tr.first) || decide (tr.last < d.rg.pos) then d
  else
    match (if tr.retrig then d.sw.held.find? (fun x => x.h == tr.h && decide (d.now.toNat < holdTime x.T)) else none) with
    | some x => sendSweep x.h x.f0 x.f1 true d
    | none =>
      if tr.retrig then want tr.T (some tr.h) true (withSweep (fun s => { s with wanted := s.wanted.filter (fun w => w.h ≠ some tr.h) }) d)
      else if d.sw.wanted.any (fun w => w.h == some tr.h) then d
      else want tr.T (some tr.h) false d

/-- SWEEP_TRIGGER_RX (R264, R265). FRAME_RX has sent the frame on. -/
def execSweepTriggerRx (t : Time) (p : Port) (tr : Trigger) (s : State) : Host.Outcome State Fault Refusal :=
  actAwake t (fun d => triggerRx tr (unbuffer p 0x04 d)) s

/-- SWEEP_HOLD_EXPIRE (R265). -/
def execSweepHoldExpire (t : Time) (h : Nat) (s : State) : Host.Outcome State Fault Refusal :=
  actAt t (fun d => withSweep (fun s => { s with
    held := s.held.filter (fun x => decide (x.h ≠ h) || decide (d.now.toNat < holdTime x.T)) }) d) s

/-- At T + 100 ms what has not been delivered is missing: hold expired, but for what the ring cannot reach (R266, R270). -/
def sweepDeadline (h : Nat) (d : Dev) : Dev :=
  let d := dropCut d
  let late (c : Collect) : Bool := decide (c.h = h) && decide (holdTime c.T ≤ d.now.toNat)
  sweepsDone (withSweep (fun s => { s with collect := s.collect.map (fun c =>
    if late c then { c with slots := c.slots.map (fun x => if x.final then x else { x with missing := 4 }) } else c) }) d)

/-- SWEEP_DEADLINE (R266). -/
def execSweepDeadline (t : Time) (h : Nat) (s : State) : Host.Outcome State Fault Refusal := actAt t (sweepDeadline h) s

/-- The payload of a SWEEP_TRIGGER (Table RING-6). -/
def triggerBytes (T : Time) (h first last : Nat) (retrig : Bool) : List Byte :=
  leBytes 8 T.toNat ++ leBytes 2 h ++ [BitVec.ofNat 8 first, BitVec.ofNat 8 last, BitVec.ofNat 8 (b2n retrig)] ++ zeros 3

/-- The head sends a trigger by a port. -/
def sendTrigger (p : Port) (T : Time) (h first last : Nat) (retrig : Bool) (d : Dev) : Dev :=
  enqueue p (allFrame 0 (statusNibble d) 0x04 h (triggerBytes T h first last retrig)) d

/-- Why a requested position is missing from the start (Table RING-8), 0 where it is not. -/
def missingAtStart (d : Dev) (p : Nat) : Nat :=
  if !enumerated d p then 3 else if (posRec d p).low && decide (p ≠ 0) then 2 else if !reachable d p then 1 else 0

/-- Positions that a SWEEP requests. -/
def sweepPositions (d : Dev) (c : Desc) : List Nat :=
  (upFrom 0 63).filter (fun p => if swMask c = 0 then enumerated d p else (swMask c).testBit p)

/-- SWEEP at the head (R263, R264, R266). -/
def sweepOp (h : Nat) (c : Desc) (b : Both) : Both :=
  let d := b.1
  if !d.head then b
  else if 2 ≤ d.sw.collect.length then (finish h St.resourceBusy [] d, b.2)
  else
    let from' := match findCmd b.2 h with
      | some k => k.since
      | none => d.now
    let T : Time := BitVec.ofNat 64 (if swStart c = 0 then from'.toNat + leadT d else swStart c)
    let l := sweepPositions d c
    let slots : List SweepSlot := l.map (fun p => ⟨p, none, none, false, missingAtStart d p⟩)
    let mid := if d.rg.castled then d.rg.b else northHalf d
    let d := withSweep (fun s => { s with collect := s.collect ++ [⟨h, T, slots, d.rg.castled⟩] }) d
    let d := sendTrigger .south T h (mid + 1) (topPos d) false (sendTrigger .north T h 1 mid false d)
    let d := if 0 ∈ l then want T (some h) false d else d
    (sweepsDone d, b.2)

/-- SWEEP (R263, R264, R266). -/
def execSweep (t : Time) (h : Nat) (c : Desc) (s : State) : Host.Outcome State Fault Refusal :=
  actOpH 0x10 okSweep t c (sweepOp h c) s

/-! ### Frames that the head takes here (R248, R266) -/

/-- What a device does with a frame that it consumes and that has no command of its own: the head notes the source's status
nibble (R227) and takes sweep data. -/
def takeFrame (p : Port) (f : Frame) (d : Dev) : Dev :=
  if d.head then
    let d := if f.src = 0 then d else setPosRec f.src { posRec d f.src with nib := f.stat } d
    if f.typ = 0x05 then sweepData p f d else d
  else d

/-- FRAME_RX (R220, R222, R228 to R235, R246, R248, R264). -/
def execFrameRx (t : Time) (p : Port) (groups : List Nat) (s : State) : Host.Outcome State Fault Refusal :=
  actAt t (frameRx takeFrame p groups) s

end Sys2Proof.Machine
end

