-- ==== Sys2Proof/Machine/Streams.lean ====
section
/-! DEFINITION. Telemetry streams: admission at the head, records at the source, frames, and the stream buffers (file 10, R302 to
R304). -/

namespace Sys2Proof.Machine

/-- Change the executor's fields. -/
def withExec (f : Exec → Exec) (d : Dev) : Dev := { d with ex := f d.ex }

/-! ### Admission (R302, R303) -/

/-- Data bytes S of a record for SRC and NCELLS (R302). -/
def streamLen (src n : Nat) : Nat :=
  sumNat ((upFrom 0 5).map (fun i => if src.testBit i then [4 * n, 4 * n, 8, 8, 20].getD i 0 else 0))

/-- S is too long, or the buffer too small (R302). -/
def streamUnfit (s size : Nat) : Bool := decide (244 < s) || decide (size < 4 * (16 + s))

/-- Rate codes of the hops in the ring, as the head knows them: its own two, and the two of each position. -/
def hopRates (d : Dev) : List Nat :=
  [d.ln.rate, d.ls.rate] ++ (d.rg.recs.filter (fun r => r.1 ≠ 0)).flatMap (fun r => [r.2.rate % 4, r.2.rate / 4 % 4])

/-- Rate code of the slowest hop (R303). -/
def slowestRate (d : Dev) : Nat := highest (hopRates d)

/-- Sum of two quotients. -/
def addQuot (a b : Nat × Nat) : Nat × Nat := (a.1 * b.2 + b.1 * a.2, a.2 * b.2)

/-- The load check (R303): the total stays within 40 % of the character rate of the slowest hop, 5,000,000 characters per second
at rate code 0. -/
def loadOk (d : Dev) (x : Hst) (new : Nat × Nat) : Bool :=
  let t := (x.streams.map (fun s => (s.num, s.den))).foldl addQuot new
  decide (t.1 * 2 ^ slowestRate d ≤ 2000000 * t.2)

/-- A stream slot for STREAM_START under handle h, or the status that refuses it (R302, R303). The record rate of a stack device comes with its
answer: its load is checked then (`streamFits`, log 60). -/
def streamAdmit (h : Nat) (c : Desc) (d : Dev) (x : Hst) : StreamSlot ⊕ Nat :=
  let p := dTarget c
  let own := decide (p = 0)
  let s := streamLen (ssSrc c) (if own then ncells d else (posRec d p).ncells)
  let q := if own then streamLoad (corner d .a) (ssDecim c) s (streamK h s) else (0, 1)
  if streamUnfit s (ssSize c) then .inr St.deniedState
  else match (upFrom 0 4).find? (fun k => x.streams.all (fun e => e.k ≠ k)) with
    | none => .inr St.resourceBusy
    | some n =>
      if loadOk d x q then .inl ⟨n, h, p, ssOff c, ssSize c, s, 0, 0, q.1, q.2, if own then ssDecim c * groupP2 d .a else 0, none⟩
      else .inr St.resourceBusy

/-- Take an admitted stream's slot, or complete the command with what refuses it; `true` where it is admitted. -/
def streamOpen (h : Nat) (c : Desc) (b : Both) : Bool × Both :=
  match streamAdmit h c b.1 b.2 with
  | .inr st => (false, (finish h st [] b.1, b.2))
  | .inl s => (true, (b.1, { b.2 with streams := b.2.streams ++ [s] }))

/-- Does the load of a stack device's stream, whose record rate its answer shows, keep within the limit (R303)? -/
def streamFits (c : HeadCmd) (res : List Byte) (d : Dev) (x : Hst) : Bool :=
  match x.streams.find? (fun s => s.h == c.h) with
  | none => true
  | some s => loadOk d { x with streams := x.streams.filter (fun e => e.h ≠ c.h) } (streamLoad (resultCorner c.d res) (ssDecim c.d) s.s (streamK s.h s.s))

/-! ### The source (R302) -/

/-- The stream begins at its source; STREAM_START completes once the first record is due. -/
def streamBegin (h : Nat) (c : Desc) (d : Dev) : Dev :=
  let s := streamLen (ssSrc c) (ncells d)
  if streamUnfit s (ssSize c) then finish h St.deniedState [] d
  else withExec (fun e => { e with streams := e.streams ++ [⟨h, ssSrc c, ssDecim c, s, 0, 0, 0, [], false, false, 0⟩] }) d

/-- STREAM_START (R302). The head admits a stream of its own here, one of a stack device as it dispatches the command. -/
def streamStartOp (h : Nat) (c : Desc) (b : Both) : Both :=
  if b.1.head then
    let r := streamOpen h c b
    if r.1 then (streamBegin h c r.2.1, r.2.2) else r.2
  else (streamBegin h c b.1, b.2)

/-- STREAM_START (R302, R303). -/
def execStreamStart (t : Time) (h : Nat) (c : Desc) (s : State) : Host.Outcome State Fault Refusal :=
  actOpH 0x11 okStreamStart t c (streamStartOp h c) s

/-- The S data bytes of a record (R302). -/
def streamData (d : Dev) (src : Nat) : List Byte :=
  let words (g : LaneGroup) : List Byte := wordsBytes ((cellsUsed d).map (fun n => reg d (resOff g n)))
  (if src.testBit 0 then words .a else []) ++ (if src.testBit 1 then words .b else []) ++
  (if src.testBit 2 then wordBytes (reg d R.curResA) ++ wordBytes (reg d R.curResB) else []) ++
  (if src.testBit 3 then wordBytes (reg d R.curQaccLo) ++ wordBytes (reg d R.curQaccHi) else []) ++
  (if src.testBit 4 then (upFrom 0 8).flatMap (sweepAux d) ++ wordBytes (reg d R.auxTdie) else [])

/-- Replace a source. -/
def setSource (x : StreamSrc) (d : Dev) : Dev :=
  withExec (fun e => { e with streams := e.streams.map (fun s => if s.h = x.h then x else s) }) d

/-- The source of a handle. -/
def findSource (d : Dev) (h : Nat) : Option StreamSrc := d.ex.streams.find? (fun s => s.h == h)

/-- Unsent STREAM frames of this device: those in its queues, and those in assembly (R303). -/
def unsentStream (d : Dev) : Nat :=
  ((d.ln.queue ++ d.ls.queue).filter (fun f => decide (f.typ = 0x0C) && decide (f.src = d.rg.pos))).length +
  (d.ex.streams.filter (fun s => !s.buf.isEmpty)).length

/-- The payload of a STREAM frame (Table RING-2). -/
def streamBytes (x : StreamSrc) : List Byte :=
  leBytes 2 x.h ++ leBytes 2 x.first ++ leBytes 8 x.t0.toNat ++ x.buf.flatten

/-- A stack device sends what the frame holds. -/
def streamFlush (x : StreamSrc) (d : Dev) : Dev :=
  if x.buf.isEmpty then d
  else setSource { x with buf := [] } (enqueue (headPort d) (ownFrame d 0 0x0C x.first (streamBytes x)) d)

/-- One record at a stack device: dropped where a new frame finds two unsent ones (R303). -/
def streamPut (x : StreamSrc) (data : List Byte) (d : Dev) : Dev :=
  let next := (x.next + 1) % 65536
  if x.buf.isEmpty && decide (2 ≤ unsentStream d) then setSource { x with next := next, lost := true } d
  else
    let y := { x with
      buf := x.buf ++ [data]
      first := if x.buf.isEmpty then x.next else x.first
      t0 := if x.buf.isEmpty then d.now else x.t0
      next := next
      put := next
      lost := false }
    if streamK x.h x.size ≤ y.buf.length then streamFlush y (setSource y d) else setSource y d

/-! ### The head's buffers (R302) -/

/-- Write bytes into a ring of `size` bytes from index `at0`; n bounds the number. -/
def ringWrite (now : Time) (off size at0 : Nat) (l : List Byte) (x : Hst) : Hst :=
  let room := size - at0
  devWrite now off (l.drop room) (devWrite now (off + at0) (l.take room) x)

/-- The 16 bytes before a record's data (R302). -/
def recordHeader (s : StreamSlot) (at0 : Nat) (num : Nat) (lost : Bool) : List Byte :=
  leBytes 8 at0 ++ leBytes 2 s.h ++ leBytes 2 num ++ [BitVec.ofNat 8 s.pos, BitVec.ofNat 8 (b2n lost)] ++ leBytes 2 s.s

/-- Replace a stream slot. -/
def setStream (s : StreamSlot) (x : Hst) : Hst := { x with streams := x.streams.map (fun e => if e.k = s.k then s else e) }

/-- The head writes one record: its instant, its number, whether records were dropped before it (R302). -/
def recordWrite (now : Time) (s : StreamSlot) (at0 num : Nat) (data : List Byte) (x : Hst) : Hst :=
  let lost := decide (num ≠ s.cnt)
  let n := 16 + s.s
  setStream { s with wr := (s.wr + n) % s.size, cnt := (num + 1) % 65536 }
    (ringWrite now s.off s.size s.wr (recordHeader s at0 num lost ++ padTo s.s data) x)

/-- The first record of a stream: STREAM_START completes (R302). Byte 0 is the head's to fill. -/
def streamFirst (x : StreamSrc) (d : Dev) : Dev :=
  if x.started then d
  else
    let r := (quot 25600 ((4 ^ corner d .a * x.decim : Nat) : Int)).toNat
    finish x.h St.done ([0, 0] ++ leBytes 2 x.size ++ leBytes 4 r) (setSource { x with started := true } d)

/-- A decimated grid instant of a stream: m x P of lane group A, for m a multiple of DECIM (R302). -/
def streamRecord (h : Nat) (b : Both) : Both :=
  match findSource b.1 h with
  | none => b
  | some x =>
    if !onGrid (x.decim * groupP2 b.1 .a) b.1.now then b else
    let d := streamFirst x b.1
    let x := { x with started := true }
    let data := streamData d x.src
    if d.head then
      let d' := setSource { x with next := (x.next + 1) % 65536 } d
      match b.2.streams.find? (fun s => s.h == h) with
      | some s => (d', recordWrite d.now s d.now.toNat x.next data b.2)
      | none => (d', b.2)
    else (streamPut x data d, b.2)

/-- STREAM_RECORD (R302, R303). -/
def execStreamRecord (t : Time) (h : Nat) (s : State) : Host.Outcome State Fault Refusal :=
  actBoth t (fun b => if b.1.awake then streamRecord h b else b) s

/-- STREAM_FRAME_FLUSH (R302): 10 ms after its first record a frame is sent as it is. -/
def execStreamFrameFlush (t : Time) (h : Nat) (s : State) : Host.Outcome State Fault Refusal :=
  actAwake t (fun d => match findSource d h with
    | some x => if msT 10 ≤ since x.t0 d.now ∧ !x.buf.isEmpty then streamFlush x d else d
    | none => d) s

/-- Ring time of record i of a frame whose first record is of time t0. -/
def recordTime (s : StreamSlot) (t0 i : Nat) : Nat := t0 + (quot ((i * s.per2 : Nat) : Int) 2).toNat

/-- Write the records of a frame from its record i on. -/
def recordsWrite (now : Time) (k t0 first : Nat) : Nat → List (List Byte) → Hst → Hst
  | _, [], x => x
  | i, r :: l, x =>
    match streamSlot x k with
    | some s => recordsWrite now k t0 first (i + 1) l (recordWrite now s (recordTime s t0 i) ((first + i) % 65536) r x)
    | none => x

/-- A STREAM_STOP that waits for the last record of a slot completes once that has been written (R304). -/
def streamDrained (k : Nat) (b : Both) : Both :=
  match streamSlot b.2 k with
  | some s => (match s.stop with
    | some (h, last) => if s.cnt = last then (b.1, answer s.pos h St.done [] b.1 b.2) else b
    | none => b)
  | none => b

/-- The head takes a STREAM frame (R302, R304). Frames of a stream that no longer runs are dropped. -/
def streamFrameRx (f : StreamFrame) (b : Both) : Both :=
  match b.2.streams.find? (fun s => s.h == f.h && s.pos == f.pos) with
  | some s => streamDrained s.k (b.1, recordsWrite b.1.now s.k f.t0.toNat (f.first % 65536) 0 f.records b.2)
  | none => b

/-- STREAM_FRAME_RX (R302). -/
def execStreamFrameRx (t : Time) (f : StreamFrame) (s : State) : Host.Outcome State Fault Refusal :=
  actHost t (fun b => streamFrameRx f (unbufferAny 0x0C b.1, b.2)) s

/-! ### End (R304) -/

/-- The final answer of a source to STREAM_STOP: DONE with the number after the last record of a frame. The frames are of a lower class than the
RESPONSE, which may overtake them: by the number the head knows when the last record has been written, and drops it from the result (R304;
DESIGN CHOICE, log 60). -/
def stopResult (d : Dev) (x : StreamSrc) : List Byte := if d.head then [] else leBytes 2 x.put

/-- STREAM_STOP at the source (R304): what the frame holds is sent first. -/
def streamStop (h : Nat) (c : Desc) (d : Dev) : Dev :=
  match findSource d (dFld c 2 15 0) with
  | none => finish h St.deniedState [] d
  | some x =>
    let d := if d.head then d else streamFlush x d
    let d := withExec (fun e => { e with
      streams := e.streams.filter (fun s => s.h ≠ x.h)
      cmds := if x.started then e.cmds else e.cmds.filter (fun k => k.h ≠ x.h) }) d
    finish h St.done (stopResult d x) d

/-- STREAM_STOP (R304). -/
def execStreamStop (t : Time) (h : Nat) (c : Desc) (s : State) : Host.Outcome State Fault Refusal :=
  actOp 0x12 okStreamStop t c (streamStop h c) s

/-- The head ends the streams of some positions with a reason (R304). -/
def headStreamsEnd (reason : Nat) (gone : Nat → Bool) (b : Both) : Both :=
  let l := b.2.streams.filter (fun s => gone s.pos)
  (each (fun s d => post 0x1401 0 (leBytes 2 s.h ++ [BitVec.ofNat 8 reason]) d) l b.1,
    { b.2 with streams := b.2.streams.filter (fun s => !gone s.pos) })

end Sys2Proof.Machine
end

