-- ==== Sys2Proof/Machine/Requests.lean ====
section
/-! DEFINITION. Commands over the ring: dispatch, requests and responses, tables, events at the head, heartbeats, castling and the
second enumeration pass, RING_STATUS and ECHO (file 09, R250 to R253, R262, R268 to R270; file 10, R286 to R288, R292, R295, R296,
R305, R306). -/

namespace Sys2Proof.Machine

/-! ### Frames of the head (R249, R252, R288) -/

/-- The head sends a REQUEST to a position. The departure of one with a descriptor is yet to come (R251). -/
def sendRequest (p h kind : Nat) (rest : List Byte) (d : Dev) : Dev :=
  let d := if kind = 0 then { d with ex := { d.ex with departed := d.ex.departed.filter (fun e => e.1 ≠ h) } } else d
  enqueue (towards d p) (ownFrame d p 0x01 h (leBytes 2 h ++ [BitVec.ofNat 8 kind, 0] ++ rest)) d

/-- The 64 bytes of a descriptor. -/
def descBytes (c : Desc) : List Byte := wordsBytes ((upFrom 0 16).map (dWord c))

/-- One BULK frame: up to 248 bytes of the table from byte `at0` (R252, R288). -/
def sendBulk (p : Nat) (c : HeadCmd) (at0 : Nat) (b : Both) : Both :=
  match tableOf c.d with
  | none => b
  | some (off, len) =>
    let n := min 248 (len - at0)
    let f := ownFrame b.1 p 0x0B (at0 / 248) (leBytes 2 c.h ++ zeros 2 ++ leBytes 4 at0 ++ winRead b.2 (off + at0) n)
    (enqueue (towards b.1 p) f b.1, b.2)

/-- Does a port's queue hold a BULK frame of this device? -/
def bulkWaits (d : Dev) (p : Port) : Bool :=
  (port d p).queue.any (fun f => decide (f.typ = 0x0B) && decide (f.src = d.rg.pos))

/-- The next chunk to one position, where its port's queue holds no BULK frame (DESIGN CHOICE: the pace is open). -/
def bulkNext (c : HeadCmd) (e : Nat × Nat) (b : Both) : Both :=
  match tableOf c.d with
  | none => b
  | some (_, len) =>
    if len ≤ e.2 ∨ bulkWaits b.1 (towards b.1 e.1) then b
    else
      let b := sendBulk e.1 c e.2 b
      (b.1, match findCmd b.2 c.h with
        | some k => setCmd { k with bulk := k.bulk.map (fun x => if x.1 = e.1 then (x.1, x.2 + 248) else x) } b.2
        | none => b.2)

/-- The head goes on sending the tables of its commands (R288). -/
def bulkFeed (b : Both) : Both :=
  if b.1.head then each (fun c b => each (bulkNext c) c.bulk b) (b.2.cmds.filter (fun c => !c.bulk.isEmpty)) b else b

/-- BURST_RX (R223 to R225, R233). -/
def execBurstRx (t : Time) (p : Port) (groups : List Nat) (s : State) : Host.Outcome State Fault Refusal :=
  actBoth t (fun b => bulkFeed (burstRx p groups b.1, b.2)) s

/-! ### Dispatch (R286, R295, R296) -/

/-- Two targets share a position. -/
def sameTarget (a b : Nat) : Bool := decide (a = b) || decide (a = 0x3F) || decide (b = 0x3F)

/-- Commands of the same pair that were accepted before c. -/
def earlierOf (x : Hst) (c : HeadCmd) : List HeadCmd := (x.cmds.takeWhile (fun e => e.h ≠ c.h)).filter (fun e => e.pair == c.pair)

/-- POWER with target STANDBY or ACTIVE (R296). -/
def isWake (c : Desc) : Bool := decide (dOp c = 0x90) && decide (pwState c = 4 ∨ pwState c = 5)

/-- Positions on the head's route to p before it, nearest to p first. -/
def routeBefore (d : Dev) (p : Nat) : List Nat :=
  match towards d p with
  | .north => (upFrom 1 (p - 1)).reverse
  | .south => upFrom (p + 1) (topPos d - p)

/-- The awake position nearest to a sleeping one on its route (R296). -/
def wakerOf (d : Dev) (p : Nat) : Option Nat := (routeBefore d p).find? (fun q => enumerated d q && !(posRec d q).low)

/-- Positions to which a broadcast sends a REQUEST: those awake that the ring reaches (R295). -/
def requestTargets (d : Dev) : List Nat :=
  ((d.rg.recs.filter (fun r => r.1 ≠ 0)).map Prod.fst).filter (fun p => !(posRec d p).low && reachable d p)

/-- Does some position to which the command would send a REQUEST show BUSY (R227)? -/
def targetBusy (d : Dev) (c : HeadCmd) : Bool :=
  let busy (p : Nat) : Bool := decide ((posRec d p).nib % 2 = 1)
  let p := dTarget c.d
  if p = 0 then false
  else if p = 0x3F then decide (dOp c.d ≠ 0x04) && (requestTargets d).any busy
  else if (posRec d p).low then isWake c.d && (match wakerOf d p with
    | some q => busy q
    | none => false)
  else busy p

/-- Order and fences hold command c back (R286): with FENCE until every earlier command of its pair has completed, behind one with FENCE until
that is dispatched; or a position that it would send a REQUEST to shows BUSY (R227): a broadcast waits for
all of its positions (DESIGN CHOICE, log 86). -/
def heldBack (d : Dev) (x : Hst) (c : HeadCmd) : Bool :=
  let l := earlierOf x c
  (dFence c.d && !l.isEmpty) || l.any (fun e => dFence e.d && !e.sent) || l.any (fun e => !e.sent && sameTarget (dTarget e.d) (dTarget c.d)) ||
  targetBusy d c

/-- The REQUEST of kind 0x02 to position q that is to wake position p (R252, R296). -/
def askWake (q h p : Nat) (d : Dev) : Dev := sendRequest q h 2 [if p < q then 1 else 0] d

/-- The wake stream towards a sleeping position (R296): by the head, or by the awake position nearest to it on the route. -/
def driveTowards (h p : Nat) (d : Dev) : Dev :=
  match wakerOf d p with
  | none => driveWake (towards d p) d
  | some q => askWake q h p d

/-- Mark a command as dispatched. -/
def markSent (h : Nat) (f : HeadCmd → HeadCmd) (x : Hst) : Hst :=
  match findCmd x h with
  | some c => setCmd (f { c with sent := true }) x
  | none => x

/-- Begin to send a command's table to positions. -/
def startBulk (l : List Nat) (c : HeadCmd) : HeadCmd := if (tableOf c.d).isSome then { c with bulk := l.map (fun p => (p, 0)) } else c

/-- A command to one stack position is dispatched (R251, R296, R302). -/
def dispatchOne (c : HeadCmd) (b : Both) : Both :=
  let d := b.1
  let p := dTarget c.d
  let endWith (st : Nat) : Both := (d, complete c st [] d b.2)
  if !enumerated d p then endWith St.noSuchPosition
  else if (posRec d p).low then
    if isWake c.d then (driveTowards c.h p d, markSent c.h (fun k => { k with wakeFor := true }) b.2) else endWith St.deniedState
  else if !reachable d p then endWith St.ringBreak
  else
    let r := if dOp c.d = 0x11 then streamOpen c.h c.d b else (true, b)
    if r.1 then bulkFeed (sendRequest p c.h 0 (descBytes c.d) r.2.1, markSent c.h (startBulk [p]) r.2.2) else r.2

/-- A broadcast is dispatched: a REQUEST to every position that is awake; the others read DENIED_STATE, but a POWER that wakes
drives the wake stream on both ports (R295, R296). A COMMIT leaves as it executes in the head (R260). -/
def dispatchAll (c : HeadCmd) (b : Both) : Both :=
  let d := b.1
  if dOp c.d = 0x04 then (d, markSent c.h id b.2)
  else
    let ps := (d.rg.recs.filter (fun r => r.1 ≠ 0)).map Prod.fst
    let low := ps.filter (fun p => (posRec d p).low)
    let to' := requestTargets d
    let d := each (fun p d => sendRequest p c.h 0 (descBytes c.d) d) to' d
    let d := if isWake c.d then driveWake .south (driveWake .north d) else d
    let pre := if isWake c.d then [] else low.map (fun p => (p, St.deniedState))
    bulkFeed (d, markSent c.h (fun k => startBulk to' { k with answers := pre ++ k.answers }) b.2)

/-- The words of the command's table in the host window that cannot be corrected: it ends INTERNAL (R364). -/
def tableBad (c : Desc) (d : Dev) : List (Nat × Nat) :=
  match tableOf c with
  | some (off, len) => windowBad d off len
  | none => []

/-- A command whose table cannot be read: the words count and are posted, it ends INTERNAL with its event (R293, R364). -/
def tableEnd (c : HeadCmd) (b : Both) : Both :=
  let d := internalError c.h (dOp c.d) (each (fun e d => uncorrectable e.1 e.2 d) (tableBad c.d b.1) b.1)
  (d, complete c St.internal [] d b.2)

/-- Command h is dispatched if its fence, order and target allow (R286). A command to the head executes by its opcode. -/
def dispatch (h : Nat) (b : Both) : Both :=
  match findCmd b.2 h with
  | none => b
  | some c =>
    if c.sent || isWaiting b.2 c || heldBack b.1 b.2 c then b
    else if !(tableBad c.d b.1).isEmpty then tableEnd c b
    else if dTarget c.d = 0 then (b.1, markSent h id b.2)
    else if dTarget c.d = 0x3F then dispatchAll c b
    else dispatchOne c b

/-- COMMAND_DISPATCH (R126, R251, R286, R288, R295, R296). -/
def execCommandDispatch (t : Time) (h : Nat) (s : State) : Host.Outcome State Fault Refusal :=
  actHost t (fun b => headOutputs (dispatch h b)) s

/-! ### Requests at a stack device (R251, R286, R296) -/

/-- The device holds a command. -/
def holdsCmd (d : Dev) (h : Nat) : Bool := d.ex.cmds.any (fun c => c.h == h)

/-- Send the held final result of a handle again, if there is one. -/
def resend (h : Nat) (d : Dev) : Dev :=
  match d.ex.results.find? (fun r => r.h == h) with
  | some r => sendFinal h r.status r.res d
  | none => d

/-- A REQUEST of kind 0x00 (R251): a handle already held is not executed again; at most 8 commands are held (R286). -/
def requestCmd (r : Request) (d : Dev) : Dev :=
  if holdsCmd d r.h || d.ex.results.any (fun x => x.h == r.h) then resend r.h (sendAccept r.h d)
  else if 8 ≤ d.ex.cmds.length then d
  else abortClosing 7 (sendAccept r.h (withExec (fun e => { e with cmds := e.cmds ++ [⟨r.h, r.d, d.now⟩] }) d))

/-- A REQUEST of kind 0x02 (R252, R296): the stream is driven on the port named, the answer follows at its end. -/
def requestWake (r : Request) (d : Dev) : Dev :=
  let d := if holdsCmd d r.h then d else withExec (fun e => { e with cmds := e.cmds ++ [⟨r.h, [], d.now⟩] }) d
  driveWake (if r.port = 0 then .north else .south) (sendAccept r.h d)

/-- A REQUEST for this position (R251, R252). -/
def requestRx (r : Request) (d : Dev) : Dev :=
  if d.head || decide (62 < d.rg.pos) || portsClosed d then d
  else match r.kind with
    | 0 => requestCmd r d
    | 1 => resend r.h d
    | 2 => requestWake r d
    | _ => d

/-- REQUEST_RX (R251, R296). -/
def execRequestRx (t : Time) (p : Port) (r : Request) (s : State) : Host.Outcome State Fault Refusal :=
  actAt t (fun d => requestRx r (unbuffer p 0x01 d)) s

/-- RESPONSE_HOLD_EXPIRE (R251): 100 ms after it was sent a final result is held no longer. -/
def execResponseHoldExpire (t : Time) (h : Nat) (s : State) : Host.Outcome State Fault Refusal :=
  actAt t (fun d => withExec (fun e => { e with
    results := e.results.filter (fun r => decide (r.h ≠ h) || !passed (msT 100) r.at0 d.now) }) d) s

/-- A chunk of a table for a command that the device holds (R288); an install begins once its header has come (R382). -/
def bulkRx (h off : Nat) (data : List Byte) (d : Dev) : Dev :=
  if d.head then d
  else
    let d := if holdsCmd d h then withExec (fun e => { e with
      bulk := e.bulk.filter (fun x => !(decide (x.1 = h) && decide (x.2.1 = off))) ++ [(h, off, data)] }) d else d
    fwArrived d

/-- BULK_RX (R288). -/
def execBulkRx (t : Time) (h off : Nat) (data : List Byte) (s : State) : Host.Outcome State Fault Refusal :=
  actAt t (fun d => bulkRx h off data (unbufferAny 0x0B d)) s

/-! ### Responses at the head (R251, R287, R295) -/

/-- Fragments in place of an earlier one of the same offset. -/
def addPart (off : Nat) (l : List Byte) (got : List (Nat × List Byte)) : List (Nat × List Byte) :=
  got.filter (fun g => g.1 ≠ off) ++ [(off, l)]

/-- The bytes of fragments in order of their offsets, 244 apart. -/
def joinParts (got : List (Nat × List Byte)) (n : Nat) : List Byte :=
  (upFrom 0 n).flatMap (fun i => match got.find? (fun g => g.1 == 244 * i) with
    | some g => g.2
    | none => [])

/-- The head learns that a position has entered a low-power state: it is excluded from supervision (R56), its streams end
(R304), and its entries of collecting sweeps are missing (R266). -/
def wentLow (p : Nat) (b : Both) : Both :=
  headStreamsEnd 2 (fun q => decide (q = p)) (dropLow p (forgetLost (setPosRec p { posRec b.1 p with low := true } b.1)), b.2)

/-- A source has ended a stream: the STREAM_STOP completes once the last record has been written, whose number the source gives (R304). -/
def streamDrain (p : Nat) (c : HeadCmd) (res : List Byte) (b : Both) : Both :=
  let done : Both := (b.1, answer p c.h St.done [] b.1 b.2)
  match b.2.streams.find? (fun s => s.h == dFld c.d 2 15 0) with
  | some s => if res.length = 2 ∧ leNat res ≠ s.cnt then (b.1, setStream { s with stop := some (c.h, leNat res) } b.2) else done
  | none => done

/-- The descriptor of the STREAM_STOP by which the head ends a stream that it refuses. -/
def stopDesc (p h : Nat) : Desc := [BitVec.ofNat 32 (0x12 + 256 * p), 0, BitVec.ofNat 32 h] ++ List.replicate 13 0

/-- The load of a stack device's stream is too high: STREAM_START completes RESOURCE_BUSY, and the source is told to stop, under a handle that no
command of the host has, so that its answer is discarded (R303; DESIGN CHOICE, log 60). -/
def streamRefuse (p : Nat) (c : HeadCmd) (b : Both) : Both :=
  let h := pickHandle b.1 b.2 (b.2.cmds.length + b.2.timedOut.length + 1) b.2.nextH
  let d := sendRequest p h 0 (descBytes (stopDesc p c.h)) b.1
  (d, answer p c.h St.resourceBusy [] d { b.2 with nextH := handleAfter h })

/-- A final answer of position p: its completion, what a POWER's acknowledgement means (R56), and what follows for streams (R303, R304). -/
def finalAnswer (p h status : Nat) (c : HeadCmd) (res : List Byte) (b : Both) : Both :=
  let b := if lowPower c.d ∧ status = St.done then wentLow p b else b
  if dOp c.d = 0x12 ∧ status = St.done then streamDrain p c res b
  else if dOp c.d = 0x11 ∧ status = St.done ∧ !streamFits c res b.1 b.2 then streamRefuse p c b
  else (b.1, answer p h status res b.1 b.2)

/-- A RESPONSE fragment from position `src` (R251, R287). -/
def responseRx (src : Nat) (r : Response) (b : Both) : Both :=
  match findCmd b.2 r.h with
  | none => b
  | some c =>
    if isWaiting b.2 c || (!c.wakeFor && dTarget c.d ≠ 0x3F && decide (dTarget c.d ≠ src)) then b
    else if r.kind = 0 then (b.1, setCmd { c with acc := src :: c.acc.filter (fun p => p ≠ src) } b.2)
    else if c.wakeFor then b
    else if dTarget c.d = 0x3F then finalAnswer src r.h r.code c r.data b
    else
      let got := addPart r.off r.data c.got
      if r.total ≤ sumNat (got.map (fun g => g.2.length)) then
        finalAnswer src r.h r.code c (joinParts got ((r.total + 243) / 244)) b
      else (b.1, setCmd { c with got := got, code := r.code } b.2)

/-- No accept has come within REQ_TIMEOUT of the request's departure (R251). -/
def acceptTimeout (h : Nat) (b : Both) : Both :=
  match findCmd b.2 h with
  | none => b
  | some c =>
    let late := match b.1.ex.departed.find? (fun e => e.1 == h) with
      | some e => passed (reqTimeout b.1) e.2 b.1.now
      | none => false
    if c.sent && c.acc.isEmpty && !c.wakeFor && decide (0 < dTarget c.d ∧ dTarget c.d < 0x3F) && !isWaiting b.2 c && late then
      (b.1, complete c St.timeout [] b.1 b.2)
    else b

/-- REQ_ACCEPT_TIMEOUT (R251). -/
def execReqAcceptTimeout (t : Time) (h : Nat) (s : State) : Host.Outcome State Fault Refusal := actHost t (acceptTimeout h) s

/-! ### Events at the head (R268, R292, R304) -/

/-- The entry of an EVENT frame (Table HOST-6), whose byte 0x03 the head sets (R292). -/
def eventOf (e : List Byte) : EvRec :=
  ⟨leNat (e.take 2), (e.getD 2 0).toNat % 64, urgentCode (leNat (e.take 2)), leNat ((e.drop 4).take 2), BitVec.ofNat 64 (leNat ((e.drop 8).take 8)),
    (e.drop 16).take 16⟩

/-- "Start complete" of a position: it is awake again; a POWER that waited for it completes, and its streams end (R56, R296,
R304). -/
def startReported (p : Nat) (b : Both) : Both :=
  let d := setPosRec p { posRec b.1 p with low := false, advAt := b.1.now } b.1
  let b := headStreamsEnd 2 (fun q => decide (q = p)) (d, b.2)
  let l := b.2.cmds.filter (fun c => c.wakeFor && decide (dTarget c.d = p) && !isWaiting b.2 c)
  let b := each (fun c b => (b.1, complete c St.done [] b.1 b.2)) l b
  let l := b.2.cmds.filter (fun c => c.sent && isWake c.d && decide (dTarget c.d = 0x3F) && (answerOf c p).isNone)
  each (fun c b => (b.1, answer p c.h St.done [] b.1 b.2)) l b

/-- A position tells of a fault whose tone the head has received: it is the origin of the latest latch (R311, SAFE_LAST). -/
def originSeen (e : EvRec) (d : Dev) : Dev :=
  if d.sf.lastBit = 3 ∧ d.sf.lastPos = 0x3F ∧ toneBit (e.data.getD 4 0).toNat then { d with sf := { d.sf with lastPos := e.pos } } else d

/-- What the head does on an event of a position besides passing it to the event ring. -/
def eventEffect (e : EvRec) (b : Both) : Both :=
  match e.code with
  | 0x0001 => startReported e.pos b
  | 0x1003 => (dropCut (withRing (fun r => { r with upAt := none }) (bound (decide ((e.data.getD 0 0) = 0)) e.pos b.1)), b.2)
  | 0x1601 => (originSeen e b.1, b.2)
  | 0x1206 => headStreamsEnd 5 (fun q => decide (q = e.pos)) b
  | 0x1401 =>
    let h := leNat ((e.data.drop 4).take 2)
    (b.1, { b.2 with streams := b.2.streams.filter (fun s => !(decide (s.h = h) && decide (s.pos = e.pos))) })
  | _ => b

/-- An EVENT reaches the head: into the event ring (R292), with what it tells (R268, R296, R304). -/
def eventRx (bytes : List Byte) (b : Both) : Both :=
  let e := eventOf bytes
  eventEffect e ({ b.1 with ev := { b.1.ev with out := b.1.ev.out ++ [e] } }, b.2)

/-- EVENT_RX (R268, R292, R296, R304). -/
def execEventRx (t : Time) (e : List Byte) (p : Port) (s : State) : Host.Outcome State Fault Refusal :=
  actBoth t (fun b => let b := (unbuffer p 0x03 b.1, b.2); if b.1.head && decide (e.length = 32) then eventRx e b else b) s

/-! ### Heartbeats (R249, R250, R262, R268, R314, R328, R347) -/

/-- The slot of a position. -/
def hbSlot (hb : Heartbeat) (p : Nat) : Byte × Byte := hb.slots.getD p (0, 0)

/-- Has a slot's counter advanced since it last came back? A slot of zeros is one that no device wrote, unless 0 is the next count
(DEDUCED). -/
def slotSeen (d : Dev) (hb : Heartbeat) (p : Nat) : Bool :=
  let x := hbSlot hb p
  let c := x.1.toNat % 16
  let was := kget 0 d.rg.ctrs p
  decide (c ≠ was) && (decide (x ≠ (0, 0)) || decide (was = 15))

/-- The head's record of a position after a heartbeat. -/
def notePos (hb : Heartbeat) (now : Time) (fresh all : List Nat) (r : Nat × PosRec) : Nat × PosRec :=
  let x := hbSlot hb r.1
  if r.1 ∈ fresh then (r.1, { r.2 with seen := true, missed := 0, advAt := now, nib := x.1.toNat / 16, second := x.2.toNat })
  else (r.1, { r.2 with seen := decide (r.1 ∈ all) })

/-- Supervision of lost positions (Table SAFE-1 bit 13): heartbeats in a row in which each was seen. -/
def noteLost (fresh all : List Nat) (d : Dev) : Dev :=
  let count (p : Nat) (l : List (Nat × Nat)) : List (Nat × Nat) :=
    if p ∈ fresh then kset 0 l p (kget 0 l p + 1) else if p ∈ all then l else kset 0 l p 0
  let back := d.sf.lost.filter (fun p => decide (p ∈ fresh))
  let ps := ((d.sf.causes.filter (fun c => c.1 == 13)).map Prod.snd)
  let d := { d with sf := { d.sf with
    hbSeen := each count ps d.sf.hbSeen
    lost := d.sf.lost.filter (fun p => decide (p ∉ fresh)) } }
  each (gone 13) back d

/-- UNASSIGNED of the latest heartbeat (R246, R271): an occurrence as it is set, and while it stays set once the source is no longer lasting, so
that the source lasts as long as the flag (DESIGN CHOICE, log 118). -/
def noteUnassigned (u : Bool) (d : Dev) : Dev :=
  let was := d.rg.unas
  let d := withRing (fun r => { r with unas := u }) d
  if u && (!was || !lasting d 40 0) then occur 40 0 0x1208 [] d else d

/-- The break, as a heartbeat shows it (R268): over when one has come round unturned while the ring is not castled. -/
def noteBreak (p : Port) (turned : Bool) (d : Dev) : Dev :=
  if !d.rg.brk then d
  else if p = .south ∧ !turned ∧ !d.rg.castled then
    withRing (fun r => { r with brk := false, lo := 0x3F, hi := 0x3F, loEv := false, hiEv := false }) d
  else placeBreak d

/-- The positions seen in an open heartbeat; one that has come round whole is over (R305). -/
def hbReturned (whole : Bool) (num : Nat) (fresh : List Nat) (d : Dev) : Dev :=
  let d := withRing (fun r => { r with hbOpen := r.hbOpen.map (fun e => if e.num = num then { e with seen := e.seen ++ fresh } else e) }) d
  if whole then each hbOver (d.rg.hbOpen.filter (fun e => e.num = num)) d else d

/-- A heartbeat returns to the head (R262, R268, R328). -/
def headHeartbeat (p : Port) (hb : Heartbeat) (d : Dev) : Dev :=
  let fresh := (upFrom 1 62).filter (slotSeen d hb)
  let whole := decide (p = .south) && !hb.turned && !d.rg.castled
  let ctrs := each (fun q l => kset 0 l q ((hbSlot hb q).1.toNat % 16)) fresh d.rg.ctrs
  let inN := if p = .north then fresh else if whole then [] else d.rg.inN
  let inS := if p = .south then fresh else d.rg.inS
  let d := withRing (fun r => { r with
    hbBack := d.now, ctrs := ctrs, inN := inN, inS := inS,
    recs := r.recs.map (notePos hb d.now fresh (inN ++ inS)) }) d
  let d := hbReturned whole hb.num fresh d
  dropCut (noteAllUp (noteBreak p hb.turned (noteUnassigned hb.unassigned (noteLost fresh (inN ++ inS) d))))

/-- A stack device writes its own slot; its counter advances once for each heartbeat (R262). -/
def ownSlot (hb : Heartbeat) (d : Dev) : Heartbeat × Dev :=
  let d := if d.rg.hbLast = some hb.num then d
    else withRing (fun r => { r with hbCtr := (r.hbCtr + 1) % 16, hbLast := some hb.num }) d
  let slots := (upFrom 0 63).map (hbSlot hb)
  ({ hb with slots := slots.set d.rg.pos (BitVec.ofNat 8 (slotFirst d), BitVec.ofNat 8 (slotSecond d)) }, d)

/-- What a HEARTBEAT tells a stack device (R328, R347). -/
def hbNews (hb : Heartbeat) (d : Dev) : Dev :=
  let fresh := decide (d.rg.hbLast ≠ some hb.num)
  let d := gone 13 0 { d with sf := { d.sf with
    hbRx := d.now, hbEver := true,
    hbSeen := if fresh then kset 0 d.sf.hbSeen 0 (kget 0 d.sf.hbSeen 0 + 1) else d.sf.hbSeen } }
  svcFromHead ((hbSlot hb 0).1.getLsbD 6) d

/-- A stack device sends a HEARTBEAT on, or turns it at an arm's end (R250). -/
def passHeartbeat (p : Port) (hb : Heartbeat) (d : Dev) : Dev :=
  let up := (port d (otherPort p)).isUp
  let hb := if up then hb else { hb with turned := true }
  let f := allFrame 0 (port d p).rxStat 0x0A hb.num (hbBytes hb)
  if up then passOn p f d else enqueue p f d

/-- A HEARTBEAT arrives (R246, R250, R262). A device without a position marks it and takes nothing from it. -/
def heartbeatRx (p : Port) (hb : Heartbeat) (d : Dev) : Dev :=
  if d.head then headHeartbeat p hb d
  else if d.rg.pos ≤ 62 then
    let r := ownSlot hb (hbNews hb d)
    passHeartbeat p r.1 r.2
  else passHeartbeat p { hb with unassigned := true } d

/-- HEARTBEAT_RX (R246, R249, R250, R262, R268, R328, R347). -/
def execHeartbeatRx (t : Time) (p : Port) (hb : Heartbeat) (s : State) : Host.Outcome State Fault Refusal :=
  actAt t (fun d => heartbeatRx p hb (unbuffer p 0x0A d)) s

/-! ### Castling (R269, R270) and the second pass (R253) -/

/-- Positions with a dispatched command outstanding: for a wake the position that drives the stream (R296). -/
def owing (d : Dev) (c : HeadCmd) : List Nat :=
  if !c.sent || dTarget c.d = 0 then []
  else if c.wakeFor then (wakerOf d (dTarget c.d)).toList
  else if dTarget c.d = 0x3F then
    (d.rg.recs.map Prod.fst).filter (fun p => decide (p ≠ 0) && !(posRec d p).low && (answerOf c p).isNone)
  else [dTarget c.d]

/-- The REQUEST of a command to position p again. A broadcast COMMIT went as a COMMIT frame, not as a REQUEST (R260). -/
def requestAgain (c : HeadCmd) (p : Nat) (d : Dev) : Dev :=
  if c.wakeFor then askWake p c.h (dTarget c.d) d
  else if dTarget c.d = 0x3F ∧ dOp c.d = 0x04 then d
  else sendRequest p c.h 0 (descBytes c.d) d

/-- Step 3 of Table RING-10 for one command: REQUESTs without an accept again, and kind 0x01 to every position that has it outstanding. -/
def castleCmd (c : HeadCmd) (d : Dev) : Dev :=
  each (fun p d =>
    if !reachable d p then d
    else sendRequest p c.h 1 [] (if p ∈ c.acc then d else requestAgain c p d)) (owing d c) d

/-- Step 4: RETRIG triggers for the positions of one sweep from which data are lacking, one range on each arm. -/
def castleSweep (c : Collect) (d : Dev) : Dev :=
  let l := (c.slots.filter (fun x => !x.final && decide (x.pos ≠ 0) && reachable d x.pos)).map SweepSlot.pos
  each (fun port d =>
    let ps := l.filter (fun p => decide (towards d p = port))
    match ps with
    | [] => d
    | p :: _ => sendTrigger port c.T c.h (lowest p ps) (highest ps) true d) [.north, .south] d

/-- Step 5: commands to unreachable positions complete. -/
def castleUnreachable (b : Both) : Both :=
  let l := b.2.cmds.filter (fun c => c.sent && !c.wakeFor && decide (0 < dTarget c.d ∧ dTarget c.d < 0x3F) &&
    !reachable b.1 (dTarget c.d) && !isWaiting b.2 c)
  each (fun c b => (b.1, complete c St.ringBreak [] b.1 b.2)) l b

/-- Castle with B: step 1 to 5 of Table RING-10; streams of unreachable positions end (R304). -/
def castleWith (lo : Nat) (b : Both) : Both :=
  let d := castleRoute lo b.1
  let d := each castleCmd b.2.cmds d
  let d := dropUnreachable d
  let d := each castleSweep d.sw.collect d
  castleUnreachable (headStreamsEnd 3 (fun p => !reachable d p) (d, b.2))

/-- CASTLE (R269): the break has lasted CASTLE_MS. The ring castles again when the break has moved (DEDUCED). -/
def execCastle (t : Time) (s : State) : Host.Outcome State Fault Refusal :=
  actBoth t (fun b =>
    let r := b.1.rg
    if b.1.awake && b.1.head && r.brk && passed (msT (regFld b.1 R.ringCfg 7 0)) r.brkAt b.1.now && (!r.castled || decide (r.b ≠ r.lo)) then castleWith r.lo b else b) s

/-- The northward frame has not returned: the second pass and castling, with B the highest position of the first (R253). -/
def secondPass (b : Both) : Both :=
  let d := b.1
  if d.head && d.rg.enumH.isSome && decide (d.rg.enumPass = 1) && passed (msT 20) d.rg.enumAt d.now then
    let d := withRing (fun r => { r with enumPass := 2, second := true, enumAt := d.now }) d
    let d := sendEnum .south ⟨2, 62, 0, false, []⟩ d
    castleWith (highest d.rg.inN) (recognise d, b.2)
  else b

/-- ENUM_TIMEOUT (R253). -/
def execEnumTimeout (t : Time) (s : State) : Host.Outcome State Fault Refusal :=
  actBoth t (fun b => if b.1.awake then secondPass b else b) s

/-! ### RING_STATUS and ECHO (R305, R306) -/

/-- State of a position in RING_STATUS (R305). -/
def posState (d : Dev) (p : Nat) : Nat :=
  if p = 0 then 1
  else if !enumerated d p then 0
  else if (posRec d p).low then 3
  else if !reachable d p then 4
  else if (posRec d p).seen then 1 else 2

/-- The 8 bytes of a position (R305). -/
def statusEntry (d : Dev) (p : Nat) : List Byte :=
  let r := posRec d p
  let st := posState d p
  if p = 0 then
    [1, BitVec.ofNat 8 (statusNibble d), BitVec.ofNat 8 (slotSecond d), 0, BitVec.ofNat 8 (rateByte d), BitVec.ofNat 8 (ncells d), 0, 0]
  else if st = 0 then zeros 8
  else
    [BitVec.ofNat 8 st, BitVec.ofNat 8 r.nib, BitVec.ofNat 8 r.second, BitVec.ofNat 8 (hopsTo d p), BitVec.ofNat 8 r.rate,
      BitVec.ofNat 8 r.ncells] ++ leBytes 2 r.missed

/-- The lowest rate code of any hop (R305). -/
def lowestCode (d : Dev) : Nat := lowest 3 (hopRates d)

/-- The 520-byte result (R305). -/
def ringStatusBytes (d : Dev) : List Byte :=
  [BitVec.ofNat 8 d.rg.n, BitVec.ofNat 8 d.rg.b, BitVec.ofNat 8 (b2n d.rg.castled + 2 * b2n d.rg.brk), BitVec.ofNat 8 d.rg.lo,
    BitVec.ofNat 8 d.rg.hi, BitVec.ofNat 8 (lowestCode d), 0, 0] ++ leBytes 8 d.now.toNat ++
  (upFrom 0 63).flatMap (statusEntry d)

/-- RING_STATUS (R305). It takes no arguments. -/
def execRingStatus (t : Time) (h : Nat) (c : Desc) (s : State) : Host.Outcome State Fault Refusal :=
  actOp 0x81 (fun c => zeroFrom c 2) t c (fun d => if d.head then finish h St.done (ringStatusBytes d) d else d) s

/-- Ring time at which this device received the request of handle h: its acceptance, in the head (R306). -/
def receivedAt (h : Nat) (b : Both) : Time :=
  if b.1.head then (match findCmd b.2 h with
    | some c => c.since
    | none => b.1.now)
  else match b.1.ex.cmds.find? (fun c => c.h == h) with
    | some c => c.at0
    | none => b.1.now

/-- ECHO (R306). -/
def execEcho (t : Time) (h : Nat) (c : Desc) (s : State) : Host.Outcome State Fault Refusal :=
  actOpH 0xF0 (fun _ => true) t c (fun b =>
    (finish h St.done (wordsBytes ((upFrom 2 14).map (dWord c)) ++ leBytes 8 (receivedAt h b).toNat) b.1, b.2)) s

end Sys2Proof.Machine
end

