-- ==== Sys2Proof/Machine/HostPort.lean ====
section
/-! DEFINITION. The commands of the host port: modes, status and identity, reads and writes of the host window, of the registers and
of their bit aliases (file 10, R272 to R277; file 12, R350 to R352; file 13, R364). -/

namespace Sys2Proof.Machine

/-- A port command without a time of its own: it has an effect only while the port operates (R272). -/
def actPort (f : Both → Both) (s : State) : Host.Outcome State Fault Refusal :=
  actH (fun b => if hostOn b then f b else b) s

/-- A transaction ends; `err` says that it was refused in whole or in part (R275). -/
def portDone (out : List Byte) (err : Bool) (b : Both) : Both := (b.1, { b.2 with out := out, lastErr := err })

/-- A command that is ignored, or a transaction refused whole, and counted in FRAMING (R274, R276). -/
def portFraming (out : List Byte) (b : Both) : Both := portDone out true (bump R.hostErr 7 0 1 b.1, b.2)

/-! ### Status, identity and modes (R272, R274, R275) -/

/-- The status byte of R275. -/
def statusByte (b : Both) : Byte :=
  BitVec.ofNat 8 (pack [(b2n b.1.awake, 0), (b2n b.2.octal, 1), (b2n b.2.lastErr, 2), (b2n (hint b.1 b.2), 3)])

/-- In octal mode a command whose extension byte is not the one's complement of its opcode is ignored and counted (R273, R274). -/
def withExt (op ext : Byte) (f : Both → Both) (b : Both) : Both := if b.2.octal && ext != ~~~op then portFraming [] b else f b

/-- The opcodes of Table HOST-2. -/
def portOpcodes : List Byte := [0x05, 0x9F, 0x0C, 0x12, 0xE8, 0xFF]

/-- An unknown command is ignored until HCS_N rises, and counted (R274). -/
def knownOp (op : Byte) (f : Both → Both) (b : Both) : Both := if op ∈ portOpcodes then f b else portFraming [] b

/-- READ_STATUS (R274, R275): the status byte again and again until HCS_N rises. -/
def execReadStatus (x : StatusRead) (s : State) : Host.Outcome State Fault Refusal :=
  actPort (knownOp x.op (withExt x.op x.ext (fun b => portDone (List.replicate x.n (statusByte b)) false b))) s

/-- The first n bytes that READ_ID returns (R274, R407). -/
def idBytes (n : Nat) : List Byte :=
  padTo n [0x51, 0x64, 0x32, BitVec.ofNat 8 (Config.mrev.toNat + 16 * Config.crev.toNat)]

/-- READ_ID (R274). -/
def execReadId (n : Nat) (ext : Byte) (s : State) : Host.Outcome State Fault Refusal :=
  actPort (withExt 0x9F ext (portDone (idBytes n) false)) s

/-- ENTER_OCTAL: only in single-lane mode, which sends no extension byte (R272, R274). -/
def execEnterOctal (s : State) : Host.Outcome State Fault Refusal :=
  actPort (fun b => if b.2.octal then portFraming [] b else portDone [] false (b.1, { b.2 with octal := true })) s

/-- EXIT_OCTAL: only in octal mode, with its extension byte (R272, R274). -/
def execExitOctal (ext : Byte) (s : State) : Host.Outcome State Fault Refusal :=
  actPort (withExt 0xFF ext (fun b => if b.2.octal then portDone [] false (b.1, { b.2 with octal := false }) else portFraming [] b)) s

/-- HCS_LOW_IDLE (R272). -/
def execHcsLowIdle (s : State) : Host.Outcome State Fault Refusal := actPort (fun b => (b.1, { b.2 with octal := false })) s

/-! ### Regions (R276) -/

/-- Regions of Table HOST-3. -/
inductive Region where
  | window | registers | aliases
deriving DecidableEq, Repr

/-- The region of an address, with the region's first address and the address after its last. -/
def regionOf (addr : Nat) : Option (Region × Nat × Nat) :=
  if addr < winSize then some (.window, 0, winSize)
  else if 0x100000 ≤ addr ∧ addr < 0x110000 then some (.registers, 0x100000, 0x110000)
  else if inAlias addr then some (.aliases, aliasBase, aliasBase + 0x200000)
  else none

/-- An access outside every region (R276). -/
def portRange (out : List Byte) (b : Both) : Both := portDone out true (bump R.hostErr 15 8 1 b.1, b.2)

/-- The pieces of bytes a to e that a burst is split into: 32-bit words, and narrow accesses at the ends. n bounds their number. -/
def pieces : Nat → Nat → Nat → List (Nat × Nat)
  | 0, _, _ => []
  | n + 1, a, e =>
    if e ≤ a then []
    else
      let next := min (a / 4 * 4 + 4) e
      (a, next - a) :: pieces n next e

/-- An octal transaction that the port refuses whole: an odd address (R276), or an odd length of the host window (DESIGN CHOICE). -/
def octalOdd (x : Hst) (addr n : Nat) : Bool :=
  x.octal && (decide (addr % 2 = 1) || (decide (addr < winSize) && decide (n % 2 = 1)))

/-! ### Reads -/

/-- Zero the bytes of one bad 64-bit word in what a read from `addr` returned (R364). -/
def blank (addr : Nat) (l : List Byte) (at0 : Nat) : List Byte :=
  (upFrom at0 8).foldl (fun l a => if addr ≤ a then l.set (a - addr) 0 else l) l

/-- Read the host window: a word that cannot be corrected reads 0, is counted, and marks the transaction (R364). -/
def readWindow (addr n : Nat) (b : Both) : List Byte × Bool × Both :=
  let bad := windowBad b.1 addr n
  let d := each (fun e d => uncorrectable e.1 e.2 d) bad b.1
  (bad.foldl (fun l e => blank addr l (windowByte e)) (winRead b.2 addr n), !bad.isEmpty, (d, b.2))

/-- Read one piece of the register space; an unaligned piece is refused and reads 0 (R350). -/
def readPiece (off size : Nat) (b : Both) : List Byte × Bool × Both :=
  if aligned off size then (((wordBytes (masterRead .hostPort b (off / 4 * 4))).drop (off % 4)).take size, false, b)
  else (zeros size, true, (misaligned b.1, b.2))

/-- Read one piece of the alias region: the bit, in bit 0 (R352). -/
def readAlias (addr size : Nat) (b : Both) : List Byte × Bool × Both :=
  if size = 4 then
    let (off, i) := aliasBit addr
    (leBytes 4 (b2n (bit (masterRead .hostPort b off) i)), false, b)
  else (zeros size, true, (misaligned b.1, b.2))

/-- Read pieces one after another. -/
def readPieces (f : Nat → Nat → Both → List Byte × Bool × Both) : List (Nat × Nat) → Both → List Byte × Bool × Both
  | [], b => ([], false, b)
  | p :: l, b =>
    let r := f p.1 p.2 b
    let q := readPieces f l r.2.2
    (r.1 ++ q.1, r.2.1 || q.2.1, q.2.2)

/-- READ of n bytes from an address (R276). -/
def portRead (addr n : Nat) (b : Both) : Both :=
  if octalOdd b.2 addr n then portFraming (zeros n) b
  else match regionOf addr with
    | none => portRange (zeros n) b
    | some (k, base, stop) =>
      let e := min (addr + n) stop
      let r := match k with
        | .window => readWindow addr (e - addr) b
        | .registers => readPieces (fun a => readPiece (a - base)) (pieces n addr e) b
        | .aliases => readPieces readAlias (pieces n addr e) b
      portDone (padTo n r.1) (r.2.1 || decide (stop < addr + n)) r.2.2

/-- READ (R276). -/
def execRead (addr n : Nat) (ext : Byte) (s : State) : Host.Outcome State Fault Refusal := actPort (withExt 0x0C ext (portRead addr n)) s

/-! ### Writes -/

/-- Write the host window; a word written whole has good check bits again. Bytes that the device wrote in the same cycle stand (R277). -/
def writeWindow (addr : Nat) (l : List Byte) (b : Both) : Both :=
  let healed (e : Nat × Nat) : Bool :=
    decide (0x20 ≤ e.1 ∧ e.1 ≤ 0x23) && decide (addr ≤ windowByte e) && decide (windowByte e + 8 ≤ addr + l.length)
  (withMem (fun m => { m with bad := m.bad.filter (fun e => !healed e) }) b.1, hostWrite b.1.now addr l b.2)

/-- WRITE of bytes from an address (R276). -/
def portWrite (addr : Nat) (data : List Byte) (b : Both) : Both :=
  if octalOdd b.2 addr data.length then portFraming [] b
  else match regionOf addr with
    | none => portRange [] b
    | some (k, base, stop) =>
      let e := min (addr + data.length) stop
      let word (p : Nat × Nat) : Word := BitVec.ofNat 32 (leNat ((data.drop (p.1 - addr)).take p.2))
      let b := (b.1, { b.2 with lastErr := false })
      let b := match k with
        | .window => writeWindow addr (data.take (e - addr)) b
        | .registers => each (fun p b => regStore .hostPort (p.1 - base) p.2 (word p) b) (pieces data.length addr e) b
        | .aliases => each (fun p b => aliasStore p.1 p.2 (word p) b) (pieces data.length addr e) b
      portDone [] (b.2.lastErr || decide (stop < addr + data.length)) b

/-- WRITE (R276, R277). -/
def execWrite (t : Time) (addr : Nat) (data : List Byte) (ext : Byte) (s : State) : Host.Outcome State Fault Refusal :=
  actHost t (withExt 0x12 ext (portWrite addr data)) s

end Sys2Proof.Machine
end

