-- ==== Sys2Proof/Machine/Reset.lean ====
section
/-! DEFINITION. Reset: what a reset or a wake leaves of the device, non-volatile operations that it cuts off, and the causes of
Table PWR-5 (file 02, R40, R41, R44, R46 to R48; file 10, R280; file 15, R403, R408). -/

namespace Sys2Proof.Machine

/-- Change the supply and power fields. -/
def withPw (f : Power → Power) (d : Dev) : Dev := { d with pw := f d.pw }

/-! ### Operations cut off by a reset (R41) -/

/-- Had a non-volatile operation that is to run since `a` begun? None starts while a supply warning stands (R37). -/
def nvmBegun (a : Time) (d : Dev) : Bool := !d.pw.warn || decide (a.toNat < d.pw.warnAt.toNat)

/-- A CAL_STORE cut off by a reset (R41, R122). While the marker is programmed, it is free whether it was complete; from then on, steps 6 to 8,
both slots are valid. In any other step the target holds nothing valid. -/
def cutCal (d : Dev) : Dev :=
  match d.ca.store with
  | none => d
  | some x =>
    if x.step = 7 ∨ !nvmBegun x.at0 d then d
    else
      let (b, d) := freeBit d
      if x.step = 5 ∧ b then setCalSlot x.slot ⟨some x.set, some x.set.seq, false⟩ d
      else setCalSlot x.slot ⟨none, none, false⟩ d

/-- The same of a store of the protected configuration record (R343). -/
def cutCfg (d : Dev) : Dev :=
  match d.pr.storing with
  | none => d
  | some x =>
    if !nvmBegun x.at0 d then d else
    let (b, d) := freeBit d
    if x.step = 7 ∨ x.step = 17 then (if b then setCfgSlot (1 - x.slot) ⟨none, none, false⟩ d else d)
    else if x.step < 20 ∧ x.step % 10 = 5 ∧ b then setCfgSlot x.slot ⟨some x.data, some x.data.seq, false⟩ d
    else setCfgSlot x.slot ⟨none, none, false⟩ d

/-- A repair record whose writing is due: it is free whether the slot it goes to has been erased (R398). -/
def cutRepair (d : Dev) : Dev :=
  if d.bi.recDue && nvmBegun d.bi.recAt d then
    let (b, d) := freeBit d
    if !b then d
    else match d.bi.slot0, d.bi.slot1 with
      | some x, some y => if x.seq < y.seq then withBist (fun t => { t with slot0 := none }) d
          else withBist (fun t => { t with slot1 := none }) d
      | _, _ => d
  else d

/-- Cut off the last record of the newest sector: a lifetime or a checkpoint resumes from the one stored before it (R370, R372). -/
def cutLast (d : Dev) : Dev :=
  match d.mm.sectors.getLast? with
  | none => d
  | some x =>
    (match x.recs.getLast? with
      | none => d
      | some r => withMem (fun m => { m with
          sectors := m.sectors.dropLast ++ [{ x with recs := x.recs.dropLast ++ [{ r with cut := true }] }]
          lifeRec := if r.kind = 5 then m.lifePrev else m.lifeRec
          checkpoint := if r.kind = 4 then m.checkPrev else m.checkpoint
          cutSeq := some r.seq }) d)

/-- Programming of the latest history record may be in progress: it was written within the last millisecond, or within the last before a
warning that holds it (R37, R370). -/
def logBusy (d : Dev) : Bool :=
  (match d.mm.sectors.getLast? with
    | some x => x.sig.isNone && !x.recs.isEmpty
    | none => false) && decide (since d.mm.recAt (if d.pw.warn then d.pw.warnAt else d.now) ≤ msT 1)

/-- A reset cuts off what is in progress (R41). -/
def cutOff (d : Dev) : Dev :=
  let d := cutRepair (cutCfg (cutCal d))
  if d.running && logBusy d then
    let (b, d) := freeBit d
    if b then cutLast d else d
  else d

/-- Step 7 of a closing has begun: its record is being programmed (Table PWR-8). -/
def inRecordStep (d : Dev) : Bool := decide (d.pw.st = .closing) && decide (usT 62500 ≤ since d.pw.closeAt d.now)

/-! ### What a reset leaves (R46, R280, R372, R403) -/

/-- The registers of the HOST block. -/
def hostRegs (l : List (Nat × Word)) : List (Nat × Word) := l.filter (fun e => decide (0x5000 ≤ e.1 ∧ e.1 < 0x5800))

/-- The open summary after OFF or a brown-out: it resumes from its checkpoint with POWER_LOST (R372). -/
def lostSummary (m : Mem) : Summary :=
  let x := m.checkpoint.getD (Summary.init m.summ.num m.summ.first m.summ.utc)
  { x with flags := x.flags ||| 2 }

/-- The memories after a reset: non-volatile content, and counts of the open summary. `kept` says that banks 0x20 to 0x24 keep theirs,
`cold` that the cause is POR or BOR, `off` that it is POR. A sweep goes on where the reset or the low state interrupted it (R366; log 124). -/
def Mem.afterReset (kept cold off : Bool) (x : Summary) (m : Mem) : Mem :=
  { m with
    life := if off then m.lifeRec else m.life
    sub := if off then 0 else m.sub
    summ := if cold then lostSummary m else x
    ceSec := []
    due := NvDue.none
    lastErr := 0
    lastAddr := 0
    bad := m.bad.filter (fun e => decide (e.1 = 0x50) || (kept && decide (0x20 ≤ e.1 ∧ e.1 ≤ 0x24)))
    sweepLast := 0
    refreshAt := 0
    bgAt := 0
    marks := []
    install := none }

/-- The device once a reset or a wake has taken it (R46, R403): held in Starting with every register at its reset value, but for what
non-volatile memory, the always-on domain and, after an aborted closing, banks 0x20 to 0x24 keep (R246, R217, R280), and the engines that have failed,
which serve nothing until a self-test passes them (R166). A start's failed self-test is remembered until one passes (R62). A CAL_USER that a reset
aborts ends without a completion: R127 names the reset, and R280 and R287 carry none across it (DESIGN CHOICE, log 98). -/
def volatileReset (kept cold off : Bool) (d : Dev) : Dev :=
  { Dev.init with
    now := d.now
    free := d.free
    regs := if kept then hostRegs d.regs else []
    shad := if kept then hostRegs d.shad else []
    pw := { Power.init with
      cause := d.pw.cause
      wakeSrc := d.pw.wakeSrc
      rstCause := d.pw.rstCause
      fullSince := d.pw.fullSince
      aborted := kept
      mode := d.pw.mode
      secs := if off then 0 else d.pw.secs
      secSub := if off then 0 else d.pw.secSub
      secValid := d.pw.secValid && !off
      tripWake := d.pw.tripWake
      sealEarly := d.pw.sealEarly }
    pr := { Prot.init with c0 := d.pr.c0, c1 := d.pr.c1 }
    mm := d.mm.afterReset kept cold off (rebase d)
    rg := { Ring.init with pos := if cold then 0x3F else d.rg.pos }
    ex := if kept then { Exec.init with cmds := d.ex.cmds, results := d.ex.results, bulk := d.ex.bulk, departed := d.ex.departed } else Exec.init
    ca := { Cal.init with s0 := d.ca.s0, s1 := d.ca.s1, active := d.ca.active }
    ba := if cold then Bal.init else { Bal.init with
      gzRes := d.ba.gzRes, gzDone := d.ba.gzDone, gzExp := d.ba.gzExp, gzQ := d.ba.gzQ, gzStart := d.ba.gzStart }
    bi := { Bist.init with
      recs := d.bi.recs
      recSeq := d.bi.recSeq
      recSecs := if off then none else d.bi.recSecs
      banks := d.bi.banks
      engines := d.bi.engines
      slot0 := d.bi.slot0
      slot1 := d.bi.slot1
      failed := d.bi.failed }
    en := { Eng.init with failed := d.en.failed } }

/-- The host port after a reset: its window, rings and registers stay only after an aborted closing (R280); it starts in single-lane mode
(R272). -/
def Hst.afterReset (kept : Bool) (x : Hst) : Hst :=
  if kept then { x with on := false, octal := false, hiz := true, kept := true, out := [] } else Hst.init

/-- Causes of Table PWR-5 whose next start is full. -/
def fullCause (b : Nat) : Bool := decide (b ∈ [0, 1, 2, 5, 6, 7])

/-- Reset or wake, with the cause's bit of SYS_RST_CAUSE (R46, R48). -/
def restart (b : Nat) (kept : Bool) (x : Both) : Both :=
  let d := volatileReset kept (decide (b ≤ 1)) (decide (b = 0)) x.1
  (withPw (fun p => { p with
      cause := if b = 0 then 1 else p.cause ||| 2 ^ b
      wakeSrc := if b = 0 then 0 else p.wakeSrc
      fullSince := p.fullSince || fullCause b }) d, x.2.afterReset kept)

/-- A reset of Table PWR-5 other than a wake: operations in progress are cut off (R41), a record being programmed at the end of a closing
fails its check (R391). An aborted closing whose start is still held keeps what it kept, unless the power was lost (R280). -/
def assertReset (b : Nat) (x : Both) : Both :=
  let d := x.1
  let kept := d.pw.aborted && d.pw.held && decide (d.pw.st = .starting) && decide (2 ≤ b)
  let d := if inRecordStep d then appendRec (cutRecord d) d else d
  let d := cutOff (if 2 ≤ b then gzReset d else d)
  let d := withPw (fun p => { p with
    wakeSrc := if p.st = .closing then 0 else p.wakeSrc
    tripWake := [] }) d
  restart b kept (d, x.2)

/-- May a cause of Table PWR-5 arise? While the device runs or is held in a start every cause may; with the C-die off the clock monitor and
the lockstep pair are off, RST_N is driven low by the device itself (R47), and the rails stand only where the buck runs (R43, Table PWR-6). -/
def resettable (b : Nat) (d : Dev) : Bool :=
  match d.pw.st with
  | .off => false
  | .shutdown => decide (b = 7)
  | .sleep | .gazebo => decide (b = 2) || decide (b = 7)
  | .standby | .active | .closing | .starting => true

/-- A cause of Table PWR-5 resets the device in any state in which it may arise (R50). -/
def causeReset (b : Nat) (x : Both) : Both := if resettable b x.1 then assertReset b x else x

/-- A reset command: time runs up to it where there is ring time. -/
def actReset (t : Time) (f : Both → Both) (s : State) : Host.Outcome State Fault Refusal :=
  actH (fun b => f (if b.1.running then (tick t b.1, b.2) else b)) s

/-! ### The causes (R35, R40, R44, R46, R47, R50, R408) -/

/-- VSTK_POWER_ON (R50): the power had been off. -/
def execVstkPowerOn (s : State) : Host.Outcome State Fault Refusal := actH (assertReset 0) s

/-- BROWN_OUT_RESET (R40). In SHUTDOWN the buck is off. -/
def execBrownOutReset (t : Time) (s : State) : Host.Outcome State Fault Refusal :=
  actReset t (fun b => if b.1.pw.st = .off ∨ b.1.pw.st = .shutdown then b else assertReset 1 b) s

/-- RAIL_RESET (R35): longer than 5 us. -/
def execRailReset (t : Time) (us : Nat) (s : State) : Host.Outcome State Fault Refusal :=
  actReset t (fun b => if 5 < us then causeReset 2 b else b) s

/-- A pulse of `ns` on RST_N (R47): below 200 ns ignored, from 1 us a reset, between them either. -/
def rstPulse (ns : Nat) (b : Both) : Both :=
  if ns < 200 then b
  else if 1000 ≤ ns then causeReset 3 b
  else
    let (r, d) := freeBit b.1
    if r then causeReset 3 (d, b.2) else (d, b.2)

/-- EXTERNAL_RESET (R47). -/
def execExternalReset (t : Time) (ns : Nat) (s : State) : Host.Outcome State Fault Refusal := actReset t (rstPulse ns) s

/-- CLOCK_MONITOR_FAULT (R44): its dangerous internal fault leaves no latch after the reset (Table SAFE-1's text). -/
def execClockMonitorFault (t : Time) (s : State) : Host.Outcome State Fault Refusal := actReset t (causeReset 5) s

/-- LOCKSTEP_MISMATCH (R308). -/
def execLockstepMismatch (t : Time) (s : State) : Host.Outcome State Fault Refusal := actReset t (causeReset 6) s

/-- THERMAL_RESET (R46): above 140 degrees. -/
def execThermalReset (t : Time) (celsius : Int) (s : State) : Host.Outcome State Fault Refusal :=
  actReset t (fun b => if 140 < celsius then causeReset 7 b else b) s

/-- SW_RESET_EXPIRE (R408): 10 ms after the key. -/
def execSwResetExpire (t : Time) (s : State) : Host.Outcome State Fault Refusal :=
  actReset t (fun b => match b.1.pw.swReset with
    | some k => if passed (msT 10) k b.1.now then causeReset 4 b else b
    | none => b) s

end Sys2Proof.Machine
end

