-- ==== Sys2Proof/Machine/Power.lean ====
section
/-! DEFINITION. Supply levels and load shed, POWER, closing, wake sources, the seal loop and Gazebo cycles (file 02, R34, R37, R38, R49
to R59; file 01, R31; file 07, R213 to R217; file 12, R349). -/

namespace Sys2Proof.Machine

/-! ### Supply (R34, R37, R38) -/

/-- A non-volatile operation is in progress (R37, SYS_SUPPLY.NVM_SUSP): a store, an install, a refresh, a repair or self-test record, or
a history record, of which within 1 ms of its writing it is free whether it is still being programmed. -/
def nvmBusy (d : Dev) : Bool × Dev :=
  if d.ca.store.isSome || d.pr.storing.isSome || d.mm.install.isSome || d.mm.refresh.isSome || d.bi.recDue ||
      !d.mm.marks.isEmpty then (true, d)
  else if logBusy d then freeBit d
  else (false, d)

/-- VREG falls below the warning level (R37). -/
def supplyWarn (d : Dev) : Dev :=
  if d.pw.warn then d
  else
    let (b, d) := nvmBusy d
    withPw (fun p => { p with warn := true, warnAt := d.now, nvmSusp := b }) d

/-- SUPPLY_WARNING (R37). -/
def execSupplyWarning (t : Time) (s : State) : Host.Outcome State Fault Refusal := actAt t supplyWarn s

/-- The record of a full start's self-test (R390, R391); it waits for a supply warning to clear (R37). -/
def storeTest (d : Dev) : Dev :=
  match d.pw.warn, d.bi.pendRec with
  | false, some r =>
    let d := each (fun x d => post 0x1C01 0 [BitVec.ofNat 8 x.1, BitVec.ofNat 8 x.2] d) d.bi.pendRes (appendRec r d)
    withBist (fun t => { t with pendRec := none, pendRes := [] }) d
  | _, _ => d

/-- When an operation that a supply warning held counts as begun, once the warning has cleared: later by the time it was held (R37). -/
def heldFrom (d : Dev) (a : Time) : Time := a + BitVec.ofNat 64 (since (if a.toNat < d.pw.warnAt.toNat then d.pw.warnAt else a) d.now)

/-- Non-volatile operations resume: the time that a supply warning held them does not count (R37). -/
def nvmResume (d : Dev) : Dev :=
  let f := heldFrom d
  { d with
    ca := { d.ca with store := d.ca.store.map (fun x => { x with at0 := f x.at0 }) }
    pr := { d.pr with storing := d.pr.storing.map (fun x => { x with at0 := f x.at0 }) }
    bi := { d.bi with recAt := f d.bi.recAt }
    mm := { d.mm with
      install := d.mm.install.map (fun x => { x with at0 := f x.at0 })
      marks := d.mm.marks.map (fun x => { x with at0 := f x.at0 })
      refreshAt := f d.mm.refreshAt
      bgAt := f d.mm.bgAt } }

/-- VREG rises above the warning rising threshold (R37): non-volatile operations resume, what waited is written, and "supply dip", with the ring time of the assertion and
the duration in us, is logged and posted. -/
def supplyBack (d : Dev) : Dev :=
  if d.pw.warn then
    let d := withPw (fun p => { p with warn := false, nvmSusp := false, dip := some (p.warnAt, d.now) }) (nvmResume d)
    let d := writeDue d
    let d := if d.awake then storeTest d else d
    occurLogged d.pw.warnAt 6 0 0x0002 (leBytes 4 (satNat 0xFFFFFFFF (since d.pw.warnAt d.now / 200))) d
  else d

/-- SUPPLY_WARNING_CLEAR (R37). -/
def execSupplyWarningClear (t : Time) (s : State) : Host.Outcome State Fault Refusal := actAt t supplyBack s

/-- The warning has lasted 10 ms: load is shed (R38). -/
def shedLoad (d : Dev) : Dev :=
  if d.pw.warn && !d.pw.persist && decide (msT 10 ≤ since d.pw.warnAt d.now) then
    balUpdate (occur 7 0 0x0003 [] (withPw (fun p => { p with persist := true, shedAt := d.now }) d))
  else d

/-- SUPPLY_LOW_SHED (R38). -/
def execSupplyLowShed (t : Time) (s : State) : Host.Outcome State Fault Refusal := actAt t shedLoad s

/-- A job that waited for a shed to end is dispatched (R38). -/
def startHeld (j : HeldJob) (b : Both) : Both :=
  if dOp j.d = 0x30 then (impBegin j.h j.d j.tab b.1, b.2)
  else if dOp j.d = 0x31 then estBegin j.h j.d b
  else (loadModel j.h j.d j.tab b.1, b.2)

/-- 100 ms after the warning cleared the shed ends: jobs resume, and those that waited are dispatched (R38). -/
def endShed (b : Both) : Both :=
  let d := b.1
  match d.pw.dip with
  | some (_, c) =>
    if d.pw.persist && !d.pw.warn && decide (msT 100 ≤ since c d.now) then
      let d := balUpdate (shedReplay (withPw (fun p => { p with persist := false }) d))
      each startHeld d.en.held (withEng (fun e => { e with held := [] }) d, b.2)
    else b
  | none => b

/-- SHED_END (R38). -/
def execShedEnd (t : Time) (s : State) : Host.Outcome State Fault Refusal := actBoth t endShed s

/-- BUCK_DROPOUT (R34). -/
def execBuckDropout (t : Time) (s : State) : Host.Outcome State Fault Refusal := actAt t (withPw (fun p => { p with dropout := true })) s

/-- BUCK_DROPOUT_END (R34). -/
def execBuckDropoutEnd (t : Time) (s : State) : Host.Outcome State Fault Refusal := actAt t (withPw (fun p => { p with dropout := false })) s

/-- CLOCK_LOCK (R42). -/
def execClockLock (t : Time) (locked : Bool) (s : State) : Host.Outcome State Fault Refusal := actAt t (withPw (fun p => { p with locked := locked })) s

/-- ACTIVE returns to STANDBY once 10 ms have passed without engine work at the STANDBY floor (R50, R51). -/
def activeIdle (d : Dev) : Dev :=
  if d.pw.st = .active ∧ !d.pw.floorActive ∧ !engineWork d ∧ msT 10 ≤ since d.pw.workAt d.now then
    withPw (fun p => { p with st := .standby }) d
  else d

/-- ACTIVE_IDLE_TIMEOUT (R51). -/
def execActiveIdleTimeout (t : Time) (s : State) : Host.Outcome State Fault Refusal := actAt t activeIdle s

/-! ### POWER and the start of closing (R51 to R53) -/

/-- The low-power state of a POWER's STATE. -/
def lowState (n : Nat) : PowerState := if n = 1 then .shutdown else if n = 2 then .sleep else .gazebo

/-- Why POWER to a low-power state is refused (R51): no Gazebo plan, or FW_UPDATE, CAL_STORE or REPAIR runs. -/
def lowDenied (target : PowerState) (d : Dev) : Bool :=
  (decide (target = .gazebo) && d.ba.gzPlan.isNone) || d.mm.install.isSome || d.ca.store.isSome || d.bi.job.isSome

/-- Jobs that wait for a shed to end are not dispatched any more: they complete ABORTED (DESIGN CHOICE, log 109). -/
def heldAbort (d : Dev) : Dev :=
  each (fun j d => finish j.h St.aborted [] d) d.en.held (withEng (fun e => { e with held := [] }) d)

/-- Steps 1 and 2 of closing (Table PWR-8, R168, R198, R304, R370, R372). Into SHUTDOWN or SLEEP the Gazebo plan is discarded (R212). -/
def beginClosing (target : PowerState) (b : Both) : Both :=
  let d := withPw (fun p => { p with st := .closing, target := target, closeAt := b.1.now, aborted := false, wakeSrc := 0 }) b.1
  let d := heldAbort (jobsAbort 1 d)
  let b := if d.head then
      let b := streamsStopped 2 (d, b.2)
      (post 0x0004 0 [BitVec.ofNat 8 target.code] (outOff .sob (outOff .soa b.1)), b.2)
    else (withExec (fun e => { e with streams := [] }) d, b.2)
  let d := dropAwake b.1
  let d := if target = .gazebo then d else { d with ba := { d.ba with gzPlan := none } }
  (summarySave (lifeSave (trackSave d)), b.2)

/-- The head's broadcast POWER commands to a low-power state whose own answer is there: each completes once every position has
acknowledged or 1 ms has passed since its acceptance, and then the head begins its own closing (R52). -/
def powerCheck (timeout : Bool) (b : Both) : Both :=
  each (fun c b =>
    let ready := allAnswered b.1 c || (timeout && decide (msT 1 ≤ since c.since b.1.now))
    if ready && lowPower c.d && decide (dTarget c.d = 0x3F) && (answerOf c 0).isSome && !isWaiting b.2 c then
      let b := (b.1, completeBroadcast c b.1 b.2)
      if answerOf c 0 = some St.done ∧ b.1.awake then beginClosing (lowState (pwState c.d)) b else b
    else b) b.2.cmds b

/-- POWER to a low-power state (R51, R52). A broadcast ends in the head when the other positions have answered. -/
def powerLow (h : Nat) (c : Desc) (b : Both) : Both :=
  let target := lowState (pwState c)
  let st := if lowDenied target b.1 then St.deniedState else St.done
  if b.1.head && decide (dTarget c = 0x3F) then powerCheck false (b.1, answer 0 h st [] b.1 b.2)
  else
    let b := (finish h st [] b.1, b.2)
    if st = St.done then beginClosing target b else b

/-- POWER (R51, R52, R127). -/
def power (h : Nat) (c : Desc) (b : Both) : Both :=
  let d := userAbort b.1
  if pwState c = 4 then (finish h St.done [] (withPw (fun p => { p with floorActive := false }) d), b.2)
  else if pwState c = 5 then (finish h St.done [] (withPw (fun p => { p with floorActive := true, st := .active }) d), b.2)
  else powerLow h c (d, b.2)

/-- POWER (R51, R52, R301). -/
def execPower (t : Time) (h : Nat) (c : Desc) (s : State) : Host.Outcome State Fault Refusal := actOpH 0x90 okPower t c (power h c) s

/-- POWER_ACK_TIMEOUT (R52). -/
def execPowerAckTimeout (t : Time) (s : State) : Host.Outcome State Fault Refusal := actHost t (powerCheck true) s

/-- RESPONSE_RX (R251, R287, R295): an acknowledgement may be the last that a broadcast POWER waits for (R52). -/
def execResponseRx (t : Time) (src : Nat) (r : Response) (s : State) : Host.Outcome State Fault Refusal :=
  actHost t (fun b => powerCheck false (responseRx src r (unbufferAny 0x02 b.1, b.2))) s

/-! ### Aborted and completed closing (R53, R54) -/

/-- The step of Table PWR-8 in which a closing's abort finds it: 4 to 7. -/
def abortStep (n : Nat) : Nat := if n < usT 2500 then 4 else if n < usT 27500 then 5 else if n < usT 62500 then 6 else 7

/-- The self-test of a closing is aborted: its record, and a start that is full (R54, R391). The record that step 7 was programming is left as it is
and fails its check; the aborted one follows it. -/
def abortNow (src : Nat) (b : Both) : Both :=
  let d := b.1
  let step := abortStep (since d.pw.closeAt d.now)
  let d := if inRecordStep d then appendRec (cutRecord d) d else d
  let x := abortTest step d
  let d := postResults x.2.2.1 x.2.2.2 (appendRec x.2.1 { x.1 with free := d.free + abortedFree })
  let d := if d.bi.recDue then writeRepair d else d
  restart 8 true (withPw (fun p => { p with wakeSrc := if p.aborted then p.wakeSrc else src, aborted := true }) d, b.2)

/-- A wake source fires during closing: in steps 1 to 3 the device finishes step 3 first (R54). -/
def wakeClosing (src : Nat) (b : Both) : Both :=
  if usT 2100 ≤ since b.1.pw.closeAt b.1.now then abortNow src b else (abortClosing src b.1, b.2)

/-- What the always-on domain captures for GAZEBO: the working set and lane B background corrections (R104, R213). -/
def gzCapture (d : Dev) : List (Nat × Word) :=
  (worksetOffsets ++ (upFrom 32 32).map (fun m => R.calBoff + 4 * m) ++ (upFrom 32 32).map (fun m => R.calBgain + 4 * m)).map
    (fun o => (o, reg d o))

/-- The closing has run: steps 4 to 8 of Table PWR-8 (R53, R385, R390, R213). The secret sector is read-locked until the next start; a word that did
not read back zero leaves secrets behind. -/
def closingDone (r : SelfTestRun) (b : Both) : Both :=
  let d := withBist (fun t => { t with secrets := t.secrets && !r.cleared, secretLock := true }) b.1
  let x := runTest 1 true r d
  let d := postResults x.2.2.1 x.2.2.2 (appendRec x.2.1 x.1)
  let d := if d.bi.recDue then writeRepair d else d
  let d := withBist (fun t => { t with recSecs := some 0 }) (withProt (fun p => { p with sealLast := none }) d)
  let target := d.pw.target
  let d := { d with
    ln := LinkPort.init
    ls := LinkPort.init
    sf := { d.sf with fltHeld := decide (target ≠ PowerState.shutdown) && !d.sf.causes.isEmpty } }
  let d := match decide (target = .gazebo), d.ba.gzPlan with
    | true, some p => gzEnter p { d with ca := { d.ca with capture := gzCapture d } }
    | _, _ => d
  (withPw (fun p => { p with
      st := target, secs := 0, secSub := 0, entryMs := 0, cmpMs := 0, tripSeen := [], tripWake := [], sealEarly := false,
      floorActive := false, locked := false }) d,
    { b.2 with on := false, octal := false, hiz := true })

/-- CLOSING_COMPLETE at its time: 64.5 ms after the start of closing, or the abort that waited for step 3 (R53, R54). The spec gives when steps 3 and 4
begin, 2.0 ms and 2.1 ms, and not when step 3 is finished: a waiting abort runs from 2.0 ms (DESIGN CHOICE, log 95). The record of step 7
does not start while a supply warning stands (R37). -/
def closingComplete (r : SelfTestRun) (b : Both) : Both :=
  let n := since b.1.pw.closeAt b.1.now
  if b.1.pw.st ≠ .closing then b
  else if b.1.pw.aborted then (if msT 2 ≤ n then abortNow b.1.pw.wakeSrc b else b)
  else if usT 64500 ≤ n ∧ !b.1.pw.warn then closingDone r b
  else b

/-- CLOSING_COMPLETE (R53, R54). -/
def execClosingComplete (t : Time) (r : SelfTestRun) (s : State) : Host.Outcome State Fault Refusal := actBoth t (closingComplete r) s

/-! ### Wake (R57 to R59) -/

/-- A low-power state ends by a wake source (R58, R217); GAZEBO ends at the detection. -/
def wakeBy (src : Nat) (b : Both) : Both :=
  let d := if b.1.pw.st = .gazebo then gzEnd 5 0 b.1 else b.1
  restart 8 false (withPw (fun p => { p with wakeSrc := src }) (cutOff d), b.2)

/-- Every source but the link makes the device drive the wake stream on both ports (R59). -/
def wakeAndDrive (src : Nat) (b : Both) : Both :=
  let b := wakeBy src b
  (driveWake .south (driveWake .north b.1), b.2)

/-- Enable bit of SYS_WAKE_CFG. -/
def wakeEn (d : Dev) (i : Nat) : Bool := regBit d R.sysWakeCfg i

/-- The device sleeps, with its M-die on: SLEEP or GAZEBO. -/
def sleeping (d : Dev) : Bool := decide (d.pw.st = .sleep) || decide (d.pw.st = .gazebo)

/-- The WAKE pin (R58). -/
def wakePin (t : Time) (dt : Nat) (b : Both) : Both :=
  if b.1.pw.st.low then
    let d := elapse dt b.1
    if wakeEn d 0 then wakeAndDrive 1 (d, b.2) else (d, b.2)
  else if b.1.running then
    let b := (tick t b.1, b.2)
    if b.1.pw.st = .closing ∧ wakeEn b.1 0 then wakeClosing 1 b else b
  else b

/-- WAKE_PIN (R58, R54). -/
def execWakePin (t : Time) (dt : Nat) (s : State) : Host.Outcome State Fault Refusal := actH (wakePin t dt) s

/-- The relay of a wake stream heard on the north port, the south port or both: on the opposite port of one (R59). -/
def relayWake (n s : Bool) (d : Dev) : Dev :=
  match n, s with
  | true, false => driveWake .south d
  | false, true => driveWake .north d
  | _, _ => d

/-- The wake stream is heard (R58, R59): a device with LINK_EN at 0 only relays it. -/
def linkWake (t : Time) (dt : Nat) (n s : Bool) (b : Both) : Both :=
  let relay (b : Both) : Both := (relayWake n s b.1, b.2)
  if b.1.pw.st.low then
    let b := (elapse dt b.1, b.2)
    if !(n || s) then b
    else if wakeEn b.1 1 then relay (wakeBy 2 b) else relay b
  else if b.1.running then
    let b := (tick t b.1, b.2)
    if decide (b.1.pw.st = .closing) && (n || s) then
      let closed := portsClosed b.1
      let b := if wakeEn b.1 1 then wakeClosing 2 b else b
      if closed then relay b else b
    else b
  else b

/-- LINK_WAKE (R59, R243, R54). -/
def execLinkWake (t : Time) (dt : Nat) (nth sth : Bool) (s : State) : Host.Outcome State Fault Refusal := actH (linkWake t dt nth sth) s

/-- SYS_WAKE_TIMER seconds have elapsed since closing entered SLEEP or GAZEBO (R58). -/
def timerWake (dt : Nat) (b : Both) : Both :=
  if sleeping b.1 then
    let d := elapse dt b.1
    if wakeEn d 2 && decide (1000 * regFld d R.sysWakeTimer 16 0 ≤ d.pw.entryMs) then wakeAndDrive 4 (d, b.2) else (d, b.2)
  else b

/-- WAKE_TIMER_EXPIRE (R58). -/
def execWakeTimerExpire (dt : Nat) (s : State) : Host.Outcome State Fault Refusal := actH (timerWake dt) s

/-- Configured cells whose voltage, in 0.25 mV, lies outside its window: cell, and whether above OV (R57, R92). -/
def outside (d : Dev) (mv : List Int) : List (Nat × Bool) :=
  (cellsUsed d).filterMap (fun n =>
    match mv[n - 1]? with
    | none => none
    | some v => if beyondThr d n true (250 * v) then some (n, true)
      else if beyondThr d n false (250 * v) then some (n, false)
      else none)

/-- The sample of the 100 ms timer, which starts at entry to the state (R57). -/
def sleepSample (dt : Nat) (mv : List Int) (d : Dev) : Dev :=
  if sleeping d then
    let d := elapse dt d
    let k := (d.pw.entryMs - d.pw.cmpMs) / 100
    if k = 0 then d else withPw (fun p => { p with tripSeen := outside d mv, cmpMs := p.cmpMs + 100 * k }) d
  else d

/-- SLEEP_CMP_SAMPLE (R57). -/
def execSleepCmpSample (dt : Nat) (mv : List Int) (s : State) : Host.Outcome State Fault Refusal := act (sleepSample dt mv) s

/-- The second sample, 1 ms later: what is outside again wakes the device (R57). -/
def sleepConfirm (mv : List Int) (b : Both) : Both :=
  if sleeping b.1 && !b.1.pw.tripSeen.isEmpty then
    let d := elapse 1 b.1
    let l := (outside d mv).filter (fun e => decide (e ∈ d.pw.tripSeen))
    let d := withPw (fun p => { p with tripSeen := [], tripWake := l }) d
    if l.isEmpty then (d, b.2) else wakeAndDrive 3 (d, b.2)
  else b

/-- SLEEP_CMP_CONFIRM (R57, R58). -/
def execSleepCmpConfirm (mv : List Int) (s : State) : Host.Outcome State Fault Refusal := actH (sleepConfirm mv) s

/-! ### Seal loop (R31, R349) -/

/-- Openings that the seal record keeps. -/
def sealRoom : Nat := 1024

/-- The seal record is full, counting the entries that wait (R37, R349). -/
def sealFull (m : Mem) : Bool := decide (sealRoom ≤ m.seals.length + m.due.seals.length)

/-- The seal record's entry for an opening now: ring time, start number, low word of MEM_LIFE (R349). -/
def sealEntry (d : Dev) : Nat × Nat × Nat := (d.now.toNat, d.mm.startNo, d.mm.life % 2 ^ 32)

/-- An opening: lifetime count, seal record, "seal opened" (R349). -/
def sealOpened (first : Bool) (d : Dev) : Dev :=
  let d := withMem (fun m => { m with
    sealCount := satNat 0xFFFF (m.sealCount + 1)
    seals := if sealFull m || d.pw.warn then m.seals else m.seals ++ [sealEntry d]
    due := if sealFull m || !d.pw.warn then m.due else { m.due with seals := m.due.seals ++ [sealEntry d] }
    summ := { m.summ with seals := m.summ.seals + 1 } }) d
  post 0x0205 0 (leBytes 2 d.mm.sealCount ++ [BitVec.ofNat 8 (b2n first)]) d

/-- The always-on time of a test, in ring-time LSBs: ring time awake, the time since entry in SLEEP and GAZEBO. -/
def sealTime (d : Dev) : Nat := if sleeping d then msT d.pw.entryMs else d.now.toNat

/-- The timer's period, 1 s in SLEEP and GAZEBO and 100 ms awake, less the 2 % of its oscillator (R31). -/
def sealPeriod (d : Dev) : Nat := if sleeping d then msT 980 else msT 98

/-- May a test of the loop come now: the first in a state, or a period after the one before (R31)? -/
def sealDue (d : Dev) : Bool :=
  match d.pr.sealLast with
  | some a => passed (sealPeriod d) (BitVec.ofNat 64 a) (BitVec.ofNat 64 (sealTime d))
  | none => true

/-- What one test of the loop shows: more than 1 kOhm reads open (R31). -/
def sealRead (ohms : Nat) (d : Dev) : Dev :=
  withProt (fun p => { p with sealOpen := decide (1000 < ohms), sealValid := true, sealLast := some (sealTime d) }) d

/-- An open reading is an opening when the previous one was closed or it is the first after a start, before which OPEN is 0 (R349). -/
def isOpening (ohms : Nat) (d : Dev) : Bool := decide (1000 < ohms) && !d.pr.sealOpen

/-- One test of the loop. In SLEEP and GAZEBO an opening wakes the device (R58). -/
def sealTest (t : Time) (dt ohms : Nat) (b : Both) : Both :=
  if sleeping b.1 then
    let d := elapse dt b.1
    if !sealDue d then (d, b.2)
    else if isOpening ohms d then wakeAndDrive 5 (withPw (fun p => { p with sealEarly := true }) (sealRead ohms d), b.2)
    else (sealRead ohms d, b.2)
  else if b.1.running then
    let d := tick t b.1
    if d.awake && sealDue d then
      let first := !d.pr.sealValid
      (if isOpening ohms d then sealOpened first (sealRead ohms d) else sealRead ohms d, b.2)
    else (d, b.2)
  else b

/-- SEAL_TEST (R31, R349). -/
def execSealTest (t : Time) (dt ohms : Nat) (s : State) : Host.Outcome State Fault Refusal := actH (sealTest t dt ohms) s

/-! ### Gazebo cycles (R215, R217) -/

/-- One cycle, at entry and then 10 s after the one before; an end leads to SLEEP, or wakes the device when GZ_END_WAKE is 1 (R217, R50). -/
def gazeboCycle (dt : Nat) (r : GazeboReading) (b : Both) : Both :=
  match decide (b.1.pw.st = .gazebo), b.1.ba.gz with
  | true, some g =>
    let d := elapse dt b.1
    if !g.first && decide (d.pw.entryMs < g.ms + 10000) then (d, b.2)
    else
    let x := gzCycle d.ca.capture (ncells d) (regFld d R.balPcap 10 0) (rext d) d.pw.entryMs r g
    let d := { d with ba := { d.ba with gz := some x.1 } }
    if x.2.1 = 0 then (d, b.2)
    else
      let d := gzEnd x.2.1 x.2.2 d
      if wakeEn d 3 then wakeAndDrive 6 (d, b.2)
      else (withPw (fun p => { p with st := .sleep, cmpMs := p.entryMs }) (withProt (fun p => { p with sealLast := none }) d), b.2)
  | _, _ => b

/-- GAZEBO_CYCLE (R215 to R217). -/
def execGazeboCycle (dt : Nat) (r : GazeboReading) (s : State) : Host.Outcome State Fault Refusal := actH (gazeboCycle dt r) s

end Sys2Proof.Machine
end

