-- ==== Sys2Proof/Machine/Start.lean ====
section
/-! DEFINITION. The start sequence from reset release to READY, ECC errors found by the scrubber, completed non-volatile operations, and
the test access port (file 02, R47, R60 to R62, R427; file 13, R363 to R367, R381; file 14, R395, R400 to R402). -/

namespace Sys2Proof.Machine

/-! ### Eligibility (R60) -/

/-- Age of the newest self-test record in seconds, by the 32-bit counter of R45. -/
def recAge (d : Dev) : Nat := (d.pw.secs + 2 ^ 32 - d.bi.recSecs.getD 0) % 2 ^ 32

/-- FULL_REASON: the first condition of R60 that fails, 0 for a quick start. An aborted closing is 5 (R54). -/
def fullReason (d : Dev) : Nat :=
  let r := newestRec d
  let q := storedQsCfg d
  if d.pw.aborted then 5
  else if d.bi.recs.isEmpty ∨ tab8 r 0x10 ≠ 0 ∨ tab8 r 0x11 ≠ 0 then 1
  else if !recOk r then 2
  else if !d.pw.secValid ∨ d.bi.recSecs.isNone ∨ fld q 4 0 * 86400 < recAge d then 3
  else if d.pw.fullSince then 4
  else if bit q 8 then 6
  else 0

/-! ### Steps of the start (Table PWR-11) -/

/-- A start begins: its cause is recorded, MODE sampled, start counts advance, ring time begins at 0 (R2, R48, R246, R370). DESIGN CHOICE
(log 92): R2 does not say whether the always-on position survives a start with MODE high. It is overwritten with 0 there, and a later start with
MODE low begins unassigned, at 0x3F. -/
def startCounts (mode : Bool) (d : Dev) : Dev :=
  let why := fullReason d
  let cause := d.pw.cause % 512
  let d := withPw (fun p => { p with
    held := false
    rstCause := packW [(cause, 0), (if cause / 256 = 1 then p.wakeSrc else 0, 12)]
    cause := 0
    wakeSrc := 0
    aborted := false
    mode := mode
    quick := decide (why = 0)
    fullReason := why }) d
  let d := withMem (fun m => { m with
    startNo := m.startNo + 1
    recAt := 0
    summ := { m.summ with starts := m.summ.starts + 1, fulls := m.summ.fulls + b2n (decide (why ≠ 0)) } }) d
  { d with now := 0, rg := { d.rg with pos := if mode then 0 else if d.rg.pos = 0 then 0x3F else d.rg.pos } }

/-- The record that a reset cut off is discarded (R370). -/
def discardCut (d : Dev) : Dev :=
  match d.mm.cutSeq with
  | some q => post 0x1A04 0 (leBytes 4 q) (withMem (fun m => { m with cutSeq := none }) d)
  | none => d

/-- A start finds that the self-test of a start failed and none has passed since: bit 14 (R62). -/
def stillFailed (d : Dev) : Dev := if d.bi.failed then latch 14 0 d else d

/-- Steps 3 and 4 of a full start: memory and logic self-test (R62, R384 to R391). No secret is loaded, and after an aborted closing some banks are tested
transparently (R385, R386). The record is written once the start is READY. A failure latches bit 14, which stays until a start's test passes. -/
def startTest (r : SelfTestRun) (d : Dev) : Dev :=
  let r := { r with cleared := true, banks := inOrder r.banks }
  let clear := decide (d.pw.fullReason = 5)
  let x := runTest 2 clear r d
  let d := x.1
  let found := if memRan r then r.banks.map (fun b => (b.mem, bankEntries (bankRepair d b.mem) b)) else []
  let d := withBist (fun t => { t with
    pendRec := some x.2.1
    pendRes := [(1, x.2.2.1), (2, x.2.2.2)]
    captured := found.filter (fun e => !e.2.isEmpty) }) d
  let failed := decide (x.2.2.1 = 1 ∨ x.2.2.2 = 1) || (d.bi.failed && decide (x.2.2.1 ≠ 0 ∨ x.2.2.2 ≠ 0))
  stillFailed (withBist (fun t => { t with failed := failed }) d)

/-- "Firmware bank invalid"; whether by signature or CRC is free. -/
def bankInvalid (b : Bool) (d : Dev) : Dev :=
  let (r, d) := freeBit d
  post 0x1A05 0 [BitVec.ofNat 8 (b2n b), if r then 2 else 1] d

/-- Bank A does not boot: it fails verification or is superseded (R381). -/
def notA (d : Dev) : Bool := bankBad d d.mm.bankA || d.mm.bankA.superseded

/-- A bank's signature is verified at this start. -/
def verified (b ok : Bool) (d : Dev) : Dev := if ok then d else setBank b { fwBank d b with image := false } d

/-- Step 7: firmware verification (R61, R381). With both banks bad no rule says which one boots: it is free. -/
def bootFirmware (okA okB : Bool) (d : Dev) : Dev :=
  let d := verified false okA d
  let boot (b : Bool) (d : Dev) : Dev := withMem (fun m => { m with bootB := b }) d
  let d := if bankBad d d.mm.bankA then bankInvalid false d else d
  if !notA d then boot false d
  else
    let d := verified true okB d
    if !bankBad d d.mm.bankB then boot true d
    else
      let d := bankInvalid true d
      if !bankBad d d.mm.bankA then boot false d
      else
        let (b, d) := freeBit d
        boot b d

/-- The balancing counters after a GAZEBO (R211); later starts begin at 0. -/
def loadCharge (d : Dev) : Dev :=
  if d.ba.gzStart then
    let d := each (fun n d => setReg (R.balQbal + 4 * (n - 1)) (BitVec.ofNat 32 (kget 0 d.ba.gzQ n)) d) (upFrom 1 32) d
    { d with ba := { d.ba with gzStart := false } }
  else d

/-- Engines that the repair record excludes fail at the start. Where the memory test ran, the others have passed and serve again; else one that
had failed still serves nothing, and its cells, assigned as reset leaves them, are moved (R166, R387). -/
def excludeEngines (tested : Bool) (d : Dev) : Dev :=
  let d := if tested then withEng (fun e => { e with failed := 0 }) d else d
  each (fun k d =>
    if engineFailed d k then rebalance (servedBy d k) d
    else if d.bi.engines.testBit k then engineFail k 1 d else d) (upFrom 0 16) d

/-- The comparator test of the start check (R394, R395): the codes come from the mean of each cell's stream. -/
def startPairs (l : List (Int × PairSeen)) (d : Dev) : Dev :=
  let bad (n : Nat) : Bool := l.any (fun p => decide (p.2.cell = n) && (ovFails p.1 p.2 || uvFails p.1 p.2))
  each (fun n d => if bad n then
    post 0x1C02 0 [2, BitVec.ofNat 8 ((n - 1) / 8)] (setRegBit R.bistCmpFail (n - 1) true d) else d) (cellsUsed d) d

/-- Step 5 of a full start: the analog start check (R395). With NCELLS at 0 only the band-gap comparison runs. -/
def analogCheck (env : StartEnv) (d : Dev) : Dev :=
  each (fun x d => owTest x.1 x.2.1 x.2.2 onOpen (fun _ d => d) d) env.taps (startPairs env.pairs (bgTake (bgError d env.bgRatio) d))

/-- The seal opening that woke the device is recorded at the wake (R31). -/
def sealAtWake (d : Dev) : Dev :=
  if d.pw.sealEarly then
    sealOpened false (withPw (fun p => { p with sealEarly := false }) d)
  else d

/-- Ring time `full` us or `quick` us after the release, by the kind of the start; 2.0 ms later from step 8 on when bank B was verified
(Table PWR-11, R61). -/
def stepAt (full quick : Nat) (d : Dev) : Time :=
  BitVec.ofNat 64 (usT (if d.pw.quick then quick else full) + (if notA d then msT 2 else 0))

/-- Step 10: the lanes of the configured cells and the current channel start, and their results are stale until their first windows
have passed (R65, R74, R76, R130). -/
def startLanes (d : Dev) : Dev :=
  { d with
    me := { d.me with since := each (fun n l => kset 0 (kset 0 l (laneIdx .a n) d.now) (laneIdx .b n) d.now) (cellsUsed d) d.me.since, owPeriod := regFld d R.measOwCfg 7 0 }
    ca := { d.ca with laneAt := d.now, slotNext := 0, slotDue := BitVec.ofNat 64 ((d.now.toNat + usT 20 - 1) / usT 20 * usT 20) }
    io := { d.io with cu := { d.io.cu with since := d.now, sinceBc := d.now, rawTo := d.now } } }

/-- Steps 1 to 10 and 5 of Table PWR-11, each at its time (R61). -/
def startSteps (env : StartEnv) (d : Dev) : Dev :=
  let d := sealAtWake (discardCut (startCounts env.mode d))
  let at' (full quick : Nat) (d : Dev) : Dev := tick (BitVec.ofNat 64 (usT (if d.pw.quick then quick else full))) d
  let d := applyRepair (at' 300 300 d)
  let d := at' 60800 800 d
  let d := if d.pw.quick then stillFailed d else startTest env.test d
  let d := withBist (fun t => { t with secrets := true, secretLock := false }) (bootFirmware env.bankA env.bankB (at' 63800 3800 d))
  let d := loadRecord (selectSet (refreshResume (tick (stepAt 65400 5400 d) d)))
  let d := startLanes (loadCharge (excludeEngines (!d.pw.quick && memRan env.test) (trackRestore d)))
  let d := tick (stepAt 89800 5800 d) d
  if d.pw.quick then d else analogCheck env d

/-- The state that an aborted closing kept, in the ring time of the new start: what a command had spent of its deadline counts on. Since its last
use more time has passed than any TIME of R307, accept timeout or hold of a result (R251): an entry was written and a request departed before
all of the new ring time, and no result is held (R280; DEDUCED, log 119). -/
def keepTimes (was : Time) (b : Both) : Both :=
  let d := { b.1 with ex := { b.1.ex with results := [], departed := b.1.ex.departed.map (fun e => (e.1, 0)) } }
  (d, { b.2 with
    cmds := b.2.cmds.map (fun c => { c with since := 0, spent := c.age was })
    pairs := b.2.pairs.map (fun q => { q with written := q.written.map (fun e => { e with time := 0 }) })
    eq := { b.2.eq with unserved := b.2.eq.unserved.map (fun e => (0, e.2)) } })

/-- Reset is released: steps 1 to 11 of Table PWR-11. Step 11, 0.2 ms before READY, enables the host port in the head roles (R61). -/
def startRun (env : StartEnv) (b : Both) : Both :=
  if decide (b.1.pw.st = .starting) && b.1.pw.held && env.ended then
    let b := if b.2.kept && b.1.pw.aborted then keepTimes b.1.now b else b
    let d := startSteps env b.1
    (d, { b.2 with on := d.head, hiz := !d.head })
  else b

/-- RESET_RELEASE (R47, R61). -/
def execResetRelease (env : StartEnv) (s : State) : Host.Outcome State Fault Refusal := actH (startRun env) s

/-! ### READY (Table PWR-11 step 12) -/

/-- Ring time of READY: 6.0 ms or 90.0 ms after release, 2.0 ms later when bank B was verified (R61, R381). -/
def readyAt (d : Dev) : Time := stepAt 90000 6000 d

/-- The start is READY (R61, R427, R390): STANDBY, ports train, "start complete". -/
def ready (b : Both) : Both :=
  let d := b.1
  if decide (d.pw.st = .starting) && !d.pw.held then
    let d := tick (readyAt d) d
    let d := withPw (fun p => { p with st := .standby }) { d with
      sf := { d.sf with servAt := d.now, hbRx := d.now }, pr := { d.pr with svcFrom := some d.now }, mm := { d.mm with bgAt := d.now } }
    let d := if d.sf.extest then d else beginTraining .south (beginTraining .north d)
    let d := post 0x0001 0 (leBytes 2 (d.pw.rstCause.toNat % 65536) ++ [BitVec.ofNat 8 d.pw.fullReason, BitVec.ofNat 8 (b2n d.pw.quick)]) d
    (storeTest d, b.2)
  else b

/-- START_COMPLETE (R61, R427). -/
def execStartComplete (s : State) : Host.Outcome State Fault Refusal := actH ready s

/-! ### Errors found in memory (R363 to R365, R308) -/

/-- The opcode of a command that is outstanding at this device: one of its own in the head, one that it holds in a stack device. -/
def heldOp (h : Nat) (b : Both) : Option Nat :=
  if b.1.head then ((b.2.cmds.find? (fun c => c.h == h && c.sent && decide (dTarget c.d = 0))).map (fun c => dOp c.d))
  else (b.1.ex.cmds.find? (fun c => c.h == h && !c.d.isEmpty)).map (fun c => dOp c.d)

/-- A command of this device has read a word of the shared SRAM that cannot be corrected: it ends INTERNAL with its event (R293, R364). -/
def internalEnd (h : Nat) (b : Both) : Both :=
  match heldOp h b with
  | none => b
  | some op =>
    let d := withEng (fun e => { e with
      imp := e.imp.bind (fun j => if j.h = h then none else some j)
      est := e.est.bind (fun j => if j.h = h then none else some j) }) b.1
    (finish h St.internal [] (internalError h op d), b.2)

/-- A word of memory is read with errors (R364). Belvedere's banks reset the device; the host port sees LAST_ERR; a command ends INTERNAL. -/
def wordRead (mem addr : Nat) (err : BitVec 79) (reader : Reader) (b : Both) : Both :=
  if memIndex mem then
    let (n, d) := decoded err b.1
    if n = 0 then (d, b.2)
    else
      let b := (memError mem addr n d, b.2)
      if n < 3 then b
      else if mem = 0x40 ∨ mem = 0x41 then assertReset 6 b
      else match reader with
        | .scrubber => b
        | .hostPort => if 0x20 ≤ mem ∧ mem ≤ 0x23 then (b.1, { b.2 with lastErr := true }) else b
        | .command h => if 0x20 ≤ mem ∧ mem ≤ 0x3F then internalEnd h b else b
  else b

/-- SRAM_SCRUB (R363 to R365). The scrubber pauses while the load is shed (R38). -/
def execSramScrub (t : Time) (mem addr : Nat) (err : BitVec 79) (reader : Reader) (s : State) : Host.Outcome State Fault Refusal :=
  actBoth t (fun b => if b.1.awake && (decide (reader ≠ .scrubber) || !b.1.pw.persist) then wordRead mem addr err reader b else b) s

/-! ### Non-volatile operations (R37, R367) -/

/-- MINSEC rises to the SEC of the bank that completed the start (R381). -/
def raiseMinsec (d : Dev) : Dev :=
  if d.awake then withMem (fun m => { m with minsec := max m.minsec (if m.bootB then m.bankB.sec else m.bankA.sec) }) d else d

/-- Erases of the calibration slots count as wear (R368). -/
def calWear (op : NvmOp) (d : Dev) : Dev :=
  match op with
  | .calErase => (match d.ca.store with
    | some x => if x.step ∈ [2, 7, 24, 26] then addWear (2 + (if x.step = 7 then 1 - x.slot else x.slot)) d else d
    | none => d)
  | .calCleanup => (match d.ca.cleanup with
    | some i => addWear (2 + i) d
    | none => d)
  | _ => d

/-- The time that programming n bytes takes: 0.4 ms a page (R367). -/
def pagesT (n : Nat) : Nat := usT (400 * ((n + 255) / 256))

/-- The time of one erase (R367). -/
def eraseT : Nat := msT 45

/-- When the operation of this kind in progress began, and how long it takes at least (R367, Tables CAL-6, MEM-2 and MEM-10). A background erasure
begins at READY at the earliest (R122). -/
def nvmSpan (op : NvmOp) (d : Dev) : Time × Nat :=
  match op with
  | .calImage => ((d.ca.store.map CalStore.at0).getD 0, pagesT 1024)
  | .calMarker => ((d.ca.store.map CalStore.at0).getD 0, pagesT 1)
  | .calErase => ((d.ca.store.map CalStore.at0).getD 0, eraseT)
  | .calCleanup | .cfgCleanup => (d.mm.bgAt, eraseT)
  | .cfgStore =>
    (match d.pr.storing with
      | some x => (x.at0, match x.step % 10, decide (20 ≤ x.step) with
        | 3, false => pagesT (36 + 8 * x.data.entries.length)
        | 5, false => pagesT 1
        | _, _ => eraseT)
      | none => (0, 0))
  | .fwErase => ((d.mm.install.map Install.at0).getD 0, 48 * eraseT)
  | .fwProgram => ((d.mm.install.map Install.at0).getD 0, pagesT ((d.mm.install.map Install.len).getD 0))
  | .fwMarker => ((d.mm.install.map Install.at0).getD 0, pagesT 1)
  | .repairRecord => (d.bi.recAt, pagesT 1076 + pagesT 1)
  | .refresh =>
    (d.mm.refreshAt, match d.mm.refresh with
      | some (_, 1) => pagesT 4096
      | some (_, 3) => eraseT + pagesT 4096
      | _ => pagesT 1)
  | .histMark => (((d.mm.marks.head?).map MarkJob.at0).getD 0, pagesT 1)
  | .selfTestRecord | .minsec => (0, pagesT 1)

/-- First sector and number of sectors of the area that an operation works on (Table MEM-3). -/
def nvmArea (op : NvmOp) (d : Dev) : Nat × Nat :=
  match op with
  | .calImage | .calMarker | .calErase => (0x300 + 8 * ((d.ca.store.map (fun x => if x.step = 7 then 1 - x.slot else x.slot)).getD 0), 8)
  | .calCleanup => (0x300 + 8 * d.ca.cleanup.getD 0, 8)
  | .cfgStore => (0x320 + (d.pr.storing.map (fun x => if x.step = 7 ∨ x.step = 17 then 1 - x.slot else x.slot)).getD 0, 1)
  | .cfgCleanup => (0x320 + d.pr.cfgCleanup.getD 0, 1)
  | .fwErase | .fwProgram | .fwMarker => (384 * b2n ((d.mm.install.map Install.bankB).getD false), 384)
  | .repairRecord => (if repairInto0 d then 0x322 else 0x323, 1)
  | .refresh => ((d.mm.refresh.map Prod.fst).getD 0 / sectorWords, 1)
  | .histMark => (0x334 + (logBegun d - 1) % logSectors, 1)
  | .selfTestRecord => (0x324 + d.bi.recSeq / 16 % 16, 1)
  | .minsec => (0x313, 1)

/-- Does the operation of this kind in progress leave its area erased, whether or not it succeeds (R118, R343, R398; log 34)? -/
def nvmErases (op : NvmOp) (d : Dev) : Bool :=
  match op with
  | .calErase | .calCleanup | .cfgCleanup | .repairRecord => true
  | .cfgStore => (match d.pr.storing with
    | some x => decide (20 ≤ x.step) || (decide (x.step % 10 ≠ 3) && decide (x.step % 10 ≠ 5))
    | none => false)
  | _ => false

/-- What an operation that completes leaves of its area's sectors: those that failed verification are retired, and what was uncorrectable in an
erased area is no more (R368). -/
def nvmSectorsAfter (op : NvmOp) (bad : List Nat) (d : Dev) : Dev :=
  let (a, n) := nvmArea op d
  let d := if nvmErases op d then clearBad (4096 * a) (4096 * n) d else d
  each retire (bad.filter (fun s => decide (a ≤ s) && decide (s < a + n))) d

/-- Is it an erasure that runs in the background after READY (R122)? -/
def isCleanup (op : NvmOp) : Bool := decide (op = .calCleanup ∨ op = .cfgCleanup)

/-- Is an operation of this kind in progress? -/
def nvmRuns (op : NvmOp) (d : Dev) : Bool :=
  match op with
  | .calImage | .calMarker | .calErase => d.ca.store.isSome
  | .calCleanup => d.ca.cleanup.isSome
  | .cfgStore => d.pr.storing.isSome
  | .cfgCleanup => d.pr.cfgCleanup.isSome
  | .fwErase | .fwProgram | .fwMarker => d.mm.install.isSome
  | .repairRecord => d.bi.recDue
  | .refresh => d.mm.refresh.isSome
  | .histMark => !d.mm.marks.isEmpty
  | .selfTestRecord | .minsec => false

/-- A program or erase completes; none does while a warning holds it, nor before its time. Sectors that fail verification are retired (R37, R367,
R368). `x` is the image of a running install. -/
def nvmDone (op : NvmOp) (ok : Bool) (bad : List Nat) (x : Option (List Byte)) (d : Dev) : Dev :=
  if d.pw.warn || !passed (nvmSpan op d).2 (nvmSpan op d).1 d.now || (isCleanup op && decide (d.pw.st = .starting)) then d
  else
    let d := if nvmRuns op d then nvmSectorsAfter op bad d else d
    match op with
    | .calImage | .calMarker | .calErase | .calCleanup => calNvm op ok (calWear op d)
    | .cfgStore | .cfgCleanup => cfgNvm op ok d
    | .fwErase | .fwProgram | .fwMarker => fwNvm op ok x d
    | .repairRecord => repairNvm ok d
    | .selfTestRecord => d
    | .minsec => raiseMinsec d
    | .refresh => refreshNext d
    | .histMark => markDone ok d

/-- NVM_OPERATION_DONE (R367, R368). -/
def execNvmOperationDone (t : Time) (op : NvmOp) (x : NvmEnd) (s : State) : Host.Outcome State Fault Refusal :=
  actBoth t (fun b => (nvmDone op x.ok x.bad (fwImage b) b.1, b.2)) s

/-! ### Test access port (R330, R400, R402) -/

/-- An instruction takes effect. One that takes the pins switches the outputs off unless the window is open, or in HIGHZ, and takes both
hops down; leaving them gives the ports back to the link controller (R402). -/
def setIr (ir : Nat) (d : Dev) : Dev :=
  let was := holdsPins d.bi.ir
  let holds := holdsPins ir
  let d := withBist (fun t => { t with ir := ir }) { d with sf := { d.sf with extest := holds } }
  if holds then
    let d := if !windowOpen d || decide (ir = 0x04) then outOff .sob (outOff .soa d) else d
    if was then d else downIfUp .south 1 0 (downIfUp .north 1 0 d)
  else if was && d.awake then beginTraining .south (beginTraining .north d)
  else d

/-- TAP_RESET (R400): IDCODE is selected. -/
def execTapReset (t : Time) (s : State) : Host.Outcome State Fault Refusal := actAt t (setIr 0x02) s

end Sys2Proof.Machine
end

