-- ==== Sys2Proof/Machine/Pins.lean ====
section
/-! DEFINITION. The pins: what each one does, by power state and role (R23, Table PIN-3, R47), and the boundary register that takes them over
(R401, R402). No command reads a pin that the device drives; these functions of the state say what stands on it. -/

namespace Sys2Proof.Machine

/-- Pins and pin groups of Table PIN-3. C, S and W carry their numbers: 1 to 32, 1 to 32, 0 to 3. -/
inductive Pin where
  | c (n : Nat) | s (n : Nat) | shunt | aux | vthm | w (n : Nat) | link (p : Port) | hostPort | hint | safetyIn | tpa | tpb | soa | sob | flt | svc
  | seal | mode | wake | sync | rst | tapIn | tdo
deriving DecidableEq, Repr

/-- What a pin does (Table PIN-3): `quiet` is high impedance, not driven or not observed; `bypass` joined to the other port; `linked`
with the link controller; `open'` a switch that is open with its FET drive low; `on` and `off` a switch or source; `low` and `high` driven;
`released` an open drain that is off; `pulled` held by the pull that the table names; `input` observed, measured or converted. -/
inductive PinState where
  | quiet | bypass | linked | open' | on | off | low | high | released | pulled | input
deriving DecidableEq, Repr

/-- Columns of Table PIN-3. -/
inductive PinColumn where
  | unpowered | reset | shutdown | role
deriving DecidableEq, Repr

/-- The column in force. SLEEP and GAZEBO show SHUTDOWN's but for the exceptions under Table PWR-6. Of Starting the rule says only that
it covers every internal reset, so it shows Reset's until READY (DEDUCED, log 88). -/
def pinColumn (d : Dev) : PinColumn :=
  match d.pw.st with
  | .off => .unpowered
  | .starting => .reset
  | .shutdown | .sleep | .gazebo => .shutdown
  | .standby | .active | .closing => .role

/-- RST_N is driven low: throughout SHUTDOWN, SLEEP and GAZEBO, and for an internal cause until the reset is released (R47). Bit 3 of the
causes is EXT, which holds the pin from outside. -/
def rstDriven (d : Dev) : Bool :=
  match d.pw.st with
  | .shutdown | .sleep | .gazebo => true
  | .starting => d.pw.held && decide (d.pw.cause ≠ 8)
  | _ => false

/-- A test pulse of TPA, or of TPB 10 ms later, lasts 200 us from multiples of 20 ms (R319, Table SAFE-4). -/
def pulseLow (d : Dev) (b : Bool) : Bool :=
  d.head && decide ((d.now.toNat + (if b then msT 10 else 0)) % msT 20 < usT 200)

/-- A scan of the aux converter is under way with a channel in mode 2 or 3 (R142, R143, Table SENS-4). -/
def vthmOn (d : Dev) : Bool :=
  d.awake && (upFrom 0 8).any (fun k => decide (2 ≤ auxMode d k)) &&
  decide (d.now.toNat % (msT 10 * regFld d R.auxCfg 6 0) < scanLen d)

/-- An output of the functional logic: on, and not interrupted by an off-test (R315, R316). -/
def outLevel (d : Dev) (o : Out) : PinState := if (outState d o).on && !(outState d o).test then .on else .off

/-- What a pin does in the role columns of Table PIN-3. A head measures its configured cells; head-only it has none. -/
def pinRole (d : Dev) (x : Hst) : Pin → PinState
  | .aux | .svc | .wake | .tapIn => .input
  | .c n => if !d.head || decide (n ≤ ncells d) then .input else .quiet
  | .shunt => if curOn d then .input else .quiet
  | .s n => if conducts d n then .on else .open'
  | .vthm => if vthmOn d then .on else .off
  | .w n => if wireOn d n && decide (2800 ≤ d.io.vwire) then .pulled else .quiet
  | .link _ => if portsClosed d then .bypass else .linked
  | .hostPort => if hostOn (d, x) then .linked else .quiet
  | .hint => if hostOn (d, x) && hint d x then .low else .released
  | .safetyIn => if d.head then .input else .quiet
  | .tpa => if !d.head || pulseLow d false then .low else .high
  | .tpb => if !d.head || pulseLow d true then .low else .high
  | .soa => outLevel d .soa
  | .sob => outLevel d .sob
  | .flt => if fltN d then .low else .released
  | .seal => .input
  | .mode | .tdo => .quiet
  | .sync => match syncMode d with
    | 1 => if syncHigh d then .high else .low
    | 2 => .input
    | _ => .pulled
  | .rst => .pulled

/-- What a pin does outside the boundary scan (R23, R47, Table PIN-3). TDO is driven in Shift-DR and Shift-IR alone, through which the TAP passes
between commands. -/
def pinState (d : Dev) (x : Hst) (p : Pin) : PinState :=
  match pinColumn d, p with
  | .role, p => pinRole d x p
  | .unpowered, .s _ => .quiet
  | .unpowered, .soa => .off
  | .unpowered, .sob => .off
  | .unpowered, .flt => .released
  | .unpowered, .hint => .released
  | _, .link _ => .bypass
  | .unpowered, _ => .quiet
  | c, .s n => if d.pw.st = .gazebo ∧ c = .shutdown then
      (match d.ba.gz with
      | some g => if gzConducts g n d.pw.entryMs then .on else .open'
      | none => .open') else .open'
  | _, .vthm => .off
  | _, .hint => .released
  | _, .safetyIn => .pulled
  | _, .tpa => .low
  | _, .tpb => .low
  | _, .soa => .off
  | _, .sob => .off
  | _, .flt => if fltN d then .low else .released
  | _, .sync => .pulled
  | _, .rst => if rstDriven d then .low else .pulled
  | .reset, .tapIn => .pulled
  | .reset, .mode => .input
  | .shutdown, .wake => .input
  | .shutdown, .seal => if d.pw.st = .shutdown then .quiet else .input
  | _, _ => .quiet

/-! ### Boundary register (R401, R402) -/

/-- Pins of the boundary chain with more than one pin to a name: the host data pins, and the two pins of each link port. -/
inductive ScanPin where
  | mode | wake | svc | sealB | sia0 | sib0 | sia1 | sib1 | hcs | hclk | sync | rst | w (n : Nat) | hdqs | hd (n : Nat) | soa | sob | flt | hint
  | tpa | tpb | sealA | driver (p : Port) | link (p : Port) (neg : Bool)
deriving DecidableEq, Repr

/-- Kinds of boundary cell. -/
inductive CellKind where
  | input | output | control | readback | receiver
deriving DecidableEq, Repr

/-- The 84 cells (Table BIST-9) in the order of R401's list; the BSDL file gives the real one (log 83). Each differential pair has the data
and the control cell of its driver and a test receiver on each pin. -/
def boundaryCells : List (ScanPin × CellKind) :=
  ([ScanPin.mode, .wake, .svc, .sealB, .sia0, .sib0, .sia1, .sib1, .hcs, .hclk].map (fun p => (p, .input))) ++
  (([ScanPin.sync, .rst] ++ (upFrom 0 4).map ScanPin.w ++ [ScanPin.hdqs] ++ (upFrom 0 8).map ScanPin.hd).flatMap
    (fun p => [(p, .input), (p, .output), (p, .control)])) ++
  ([ScanPin.soa, .sob, .flt, .hint, .tpa, .tpb, .sealA].flatMap (fun p => [(p, .output), (p, .control), (p, .readback)])) ++
  ([Port.north, Port.south].flatMap (fun p =>
    [(.driver p, .output), (.driver p, .control), (.link p false, .receiver), (.link p true, .receiver)]))

/-- The content of a pin's cell of a kind. -/
def cellOf (d : Dev) (p : ScanPin) (k : CellKind) : Bool :=
  ((boundaryCells.zip d.bi.cells).find? (fun e => decide (e.1 = (p, k)))).elim false Prod.snd

/-- What the boundary register puts on an output pin while an instruction of R402 is in force: its data where its control cell enables it
(DESIGN CHOICE, log 83: a control cell at 1 enables), high impedance else, and under HIGHZ; SOA and SOB stay off unless the service window is
open. None where the pins keep their function. -/
def scanDrive (d : Dev) (p : ScanPin) : Option PinState :=
  if !holdsPins d.bi.ir then none
  else if decide (p = .soa ∨ p = .sob) then
    some (if decide (d.bi.ir ≠ 0x04) && windowOpen d && cellOf d p .control && cellOf d p .output then .on else .off)
  else if d.bi.ir = 0x04 then some .quiet
  else if cellOf d p .control then some (if cellOf d p .output then .high else .low)
  else some .quiet

/-- TAP_UPDATE_IR (R400 to R402): the instruction takes effect; `cells` is what Update-DR has put into the boundary register since the last
command, empty where it has put nothing. Only a boundary instruction connects that register. -/
def tapUpdate (ir : Nat) (cells : List Bool) (d : Dev) : Dev :=
  let shifts (i : Nat) : Bool := decide (i ∈ [0x00, 0x01, 0x05, 0x06])
  let d := if decide (cells.length = 84) && shifts d.bi.ir then withBist (fun t => { t with cells := cells }) d else d
  setIr (tapSelect ir) d

/-- TAP_UPDATE_IR (R400 to R402). -/
def execTapUpdateIr (t : Time) (ir : Nat) (cells : List Bool) (s : State) : Host.Outcome State Fault Refusal :=
  actAt t (tapUpdate ir cells) s

end Sys2Proof.Machine
end

