-- ==== Sys2Proof/Machine/Dispatch.lean ====
section
/-! DEFINITION. One arm per command: the meaning of each (R50 to R411 by way of the opcode table). -/

namespace Sys2Proof.Machine

/-- The effect of one command on everything but the queue. -/
def exec (i : Instr) (s : State) : Host.Outcome State Fault Refusal :=
  match i with
  | .vstkPowerOn => Sys2Proof.Machine.execVstkPowerOn s
  | .supplyWarning t => Sys2Proof.Machine.execSupplyWarning t s
  | .supplyWarningClear t => Sys2Proof.Machine.execSupplyWarningClear t s
  | .supplyLowShed t => Sys2Proof.Machine.execSupplyLowShed t s
  | .shedEnd t => Sys2Proof.Machine.execShedEnd t s
  | .brownOutReset t => Sys2Proof.Machine.execBrownOutReset t s
  | .railReset t us => Sys2Proof.Machine.execRailReset t us s
  | .externalReset t ns => Sys2Proof.Machine.execExternalReset t ns s
  | .clockMonitorFault t => Sys2Proof.Machine.execClockMonitorFault t s
  | .lockstepMismatch t => Sys2Proof.Machine.execLockstepMismatch t s
  | .thermalReset t celsius => Sys2Proof.Machine.execThermalReset t celsius s
  | .sysReset t m key => Sys2Proof.Machine.execSysReset t m key s
  | .swResetExpire t => Sys2Proof.Machine.execSwResetExpire t s
  | .resetRelease env => Sys2Proof.Machine.execResetRelease env s
  | .startComplete => Sys2Proof.Machine.execStartComplete s
  | .activeIdleTimeout t => Sys2Proof.Machine.execActiveIdleTimeout t s
  | .closingComplete t r => Sys2Proof.Machine.execClosingComplete t r s
  | .wakePin t dt => Sys2Proof.Machine.execWakePin t dt s
  | .linkWake t dt nth sth => Sys2Proof.Machine.execLinkWake t dt nth sth s
  | .wakeTimerExpire dt => Sys2Proof.Machine.execWakeTimerExpire dt s
  | .sleepCmpSample dt mv => Sys2Proof.Machine.execSleepCmpSample dt mv s
  | .sleepCmpConfirm mv => Sys2Proof.Machine.execSleepCmpConfirm mv s
  | .sealTest t dt ohms => Sys2Proof.Machine.execSealTest t dt ohms s
  | .gazeboCycle dt g => Sys2Proof.Machine.execGazeboCycle dt g s
  | .laneGridResult t g own other => Sys2Proof.Machine.execLaneGridResult t g own other s
  | .requestedInstant t req a b cur => Sys2Proof.Machine.execRequestedInstant t req a b cur s
  | .syncInputEdge t => Sys2Proof.Machine.execSyncInputEdge t s
  | .comparatorTripConfirm t cell ov samples uv standIn => Sys2Proof.Machine.execComparatorTripConfirm t cell ov samples uv standIn s
  | .comparatorTripRelease t cell ov samples uv => Sys2Proof.Machine.execComparatorTripRelease t cell ov samples uv s
  | .openWireTest t tap dk dk1 => Sys2Proof.Machine.execOpenWireTest t tap dk dk1 s
  | .stepTestComplete t j e ma => Sys2Proof.Machine.execStepTestComplete t j e ma s
  | .balPwmEdge t j e ma => Sys2Proof.Machine.execBalPwmEdge t j e ma s
  | .trackingGap t j => Sys2Proof.Machine.execTrackingGap t j s
  | .reliefSlotStart t slot r => Sys2Proof.Machine.execReliefSlotStart t slot r s
  | .currentGridResult t a b raw => Sys2Proof.Machine.execCurrentGridResult t a b raw s
  | .currentLimitTrip t pos raw => Sys2Proof.Machine.execCurrentLimitTrip t pos raw s
  | .currentLimitRelease t pos raw => Sys2Proof.Machine.execCurrentLimitRelease t pos raw s
  | .currentFrameSend t m0 samples => Sys2Proof.Machine.execCurrentFrameSend t m0 samples s
  | .currentSamplesRx t src f => Sys2Proof.Machine.execCurrentSamplesRx t src f s
  | .auxScan t codes mdie cdie => Sys2Proof.Machine.execAuxScan t codes mdie cdie s
  | .wirePresenceSearch t p r => Sys2Proof.Machine.execWirePresenceSearch t p r s
  | .wireTransaction t p r => Sys2Proof.Machine.execWireTransaction t p r s
  | .wireSpuEnd t p => Sys2Proof.Machine.execWireSpuEnd t p s
  | .wireSpuOverload t p => Sys2Proof.Machine.execWireSpuOverload t p s
  | .engineCheckpoint t engines samples => Sys2Proof.Machine.execEngineCheckpoint t engines samples s
  | .engineCheckpointMissed t k cause => Sys2Proof.Machine.execEngineCheckpointMissed t k cause s
  | .rebalanceReplayDone t cell samples => Sys2Proof.Machine.execRebalanceReplayDone t cell samples s
  | .trackerUpdate t samples load => Sys2Proof.Machine.execTrackerUpdate t samples load s
  | .trackerStateSave t => Sys2Proof.Machine.execTrackerStateSave t s
  | .impedanceStart t h => Sys2Proof.Machine.execImpedanceStart t h s
  | .excitationPhase t h point odd sub => Sys2Proof.Machine.execExcitationPhase t h point odd sub s
  | .impedanceEnd t h lines spectra samples => Sys2Proof.Machine.execImpedanceEnd t h lines spectra samples s
  | .estimateEnd t h spectra => Sys2Proof.Machine.execEstimateEnd t h spectra s
  | .thermalManagerUpdate t r => Sys2Proof.Machine.execThermalManagerUpdate t r s
  | .balTargetCheck t a => Sys2Proof.Machine.execBalTargetCheck t a s
  | .balOvercurrent t j ma us => Sys2Proof.Machine.execBalOvercurrent t j ma us s
  | .balHoldExpire t j => Sys2Proof.Machine.execBalHoldExpire t j s
  | .balTlimitExpire t j => Sys2Proof.Machine.execBalTlimitExpire t j s
  | .burstRx t p groups => Sys2Proof.Machine.execBurstRx t p groups s
  | .frameRx t p groups => Sys2Proof.Machine.execFrameRx t p groups s
  | .lineReclaim t => Sys2Proof.Machine.execLineReclaim t s
  | .trainRateTimeout t p groups => Sys2Proof.Machine.execTrainRateTimeout t p groups s
  | .linkUp t p ex => Sys2Proof.Machine.execLinkUp t p ex s
  | .trainRetry t p => Sys2Proof.Machine.execTrainRetry t p s
  | .hopDownTimeout t p => Sys2Proof.Machine.execHopDownTimeout t p s
  | .linkRetrain t v => Sys2Proof.Machine.execLinkRetrain t v s
  | .delayExchange t p e => Sys2Proof.Machine.execDelayExchange t p e s
  | .faultToneRepeat t => Sys2Proof.Machine.execFaultToneRepeat t s
  | .toneRx t p => Sys2Proof.Machine.execToneRx t p s
  | .toneConfirm t p => Sys2Proof.Machine.execToneConfirm t p s
  | .toneEnd t p => Sys2Proof.Machine.execToneEnd t p s
  | .toneHoldoffEnd t => Sys2Proof.Machine.execToneHoldoffEnd t s
  | .toneLineRetake t p => Sys2Proof.Machine.execToneLineRetake t p s
  | .wakeStreamOnUp t p => Sys2Proof.Machine.execWakeStreamOnUp t p s
  | .wakeStreamEnd t => Sys2Proof.Machine.execWakeStreamEnd t s
  | .enumRx t p e => Sys2Proof.Machine.execEnumRx t p e s
  | .enumTimeout t => Sys2Proof.Machine.execEnumTimeout t s
  | .beaconSend t => Sys2Proof.Machine.execBeaconSend t s
  | .beaconRx t p b => Sys2Proof.Machine.execBeaconRx t p b s
  | .timebaseHoldover t => Sys2Proof.Machine.execTimebaseHoldover t s
  | .timebaseLost t => Sys2Proof.Machine.execTimebaseLost t s
  | .heartbeatSend t => Sys2Proof.Machine.execHeartbeatSend t s
  | .heartbeatRx t p hb => Sys2Proof.Machine.execHeartbeatRx t p hb s
  | .commitFrameRx t apply mask h => Sys2Proof.Machine.execCommitFrameRx t apply mask h s
  | .commitApply t => Sys2Proof.Machine.execCommitApply t s
  | .sweepTriggerRx t p tr => Sys2Proof.Machine.execSweepTriggerRx t p tr s
  | .sweepHoldExpire t h => Sys2Proof.Machine.execSweepHoldExpire t h s
  | .sweepDeadline t h => Sys2Proof.Machine.execSweepDeadline t h s
  | .breakDetectTimeout t => Sys2Proof.Machine.execBreakDetectTimeout t s
  | .castle t => Sys2Proof.Machine.execCastle t s
  | .ringRestore t => Sys2Proof.Machine.execRingRestore t s
  | .requestRx t p r => Sys2Proof.Machine.execRequestRx t p r s
  | .responseRx t src r => Sys2Proof.Machine.execResponseRx t src r s
  | .reqAcceptTimeout t h => Sys2Proof.Machine.execReqAcceptTimeout t h s
  | .eventRx t e p => Sys2Proof.Machine.execEventRx t e p s
  | .bulkRx t h off data => Sys2Proof.Machine.execBulkRx t h off data s
  | .streamRecord t h => Sys2Proof.Machine.execStreamRecord t h s
  | .streamFrameFlush t h => Sys2Proof.Machine.execStreamFrameFlush t h s
  | .streamFrameRx t f => Sys2Proof.Machine.execStreamFrameRx t f s
  | .readStatus x => Sys2Proof.Machine.execReadStatus x s
  | .readId n ext => Sys2Proof.Machine.execReadId n ext s
  | .read addr n ext => Sys2Proof.Machine.execRead addr n ext s
  | .write t addr data ext => Sys2Proof.Machine.execWrite t addr data ext s
  | .enterOctal => Sys2Proof.Machine.execEnterOctal s
  | .exitOctal ext => Sys2Proof.Machine.execExitOctal ext s
  | .hcsLowIdle => Sys2Proof.Machine.execHcsLowIdle s
  | .sqDoorbell t pair tail => Sys2Proof.Machine.execSqDoorbell t pair tail s
  | .commandDispatch t h => Sys2Proof.Machine.execCommandDispatch t h s
  | .cqHeadDoorbell t pair head => Sys2Proof.Machine.execCqHeadDoorbell t pair head s
  | .eqHeadDoorbell t head => Sys2Proof.Machine.execEqHeadDoorbell t head s
  | .commandDeadline t h => Sys2Proof.Machine.execCommandDeadline t h s
  | .intTimeExpire t ring => Sys2Proof.Machine.execIntTimeExpire t ring s
  | .regRead t h d => Sys2Proof.Machine.execRegRead t h d s
  | .regWrite t h d => Sys2Proof.Machine.execRegWrite t h d s
  | .regModify t h d => Sys2Proof.Machine.execRegModify t h d s
  | .commit t h d => Sys2Proof.Machine.execCommit t h d s
  | .sweep t h d => Sys2Proof.Machine.execSweep t h d s
  | .streamStart t h d => Sys2Proof.Machine.execStreamStart t h d s
  | .streamStop t h d => Sys2Proof.Machine.execStreamStop t h d s
  | .balPlan t h d => Sys2Proof.Machine.execBalPlan t h d s
  | .balStop t h d => Sys2Proof.Machine.execBalStop t h d s
  | .impedance t h d => Sys2Proof.Machine.execImpedance t h d s
  | .estimate t h d => Sys2Proof.Machine.execEstimate t h d s
  | .modelLoad t h d => Sys2Proof.Machine.execModelLoad t h d s
  | .histRead t h d => Sys2Proof.Machine.execHistRead t h d s
  | .histMark t h d => Sys2Proof.Machine.execHistMark t h d s
  | .calRead t h d => Sys2Proof.Machine.execCalRead t h d s
  | .calStore t h d => Sys2Proof.Machine.execCalStore t h d s
  | .calUser t h d => Sys2Proof.Machine.execCalUser t h d s
  | .calUserEnd t r => Sys2Proof.Machine.execCalUserEnd t r s
  | .wireXfer t h d => Sys2Proof.Machine.execWireXfer t h d s
  | .selftest t h d r => Sys2Proof.Machine.execSelftest t h d r s
  | .repair t h d bad => Sys2Proof.Machine.execRepair t h d bad s
  | .ringEnum t h d => Sys2Proof.Machine.execRingEnum t h d s
  | .ringStatus t h d => Sys2Proof.Machine.execRingStatus t h d s
  | .power t h d => Sys2Proof.Machine.execPower t h d s
  | .fwUpdate t h d => Sys2Proof.Machine.execFwUpdate t h d s
  | .echo t h d => Sys2Proof.Machine.execEcho t h d s
  | .safetyCycle t serviced rbA rbB vstk => Sys2Proof.Machine.execSafetyCycle t serviced rbA rbB vstk s
  | .supervisorWatchdogExpire t => Sys2Proof.Machine.execSupervisorWatchdogExpire t s
  | .safeReset t key => Sys2Proof.Machine.execSafeReset t key s
  | .safeResetWindowEnd t => Sys2Proof.Machine.execSafeResetWindowEnd t s
  | .outputOn t a b => Sys2Proof.Machine.execOutputOn t a b s
  | .outputOff t a b => Sys2Proof.Machine.execOutputOff t a b s
  | .outputOffTest t o => Sys2Proof.Machine.execOutputOffTest t o s
  | .outputOffTestEnd t o mv => Sys2Proof.Machine.execOutputOffTestEnd t o mv s
  | .outputStuck t o mv us => Sys2Proof.Machine.execOutputStuck t o mv us s
  | .outputOverload t o limit mv vstk us => Sys2Proof.Machine.execOutputOverload t o limit mv vstk us s
  | .testPulseCycle t before during => Sys2Proof.Machine.execTestPulseCycle t before during s
  | .inputFilterChange t ch level begun => Sys2Proof.Machine.execInputFilterChange t ch level begun s
  | .registerWrite t m off size v => Sys2Proof.Machine.execRegisterWrite t m off size v s
  | .aliasWrite t addr size v => Sys2Proof.Machine.execAliasWrite t addr size v s
  | .protCommit t m v => Sys2Proof.Machine.execProtCommit t m v s
  | .postedWriteLand t aon => Sys2Proof.Machine.execPostedWriteLand t aon s
  | .parityScan t x => Sys2Proof.Machine.execParityScan t x s
  | .protCfgStore t m key => Sys2Proof.Machine.execProtCfgStore t m key s
  | .serviceWindowOpen t samples => Sys2Proof.Machine.execServiceWindowOpen t samples s
  | .serviceWindowTimeout t => Sys2Proof.Machine.execServiceWindowTimeout t s
  | .protSvcClose t v => Sys2Proof.Machine.execProtSvcClose t v s
  | .svcHeadTimeout t => Sys2Proof.Machine.execSvcHeadTimeout t s
  | .bucketLeak t src inst => Sys2Proof.Machine.execBucketLeak t src inst s
  | .chkData n bytes v => Sys2Proof.Machine.execChkData n bytes v s
  | .chkRestart n => Sys2Proof.Machine.execChkRestart n s
  | .chkCompare t n => Sys2Proof.Machine.execChkCompare t n s
  | .chkAlvSync n => Sys2Proof.Machine.execChkAlvSync n s
  | .chkAlv t n v => Sys2Proof.Machine.execChkAlv t n v s
  | .sramScrub t mem addr err reader => Sys2Proof.Machine.execSramScrub t mem addr err reader s
  | .nvSweepSector t found => Sys2Proof.Machine.execNvSweepSector t found s
  | .nvmOperationDone t op x => Sys2Proof.Machine.execNvmOperationDone t op x s
  | .lifetimeRecord t => Sys2Proof.Machine.execLifetimeRecord t s
  | .summaryCheckpoint t => Sys2Proof.Machine.execSummaryCheckpoint t s
  | .summaryClose t => Sys2Proof.Machine.execSummaryClose t s
  | .laneStageTest t g cell spareOk stageOk => Sys2Proof.Machine.execLaneStageTest t g cell spareOk stageOk s
  | .cmpGroupTest t k pairs => Sys2Proof.Machine.execCmpGroupTest t k pairs s
  | .tapReset t => Sys2Proof.Machine.execTapReset t s
  | .tapUpdateIr t ir cells => Sys2Proof.Machine.execTapUpdateIr t ir cells s
  | .clockLock t locked => Sys2Proof.Machine.execClockLock t locked s
  | .buckDropout t => Sys2Proof.Machine.execBuckDropout t s
  | .buckDropoutEnd t => Sys2Proof.Machine.execBuckDropoutEnd t s
  | .powerAckTimeout t => Sys2Proof.Machine.execPowerAckTimeout t s
  | .commitAnswerTimeout t h => Sys2Proof.Machine.execCommitAnswerTimeout t h s
  | .responseHoldExpire t h => Sys2Proof.Machine.execResponseHoldExpire t h s
  | .faultToneBurstEnd t => Sys2Proof.Machine.execFaultToneBurstEnd t s
  | .trainListenRate t p => Sys2Proof.Machine.execTrainListenRate t p s
  | .nvSweepStart t => Sys2Proof.Machine.execNvSweepStart t s

end Sys2Proof.Machine
end

