-- ==== Sys2Proof/Safety.lean ====
section
/-! DEFINITION. What counts as a sound state and a safe run of the TM3264, in the terms that statements use. -/

namespace Sys2Proof.Machine

/-- The device's sparse maps are in canonical form: keys strictly rising, no entry equal to what an unlisted key reads as. -/
def Dev.canonical (d : Dev) : Bool := mwf regReset d.regs && mwf regReset d.shad

/-- The host window is in canonical form. -/
def Hst.canonical (x : Hst) : Bool := mwf winDefault x.win

/-- The maps of a state are in canonical form, so that equal contents are equal data. -/
def State.canonical (s : State) : Bool := s.dev.canonical && s.hst.canonical

/-- Both safety outputs are off. -/
def Dev.outputsOff (d : Dev) : Bool := !d.sf.outA.on && !d.sf.outB.on

/-- A run of the block: the commands of the queue, at most n steps, without a fault or a refusal. -/
def safeRun : Nat → State → Bool
  | 0, _ => true
  | n + 1, s =>
    match step s with
    | .next s' => safeRun n s'
    | .fault _ => false
    | .refused _ => false

/-- Nothing is left over from an earlier command: no event and no completion waits to be posted. Every command leaves the
machine so. -/
def Settled (s : State) : Prop := s.dev.ev.out = [] ∧ s.dev.ex.done = []

/-! ### Safety functions -/

/-- The permit of an output, condition by condition (R314). -/
def Permit (d : Dev) (o : Out) : Prop :=
  (d.head = true ∧ d.awake = true) ∧
  regBit d R.safeOutCfg (outIdx o) = true ∧
  (∀ c ∈ d.sf.causes, (c.1 = 10 ∧ routedTo d (c.2 / 2) o = false) ∨ (c.1 = 11 ∧ routedTo d 0 o = false) ∨
    (c.1 = 12 ∧ routedTo d 1 o = false) ∨ (c.1 = 16 ∧ c.2 ≠ outIdx o)) ∧
  (∀ p < 2, routedTo d p o = true → demand d p = false ∧ (pairIn d p).pend = false) ∧
  d.rg.enumDone = true ∧
  (∀ r ∈ d.rg.recs, r.1 = 0 ∨ r.2.low = true ∨ r.2.seen = true) ∧
  hwPermit d = true

/-- An output that has been switched off at a time. -/
def OutState.off (now : Time) (x : OutState) : OutState :=
  { x with
    on := false, test := false, discard := false, offAt := if x.on then now else x.offAt
    enable := if x.test then 1 - x.enable else x.enable }

/-- Outputs that a latch of a bit for an item switches off in the head (Table SAFE-1). -/
def latchOff (d : Dev) (b item : Nat) : Bool × Bool :=
  if b = 10 then routed d (item / 2) else if b = 11 then routed d 0 else if b = 12 then routed d 1
  else if b = 16 then (decide (item = 0), decide (item ≠ 0)) else (true, true)

/-- The safety state with a new latch, at a position and a time, before the outputs react (R311). -/
def Safe.latched (x : Safe) (b item pos : Nat) (t : Time) : Safe :=
  { x with
    causes := x.causes.filter (fun c => c ≠ (b, item)) ++ [(b, item)]
    present := x.present ++ [(b, item)]
    armedSet := x.armedSet.filter (fun c => c ≠ (b, item))
    lastBit := b
    lastPos := pos
    lastTime := t }

/-- The safety state with the outputs named switched off at a time. -/
def Safe.dropped (x : Safe) (off : Bool × Bool) (now : Time) : Safe :=
  { x with outA := if off.1 then x.outA.off now else x.outA, outB := if off.2 then x.outB.off now else x.outB }

/-- The permanent rule of the outputs: one is on only in STANDBY or ACTIVE (R55, R309). -/
def Dev.outputsAwake (d : Dev) : Bool := d.awake || d.outputsOff

/-! ### Frames -/

/-- The parts of the device's state besides its registers. `mem` is the memories and the non-volatile records but the event log
and the open summary, which are `hist`; `cyc` is the record of the present clock cycle (R10); `north` and `south` are the ports but their queues, which are `queues`. -/
inductive Part where
  | now | free | shad | cyc | pw | pr | sf | mem | hist | ev | north | south | queues | tn | rg | tb | sw | ex | me | ca | ba | io
  | ck | en | bi
deriving DecidableEq, Repr

/-- The memories without the event log, what waits to be written into it, and the open summary. -/
def Mem.still (m : Mem) : Mem :=
  { m with sectors := [], lastHash := [], nextSeq := 0, recAt := 0, overBudget := false, due := NvDue.none, summ := Summary.init 0 0 0,
           bad := badOutside 0x334000 0x200000 m.bad }

/-- The event log with the words of it that are uncorrectable, what waits to be written into it, and the open summary. -/
def Mem.hist (m : Mem) : List LogSector × List Byte × Nat × Time × Bool × NvDue × Summary × List (Nat × Nat) :=
  (m.sectors, m.lastHash, m.nextSeq, m.recAt, m.overBudget, m.due, m.summ,
    m.bad.filter (fun e => decide (e.1 = 0x50) && decide (0x334000 ≤ 8 * e.2) && decide (8 * e.2 < 0x534000)))

/-- A port without its queue. -/
def LinkPort.still (x : LinkPort) : LinkPort := { x with queue := [] }

/-- A part is the same in two devices. -/
def Part.same (p : Part) (a b : Dev) : Prop :=
  match p with
  | .now => b.now = a.now
  | .free => b.free = a.free
  | .shad => b.shad = a.shad
  | .cyc => b.cyc = a.cyc
  | .pw => b.pw = a.pw
  | .pr => b.pr = a.pr
  | .sf => b.sf = a.sf
  | .mem => b.mm.still = a.mm.still
  | .hist => b.mm.hist = a.mm.hist
  | .ev => b.ev = a.ev
  | .north => b.ln.still = a.ln.still
  | .south => b.ls.still = a.ls.still
  | .queues => b.ln.queue = a.ln.queue ∧ b.ls.queue = a.ls.queue
  | .tn => b.tn = a.tn
  | .rg => b.rg = a.rg
  | .tb => b.tb = a.tb
  | .sw => b.sw = a.sw
  | .ex => b.ex = a.ex
  | .me => b.me = a.me
  | .ca => b.ca = a.ca
  | .ba => b.ba = a.ba
  | .io => b.io = a.io
  | .ck => b.ck = a.ck
  | .en => b.en = a.en
  | .bi => b.bi = a.bi

/-- From device a to device b only the parts `ps` and the registers `rs` may have changed. -/
def ChangesOnly (ps : List Part) (rs : List Nat) (a b : Dev) : Prop :=
  (∀ p, p ∉ ps → p.same a b) ∧ ∀ r, r ∉ rs → reg b r = reg a r

/-- The registers that a latch may change: counters. -/
def latchRegs : List Nat := [R.ringCnt, R.safeCnt]

/-- What posting an event may change (R357, R371, R292): the counters it raises are noted in the clock cycle's record (R10). -/
def evParts : List Part := [.ev, .hist, .queues, .cyc]

/-- The parts that a latch may change. -/
def latchParts : List Part := .sf :: .tn :: .north :: .south :: evParts

/-- The counters that posting an event may change: frames and events that found no room. -/
def evRegs : List Nat := [R.ringCnt, R.hostEvtLost]

/-- What ring time changes where nothing falls due: the clock and its cycle, lifetime and running times, conduction and the time at the ACTIVE
floor, a CAL_USER's precondition, and the ports of a closing. -/
def timeParts : List Part := [.now, .cyc, .mem, .hist, .pw, .ba, .ca, .north, .south, .queues]

/-- What falls due as ring time passes may change: a relief's steps and their comparisons (Table CAL-3), the tests of the C-die
(R392 to R396), the fuse words of a REPAIR (R399), with the latches and events that these cause. -/
def dueParts : List Part :=
  [.free, .shad, .cyc, .sf, .hist, .ev, .north, .south, .queues, .tn, .ex, .me, .ca, .en, .bi]

/-- The parts that ring time may change. -/
def tickParts : List Part := timeParts ++ dueParts

/-- Nothing falls due by ring time t. -/
def QuietTill (t : Time) (d : Dev) : Prop :=
  match d.ca.todo with
  | [] => True
  | x :: _ => t.toNat < x.due.toNat

/-- What has fallen due so far leaves no event and no completion to post. -/
def Calm (d : Dev) : Prop := d.ev.out = [] ∧ d.ex.done = []

/-- From host port a to host port b only the window, with the note of what the device wrote there, and the event ring may have changed: events were
posted. -/
def HostEvents (a b : Hst) : Prop := b = { a with win := b.win, eq := b.eq, devAt := b.devAt, devWrote := b.devWrote }

/-- A command ends at this device with a status and a result (R251, R289): in the head the completion is posted after the events of the
command; a stack device holds the result, and the handle is no longer in progress. -/
def Finished (s u : State) (h status : Nat) (res : List Byte) : Prop :=
  if s.dev.head then ∃ x, HostEvents s.hst x ∧ u.hst = answer 0 h status res u.dev x
  else u.hst = s.hst ∧ ((∃ c ∈ s.dev.ex.cmds, c.h = h) →
    ⟨h, status, res, u.dev.now⟩ ∈ u.dev.ex.results ∧ ∀ c ∈ u.dev.ex.cmds, c.h ≠ h)

/-! ### Link ports -/

/-- The part that a port is. -/
def portPart : Port → Part
  | .north => .north
  | .south => .south

/-- From device a to device b an UP hop of port p has gone down: it trains at the fastest rate allowed, the frames that waited are held,
the outstanding one first, it is counted, and the head takes the bound of the break (R236, R237, R268). -/
def WentDown (a b : Dev) (p : Port) : Prop :=
  (port b p).st = .training ∧ (port b p).trial = rateLimit a p ∧ (port b p).cycles = 0 ∧ (port b p).owns b.now = false ∧
  (port b p).out = none ∧ (port b p).retries = 0 ∧ (port b p).dly = [] ∧
  (∃ evs, (port b p).queue = (port a p).out.toList ++ (port a p).queue ++ evs) ∧
  level b 32 (portIdx p) = satNat 255 (level a 32 (portIdx p) + 1) ∧
  (a.head = true → b.rg.brk = true ∧
    (match p with
    | .north => b.rg.lo = 0
    | .south => b.rg.hi = a.rg.n + 1))

/-- Port p of device a has sent a burst that began at `start`, and is b: the answer due and the outstanding frame where the peer's burst or the tone
brings it again (no frame while it waits for the peer's burst), else the first frame of the lowest class that waits, which is then outstanding; a
beacon's frame has a TMARK before it and departs with its time. This end owns the line until the end of its TURN (R222 to R225, R233, R256). -/
def BurstSent (a : Dev) (p : Port) (start : Time) (b : LinkPort) : Prop :=
  let x := port a p
  let ls := linkState a p
  let mark := start.toNat + charTime x.rate * (burstHead ls x.ackDue).length
  b.ackDue = none ∧ b.ownFrom = start ∧
  (x.out.isSome = true → b.out = x.out) ∧
  (x.out = none → x.queue = [] → b.out = none) ∧
  (x.out = none → x.queue ≠ [] → ∃ f ∈ x.queue, b.out = some f ∧ ∀ g ∈ x.queue, frameClass f.typ ≤ frameClass g.typ) ∧
  ∃ (m : Burst) (g : Option Frame), g = (if x.out.isSome = true ∧ x.again = false ∧ x.cut = false then none else b.out) ∧
    b.sent = some m ∧ m.ls = ls ∧ m.ans = x.ackDue ∧ m.aborted = false ∧ m.train = false ∧
    (m.mark = true ↔ g.map Frame.typ = some 0x07) ∧
    m.frame = (g.map (departing a.head mark)).map (frameBytes p x.alive) ∧
    b.ownTo = start + BitVec.ofNat 64 (charTime x.rate * (burstSyms m).length)

/-- Port p of device a, which trains, has sent a training burst at the rate it tries, SYNC, 60 TRAIN and TURN, that began at `start`, and is b; its
63 characters count for the check once it has locked (R236). -/
def TrainSent (a : Dev) (p : Port) (start : Time) (b : LinkPort) : Prop :=
  let x := port a p
  b.ownFrom = start ∧ b.ownTo = start + BitVec.ofNat 64 (charTime x.trial * 63) ∧
  b.txN = x.txN + (if x.locked = true then 63 else 0) ∧ b.out = x.out ∧ b.alive = x.alive ∧
  ∃ m : Burst, b.sent = some m ∧ burstSyms m = [.ctl .sync, .data (BitVec.ofNat 8 m.ls)] ++ List.replicate 60 (.ctl .train) ++ [.ctl .turn] ∧
    (x.trial < 4 → m.ls % 4 = x.trial)

/-- The rate that port p of device a tries has failed, and the device is b: the next lower rate; when each rate from the limit down has failed a
new cycle, and after three cycles BROKEN, counted (R236). -/
def RateFailed (a b : Dev) (p : Port) : Prop :=
  let x := port a p
  let y := x.tryRate (if x.trial < 2 then x.trial + 1 else startRate a p) a.now
  (port b p).still = LinkPort.still (if x.tries + 1 < 3 - startRate a p then { y with tries := x.tries + 1 }
    else if x.cycles < 2 then { y with tries := 0, cycles := x.cycles + 1 } else { y with st := .broken, cycles := 3 }) ∧
  level b 33 (portIdx p) = (if x.tries + 1 < 3 - startRate a p ∨ x.cycles < 2 then level a 33 (portIdx p)
    else satNat 255 (level a 33 (portIdx p) + 1))

/-- The snapshot of a commit of this device's own that is made now: none while it waits for a posted write, else the words of its groups and the
registers at fault among them (R337, R338, R342). -/
def madeSnap (d : Dev) (x : Hst) (c : PendCommit) : Option Snap :=
  if c.waitM = true ∨ c.waitA = true then none else some ⟨localWords d c, snapFaults c.mask (localWords d c) (d, x)⟩

/-- From device a with host port x to device b commit c waits, with its snapshot, which raises the configuration faults of what it found at fault;
without a fault nothing else changes (R337 to R339, R342). -/
def CommitMade (a b : Dev) (x : Hst) (c : PendCommit) : Prop :=
  b.pr.commits = a.pr.commits ++ [{ c with snap := madeSnap a x c }] ∧
  (∀ w, madeSnap a x c = some w → ∀ r ∈ w.bad, r.2 ≠ 1 → ∃ f ∈ b.pr.cfgFaults, f.1 = r.1 ∧ f.2.1 = r.2) ∧
  ((∀ w, madeSnap a x c = some w → w.bad = []) →
    b.pr = { a.pr with commits := a.pr.commits ++ [{ c with snap := madeSnap a x c }] } ∧ ChangesOnly [.pr] [] a b) ∧
  ChangesOnly (.pr :: evParts) (R.protErrCnt :: evRegs) a b

/-- What is wrong with the bytes of a frame without a code violation: 2 its header, 1 its CRC, 0 nothing (R229, R245). -/
def frameCause (b : List Byte) : Nat := if headerOk b = false then 2 else if crcOk b = false then 1 else 0

/-- Code violations among characters (R222). -/
def badCount (l : List Sym) : Nat := (l.filter (fun c => decide (c = .bad))).length

/-- From device a to device b a frame has joined the queue of port p, or found 32 there and was dropped and counted (R248). -/
def Queued (a b : Dev) (p : Port) (f : Frame) : Prop :=
  ((port a p).queue.length < 32 → (port b p).queue = (port a p).queue ++ [f]) ∧
  (32 ≤ (port a p).queue.length → (port b p).queue = (port a p).queue ∧
    regFld b R.ringCnt 15 0 = satNat 65535 (regFld a R.ringCnt 15 0 + 1))

/-- From device a to device b a frame that came by port p has gone on by the other port: into the burst that this port is sending where its line
was this end's as the header came and no frame had begun, within 0.4 us of it, else into its queue (R231, R248). -/
def PassedOn (a b : Dev) (p : Port) (f : Frame) : Prop :=
  let q := otherPort p
  (cutThrough a p q (port a p).rxTh.toNat = false → Queued a b q f) ∧
  (cutThrough a p q (port a p).rxTh.toNat = true → (port b q).queue = (port a q).queue ∧ (port b q).out = some f ∧
    ∃ (m : Burst) (k : Nat), (port b q).sent = some m ∧ k ≤ 80 ∧ m.aborted = false ∧
      m.frame = some (frameBytes q (port a q).alive (departing a.head ((port a p).rxTh.toNat + k) f)))

/-- The parts that passing a frame on may change, beside the queues. -/
def passParts : List Part := [.north, .south, .free]

/-- A beacon's time in 0.125 ns as its TMARK arrives by port p: T0, CORR and the hop's delay (R257). -/
def beaconTime (d : Dev) (p : Port) (b : Beacon) : Nat := b.t0.toNat * 40 + b.corr + delayEighths (port d p)

/-- A beacon's time less ring time, in 0.125 ns, as a stack device that takes it by port p at t finds it (R257). -/
def beaconError (d : Dev) (t : Time) (p : Port) (b : Beacon) : Int :=
  (beaconTime d p b : Int) - ((t.toNat * 40 + 5 * b.frac : Nat) : Int)

/-! ### Registers -/

/-- May a master's write act on a register: it is one for any master, or a dangerous one that this master may write now (R335)? -/
def WriteAllowed (m : Master) (r : RegRow) (d : Dev) : Prop := r.priv = .any ∨ (r.priv = .dangerous ∧ dangerousOk m d = true)

/-- NCELLS is at most 32, and a commit that waits with a word of MEAS_CELLS beyond that has its block among those at fault (R65, R338). -/
def Dev.cellsLegal (d : Dev) : Prop :=
  ncells d ≤ 32 ∧ ∀ c ∈ d.pr.commits, ∀ x, c.snap = some x → ∀ e ∈ x.words, e.1 = R.measCells →
    fld e.2 5 0 ≤ 32 ∨ blockNum R.measCells ∈ x.bad.map (fun r => blockNum r.1)

end Sys2Proof.Machine
end

