-- ==== Sys2Proof/Certificates/Slice0/Obligations.lean ====
section
/-! DEFINITION. What is stated of the model, for the provers: a step, reset, every family of commands and every kind of state. -/

open Sys2Proof Sys2Proof.Machine

/-! ### The machine -/

/-- A step takes the command at the front of the queue and runs it with the queue's rest. -/
def Obligations.StepRunsFrontCommand : Prop :=
  ∀ (s : State) (c : Instr) (rest : List Instr), s.pending = c :: rest → step s = exec c { s with pending := rest }

/-- Every command answers a next state, which keeps the queue and leaves nothing to post; on an empty queue a step answers the same state, which is
the model's choice (log 2). -/
def Obligations.EveryCommandAnswers : Prop :=
  (∀ (c : Instr) (s : State), ∃ u, exec c s = .next u ∧ u.pending = s.pending ∧ Settled u) ∧
  ∀ s : State, s.pending = [] → step s = .next s

/-- The host window keeps its canonical form: in every step from every state. -/
def Obligations.StepKeepsHostWindow : Prop :=
  ∀ s u : State, s.hst.canonical = true → step s = .next u → u.hst.canonical = true

/-- The registers and shadows keep their canonical form: in every step from every state. -/
def Obligations.StepKeepsRegisterMaps : Prop :=
  ∀ s u : State, s.dev.canonical = true → step s = .next u → u.dev.canonical = true

/-- An output is on only in STANDBY or ACTIVE: kept by every step from every state (R55, R309). -/
def Obligations.StepKeepsOutputsOffUnlessAwake : Prop :=
  ∀ s u : State, s.dev.outputsAwake = true → step s = .next u → u.dev.outputsAwake = true

/-- The state after reset: every register reads its reset value, the maps are canonical, the outputs are off, no command waits
and nothing is left to post. That it is the moment of power-on is the model's choice (log 5). -/
def Obligations.ResetState : Prop :=
  (∀ off : Nat, reg State.reset.dev off = regReset off ∧ shadow State.reset.dev off = regReset off) ∧
  State.reset.canonical = true ∧ State.reset.dev.outputsAwake = true ∧ Settled State.reset ∧ State.reset.pending = [] ∧
  State.reset.dev.pw.st = .starting ∧ State.reset.dev.running = false

/-- The passing of ring time: the clock never runs back, lifetime grows with it, and only parts that follow time change; where nothing falls due
no register changes, and no more than the clock, lifetime and running times, and at 2.0 ms of a closing the ports. That a command brings
the clock to its time is the model's choice (log 3). -/
def Obligations.RingTimePasses : Prop :=
  ∀ (t : Time) (d : Dev),
    (tick t d).now.toNat = max d.now.toNat t.toNat ∧
    (tick t d).mm.life * lsbPerSec + (tick t d).mm.sub = d.mm.life * lsbPerSec + d.mm.sub + (t.toNat - d.now.toNat) ∧
    (tick t d).pw.st = d.pw.st ∧ (∀ p, p ∉ tickParts → p.same d (tick t d)) ∧
    (QuietTill t d → ChangesOnly timeParts [] d (tick t d) ∧
      (d.pw.st ≠ .closing → (tick t d).ln = d.ln ∧ (tick t d).ls = d.ls)) ∧
    (d.pw.st = .closing → msT 2 ≤ since d.pw.closeAt (tick t d).now →
      (tick t d).ln = LinkPort.init ∧ (tick t d).ls = LinkPort.init)

/-! ### Safety outputs and inputs (file 11) -/

/-- The permit is the list of R314, and OUTPUT_ON switches the outputs on whose permit holds; one whose permit does not hold stays off, and
an event counts. Only a CAL_USER of mode 0x1 in the head's hands can end by it (R126, R314). -/
def Obligations.OutputOnNeedsPermit : Prop :=
  (∀ (d : Dev) (o : Out), unmet d o = 0 ↔ Permit d o) ∧
  ∀ (s : State) (t : Time) (a b : Bool) (d : Dev), d = tick t s.dev → d.awake = true → d.head = true → Calm d →
    ((a = true → Permit d .soa) → (b = true → Permit d .sob) →
      ∃ u, exec (.outputOn t a b) s = .next u ∧
        u.dev.sf = { d.sf with
          outA := if a && !d.sf.outA.on then
            { d.sf.outA with on := true, rb := true, low := false, test := false, discard := false, onAt := d.now }
            else d.sf.outA
          outB := if b && !d.sf.outB.on then
            { d.sf.outB with on := true, rb := true, low := false, test := false, discard := false, onAt := d.now }
            else d.sf.outB } ∧
        ChangesOnly [.sf, .ca, .free] [] d u.dev ∧
        ((∀ x, d.ca.user = some x → x.mode ≠ 1) → u.dev.ca = d.ca) ∧
        ((∀ c ∈ s.hst.cmds, c.sent = true → userOffset c = false) → u.hst = s.hst ∧ u.dev.free = d.free)) ∧
    (a = true → d.sf.outA.on = false → ¬ Permit d .soa → b = false →
      ∃ u, exec (.outputOn t a b) s = .next u ∧ u.dev.sf = d.sf ∧
        level u.dev 42 0 = satNat 255 (level d 42 0 + 1) ∧
        ChangesOnly (.free :: evParts) evRegs d u.dev ∧
        ((∀ c ∈ s.hst.cmds, c.sent = true → userOffset c = false) → HostEvents s.hst u.hst))

/-- OUTPUT_OFF switches off what it names, a running off-test is discarded and counted, and nothing else changes. A stack device
ignores it.

The off-test: it starts at the output's slot, on an enabled output that has been on for 100 ms; the first sample below 2.0 V ends and passes
it, and 27 samples without one fail it; its end closes the enable and takes the other one for the next test; a failure counts in the
output's bucket and at N latches bit 9 with both outputs off (R316, R318). -/
def Obligations.OutputsSwitchOff : Prop :=
  (∀ (s : State) (t : Time) (a b : Bool) (d : Dev), d = tick t s.dev → d.running = true → Calm d →
      (d.head = true → ∃ u, exec (.outputOff t a b) s = .next u ∧
        u.dev.sf = d.sf.dropped (a, b) d.now ∧
        regFld u.dev R.safeCnt 31 16 =
          min 65535 (regFld d R.safeCnt 31 16 + b2n (a && d.sf.outA.test) + b2n (b && d.sf.outB.test)) ∧
        regFld u.dev R.safeCnt 15 0 = regFld d R.safeCnt 15 0 ∧
        ChangesOnly [.sf, .cyc] [R.safeCnt] d u.dev ∧ u.hst = s.hst) ∧
      (d.head = false → exec (.outputOff t a b) s = .next { s with dev := d })) ∧
  (∀ (s : State) (t : Time) (o : Out) (d : Dev), d = tick t s.dev → d.awake = true → Calm d →
      (d.head = true → (outState d o).on = true → (outState d o).test = false →
        regBit d R.safeOutCfg (outIdx o) = true → msT 100 ≤ since (outState d o).onAt d.now →
        d.now.toNat % msT 2000 = msT 1000 * outIdx o →
        ∃ u, exec (.outputOffTest t o) s = .next u ∧
          u.dev = setOut o { outState d o with test := true, testAt := d.now } d ∧ u.hst = s.hst) ∧
      ∀ mv : List Nat, (outState d o).test = true → usT (10 + 10 * mv.length) ≤ since (outState d o).testAt d.now →
        ((∃ v ∈ mv, v < 2000) →
          ∃ u, exec (.outputOffTestEnd t o mv) s = .next u ∧
            u.dev = setOut o { outState d o with test := false, low := true, enable := 1 - (outState d o).enable } d ∧
            u.hst = s.hst) ∧
        ((∀ v ∈ mv, 2000 ≤ v) → mv.length = 27 →
          ∃ u, exec (.outputOffTestEnd t o mv) s = .next u ∧
            level u.dev 4 (outIdx o) = satNat 255 (level d 4 (outIdx o) + 1) ∧
            (outState u.dev o).test = false ∧
            (satNat 255 (level d 4 (outIdx o) + 1) < bucketN d 4 →
              outState u.dev o = { outState d o with test := false, low := false, enable := 1 - (outState d o).enable } ∧
              u.dev.sf.causes = d.sf.causes) ∧
            (bucketN d 4 ≤ satNat 255 (level d 4 (outIdx o) + 1) → (9, outIdx o) ∉ d.sf.present →
              (9, outIdx o) ∈ u.dev.sf.causes ∧ u.dev.outputsOff = true) ∧
            ChangesOnly latchParts [R.ringCnt, R.safeCnt, R.hostEvtLost] d u.dev ∧ HostEvents s.hst u.hst) ∧
        ((∀ v ∈ mv, 2000 ≤ v) → mv.length ≠ 27 → exec (.outputOffTestEnd t o mv) s = .next { s with dev := d }))

/-- An output off that reads at or above 2.0 V for 1 ms, one on that is in current limit, or below half of VSTK after its first 1 ms, for 1 ms,
and a watchdog that 2 ms go without service, latch bits 9, 16 and 17, with the outputs of Table SAFE-1 off (R310, R311, R317). -/
def Obligations.OutputFaultsLatch : Prop :=
  ∀ (s : State) (t : Time) (o : Out) (d : Dev), d = tick t s.dev → d.awake = true → Calm d →
    (∀ mv us, (outState d o).on = false → (9, outIdx o) ∉ d.sf.present → 2000 ≤ mv → 1000 ≤ us →
      usT us ≤ since (outState d o).offAt d.now →
      ∃ u, exec (.outputStuck t o mv us) s = .next u ∧
        u.dev.sf = ((setOut o { outState d o with low := false } d).sf.latched 9 (outIdx o) d.rg.pos d.now).dropped (true, true) d.now ∧
        u.dev.tn = { d.tn with fwd := none } ∧ (∀ p, (port u.dev p).toneTx = true ∧ (port u.dev p).toneLeft = 9) ∧
        ChangesOnly latchParts [R.ringCnt, R.safeCnt, R.hostEvtLost] d u.dev ∧ HostEvents s.hst u.hst) ∧
    (∀ mv us, (outState d o).on = true ∨ mv < 2000 ∨ us < 1000 → exec (.outputStuck t o mv us) s = .next { s with dev := d }) ∧
    (∀ limit mv vstk us, d.head = true → (outState d o).on = true → (outState d o).test = false →
      (16, outIdx o) ∉ d.sf.present → 1000 ≤ us → usT us ≤ since (outState d o).onAt d.now →
      (limit = true ∨ (2 * mv < vstk ∧ msT 2 ≤ since (outState d o).onAt d.now)) →
      ∃ u, exec (.outputOverload t o limit mv vstk us) s = .next u ∧
        u.dev.sf = (d.sf.latched 16 (outIdx o) d.rg.pos d.now).dropped (decide (o = .soa), decide (o = .sob)) d.now ∧
        level u.dev 41 (outIdx o) = satNat 255 (level d 41 (outIdx o) + 1) ∧ u.dev.tn = d.tn ∧
        ChangesOnly latchParts [R.ringCnt, R.safeCnt, R.hostEvtLost] d u.dev ∧ HostEvents s.hst u.hst) ∧
    (∀ limit mv vstk us, (outState d o).on = false ∨ us < 1000 ∨ (limit = false ∧ vstk ≤ 2 * mv) →
      exec (.outputOverload t o limit mv vstk us) s = .next { s with dev := d }) ∧
    ((17, 0) ∉ d.sf.present → msT 2 ≤ since d.sf.servAt d.now →
      ∃ u, exec (.supervisorWatchdogExpire t) s = .next u ∧
        u.dev.sf = ({ d.sf with wdog := true }.latched 17 0 d.rg.pos d.now).dropped (true, true) d.now ∧
        hwPermit u.dev = false ∧ u.dev.tn = d.tn ∧
        ChangesOnly latchParts [R.ringCnt, R.safeCnt, R.hostEvtLost] d u.dev ∧ HostEvents s.hst u.hst)

/-- A filtered level changes after 300 unmasked samples: the pair's demand, its pending restart, and the outputs routed to it (R320, R322,
R324). Fewer samples change the raw level alone. That samples fall on multiples of 10 us is the model's choice (log 89). -/
def Obligations.InputFilterDemand : Prop :=
  ∀ (s : State) (t : Time) (ch : Nat) (lv : Bool) (begun : Time) (samples : Nat) (d : Dev), d = tick t s.dev → d.awake = true → d.head = true → ch < 4 → Calm d →
    samples = samplesIn (decide (ch % 2 = 1)) begun d.now →
    ∃ u x y, exec (.inputFilterChange t ch lv begun) s = .next u ∧ x = pairIn d (ch / 2) ∧ y = pairIn u.dev (ch / 2) ∧
      (if ch % 2 = 0 then y.rawA = lv ∧ y.rawB = x.rawB else y.rawA = x.rawA ∧ y.rawB = lv) ∧
      (samples < 300 → y = (if ch % 2 = 0 then { x with rawA := lv } else { x with rawB := lv }) ∧
        u.dev.sf.outA = d.sf.outA ∧ u.dev.sf.outB = d.sf.outB ∧ u.dev.sf.present = d.sf.present) ∧
      (300 ≤ samples →
        (if ch % 2 = 0 then y.filtA = lv ∧ y.filtB = x.filtB else y.filtA = x.filtA ∧ y.filtB = lv) ∧
        (y.filtA = true ∧ y.filtB = true →
          y.agreed = true ∧ y.fresh = false ∧
          y.pend = (x.pend || (x.fresh && !pairAuto d (ch / 2) && pairEnabled d (ch / 2)))) ∧
        (y.filtA = false ∨ y.filtB = false →
          y.pend = x.pend ∧ y.agreed = x.agreed ∧ y.fresh = (x.fresh || (x.agreed && pairEnabled d (ch / 2)))) ∧
        (pairEnabled d (ch / 2) = true → y.filtA = false ∨ y.filtB = false →
          u.dev.sf.outA = (if (routed d (ch / 2)).1 then d.sf.outA.off d.now else d.sf.outA) ∧
          u.dev.sf.outB = (if (routed d (ch / 2)).2 then d.sf.outB.off d.now else d.sf.outB)) ∧
        (pairEnabled d (ch / 2) = false ∨ (y.filtA = true ∧ y.filtB = true) →
          u.dev.sf.outA = d.sf.outA ∧ u.dev.sf.outB = d.sf.outB)) ∧
      pairIn u.dev (1 - ch / 2) = pairIn d (1 - ch / 2) ∧ u.dev.sf.causes = d.sf.causes ∧
      ChangesOnly [.sf, .cyc] [R.safeCnt] d u.dev ∧ u.hst = s.hst

/-- A test pulse: each channel that read high before it is checked, own-pulse or cross, and a failure counts in its bucket
(R319, R321). -/
def Obligations.TestPulseChecks : Prop :=
  ∀ (s : State) (t : Time) (pulseB : Bool) (before during : List Bool) (d : Dev), d = tick t s.dev → d.awake = true → d.head = true → Calm d →
    (pulseAt d.now = none → exec (.testPulseCycle t before during) s = .next { s with dev := d }) ∧
    (pulseAt d.now = some pulseB → ∃ u, exec (.testPulseCycle t before during) s = .next u ∧
      (∀ ch < 4, level u.dev 5 ch =
        (if before.getD ch false = true ∧ during.getD ch false = decide ((ch % 2 = 1) = pulseB) then
          satNat 255 (level d 5 ch + 1) else level d 5 ch)) ∧
      [u.dev.sf.p0.rawA, u.dev.sf.p0.rawB, u.dev.sf.p1.rawA, u.dev.sf.p1.rawB] = (List.range 4).map (before.getD · false) ∧
      ((∀ ch < 4, before.getD ch false = true → during.getD ch false ≠ decide ((ch % 2 = 1) = pulseB)) →
        u.dev.sf.causes = d.sf.causes ∧ u.dev.sf.outA = d.sf.outA ∧ u.dev.sf.outB = d.sf.outB) ∧
      u.dev.sf.p0.filtA = d.sf.p0.filtA ∧ u.dev.sf.p0.filtB = d.sf.p0.filtB ∧
      u.dev.sf.p1.filtA = d.sf.p1.filtA ∧ u.dev.sf.p1.filtB = d.sf.p1.filtB ∧
      ChangesOnly latchParts [R.ringCnt, R.safeCnt, R.hostEvtLost] d u.dev ∧ HostEvents s.hst u.hst)

/-- The key of SAFE_RESET arms release for 20 ms, names the latches present, and ends a pending restart of a pair that reads
high; any other value does nothing; the window ends 20 ms later (R313, R324). -/
def Obligations.SafeResetArms : Prop :=
  ∀ (s : State) (t : Time) (key : Word) (d : Dev), d = tick t s.dev → d.running = true → Calm d →
    (∃ u, exec (.safeReset t 0x5A5A0002) s = .next u ∧
      u.dev.sf = { d.sf with
        armed := true
        armedTo := BitVec.ofNat 64 (d.now.toNat + msT 20)
        armedSet := d.sf.causes
        p0 := { d.sf.p0 with pend := d.sf.p0.pend && !(d.sf.p0.filtA && d.sf.p0.filtB) }
        p1 := { d.sf.p1 with pend := d.sf.p1.pend && !(d.sf.p1.filtA && d.sf.p1.filtB) } } ∧
      ChangesOnly [.sf] [] d u.dev ∧ u.hst = s.hst) ∧
    (key ≠ 0x5A5A0002 → exec (.safeReset t key) s = .next { s with dev := d }) ∧
    (d.sf.armed = true → d.sf.armedTo.toNat ≤ d.now.toNat →
      exec (.safeResetWindowEnd t) s =
        .next { s with dev := { d with sf := { d.sf with armed := false, armedSet := [] } } })

/-- The safety cycle, 1 ms after the one before: readback, with which a cause of bit 9 whose output reads low is gone, the watchdog's count of
missed services, the discrepancy count, the comparison of the safety image, lost positions, and in an open window the release of armed latches whose
condition holds, of those alone: one of bit 16 whose output is off is released, one of bit 17 stays (R310, R313, R315, R323, R328, R341). A cycle
before its time does nothing. -/
def Obligations.SafetyCycleTasks : Prop :=
  ∀ (s : State) (t : Time) (a b v : Nat) (d : Dev), d = tick t s.dev → d.awake = true → Calm d →
    (passed (msT 1) d.sf.cycleAt d.now = false → ∀ w, exec (.safetyCycle t w a b v) s = .next { s with dev := d }) ∧
    (msT 1 ≤ since d.sf.cycleAt d.now →
      (d.sf.missed ≠ 1 → exec (.safetyCycle t false a b v) s = .next { s with dev := { d with sf := { d.sf with
        outA := { d.sf.outA with rb := decide (v ≤ 2 * a), low := decide (a < 2000) }
        outB := { d.sf.outB with rb := decide (v ≤ 2 * b), low := decide (b < 2000) }
        present := d.sf.present.filter (fun c => !((decide (c = (9, 0)) && decide (a < 2000) && !lasting d 4 0) ||
          (decide (c = (9, 1)) && decide (b < 2000) && !lasting d 4 1)))
        cycleAt := d.now
        missed := d.sf.missed + 1 } } }) ∧
      (d.sf.missed = 1 → (17, 0) ∉ d.sf.present →
        ∃ u, exec (.safetyCycle t false a b v) s = .next u ∧ u.dev.sf.wdog = true ∧ u.dev.outputsOff = true ∧
          (17, 0) ∈ u.dev.sf.causes ∧ u.dev.sf.missed = 2 ∧
          ChangesOnly latchParts [R.ringCnt, R.safeCnt, R.hostEvtLost] d u.dev ∧ HostEvents s.hst u.hst) ∧
      ∃ u, exec (.safetyCycle t true a b v) s = .next u ∧
        u.dev.sf.missed = 0 ∧ u.dev.sf.servAt = d.now ∧ u.dev.sf.cycleAt = d.now ∧
        u.dev.sf.outA.rb = decide (v ≤ 2 * a) ∧ u.dev.sf.outB.rb = decide (v ≤ 2 * b) ∧
        u.dev.sf.outA.low = decide (a < 2000) ∧ u.dev.sf.outB.low = decide (b < 2000) ∧
        (u.dev.sf.outA.on = true → d.sf.outA.on = true) ∧ (u.dev.sf.outB.on = true → d.sf.outB.on = true) ∧
        reg u.dev R.protScrcRun = BitVec.ofNat 32 (crc32c (wordsBytes (imageOffsets.map (reg d)))) ∧
        u.dev.pr = { d.pr with scrcBad := decide (reg u.dev R.protScrcRun ≠ reg d R.protScrcRef) } ∧
        (u.dev.pr.scrcBad = true → (8, 0) ∉ d.sf.present → (8, 0) ∈ u.dev.sf.causes ∧ u.dev.outputsOff = true) ∧
        (d.head = true → ∀ p < 2, (pairIn u.dev p).disc =
          if (pairIn d p).filtA = (pairIn d p).filtB then 0 else (pairIn d p).disc + 1) ∧
        (d.head = true → ∀ p < 2, (pairIn d p).filtA ≠ (pairIn d p).filtB →
          pairDisc d p ≤ (pairIn d p).disc + 1 → (11 + p, p) ∉ d.sf.present → (11 + p, p) ∈ u.dev.sf.causes) ∧
        (d.head = true → d.sf.armed = false → ∀ r ∈ d.rg.recs, r.1 ≠ 0 → r.2.low = false →
          hbTol d ≤ since r.2.advAt d.now → r.1 ∈ u.dev.sf.lost ∧
            ((13, r.1) ∉ d.sf.present → (13, r.1) ∈ u.dev.sf.causes)) ∧
        (d.head = false → d.sf.armed = false → hbTol d ≤ since d.sf.hbRx d.now → (13, 0) ∉ d.sf.present → (13, 0) ∈ u.dev.sf.causes) ∧
        (∀ c ∈ d.sf.causes, c ∉ u.dev.sf.causes → d.sf.armed = true ∧ d.now.toNat ≤ d.sf.armedTo.toNat ∧ c ∈ d.sf.armedSet) ∧
        (d.sf.armed = true → d.now.toNat ≤ d.sf.armedTo.toNat →
          (d.sf.outA.on = false → (16, 0) ∈ d.sf.armedSet → (16, 0) ∉ u.dev.sf.causes) ∧
          (d.sf.outB.on = false → (16, 1) ∈ d.sf.armedSet → (16, 1) ∉ u.dev.sf.causes)) ∧
        ((17, 0) ∈ d.sf.causes → (17, 0) ∈ u.dev.sf.causes) ∧
        ChangesOnly (.pr :: latchParts) [R.ringCnt, R.safeCnt, R.hostEvtLost, R.protScrcRun] d u.dev ∧
        HostEvents s.hst u.hst)

/-- In an open release window exactly the latches present at the key write whose condition holds are released (R313). -/
def Obligations.ReleaseNeedsCondition : Prop :=
  ∀ (d : Dev) (c : Nat × Nat), c ∈ (releaseAll d).sf.causes ↔
    c ∈ d.sf.causes ∧ ¬ (d.sf.armed = true ∧ d.now.toNat ≤ d.sf.armedTo.toNat ∧ c ∈ d.sf.armedSet ∧ mayRelease d c = true)

/-! ### Cell measurement (file 03) -/

/-- A grid instant writes one result word for each configured cell read, under the configuration in force at that instant, for lane A the cell's bit
of MEAS_UNCOMP, and where the grids compare, the cell's bit of MEAS_DIS_STAT, which a skipped comparison leaves (log 28); off its grid, or more than
20 us after the instant, nothing happens (R72, R75, R83, R89, R261). -/
def Obligations.LaneResultsWritten : Prop :=
  ∀ (s : State) (t : Time) (g : LaneGroup) (own other : List LaneSample) (d o : Dev), d = tick t s.dev → o = asOf t d → d.running = true → Calm d →
    (onGrid (groupP2 o g) t = false ∨ usT 20 < since t d.now → exec (.laneGridResult t g own other) s = .next { s with dev := d }) ∧
    ((own.map LaneSample.cell).Nodup → (other.map LaneSample.cell).Nodup → (∀ x ∈ own, x.cell ≤ 32) →
      onGrid (groupP2 o g) t = true → since t d.now ≤ usT 20 →
      ∃ u, exec (.laneGridResult t g own other) s = .next u ∧
        (∀ x ∈ own, 1 ≤ x.cell → x.cell ≤ ncells d → x.cell ≤ ncells o →
          reg u.dev (resOff g x.cell) = (laneEval o g t x).word ∧
          (g = .a → regBit u.dev R.measUncomp (x.cell - 1) = (laneEval o g t x).uncomp) ∧
          (comparesAt o g = true → ∀ y ∈ other, y.cell = x.cell →
            regBit u.dev R.measDisStat (x.cell - 1) =
              (if skipCmp (laneEval o g t x) (laneEval o (otherGroup g) t y) then regBit d R.measDisStat (x.cell - 1)
              else decide (10 * regFld d R.measDisCfg 15 0 <
                ((laneEval o g t x).value - (laneEval o (otherGroup g) t y).value).natAbs)))) ∧
        ChangesOnly ([.me, .ba, .ca, .free] ++ latchParts) ([R.measUncomp, R.measDisStat, R.measDisFault, R.ringCnt, R.safeCnt,
          R.hostEvtLost] ++ own.map (fun x => resOff g x.cell)) d u.dev ∧ HostEvents s.hst u.hst)

/-- The value of a lane result: the last good value while STALE, else the corrected reading held from -2,300,000 uV to 5,800,000 uV, which carries
OVR where it saturates or its input left the modulator's stable range; where both layers of every part are neutral and no switch conducts, the
corrected reading is the weighted mean of the raw samples, in uV (R75, R76, R78, R101, R428). -/
def Obligations.LaneValue : Prop :=
  ∀ (d : Dev) (g : LaneGroup) (T : Time) (x : LaneSample) (v : Int),
    ((laneEval d g T x).stale = true → (laneEval d g T x).value = kget 0 d.me.good (laneIdx g x.cell)) ∧
    -2300000 ≤ (if (laneEval d g T x).stale then 0 else (laneEval d g T x).value) ∧
    (if (laneEval d g T x).stale then 0 else (laneEval d g T x).value) ≤ 5800000 ∧
    ((laneEval d g T x).stale = false → (laneEval d g T x).value = -2300000 ∨ (laneEval d g T x).value = 5800000 →
      (laneEval d g T x).ovr = true) ∧
    ((laneEval d g T x).stale = false → x.wOwn = 0 → x.wHigh = 0 → x.wLow = 0 →
      (∀ p ∈ x.parts, layersAt d (laneIdx g x.cell) (T.toNat - p.age) = ⟨0, 0, 0, 0, 0⟩) →
      sumInt (x.parts.map RawPart.m1) = 655360 * v →
      (laneEval d g T x).value = max (-2300000) (min 5800000 v) ∧ (laneEval d g T x).ovr = (laneUnstable x.input || decide (v < -2000000 ∨ 5500000 < v)))

/-- Samples outside a threshold for the deglitch time, from the pair or, while the stand-in acts for it, from the stand-in, set the pair's
bit and latch bit 0 with both outputs off; other samples do nothing. As many inside by the hysteresis clear the bit, and the cause is gone
once neither bit of the cell stands, while its latch stays (R92, R93, R96, R311). -/
def Obligations.ComparatorTrips : Prop :=
  ∀ (s : State) (t : Time) (cell : Nat) (ov : Bool) (samples : Nat) (uv : Int) (standIn : Bool) (d : Dev), d = tick t s.dev →
    d.awake = true → Calm d → 1 ≤ cell → cell ≤ ncells d → cell ≤ 32 →
    (deglitch d ≤ samples → beyondThr d cell ov uv = true → standIn = standsIn d cell →
      ∃ u, exec (.comparatorTripConfirm t cell ov samples uv standIn) s = .next u ∧
        (∀ j, regBit u.dev (cmpOff ov) j = (decide (j = cell - 1) || regBit d (cmpOff ov) j)) ∧
        ((0, cell) ∉ d.sf.present →
          u.dev.sf = (d.sf.latched 0 cell d.rg.pos d.now).dropped (true, true) d.now ∧
          u.dev.tn = { d.tn with fwd := none } ∧
          ∀ p, (port u.dev p).toneTx = true ∧ (port u.dev p).toneLeft = 9 ∧ (port u.dev p).toneFrom = d.now) ∧
        ((0, cell) ∈ d.sf.present → u.dev.sf = d.sf ∧ u.dev.tn = d.tn) ∧
        ChangesOnly ([.ba, .free] ++ latchParts) [cmpOff ov, R.ringCnt, R.safeCnt, R.hostEvtLost] d u.dev ∧
        HostEvents s.hst u.hst) ∧
    (samples < deglitch d ∨ beyondThr d cell ov uv = false ∨ standIn ≠ standsIn d cell →
      exec (.comparatorTripConfirm t cell ov samples uv standIn) s = .next { s with dev := d }) ∧
    (deglitch d ≤ samples → insideThr d cell ov uv = true →
      ∃ u, exec (.comparatorTripRelease t cell ov samples uv) s = .next u ∧
        (∀ j, regBit u.dev (cmpOff ov) j = (decide (j ≠ cell - 1) && regBit d (cmpOff ov) j)) ∧
        u.dev.sf = { d.sf with present := if regBit d (cmpOff !ov) (cell - 1) then d.sf.present
          else d.sf.present.filter (fun c => c ≠ (0, cell)) } ∧
        ChangesOnly ([.ba, .free, .sf] ++ evParts) [cmpOff ov, R.ringCnt, R.hostEvtLost] d u.dev ∧
        HostEvents s.hst u.hst) ∧
    (samples < deglitch d ∨ insideThr d cell ov uv = false →
      exec (.comparatorTripRelease t cell ov samples uv) s = .next { s with dev := d })

/-- An open-wire test of a tap in its slot: more than 100 mV in the source phase marks the tap open, counts in its bucket, and makes the
coefficients of the switches beside it unknown, so that they are tested again; less clears the mark; at another time there is no test
(R82, R86 to R88). -/
def Obligations.OpenWireMarksTap : Prop :=
  ∀ (s : State) (t : Time) (tap : Nat) (dk dk1 : Int) (d : Dev), d = tick t s.dev → d.awake = true → Calm d →
    1 ≤ tap → tap ≤ ncells d → ncells d ≤ 32 →
    (owSlot (owSettle d) tap t = false → exec (.openWireTest t tap dk dk1) s = .next { s with dev := owSettle d }) ∧
    (owSlot (owSettle d) tap t = true →
      ((100000 < dk.natAbs ∨ (100000 < dk1.natAbs ∧ tap < ncells d)) →
        ∃ u, exec (.openWireTest t tap dk dk1) s = .next u ∧
          (∀ j, regBit u.dev R.measOwStat j = (decide (j = tap - 1) || regBit d R.measOwStat j)) ∧
          level u.dev 0 (tap - 1) = satNat 255 (level d 0 (tap - 1) + 1) ∧
          (∀ j, j = tap ∨ j = tap + 1 → j ≤ ncells d →
            reg u.dev (R.measBcoef + 4 * (j - 1)) = 0xFFFFFFFF ∧ (balCell u.dev j).tested = false) ∧
          (bucketN d 0 ≤ satNat 255 (level d 0 (tap - 1) + 1) → (6, tap) ∉ d.sf.present →
            (6, tap) ∈ u.dev.sf.causes ∧ u.dev.outputsOff = true)) ∧
      (dk.natAbs ≤ 100000 → dk1.natAbs ≤ 100000 →
        ∃ u, exec (.openWireTest t tap dk dk1) s = .next u ∧
          (∀ j, regBit u.dev R.measOwStat j = (decide (j ≠ tap - 1) && regBit d R.measOwStat j)) ∧
          u.dev.sf = d.sf ∧ (∀ n, planEntry u.dev n = planEntry d n) ∧
          ChangesOnly ([.me, .ba, .free] ++ evParts) [R.measOwStat, R.ringCnt, R.hostEvtLost] d u.dev ∧
          HostEvents s.hst u.hst))

/-- The first estimates of an inner switch are its coefficients where the cell and its neighbours agree within 5 % and 20 uV; else
they stay unknown and the disagreement counts. A step test ends so after its 16 repetitions, and an edge of the schedule does so unless an edge
of a neighbour is near; each counts the charge of the conduction so far at the sensed current; a time that is no edge does nothing
(R82, R200, R201, R211). -/
def Obligations.CoefficientsEstimated : Prop :=
  ∀ (s : State) (t : Time) (j : Nat) (e : CoefEst) (ma : Nat) (d : Dev), d = tick t s.dev → d.awake = true → Calm d →
    (isEdge d j t.toNat = false → exec (.balPwmEdge t j e ma) s = .next { s with dev := d }) ∧
    (1 < j → j < ncells d → ncells d ≤ 32 → kget [] d.me.est j = [] →
      e.own < 0xFFFF → e.up < 0xFFFF → e.down < 0xFFFF → extFet d = false →
      (∀ t0, d.ba.test = some (j, t0) → msT (128 + 8 * d.ba.voids) ≤ since t0 d.now →
        ∃ u, exec (.stepTestComplete t j e ma) s = .next u ∧
          (balCell u.dev j).tested = true ∧ (∀ t1, u.dev.ba.test ≠ some (j, t1)) ∧
          reg u.dev (R.measBcoef + 4 * (j - 1)) =
            (if 20 * ((e.own : Int) - (e.up + e.down)).natAbs ≤ e.own + 200 then packW [(e.up, 0), (e.down, 16)] else 0xFFFFFFFF) ∧
          reg u.dev (R.balQbal + 4 * (j - 1)) = BitVec.ofNat 32 ((reg d (R.balQbal + 4 * (j - 1))).toNat +
            (kget 0 d.ba.qsub j + ma * kget 0 d.ba.owed j) / lsbPerSec) ∧
          u.dev.sf = d.sf ∧ HostEvents s.hst u.hst) ∧
      (isEdge d j t.toNat = true →
        ∃ u, exec (.balPwmEdge t j e ma) s = .next u ∧
          reg u.dev (R.measBcoef + 4 * (j - 1)) = (if nearEdge d j t.toNat then reg d (R.measBcoef + 4 * (j - 1))
            else if 20 * ((e.own : Int) - (e.up + e.down)).natAbs ≤ e.own + 200 then packW [(e.up, 0), (e.down, 16)] else 0xFFFFFFFF) ∧
          reg u.dev (R.balQbal + 4 * (j - 1)) = BitVec.ofNat 32 ((reg d (R.balQbal + 4 * (j - 1))).toNat +
            (kget 0 d.ba.qsub j + ma * kget 0 d.ba.owed j) / lsbPerSec) ∧
          kget 0 u.dev.ba.owed j = 0 ∧ u.dev.sf = d.sf ∧ HostEvents s.hst u.hst))

/-! ### Calibration (file 04) -/

/-- A slot of the relief rotation begins at its turn, 250 ms after the last began: the lanes of the last slot have taken two more epochs, a
period ends with slot 16, and a spare whose lane is in use relieves it, its steps waiting for their times; each acts at its time, and a
check within HO_LIMIT changes CAL_HO_LAST alone, one beyond it counts for the lane (R106 to R111, Table CAL-3). -/
def Obligations.ReliefSlotRotates : Prop :=
  (∀ (s : State) (t : Time) (slot : Nat) (o : ReliefOutcome) (d : Dev), d = tick t s.dev → d.awake = true → Calm d → slot ≤ 16 →
    (slot ≠ d.ca.slotNext ∨ d.now.toNat < d.ca.slotDue.toNat → ∀ l,
      exec (.reliefSlotStart t slot l) s = .next { s with dev := d }) ∧
    (slot = d.ca.slotNext → d.ca.slotDue.toNat ≤ d.now.toNat → (∀ x ∈ d.ca.todo, d.now.toNat < x.due.toNat) →
      (∃ u, exec (.reliefSlotStart t slot []) s = .next u ∧
        u.dev.ca.slot = slot ∧ u.dev.ca.slotAt = d.ca.slotDue ∧ u.dev.ca.relief = [] ∧ u.dev.ca.todo = d.ca.todo ∧
        u.dev.ca.slotNext = (slot + 1) % 17 ∧ u.dev.ca.slotDue = later d.ca.slotDue slotLen ∧
        u.dev.ca.periods = d.ca.periods + b2n (decide (slot = 0 ∧ d.ca.slot = 16)) ∧
        ((d.ca.relief.map Prod.fst).Nodup → ∀ lane, kget 0 u.dev.ca.epoch lane =
          if lane ∈ d.ca.relief.map Prod.fst then (kget 0 d.ca.epoch lane + 2) % 4 else kget 0 d.ca.epoch lane) ∧
        ChangesOnly [.ca] [] d u.dev ∧ u.hst = s.hst) ∧
      (o.spare < 4 → slot < 16 → regBit d R.calCtrl 0 = true → laneCell (ownLane o.spare slot) ≤ ncells d →
        d.ca.out = [] → (∀ i < 68, lasting d 13 i = false) → d.ca.wd = [] → d.now.toNat < (later d.ca.slotDue (usT 10080)).toNat →
        d.ca.slotDue.toNat < 2 ^ 63 →
        ∃ u, exec (.reliefSlotStart t slot [o]) s = .next u ∧
          u.dev.ca.relief = [(ownLane o.spare slot, o.spare)] ∧
          (∀ x, x ∈ u.dev.ca.todo ↔ x ∈ d.ca.todo ∨ x ∈ [⟨later d.ca.slotDue (usT 10080), .checkIn (ownLane o.spare slot) o⟩,
            ⟨later d.ca.slotDue (usT 222000), .fit (some (ownLane o.spare slot)) o⟩,
            ⟨later d.ca.slotDue (usT 224000), .apply (some (ownLane o.spare slot)) o⟩,
            ⟨later d.ca.slotDue (usT 240080), .checkOut (ownLane o.spare slot) o⟩]) ∧
          ChangesOnly [.ca] [] d u.dev ∧ u.hst = s.hst))) ∧
  (∀ (t : Time) (d : Dev) (x : CalDue) (r : List CalDue), d.ca.todo = x :: r → x.due.toNat ≤ t.toNat →
    (calStep x { d with ca := { d.ca with todo := r } }).ca.todo = [] →
    calRun t d = calStep x { d with ca := { d.ca with todo := r } }) ∧
  ∀ (t : Time) (spare lane dir : Nat) (z : Int) (d : Dev), -8388608 ≤ z → z < 8388608 → lane < 64 → dir < 2 →
    reg (handover t spare lane dir z d) R.calHoLast =
      packW [(unsigned 24 z, 0), (lane, 24), (dir, 30), (b2n (decide (hoLimit d < z.natAbs)), 31)] ∧
    (z.natAbs ≤ hoLimit d → ChangesOnly [] [R.calHoLast] d (handover t spare lane dir z d)) ∧
    (hoLimit d < z.natAbs → level (handover t spare lane dir z d) 13 lane = satNat 255 (level d 13 lane + 1))

/-- CAL_READ answers DONE with the active set and its marker, the working set as an image, or the background corrections, and changes
no register; while NO_SET is 1 its source 0 is DENIED_STATE (R123).

CAL_STORE is refused in the order window, parity or shed, busy, check word, an order that is the model's choice (log 90); else it begins with
a snapshot of the working set for the slot that is not active, and no register changes (R120, R123). -/
def Obligations.CalRecordsReadAndStored : Prop :=
  (∀ (s : State) (t : Time) (h : Nat) (c : Desc) (d : Dev), d = tick t s.dev → d.awake = true → Calm d → dOp c = 0x50 → okCalRead c = true →
      ∃ u, exec (.calRead t h c) s = .next u ∧
        (∀ x, dFld c 2 1 0 = 0 → d.ca.noSet = false → activeSet d = some x → Finished s u h 0x00 (x.image ++ x.marker)) ∧
        (dFld c 2 1 0 = 0 → d.ca.noSet = true → Finished s u h 0x12 []) ∧
        (dFld c 2 1 0 = 1 → Finished s u h 0x00 (imageBytes 0xFF d.mm.serial 0 (worksetOffsets.map (reg d)))) ∧
        (dFld c 2 1 0 = 2 → Finished s u h 0x00 (wordsBytes ((upFrom 0 68).map (fun i => reg d (R.calBoff + 4 * i))) ++
          wordsBytes ((upFrom 0 68).map (fun i => reg d (R.calBgain + 4 * i))) ++ wordBytes (reg d R.calBgDis) ++ zeros 4 ++
          leBytes 8 d.now.toNat)) ∧
        ChangesOnly [.ex, .queues, .cyc] [R.ringCnt] d u.dev) ∧
  (∀ (s : State) (t : Time) (h : Nat) (c : Desc) (d : Dev), d = tick t s.dev → d.awake = true → Calm d → dOp c = 0x51 → okCalStore c = true →
      ∃ u, exec (.calStore t h c) s = .next u ∧
        (windowOpen d = false → Finished s u h 0x11 [] ∧ u.dev.ca = d.ca) ∧
        (windowOpen d = true → worksetParity d = true ∨ d.pw.persist = true →
          Finished s u h 0x12 [] ∧ u.dev.ca = d.ca) ∧
        (windowOpen d = true → worksetParity d = false → d.pw.persist = false →
          (d.ca.user.isSome = true ∨ d.ca.store.isSome = true → Finished s u h 0x31 [] ∧ u.dev.ca = d.ca) ∧
          (d.ca.user = none → d.ca.store = none →
            (wsCrc d ≠ dWord c 3 → Finished s u h 0x40 [] ∧ u.dev.ca = d.ca) ∧
            (wsCrc d = dWord c 3 → u.hst = s.hst ∧ u.dev.ca = { d.ca with store := some ⟨h, storeSlot d,
              ⟨dFld c 2 7 0, d.mm.serial, (dWord c 4).toNat + 2 ^ 32 * (dWord c 5).toNat, nextSeq d,
                worksetOffsets.map (reg d)⟩,
              if (calSlot d (storeSlot d)).blank then 3 else 2, false, d.now⟩, cleanup := none }))) ∧
        ChangesOnly [.ca, .ex, .queues, .cyc] [R.ringCnt] d u.dev)

/-- CAL_USER is refused where R127 says so, else it holds the old register words. At its end the last current samples have come; a precondition that
has failed ends it with its detail code and writes nothing; before 5 s it goes on; with both intervals of 1 s and 4 s past it writes both new
coefficients, shadow and committed copy, computed from the working set at the start of its measurement, with the record of Table CAL-9 (R125 to
R128). -/
def Obligations.CalUserRuns : Prop :=
  ∀ (s : State) (t : Time) (h : Nat) (c : Desc) (r : CalUserRun) (d : Dev), d = tick t s.dev → d.awake = true → Calm d →
    (dOp c = 0x52 → okCalUser c = true →
      ∃ u, exec (.calUser t h c) s = .next u ∧
        (∀ st, calUserRefusal (dFld c 2 3 0) (if dFld c 2 3 0 = 3 then dFld c 2 13 8 else 0) d = some st →
          Finished s u h st [] ∧ u.dev.ca = d.ca) ∧
        (calUserRefusal (dFld c 2 3 0) (if dFld c 2 3 0 = 3 then dFld c 2 13 8 else 0) d = none →
          u.hst = s.hst ∧ u.dev.ca.user.isSome = true ∧ u.dev.ca = { d.ca with user := u.dev.ca.user } ∧
          ∀ x, u.dev.ca.user = some x → x.h = h ∧ x.mode = dFld c 2 3 0 ∧ x.ref = signed 32 (dWord c 3).toNat ∧ x.start = d.now ∧
            x.oldA = reg d (userRegs x.mode x.cell).1 ∧ x.oldB = reg d (userRegs x.mode x.cell).2) ∧
        ChangesOnly [.ca, .ex, .queues, .cyc] [R.ringCnt] d u.dev) ∧
    (d.ca.user.isSome = true → ∀ e : Dev, e = curSamples d.now.toNat r.raw d →
      ∃ x, e.ca.user = some x ∧ ∃ u, exec (.calUserEnd t r) s = .next u ∧
        (userDetail e x ≠ 0 → Finished s u x.h 0x30 (userRecord x (userDetail e x) x.oldA x.oldB e).1 ∧
          u.dev.ca = { e.ca with user := none } ∧ ChangesOnly [.ca, .ex, .queues, .cyc, .free] [R.ringCnt] e u.dev) ∧
        (userDetail e x = 0 → since x.start d.now < 5 * lsbPerSec → u = { s with dev := e }) ∧
        (userDetail e x = 0 → 5 * lsbPerSec ≤ since x.start d.now → (userRegs x.mode x.cell).1 ≠ (userRegs x.mode x.cell).2 →
          ∀ e0 : Dev, e0 = corrFrom (userMeas x) e →
          ∀ a : Int, a = userNew e x (reg24 e0 (userRegs x.mode x.cell).1) (userPar e0 x.mode x.cell).1 x.accA
            (uMean e0 (x.cell - 1) e.now.toNat r.uA) →
          ∀ b : Int, b = userNew e x (reg24 e0 (userRegs x.mode x.cell).2) (userPar e0 x.mode x.cell).2 x.accB
            (uMean e0 (31 + x.cell) e.now.toNat r.uB) →
          -8388608 ≤ a → a < 8388608 → -8388608 ≤ b → b < 8388608 →
          u.dev.ca.user = none ∧
          reg u.dev (userRegs x.mode x.cell).1 = BitVec.ofNat 32 (unsigned 24 a) ∧
          reg u.dev (userRegs x.mode x.cell).2 = BitVec.ofNat 32 (unsigned 24 b) ∧
          (d.cyc.sw = [] → shadow u.dev (userRegs x.mode x.cell).1 = reg u.dev (userRegs x.mode x.cell).1 ∧
            shadow u.dev (userRegs x.mode x.cell).2 = reg u.dev (userRegs x.mode x.cell).2) ∧
          Finished s u x.h 0x00 (userRecord x 0 (reg u.dev (userRegs x.mode x.cell).1) (reg u.dev (userRegs x.mode x.cell).2) e).1 ∧
          ChangesOnly [.ca, .ex, .queues, .shad, .cyc, .free, .pr] [R.ringCnt, (userRegs x.mode x.cell).1, (userRegs x.mode x.cell).2]
            e u.dev))

/-! ### Balancing (file 07) -/

/-- BAL_PLAN takes its table from the host window in the head, from BULK in a stack device, and waits for it; without cells it is DENIED_STATE, a table that fails a check is CHECK_FAIL with its detail code and installs nothing; a
good table of kind 1 becomes the held Gazebo plan, one of kind 0 the awake plan, whose cells restart with their full time limit
(R196 to R198).

BAL_STOP discards the plans that WHICH names and completes DONE; without an awake plan a cell that no job excites is IDLE
(R199). -/
def Obligations.BalPlansInstallAndStop : Prop :=
  (∀ (s : State) (t : Time) (h : Nat) (c : Desc) (tab : List Byte) (d : Dev), d = tick t s.dev → d.awake = true → Calm d →
      dOp c = 0x20 → okBalPlan c = true →
      (tableBytes h (dWord c 2).toNat 272 (d, s.hst) = none → exec (.balPlan t h c) s = .next { s with dev := d }) ∧
      (tableBytes h (dWord c 2).toNat 272 (d, s.hst) = some tab → ∃ u, exec (.balPlan t h c) s = .next u ∧
        (ncells d = 0 → Finished s u h 0x12 [] ∧ u.dev.ba = d.ba) ∧
        (ncells d ≠ 0 → planDetail (ncells d) tab ≠ 0 →
          Finished s u h 0x40 (planResult tab (planDetail (ncells d) tab)) ∧ u.dev.ba = d.ba) ∧
        (ncells d ≠ 0 → planDetail (ncells d) tab = 0 → Finished s u h 0x00 (planResult tab 0) ∧
          (tab8 tab 6 = 1 → u.dev.ba = { d.ba with gzPlan := some (planOf tab) }) ∧
          (tab8 tab 6 ≠ 1 → u.dev.ba.plan = some (planOf tab) ∧ u.dev.ba.gzPlan = d.ba.gzPlan ∧
            ∀ n, 1 ≤ n → n ≤ 32 → balCell u.dev n = { balCell d n with
              done := false, exp := false, stuck := false, tested := false, hits := 0, ran := 0, was := false })) ∧
        ChangesOnly ([.me, .ba, .free, .ex] ++ evParts) [R.ringCnt, R.hostEvtLost] d u.dev)) ∧
  (∀ (s : State) (t : Time) (h : Nat) (c : Desc) (d : Dev), d = tick t s.dev → d.awake = true → Calm d → dOp c = 0x21 → okBalStop c = true →
      ∃ u, exec (.balStop t h c) s = .next u ∧ Finished s u h 0x00 [] ∧
        u.dev.ba.plan = (if dFld c 2 1 0 = 1 then d.ba.plan else none) ∧
        u.dev.ba.gzPlan = (if dFld c 2 1 0 = 0 then d.ba.gzPlan else none) ∧
        (dFld c 2 1 0 ≠ 1 → ∀ n, dutyEff u.dev n = 0 ∧ (n ≤ 32 → n ∉ d.ba.excite → cellState u.dev n = .idle)) ∧
        ChangesOnly ([.ba, .free, .ex] ++ evParts) [R.ringCnt, R.hostEvtLost] d u.dev)

/-- An overcurrent holds the cell for 10 s, or at N until a new plan; the hold ends after 10 s and no sooner; a spent TLIMIT expires the cell; a
RUN switch that has yielded no estimate for 10 s is given a tracking gap of the next PWM period where one fits (R200, R204, R205); which of
the places it takes is free (log 91). -/
def Obligations.BalanceCellEvents : Prop :=
  ∀ (s : State) (t : Time) (j ma us : Nat) (d : Dev), d = tick t s.dev → d.awake = true → Calm d →
    (1 ≤ j → j ≤ ncells d → extFet d = false → 450 < ma → 100 ≤ us → cellState d j = .run ∨ cellState d j = .excite →
      conducts d j = true →
      ∃ u, exec (.balOvercurrent t j ma us) s = .next u ∧ cellState u.dev j = .held ∧ (balCell u.dev j).hold = some d.now ∧
        level u.dev 26 (j - 1) = satNat 255 (level d 26 (j - 1) + 1) ∧
        (balCell u.dev j).stuck = ((balCell d j).stuck || decide (bucketN d 26 ≤ satNat 255 (level d 26 (j - 1) + 1))) ∧
        ChangesOnly ([.ba, .free] ++ evParts) [R.balQbal + 4 * (j - 1), R.ringCnt, R.hostEvtLost] d u.dev ∧ HostEvents s.hst u.hst) ∧
    (ma ≤ 450 ∨ us < 100 ∨ extFet d = true ∨ conducts d j = false → exec (.balOvercurrent t j ma us) s = .next { s with dev := d }) ∧
    (∀ f, (balCell d j).hold = some f → 10 * lsbPerSec ≤ since f d.now →
      ∃ u, exec (.balHoldExpire t j) s = .next u ∧ (balCell u.dev j).hold = none ∧
        (∀ n, n ≠ j → (balCell u.dev n).hold = (balCell d n).hold) ∧
        ChangesOnly ([.ba, .free] ++ evParts) [R.ringCnt, R.hostEvtLost] d u.dev ∧ HostEvents s.hst u.hst) ∧
    (∀ f, (balCell d j).hold = some f → since f d.now < 10 * lsbPerSec → exec (.balHoldExpire t j) s = .next { s with dev := d }) ∧
    (counting d j = true → tlimit d j ≤ (balCell d j).ran →
      ∃ u, exec (.balTlimitExpire t j) s = .next u ∧ cellState u.dev j = .expired ∧
        ChangesOnly ([.ba, .free] ++ evParts) [R.ringCnt, R.hostEvtLost] d u.dev ∧ HostEvents s.hst u.hst) ∧
    (cellState d j ≠ .run → exec (.trackingGap t j) s = .next { s with dev := d }) ∧
    ∀ start : Nat, start = (d.now.toNat / pwmPeriod + 1) * pwmPeriod → cellState d j = .run → dutyEff d j = 256 →
      testsPending d = false → 10 * lsbPerSec ≤ since (kget 0 d.me.estAt j) d.now → gapEdges d j = [] →
      ∃ u, exec (.trackingGap t j) s = .next u ∧
        ((∀ g < 207, gapFits d j start g = false) → u.dev.ba = d.ba) ∧
        ((∃ g < 207, gapFits d j start g = true) → ∃ g < 207, gapFits d j start g = true ∧
          u.dev.ba = { d.ba with gaps := d.ba.gaps ++ [(j, BitVec.ofNat 64 (start + g * pwmTick))] }) ∧
        ChangesOnly [.ba, .free] [] d u.dev ∧ u.hst = s.hst

/-- The target check, at multiples of 10 s: a good result at or below TARGET counts, the second in a row ends the cell's balancing, and one
above it starts the count again (R203).

The thermal manager, at multiples of 100 ms: T_AMB, P_MAX with its fall above 85 degrees, whether balancing is forbidden with 5 degrees of hysteresis, and a
factor K that holds the dissipation of all RUN switches within what is available (R208 to R210). -/
def Obligations.BalanceSupervision : Prop :=
  (∀ (s : State) (t : Time) (a : List LaneSample) (d : Dev), d = tick t s.dev → d.awake = true → Calm d → (a.map LaneSample.cell).Nodup →
      (∀ x ∈ a, 1 ≤ x.cell ∧ x.cell ≤ ncells d ∧ x.cell ≤ 32) →
      (t.toNat % checkEvery ≠ 0 → exec (.balTargetCheck t a) s = .next { s with dev := d }) ∧
      (t.toNat % checkEvery = 0 → since t d.now ≤ usT 20 → ∃ u, exec (.balTargetCheck t a) s = .next u ∧
        (∀ x ∈ a, checked d x.cell = true →
          let r := laneEval d .a t x
          reg u.dev (resOff .a x.cell) = r.word ∧
          (r.stale = false → r.ovr = false → r.ow = false → r.supply = false →
            (r.value ≤ 100 * ((planEntry d x.cell).2.1 : Int) →
              (balCell u.dev x.cell).hits = (balCell d x.cell).hits + 1 ∧
              (balCell u.dev x.cell).done = ((balCell d x.cell).done || decide (1 ≤ (balCell d x.cell).hits))) ∧
            (100 * ((planEntry d x.cell).2.1 : Int) < r.value →
              (balCell u.dev x.cell).hits = 0 ∧ (balCell u.dev x.cell).done = (balCell d x.cell).done)) ∧
          (r.stale = true ∨ r.ovr = true ∨ r.ow = true ∨ r.supply = true →
            (balCell u.dev x.cell).hits = (balCell d x.cell).hits)) ∧
        u.dev.ba.plan = d.ba.plan ∧ u.dev.sf = d.sf ∧
        ChangesOnly ([.me, .ba, .ca, .free] ++ evParts) ([R.measUncomp, R.ringCnt, R.hostEvtLost] ++
          a.map (fun x => resOff .a x.cell)) d u.dev ∧ HostEvents s.hst u.hst)) ∧
  ((∀ (forbid : Bool) (req : Nat) (avail : Int), kOf forbid req avail ≤ 256 ∧
      (kOf forbid req avail : Int) * req ≤ 1024000000 * max avail 0 ∧
      (forbid = false → 0 < avail → (req : Int) ≤ 4000000 * avail → kOf forbid req avail = 256)) ∧
    ∀ (s : State) (t : Time) (l : List SwitchReading) (d : Dev), d = tick t s.dev → d.awake = true → Calm d → extFet d = false →
      t.toNat % msT 100 = 0 → since t d.now < msT 1 →
      -32768 ≤ (ambient d).getD (ambientEst (reg d R.balTherm) (tDie d) (dissipation d l)) →
      (ambient d).getD (ambientEst (reg d R.balTherm) (tDie d) (dissipation d l)) < 32768 →
      ∃ u, exec (.thermalManagerUpdate t l) s = .next u ∧
        u.dev.ba.tAmb = (ambient d).getD (ambientEst (reg d R.balTherm) (tDie d) (dissipation d l)) ∧
        u.dev.ba.pMax64 = (min ((regFld d R.balPcap 10 0 : Int) * 64) (96000 - 50 * max 0 (u.dev.ba.tAmb - 5440))).toNat ∧
        u.dev.ba.forbid = (if d.ba.forbid
          then decide ((regFld d R.balTherm 23 16 : Int) * 64 - 320 < u.dev.ba.tAmb ∨
            (regFld d R.balTherm 31 24 : Int) * 64 - 320 < tDie d)
          else decide ((regFld d R.balTherm 23 16 : Int) * 64 ≤ u.dev.ba.tAmb ∨
            (regFld d R.balTherm 31 24 : Int) * 64 ≤ tDie d)) ∧
        u.dev.ba.k = kOf u.dev.ba.forbid (pReqN u.dev) ((u.dev.ba.pMax64 : Int) - 64 * d.ba.pExc) ∧
        u.dev.ba.plan = d.ba.plan ∧ u.dev.sf = d.sf ∧
        ChangesOnly ([.ba, .free] ++ evParts) ([R.ringCnt, R.hostEvtLost] ++ l.map (fun r => R.balQbal + 4 * (r.j - 1))) d u.dev ∧
        HostEvents s.hst u.hst)


/-! ### Current, auxiliary inputs, Daroth wire (file 05) -/

/-- A current grid result, at an instant of its grid, writes both result words and the flags of CUR_STAT under the configuration in force at that
instant, and adds every sample since the last one, corrected by the words of its own time and counted once, to CUR_QACC with the fraction carried;
with the channel off or at another instant no result is written, the samples brought being added all the same, each while the channel was on at its
own time; more than 20 us after it nothing happens. A result carries OVR where its input left the modulator's stable range (beyond 200 mV in
magnitude), or its mean or a sample averaged into it passed 0x7FFFFF steps of 20 nV once corrected, and not otherwise (R130 to R132, R136, R428).
That accumulation goes on from a saturated value is the model's choice (log 84), that samples are brought with a result is log 114's. -/
def Obligations.CurrentGridAccumulates : Prop :=
  (∀ (d : Dev) (chB : Bool) (t : Time) (x : CurSample),
    ((curEval d t chB x).ovr = true ↔ curUnstable x.input = true ∨ curSum d chB t x < -0x7FFFFF ∨ 0x7FFFFF < curSum d chB t x ∨
      ∃ p ∈ x.parts, curOver (curCorrect d chB (t.toNat - p.age) p.raw.lo) = true ∨
        curOver (curCorrect d chB (t.toNat - p.age) p.raw.hi) = true) ∧
    (curStale d.io.cu.since (curW d) t = false →
      (curEval d t chB x).value = clampInt (-0x7FFFFF) 0x7FFFFF (curSum d chB t x))) ∧
  ∀ (s : State) (t : Time) (a b : CurSample) (raw : List CurRaw) (d o : Dev), d = tick t s.dev → o = asOf t d → d.running = true → Calm d →
    (usT 20 < since t d.now → exec (.currentGridResult t a b raw) s = .next { s with dev := d }) ∧
    (since t d.now ≤ usT 20 → ∃ u, exec (.currentGridResult t a b raw) s = .next u ∧
      (curOn d = true → curOn o = true → onGrid (curP2 (regFld o R.curCtrl 6 4)) t = true →
        reg u.dev R.curResA = (curEval o t false a).word ∧ reg u.dev R.curResB = (curEval o t true b).word ∧
        regBit u.dev R.curStat 0 = curStale o.io.cu.since (curW o) t ∧ regBit u.dev R.curStat 1 = curOvr o false t a ∧
        regBit u.dev R.curStat 2 = curOvr o true t b) ∧
      (curOn d = false ∨ curOn o = false ∨ onGrid (curP2 (regFld o R.curCtrl 6 4)) t = false →
        reg u.dev R.curResA = reg d R.curResA ∧ reg u.dev R.curResB = reg d R.curResB ∧
        (∀ j < 7, regBit u.dev R.curStat j = regBit d R.curStat j) ∧ u.dev.sf = d.sf ∧ u.dev.ev = d.ev ∧ u.hst = s.hst) ∧
      (let l := (streamTimes t.toNat raw).filter (fun e => decide (d.io.cu.rawTo.toNat ≤ e.1) && curOnAt d e.1)
       let x := l.map (fun e => curCorrect d false e.1 e.2.a)
       let q := x.foldl addCharge (qacc d * qUnit + d.io.cu.qfrac, false)
       u.dev.io.cu.qfrac = (q.1 % qUnit).toNat ∧ reg64 u.dev R.curQaccLo R.curQaccHi = unsigned 64 (q.1 / qUnit) ∧
       regBit u.dev R.curStat 7 = (q.2 || regBit d R.curStat 7) ∧ u.dev.io.cu.rawTo.toNat = max d.io.cu.rawTo.toNat t.toNat) ∧
      ChangesOnly ([.io, .ca, .free] ++ latchParts) [R.curResA, R.curResB, R.curStat, R.curQaccLo, R.curQaccHi, R.curOvrMs, R.ringCnt,
        R.safeCnt, R.hostEvtLost] d u.dev ∧ HostEvents s.hst u.hst)

/-- A current limit trip is confirmed when one modulator's last DEGLITCH corrected samples all lie beyond the limit: it sets its bit and latches
bit 1 with both outputs off; when both modulators' last DEGLITCH samples lie inside by the hysteresis the bit clears, and the cause is gone
once neither direction stands. Fewer samples, and samples that do neither, change nothing (R135, R311). -/
def Obligations.CurrentLimitTrips : Prop :=
  ∀ (s : State) (t : Time) (pos : Bool) (raw : List (Int × Int)) (d : Dev), d = tick t s.dev → d.running = true → Calm d →
    (limitRun t.toNat raw d = none ↔ raw.length < curDeglitch d) ∧
    (limitRun t.toNat raw d = none ∨ curOn d = false → exec (.currentLimitTrip t pos raw) s = .next { s with dev := d } ∧
      exec (.currentLimitRelease t pos raw) s = .next { s with dev := d }) ∧
    ∀ l, limitRun t.toNat raw d = some l → curOn d = true →
      ((∀ x ∈ l, 0 < beyondLimit pos d x.1) ∨ (∀ x ∈ l, 0 < beyondLimit pos d x.2) →
        ∃ u, exec (.currentLimitTrip t pos raw) s = .next u ∧
          (∀ j, regBit u.dev R.curStat j = (decide (j = limBit pos) || regBit d R.curStat j)) ∧
          ((1, 0) ∉ d.sf.present →
            u.dev.sf = (d.sf.latched 1 0 d.rg.pos d.now).dropped (true, true) d.now) ∧
          ((1, 0) ∈ d.sf.present → u.dev.sf = d.sf) ∧
          ChangesOnly latchParts [R.curStat, R.ringCnt, R.safeCnt, R.hostEvtLost] d u.dev ∧ HostEvents s.hst u.hst) ∧
      ((∃ x ∈ l, beyondLimit pos d x.1 ≤ 0) → (∃ x ∈ l, beyondLimit pos d x.2 ≤ 0) →
        exec (.currentLimitTrip t pos raw) s = .next { s with dev := d }) ∧
      ((∀ x ∈ l, beyondLimit pos d x.1 ≤ -(regFld d R.curLimCfg 15 12 * 10 ^ 13 : Int) ∧
          beyondLimit pos d x.2 ≤ -(regFld d R.curLimCfg 15 12 * 10 ^ 13 : Int)) →
        ∃ u, exec (.currentLimitRelease t pos raw) s = .next u ∧
          (∀ j, regBit u.dev R.curStat j = (decide (j ≠ limBit pos) && regBit d R.curStat j)) ∧
          u.dev.sf = { d.sf with present := if regBit d R.curStat (limBit !pos) then d.sf.present
            else d.sf.present.filter (fun c => c ≠ (1, 0)) } ∧
          ChangesOnly [.sf] [R.curStat] d u.dev ∧ u.hst = s.hst) ∧
      ((∃ x ∈ l, -(regFld d R.curLimCfg 15 12 * 10 ^ 13 : Int) < beyondLimit pos d x.1 ∨
          -(regFld d R.curLimCfg 15 12 * 10 ^ 13 : Int) < beyondLimit pos d x.2) →
        exec (.currentLimitRelease t pos raw) s = .next { s with dev := d })

/-- The 32 results of a frame that starts at a multiple of 32 x P are cast to every position with their sequence number, which then advances;
a frame of the CUR_SRC position is kept, sets CUR_RX_STAT, and counts the frames missed before it; a repeated one is dropped
(R139 to R141). -/
def Obligations.CurrentFramesCast : Prop :=
  (∀ (s : State) (t m0 : Time) (x : List CurSample) (d : Dev), d = tick t s.dev → d.running = true → Calm d →
    (curOn d = false ∨ x.length ≠ 32 ∨ frameDue d m0 = false →
      exec (.currentFrameSend t m0 x) s = .next { s with dev := d }) ∧
    (curOn d = true → regBit d R.curCtrl 1 = true → x.length = 32 → frameDue d m0 = true → d.rg.pos ≤ 62 →
      ∃ u, exec (.currentFrameSend t m0 x) s = .next u ∧ u.dev.io.cu.seqTx = (d.io.cu.seqTx + 1) % 65536 ∧
        u.dev.io.cu.goodBc = (bcWords d m0 x).2 ∧
        ((dropOwnSamples d.ln d.rg.pos).queue.length < 32 →
          ∃ f, u.dev.ln.queue = (dropOwnSamples d.ln d.rg.pos).queue ++ [f] ∧ f.dest = 0x3F ∧ f.typ = 0x06 ∧
            f.src = d.rg.pos ∧ f.seq = d.io.cu.seqTx % 256 ∧
            f.pay = curPayload ⟨m0, reg d R.curShunt, d.io.cu.seqTx, bcIdx d, (bcWords d m0 x).1⟩) ∧
        ChangesOnly [.io, .en, .queues, .cyc] [R.ringCnt] d u.dev ∧ u.hst = s.hst)) ∧
  ∀ (s : State) (t : Time) (src : Nat) (f : CurFrame) (d d' : Dev), d = tick t s.dev → d' = unbufferAny 0x06 d → d.running = true →
    d.head = false → Calm d → src ≤ 62 → d.rg.pos ≤ 62 → src ≠ d.rg.pos → regFld d R.curSrc 5 0 = src → d.en.imp = none →
    d.en.est = none →
    (d.io.cu.seqRx = some (f.seq % 65536) → exec (.currentSamplesRx t src f) s = .next { s with dev := d' }) ∧
    (∀ lost, (lost = match d.io.cu.seqRx with
        | some last => missedFrames last (f.seq % 65536)
        | none => 0) → lost + regFld d R.curRxStat 15 0 < 65536 →
      d.io.cu.seqRx ≠ some (f.seq % 65536) →
      ∃ u, exec (.currentSamplesRx t src f) s = .next u ∧
        reg u.dev R.curRxStat = packW [(regFld d R.curRxStat 15 0 + lost, 0), (f.seq % 65536, 16)] ∧
        u.dev.io.cu.frames.getLast? = some f ∧ u.dev.io.cu.seqRx = some (f.seq % 65536) ∧
        level u.dev 17 0 = (if lost = 0 then level d 17 0 else satNat 255 (level d 17 0 + 1)) ∧
        ChangesOnly ([.io, .en] ++ evParts) [R.curRxStat, R.ringCnt, R.hostEvtLost] d' u.dev ∧ u.hst = s.hst)

/-- An auxiliary scan that ends when one begun at a multiple of PERIOD does: open and short of each channel that reads a divider, the mean of its
16 conversions as its result, an NTC's temperature by R145's computation, the die sensors and VALID; a channel whose limits are guarded and
that is open or short for CONFIRM scans latches bit 2. At another time nothing is scanned (R142 to R147). -/
def Obligations.AuxScanReads : Prop :=
  ∀ (s : State) (t : Time) (codes : List (List Nat)) (m c : Int) (d : Dev), d = tick t s.dev → d.awake = true → Calm d →
    (scanDue d d.now.toNat = false → exec (.auxScan t codes m c) s = .next { s with dev := d }) ∧
    (scanDue d d.now.toNat = true → ∃ u, exec (.auxScan t codes m c) s = .next u ∧
      (∀ k < 8, let raw := meanCode (codes.getD k [])
        regBit u.dev R.auxStat k = (decide (2 ≤ auxMode d k) && decide (65208 < raw)) ∧
        regBit u.dev R.auxStat (8 + k) = (decide (2 ≤ auxMode d k) && decide (raw < 328)) ∧
        (auxMode d k = 0 → reg u.dev (R.auxRes + 4 * k) = reg d (R.auxRes + 4 * k)) ∧
        (∀ z, z = quot (((raw : Int) * 3000000 - signed 16 (regFld d R.calAuxOff 15 0) * 10 * 65536) *
            (10 ^ 8 + reg24 d R.calAuxGain)) (3000000 * 10 ^ 8) →
          auxMode d k = 1 → 0 ≤ z → z < 65536 → reg u.dev (R.auxRes + 4 * k) = BitVec.ofInt 32 z) ∧
        (auxMode d k = 2 → 328 ≤ raw → raw ≤ 65208 → reg u.dev (R.auxRes + 4 * k) = packW [(raw, 0), (0, 16)]) ∧
        (2 ≤ auxMode d k → raw < 328 ∨ 65208 < raw → reg u.dev (R.auxRes + 4 * k) = packW [(raw, 0), (0x8000, 16)]) ∧
        (∀ z, auxMode d k = 3 → 328 ≤ raw → raw ≤ 65208 →
          ntcTemp (regFld d R.auxNtcPull 15 0) (regFld d R.auxNtcCfg 15 0) (regFld d R.auxNtcCfg 31 16) raw = some z →
          -32768 ≤ z → z < 32768 → reg u.dev (R.auxRes + 4 * k) = packW [(raw, 0), (unsigned 16 z, 16)]) ∧
        (auxMode d k = 3 → regFld u.dev (R.auxRes + 4 * k) 15 0 = raw) ∧
        (auxMode d k = 3 → raw < 328 ∨ 65208 < raw → auxLim d k ≠ (0x7FFF, -0x8000) →
          auxConfirm d ≤ (auxChan d k).fault + 1 → regBit d R.auxStat (16 + k) = false → (2, k) ∉ d.sf.present →
          regBit u.dev R.auxStat (16 + k) = true ∧ (2, k) ∈ u.dev.sf.causes ∧ u.dev.outputsOff = true)) ∧
      (-32768 ≤ m - signed 16 (regFld d R.calTdieOff 15 0) → m - signed 16 (regFld d R.calTdieOff 15 0) < 32768 →
        signed 16 (regFld u.dev R.auxTdie 15 0) = m - signed 16 (regFld d R.calTdieOff 15 0)) ∧
      (-32768 ≤ c - signed 16 (regFld d R.calTdieOff 15 0) → c - signed 16 (regFld d R.calTdieOff 15 0) < 32768 →
        signed 16 (regFld u.dev R.auxTdie 31 16) = c - signed 16 (regFld d R.calTdieOff 15 0)) ∧
      regBit u.dev R.auxStat 24 = true ∧
      ChangesOnly ([.io, .en, .free] ++ latchParts) ([R.auxStat, R.auxTdie, R.ringCnt, R.safeCnt, R.hostEvtLost] ++
        (List.range 8).map (fun k => R.auxRes + 4 * k)) d u.dev ∧ HostEvents s.hst u.hst)

/-- A presence search, every 500 ms on an enabled port where nothing runs or waits: the attention finds the line unfed, shorted, without
presence, or present, and the reply to IDENT is decoded from its cells; an identity counts once two good reads agree, and another one in
PRESENT starts over; a bad read returns to SETTLING, and one without a good CRC counts; where the reply broke off, a second attention
decides (R148 to R156).

WIRE_XFER queues a transfer of a port whose state permits it; the transfer at the front sends its bytes and ends DONE with its reply, TIMEOUT
without a presence, DENIED_STATE on a short, CHECK_FAIL on a bad reply; strong power closes the pull-up for SPU_MS, whose end or overload
completes the transfer (R154, R157). -/
def Obligations.WireBusRuns : Prop :=
  (∀ (s : State) (t : Time) (p : Nat) (r : WireReply) (d : Dev), d = tick t s.dev → d.awake = true → Calm d →
      (searchDue p d = false → exec (.wirePresenceSearch t p r) s = .next { s with dev := d }) ∧
      (searchDue p d = true → ∃ u, exec (.wirePresenceSearch t p r) s = .next u ∧
        (wirePort u.dev p).searchDue = some (nextSearch (wirePort d p) d.now) ∧
        (wireFed r = false → (wirePort u.dev p).st = 0) ∧
        (wireFed r = true → lineShorted r.att = true → (wirePort u.dev p).st = 3) ∧
        (wireFed r = true → lineShorted r.att = false → presence r.att = false → (wirePort u.dev p).st = 0) ∧
        (wireFed r = true → lineShorted r.att = false → presence r.att = true →
          (readReply r.cells 8 = none → level u.dev 20 p = satNat 255 (level d 20 p + 1) ∧
            (wirePort u.dev p).tx = sentCells (wireFrame 1 []) ∧ (wirePort u.dev p).cand = none ∧
            (wirePort u.dev p).st = if brokenOff r.cells 8 then
              (if lineShorted r.again then 3 else if presence r.again then 1 else 0) else 1) ∧
          ∀ st data, readReply r.cells 8 = some (st, data) →
            (wirePort u.dev p).alarm = decide (st / 2 % 2 = 1) ∧
            (wirePort u.dev p).spuOn = (decide (st / 4 % 2 = 1) && spuAllowed d p) ∧
            (st % 2 = 0 ∨ st / 8 % 2 = 1 → (wirePort u.dev p).st = 1 ∧ (wirePort u.dev p).cand = none) ∧
            (st % 2 = 1 → st / 8 % 2 = 0 →
              ((wirePort d p).st = 2 → (wirePort d p).ident = padTo 8 data → (wirePort u.dev p).st = 2) ∧
              ((wirePort d p).st = 2 → (wirePort d p).ident ≠ padTo 8 data →
                (wirePort u.dev p).st = 1 ∧ (wirePort u.dev p).cand = some (padTo 8 data)) ∧
              ((wirePort d p).st ≠ 2 → (wirePort d p).cand = some (padTo 8 data) →
                (wirePort u.dev p).st = 2 ∧ (wirePort u.dev p).ident = padTo 8 data) ∧
              ((wirePort d p).st ≠ 2 → (wirePort d p).cand ≠ some (padTo 8 data) →
                (wirePort u.dev p).st = 1 ∧ (wirePort u.dev p).cand = some (padTo 8 data)))) ∧
        (∀ q < 4, q ≠ p → wirePort u.dev q = wirePort d q) ∧ (wirePort u.dev p).queue = (wirePort d p).queue ∧
        ChangesOnly (.io :: evParts) [R.ringCnt, R.hostEvtLost] d u.dev ∧ HostEvents s.hst u.hst)) ∧
  (∀ (s : State) (t : Time) (h : Nat) (c : Desc) (p : Nat) (d : Dev), d = tick t s.dev → d.awake = true → Calm d → dOp c = 0x60 →
      okWireXfer c = true → p = dFld c 2 1 0 →
      ∃ u, exec (.wireXfer t h c) s = .next u ∧
        (xferDenied c d = true →
          Finished s u h 0x12 (xferRecord p 0 (if (wirePort d p).st = 3 then 4 else 0) (wirePort d p).st (dFld c 2 29 24) []) ∧
          u.dev.io = d.io) ∧
        (xferDenied c d = false → 4 ≤ (wirePort d p).queue.length →
          Finished s u h 0x31 (xferRecord p 0 0 (wirePort d p).st (dFld c 2 29 24) []) ∧ u.dev.io = d.io) ∧
        (xferDenied c d = false → (wirePort d p).queue.length < 4 → u.hst = s.hst ∧
            wirePort u.dev p = { wirePort d p with queue := (wirePort d p).queue ++ [(h, c)] }) ∧
        ChangesOnly [.io, .ex, .queues, .cyc] [R.ringCnt] d u.dev) ∧
  (∀ (s : State) (t : Time) (p : Nat) (r : WireReply) (h : Nat) (c : Desc) (rest : List (Nat × Desc)) (nin : Nat) (d : Dev),
      d = tick t s.dev → d.awake = true → Calm d → p < 4 → (wirePort d p).spuOn = false →
      (wirePort d p).queue = (h, c) :: rest → dFld c 2 1 0 = p → nin = dFld c 2 29 24 →
      ∃ u, exec (.wireTransaction t p r) s = .next u ∧ (wirePort u.dev p).queue = rest ∧
        (xferDenied c d = true →
          Finished s u h 0x12 (xferRecord p 0 (if (wirePort d p).st = 3 then 4 else 0) (wirePort d p).st nin [])) ∧
        (xferDenied c d = false →
          (wireFed r = false ∨ (lineShorted r.att = false ∧ presence r.att = false) →
            Finished s u h 0x20 (xferRecord p 0 2 0 nin []) ∧ (wirePort u.dev p).st = 0) ∧
          (wireFed r = true → lineShorted r.att = true →
            Finished s u h 0x12 (xferRecord p 0 4 3 nin []) ∧ (wirePort u.dev p).st = 3) ∧
          (wireFed r = true → lineShorted r.att = false → presence r.att = true →
            (readReply r.cells nin = none →
              Finished s u h 0x40 (xferRecord p 0 1 (wirePort u.dev p).st nin []) ∧
              (wirePort u.dev p).tx = sentCells (wireFrame (dFld c 2 15 8) (xferOut c)) ∧
              level u.dev 20 p = satNat 255 (level d 20 p + 1)) ∧
            ∀ st data, readReply r.cells nin = some (st, data) →
              (decide (st / 4 % 2 = 1) && spuAllowed d p) = false →
                Finished s u h 0x00 (xferRecord p st 0 (wirePort d p).st nin data) ∧
                (wirePort u.dev p).tx = sentCells (wireFrame (dFld c 2 15 8) (xferOut c)))) ∧
        (∀ st data, xferDenied c d = false → wireFed r = true → lineShorted r.att = false → presence r.att = true →
            readReply r.cells nin = some (st, data) → st / 4 % 2 = 1 → spuAllowed d p = true →
          (wirePort u.dev p).spuOn = true ∧ (wirePort u.dev p).held = some (h, st, nin, data) ∧
          (wirePort u.dev p).spuEnds = BitVec.ofNat 64 (d.now.toNat + msT (regFld d R.auxWireCfg 17 8)) ∧
          (wirePort u.dev p).tx = sentCells (wireFrame (dFld c 2 15 8) (xferOut c)) ++ sentCells [0xC3]) ∧
        ChangesOnly ([.io, .ex] ++ evParts) [R.ringCnt, R.hostEvtLost] d u.dev) ∧
  ∀ (s : State) (t : Time) (p h st nin : Nat) (data : List Byte) (d : Dev), d = tick t s.dev → d.awake = true → Calm d → p < 4 →
      (wirePort d p).spuOn = true → (wirePort d p).held = some (h, st, nin, data) →
      (d.now.toNat < (wirePort d p).spuEnds.toNat → exec (.wireSpuEnd t p) s = .next { s with dev := d }) ∧
      ((wirePort d p).spuEnds.toNat ≤ d.now.toNat →
        ∃ u, exec (.wireSpuEnd t p) s = .next u ∧ wirePort u.dev p = { wirePort d p with spuOn := false, held := none } ∧
          Finished s u h 0x00 (xferRecord p st 0 (wirePort d p).st nin data) ∧
          ChangesOnly [.io, .ex, .queues, .cyc] [R.ringCnt] d u.dev) ∧
      ∃ u, exec (.wireSpuOverload t p) s = .next u ∧ wirePort u.dev p = { wirePort d p with spuOn := false, held := none } ∧
        level u.dev 21 p = satNat 255 (level d 21 p + 1) ∧
        Finished s u h 0x00 (xferRecord p st 3 (wirePort d p).st nin data) ∧
        ChangesOnly ([.io, .ex] ++ evParts) [R.ringCnt, R.hostEvtLost] d u.dev

/-! ### Xiava engines (file 06) -/

/-- At multiples of 100 ms a healthy engine writes a checkpoint of each of its cells; an engine that serves a cell without one for 300 ms, or whose
memory or self-test fails, is failed; a cell that is moved goes to a healthy engine of fewer than eight cells, of those to one with the fewest
(log 46); the replay of a moved cell ends, the samples between its checkpoint and the 256 ms of the ring are lost, and where there are any it
counts (R163 to R166). -/
def Obligations.EnginesFailAndMove : Prop :=
  (∀ (s : State) (t : Time) (l : List Nat) (x : List EngSample) (d d' : Dev), d = tick t s.dev → d.awake = true → Calm d →
    d' = engineRun x d →
    (d.now.toNat % msT 100 ≠ 0 → exec (.engineCheckpoint t l x) s = .next { s with dev := d' }) ∧
    (d.now.toNat % msT 100 = 0 → ∃ u, exec (.engineCheckpoint t l x) s = .next u ∧
      (∀ k, kget 0 u.dev.en.wrote k = if k ∈ l ∧ k < 16 ∧ engineFailed d k = false then d.now else kget 0 d.en.wrote k) ∧
      (∀ k n, k ∈ l → k < 16 → engineFailed d k = false → n ∈ servedBy d k → n ∉ d.en.rebal →
        kget Ckpt.init u.dev.en.ckpt n = ckptNow d' n) ∧
      (∀ n, (∀ k ∈ l, n ∉ servedBy d k) → kget Ckpt.init u.dev.en.ckpt n = kget Ckpt.init d.en.ckpt n) ∧
      u.dev.en.track = d'.en.track ∧ u.dev.en.imp = d'.en.imp ∧
      ChangesOnly [.en, .free] [] d u.dev ∧ u.hst = s.hst)) ∧
  (∀ (s : State) (t : Time) (k cause : Nat) (d : Dev), d = tick t s.dev → d.awake = true → Calm d → k < 16 →
    (engineFailed d k = true ∨ (cause = 3 ∧ (servedBy d k = [] ∨ since (kget d.ca.laneAt d.en.wrote k) d.now < msT 300)) →
      exec (.engineCheckpointMissed t k cause) s = .next { s with dev := d }) ∧
    (engineFailed d k = false → d.en.failed < 65536 →
      (cause = 3 → servedBy d k ≠ [] ∧ msT 300 ≤ since (kget d.ca.laneAt d.en.wrote k) d.now) →
      ∃ u, exec (.engineCheckpointMissed t k cause) s = .next u ∧
        (∀ j, engineFailed u.dev j = (decide (j = k) || engineFailed d j)) ∧
        level u.dev 23 k = satNat 255 (level d 23 k + 1) ∧
        (regBit d R.engCtrl 1 = false →
          ChangesOnly (.en :: evParts) [R.ringCnt, R.hostEvtLost] d u.dev ∧ u.dev.en.rebal = d.en.rebal) ∧
        HostEvents s.hst u.hst)) ∧
  (∀ (d : Dev) (n k : Nat), 1 ≤ n → n ≤ 32 → freeEngine d = some k →
    k < 16 ∧ engineFailed d k = false ∧ (servedBy d k).length < 8 ∧
    (∀ j < 16, engineFailed d j = false → (servedBy d j).length < 8 → (servedBy d k).length ≤ (servedBy d j).length) ∧
    engineOf (moveCell n d) n = k ∧ n ∈ (moveCell n d).en.rebal ∧
    ∀ m, 1 ≤ m → m ≤ 32 → m ≠ n → engineOf (moveCell n d) m = engineOf d m) ∧
  ∀ (s : State) (t : Time) (n : Nat) (x : List EngSample) (d d' : Dev), d = tick t s.dev → d.awake = true → Calm d →
    d' = engineRun x d →
    (n ∉ d.en.rebal ∨ engineFailed d (engineOf d n) = true → exec (.rebalanceReplayDone t n x) s = .next { s with dev := d }) ∧
    (n ∈ d.en.rebal → engineFailed d (engineOf d n) = false →
      ∃ u, exec (.rebalanceReplayDone t n x) s = .next u ∧
        u.dev.en.rebal = d.en.rebal.filter (fun k => k ≠ n) ∧
        (∀ m, m ≠ n → kget none u.dev.en.track m = kget none d'.en.track m) ∧
        level u.dev 24 0 = (if lostInstants d' n = [] then level d 24 0 else satNat 255 (level d 24 0 + 1)) ∧
        ChangesOnly ([.en, .free] ++ evParts) [R.ringCnt, R.hostEvtLost] d u.dev ∧ HostEvents s.hst u.hst)

/-- IMPEDANCE and ESTIMATE are denied, find the engines busy, or take the job, which brings STANDBY to ACTIVE; an IMPEDANCE job has its points
from its list or spaced from FMIN to FMAX, waits for the list that BULK brings, and starts at a current-frame boundary at or after its START. While
the load is shed no job is dispatched: it is held (R38, R50, R167, R169, R181, R190; that it is held is log 109). -/
def Obligations.EngineJobsAccepted : Prop :=
  ∀ (s : State) (t : Time) (h : Nat) (c : Desc) (d : Dev), d = tick t s.dev → d.awake = true → Calm d →
    (dOp c = 0x30 → okImpedance c = true →
      (impList c = true → tableBytes h (dWord c 7).toNat (4 * impNpts c) (d, s.hst) = none →
        exec (.impedance t h c) s = .next { s with dev := d }) ∧
      (∀ l, (impList c = true → tableBytes h (dWord c 7).toNat (4 * impNpts c) (d, s.hst) = some l) → (impList c = false → l = []) →
        d.pw.persist = true →
        exec (.impedance t h c) s = .next { s with dev := { d with en := { d.en with held := d.en.held ++ [⟨h, c, l⟩] } } }) ∧
      (d.pw.persist = false → ∀ l, (impList c = true → tableBytes h (dWord c 7).toNat (4 * impNpts c) (d, s.hst) = some l) →
        (impList c = false → l = []) →
        ∃ u, exec (.impedance t h c) s = .next u ∧
          (impDenied c (effMask d (dWord c 3)) d = true → Finished s u h 0x12 [] ∧ u.dev.en = d.en) ∧
          (impDenied c (effMask d (dWord c 3)) d = false →
            (d.en.imp.isSome = true → Finished s u h 0x31 [] ∧ u.dev.en = d.en) ∧
            (d.en.imp = none → u.dev.pw = { d.pw with st := .active, workAt := d.now } ∧ u.hst = s.hst ∧
              ∃ j, u.dev.en = { d.en with imp := some j } ∧ j.h = h ∧ j.d = c ∧ j.begun = false ∧
                j.mask = effMask d (dWord c 3) ∧ j.points = jobPoints c l ∧
                (d.now.toNat + frameLen d + msT 2 < 2 ^ 64 → impStartArg c + frameLen d < 2 ^ 64 →
                  j.startAt.toNat % frameLen d = 0 ∧
                  (impStartArg c = 0 → d.now.toNat + msT 2 ≤ j.startAt.toNat ∧
                    j.startAt.toNat < d.now.toNat + msT 2 + frameLen d) ∧
                  (impStartArg c ≠ 0 → impStartArg c ≤ j.startAt.toNat ∧ d.now.toNat ≤ j.startAt.toNat ∧
                    j.startAt.toNat < max (impStartArg c) d.now.toNat + frameLen d)))) ∧
          ChangesOnly [.en, .ex, .queues, .pw, .cyc] [R.ringCnt] d u.dev)) ∧
    (dOp c = 0x31 → okEstimate c = true → d.pw.persist = true →
      exec (.estimate t h c) s = .next { s with dev := { d with en := { d.en with held := d.en.held ++ [⟨h, c, []⟩] } } }) ∧
    (dOp c = 0x31 → okEstimate c = true → d.pw.persist = false →
      ∃ u, exec (.estimate t h c) s = .next u ∧
        (estDenied c (effMask d (dWord c 3)) d = true → Finished s u h 0x12 [] ∧ u.dev.en = d.en) ∧
        (estDenied c (effMask d (dWord c 3)) d = false →
          (d.en.est.isSome = true ∨ (∃ n ∈ maskCells (effMask d (dWord c 3)), loadRuns (modelSlot d n) (d, s.hst) = true) →
            Finished s u h 0x31 [] ∧ u.dev.en = d.en) ∧
          (d.en.est = none → (∀ n ∈ maskCells (effMask d (dWord c 3)), loadRuns (modelSlot d n) (d, s.hst) = false) →
            u.dev.pw = { d.pw with st := .active, workAt := d.now } ∧ u.hst = s.hst ∧
            ∃ b, b = (if bit (dWord c 2) 4 then ntcDetail d else 0) ∧
              u.dev.en = { d.en with est := some ⟨h, c, effMask d (dWord c 3), d.now, [], b, 0⟩ })) ∧
        ChangesOnly [.en, .ex, .queues, .pw, .cyc] [R.ringCnt] d u.dev)

/-- A job begins with the cells that may be excited; where none may, an active job ends INPUT_NOT_READY. Each active point has its share of
DURATION, its first half for the odd cells; before the half its eligible cells are divided, in ascending order, into the fewest equal sub-phases
that each fit P_MAX by what the sensed currents and resistances predict; a sub-phase begins at its time, and its cells' switches follow the chips
(R173 to R176).

The end of an engine job: an IMPEDANCE job that integrated for DURATION completes DONE where every entry has a result, else DONE_PARTIAL, and its
excitation ends; one that uses pack current and met no frame in its first 100 ms is INPUT_NOT_READY; an ESTIMATE job completes with its
records, or INPUT_NOT_READY where a CHAR precondition fails, and CHAR sets the phase offsets; in a load shed none of this happens (R38, R176, R180, R181, R187, R190). -/
def Obligations.EngineJobsRun : Prop :=
  ((∀ (s : State) (t : Time) (j : ImpJob) (d : Dev), d = tick t s.dev → d.awake = true → Calm d → d.en.imp = some j → j.begun = false →
      (d.now.toNat < j.startAt.toNat ∨ d.pw.persist = true → exec (.impedanceStart t j.h) s = .next { s with dev := d }) ∧
      (d.pw.persist = false → j.startAt.toNat ≤ d.now.toNat → ∃ u, exec (.impedanceStart t j.h) s = .next u ∧
        (impExc j.d = 1 → (∀ n ∈ maskCells j.mask, eligible d n = false) → Finished s u j.h 0x30 [] ∧ u.dev.en.imp = none) ∧
        (impExc j.d = 0 → u.hst = s.hst ∧ u.dev.ba = d.ba ∧ u.dev.en = { d.en with imp := some { j with
          begun := true, idx := engIdx d, lost0 := regFld d R.curRxStat 15 0, noact := [] } }) ∧
        (impExc j.d ≠ 0 → impExc j.d ≠ 1 ∨ (∃ n ∈ maskCells j.mask, eligible d n = true) →
          u.dev.en = { d.en with imp := some { j with
            begun := true, idx := engIdx d, lost0 := regFld d R.curRxStat 15 0
            noact := (maskCells j.mask).filter (fun n => !eligible d n) } } ∧
          u.dev.ba.excite = suspendedCells d j.mask ∧ HostEvents s.hst u.hst) ∧
        ChangesOnly ([.en, .ba, .free, .ex] ++ evParts) [R.ringCnt, R.hostEvtLost] d u.dev)) ∧
    (∀ (s : State) (t : Time) (j : ImpJob) (point sub : Nat) (odd : Bool) (ph : List (List Nat)) (k pos : Nat) (d : Dev), d = tick t s.dev →
      d.awake = true → Calm d → d.en.imp = some j →
      ph = (if sub = 0 then subPhases d ((halfCells j odd).filter (eligible d)) else (j.half.map Prod.snd).getD []) → k = max 1 ph.length →
      pos = (activeOrder j).idxOf point →
      (0 < sub → j.half.map Prod.fst ≠ some (point, odd) → exec (.excitationPhase t j.h point odd sub) s = .next { s with dev := d }) ∧
      ((0 < sub → j.half.map Prod.fst = some (point, odd)) →
        (d.now.toNat ≠ (phaseTimes j pos odd sub k).1 ∨ point ∉ activeOrder j ∨ k ≤ sub ∨ d.pw.persist = true →
        exec (.excitationPhase t j.h point odd sub) s = .next { s with dev := d })) ∧
      ((0 < sub → j.half.map Prod.fst = some (point, odd)) → j.begun = true → point ∈ activeOrder j → sub < k → d.pw.persist = false →
        d.now.toNat = (phaseTimes j pos odd sub k).1 →
        ∃ u, exec (.excitationPhase t j.h point odd sub) s = .next u ∧
          u.dev.ba.chips = (ph.getD sub []).map (fun n => ⟨n, BitVec.ofNat 64 d.now.toNat,
            BitVec.ofNat 64 (phaseTimes j pos odd sub k).2, chipPeriod (j.points.getD point 0)⟩) ∧
          u.dev.ba.pExc = (quot (sumNat ((ph.getD sub []).map (predicted2 d))) 2000000).toNat ∧
          u.dev.ba.excite = d.ba.excite ∧
          (∃ j', u.dev.en = { d.en with imp := some j' } ∧ j'.runs = j.runs ++ u.dev.ba.chips.map (fun r => (point, (r, k))) ∧
            ∀ q, q ∈ j'.thermal ↔ q ∈ j.thermal ∨ (k ≠ 1 ∧ q.1 = point ∧ q.2 ∈ ph.getD sub [])) ∧
          (∀ j', u.dev.en.imp = some j' → j'.half = (if sub = 0 then some ((point, odd), ph) else j.half) ∧
            j'.skipped = j.skipped ++ (if sub = 0 then ((halfCells j odd).filter (fun n => !eligible d n)).map (fun n => (point, n)) else [])) ∧
          ChangesOnly ([.en, .ba, .free] ++ evParts) [R.ringCnt, R.hostEvtLost] d u.dev ∧ HostEvents s.hst u.hst)) ∧
    ∀ (d : Dev) (l : List Nat), (subPhases d l).flatten = l ∧ (∀ g ∈ subPhases d l, g ≠ [] ∧ (phaseFits d g = true ∨ g.length = 1)) ∧
      ∀ p : List (List Nat), p.flatten = l → (∀ g ∈ p, g ≠ [] ∧ (phaseFits d g = true ∨ g.length = 1)) → (subPhases d l).length ≤ p.length) ∧
  ((∀ (s : State) (t : Time) (j : ImpJob) (ls : List RippleStep) (sp : List CellSpectra) (x : List EngSample) (d d' : Dev),
      d = tick t s.dev → d.awake = true → Calm d → d' = engineRun x d → d'.en.imp = some j → j.begun = true →
      (d.pw.persist = true → exec (.impedanceEnd t j.h ls sp x) s = .next { s with dev := d' }) ∧ (d.pw.persist = false →
      (impExc j.d = 1 ∨ j.framed = true → impSpan j.d + j.late ≤ since j.startAt d.now →
        ∃ u, exec (.impedanceEnd t j.h ls sp x) s = .next u ∧
          Finished s u j.h (if (impResult d' j ls sp).2 then 0x00 else 0x01) (impResult d' j ls sp).1 ∧
          u.dev.en = { d'.en with imp := none } ∧ u.dev.ba.excite = [] ∧ u.dev.ba.pExc = 0 ∧
          ChangesOnly ([.en, .ba, .free, .ex] ++ evParts) [R.ringCnt, R.hostEvtLost] d u.dev) ∧
      (impExc j.d ≠ 1 → j.framed = false → msT 100 ≤ since j.startAt d.now →
        ∃ u, exec (.impedanceEnd t j.h ls sp x) s = .next u ∧ Finished s u j.h 0x30 [] ∧
          u.dev.en = { d'.en with imp := none } ∧
          ChangesOnly ([.en, .ba, .free, .ex] ++ evParts) [R.ringCnt, R.hostEvtLost] d u.dev) ∧
      (impExc j.d = 1 ∨ j.framed = true → since j.startAt d.now < impSpan j.d + j.late →
        exec (.impedanceEnd t j.h ls sp x) s = .next { s with dev := d' }))) ∧
    ∀ (s : State) (t : Time) (j : EstJob) (ln : List RippleStep) (sp : List CellSpectra) (l : List BandSums) (d : Dev), d = tick t s.dev →
      d.awake = true → Calm d → l = charBands d ln sp → d.en.est = some j →
      (d.pw.persist = true → exec (.estimateEnd t j.h ⟨ln, sp⟩) s = .next { s with dev := d }) ∧ (d.pw.persist = false →
      (estMeasures j.d = true → j.bad = 0 → since j.startAt d.now < tempS j.d * lsbPerSec + j.late →
        exec (.estimateEnd t j.h ⟨ln, sp⟩) s = .next { s with dev := d }) ∧
      (bit (dWord j.d 2) 4 = false → (estMeasures j.d = true → tempS j.d * lsbPerSec + j.late ≤ since j.startAt d.now) →
        ∃ u d1, exec (.estimateEnd t j.h ⟨ln, sp⟩) s = .next u ∧ d1 = noteTemps j l d ∧
          Finished s u j.h (if estFull d1 j l then 0x00 else 0x01)
            (estHeader d1 j (maskCells j.mask).length 0 (headBand d1 j l) 0 ++ (maskCells j.mask).flatMap (estRecord d1 j l)) ∧
          u.dev.en = { d.en with est := none } ∧
          ChangesOnly [.en, .hist, .free, .ex, .queues, .cyc] [R.ringCnt] d u.dev) ∧
      (bit (dWord j.d 2) 4 = true → (j.bad = 0 → tempS j.d * lsbPerSec + j.late ≤ since j.startAt d.now) → charDetail d j l ≠ 0 →
        ∃ u, exec (.estimateEnd t j.h ⟨ln, sp⟩) s = .next u ∧
          Finished s u j.h 0x30 (estHeader d j 0 (charDetail d j l) (headBand d j l) 0) ∧
          u.dev.en = { d.en with est := none } ∧
          ChangesOnly [.en, .ex, .queues, .cyc] [R.ringCnt] d u.dev) ∧
      (bit (dWord j.d 2) 4 = true → tempS j.d * lsbPerSec + j.late ≤ since j.startAt d.now → charDetail d j l = 0 →
        ∃ u, exec (.estimateEnd t j.h ⟨ln, sp⟩) s = .next u ∧
          (∃ d1 st, (st = 0x00 ∨ st = 0x01) ∧ Finished s u j.h st (estHeader d1 j (maskCells j.mask).length 0 (headBand d1 j l) 0 ++
            (maskCells j.mask).flatMap (estRecord d1 j l)) ∧ d1.me = d.me ∧ d1.io = d.io ∧ d1.en = d.en) ∧
          (∀ n ∈ maskCells j.mask, ∀ p z, interp (meanNtc d).1 (phaseTable (cellModel d n)) = some p →
            z = roundRat (1000 * (phaseOf d (bandAt l n) - p)) → -32768 ≤ z → z < 32768 →
            reg u.dev (R.engToff + 4 * (n - 1)) = mergeBits 0xFFFF (reg d (R.engToff + 4 * (n - 1))) (BitVec.ofNat 32 (unsigned 16 z)) ∧
            shadow u.dev (R.engToff + 4 * (n - 1)) =
              mergeBits 0xFFFF (shadow d (R.engToff + 4 * (n - 1))) (BitVec.ofNat 32 (unsigned 16 z))) ∧
          u.dev.en = { d.en with est := none } ∧
          ChangesOnly [.en, .hist, .shad, .free, .ex, .queues, .cyc]
            (R.ringCnt :: (maskCells j.mask).map (fun n => R.engToff + 4 * (n - 1))) d u.dev)))

/-- MODEL_LOAD takes its table from the host window in the head, from BULK in a stack device, and waits for it: a busy slot, a table that fails a
check with its detail code, or the table loaded, at once or at the next tracker boundary where trackers use the slot; in a load shed it is held
(R38, R191 to R193; log 109). -/
def Obligations.ModelLoadChecks : Prop :=
  ∀ (s : State) (t : Time) (h : Nat) (c : Desc) (d : Dev), d = tick t s.dev → d.awake = true → Calm d → dOp c = 0x32 →
    okModelLoad c = true →
    (tableBytes h (mlOff c) (mlLen c) (d, s.hst) = none → exec (.modelLoad t h c) s = .next { s with dev := d }) ∧
    (∀ tab, tableBytes h (mlOff c) (mlLen c) (d, s.hst) = some tab → d.pw.persist = true →
      exec (.modelLoad t h c) s = .next { s with dev := { d with en := { d.en with held := d.en.held ++ [⟨h, c, tab⟩] } } }) ∧
    ∀ tab, tableBytes h (mlOff c) (mlLen c) (d, s.hst) = some tab → d.pw.persist = false →
      ∃ u, exec (.modelLoad t h c) s = .next u ∧
        (slotBusy d (mlSlot c) = true → Finished s u h 0x31 [] ∧ u.dev.en = d.en) ∧
        (slotBusy d (mlSlot c) = false → modelDetail (mlLen c) tab ≠ 0 → u.dev.en = d.en ∧
          Finished s u h 0x40 ([BitVec.ofNat 8 (mlSlot c), BitVec.ofNat 8 (modelDetail (mlLen c) tab), 0, 0] ++
            leBytes 4 (tab32 tab (mlLen c - 4)))) ∧
        (slotBusy d (mlSlot c) = false → modelDetail (mlLen c) tab = 0 →
          Finished s u h 0x00 ([BitVec.ofNat 8 (mlSlot c), 0, 0, 0] ++ leBytes 4 (tab32 tab (mlLen c - 4))) ∧
          (slotTracked d (mlSlot c) = false → model u.dev (mlSlot c) = tab ∧
            ∀ k, k ≠ mlSlot c → model u.dev k = model d k) ∧
          (slotTracked d (mlSlot c) = true → u.dev.en.models = d.en.models ∧ (mlSlot c, tab) ∈ u.dev.en.newModels)) ∧
        ChangesOnly [.en, .ex, .queues, .cyc] [R.ringCnt] d u.dev

/-- The tracker boundary, once a second: busy fractions; each tracked cell's mean voltage joins the last ten, and after REST_S of rest its SoC is
that of the open-circuit voltage on the branch of the last direction, where the slope permits; the models that waited. The tracker state is
saved every 600 s as six records of kind 3, which wait while a supply warning stands (R37, R182, R183, R191, R194). -/
def Obligations.TrackersUpdate : Prop :=
  (∀ (s : State) (t : Time) (x : List EngSample) (load : List Nat) (d d' : Dev), d = tick t s.dev → d.awake = true → Calm d →
    d' = engineRun x d →
    (trackDue d = false → exec (.trackerUpdate t x load) s = .next { s with dev := d' }) ∧
    (trackDue d = true → ∃ u, exec (.trackerUpdate t x load) s = .next u ∧
      (∀ k < 16, regFld u.dev (R.engLoad + 4 * k) 15 0 = min 65535 (load.getD k 0)) ∧
      (∀ n, tracked d n = true → ∀ y, y = trackOf d' n →
        (trackOf u.dev n).secs = lastN 10 (y.secs ++ [y.acc]) ∧ (trackOf u.dev n).acc = (0, 0) ∧
        (∀ f v sc, y.restFrom = some f → { y with secs := lastN 10 (y.secs ++ [y.acc]) }.restVolts = some v → ntcTemps d ≠ [] →
          tab32 (cellModel d n) 0x30 * lsbPerSec ≤ since f d.now →
          ocvSoc (cellModel d n) y.charging (meanNtc d).1 v = some sc →
          (trackOf u.dev n).soc = some sc ∧ (trackOf u.dev n).corrected = true ∧ (trackOf u.dev n).gap = false) ∧
        (y.restFrom = none → extFet d = false → (trackOf u.dev n).soc = y.soc ∧ (trackOf u.dev n).caps = y.caps)) ∧
      (∀ n, tracked d n = false → kget none u.dev.en.track n = kget none d'.en.track n) ∧
      u.dev.en.trackAt = some d.now ∧
      u.dev.pw = (if regBit d R.engCtrl 0 then { d.pw with st := .active, workAt := d.now } else d.pw) ∧ u.dev.en.newModels = [] ∧
      (d.en.newModels = [] → u.dev.en.models = d.en.models) ∧
      (∀ k tab, d.en.newModels = [(k, tab)] → model u.dev k = tab ∧ ∀ j, j ≠ k → model u.dev j = model d j) ∧
      ChangesOnly ([.en, .pw, .free] ++ evParts) ([R.ringCnt, R.hostEvtLost] ++ (List.range 16).map (fun k => R.engLoad + 4 * k))
        d u.dev ∧ HostEvents s.hst u.hst)) ∧
  ∀ (s : State) (t : Time) (d : Dev), d = tick t s.dev → d.awake = true → Calm d →
    (regBit d R.engCtrl 0 = false ∨ (∃ x, d.en.savedAt = some x ∧ since x d.now < 600 * lsbPerSec) →
      exec (.trackerStateSave t) s = .next { s with dev := d }) ∧
    (regBit d R.engCtrl 0 = true → (∀ x, d.en.savedAt = some x → 600 * lsbPerSec ≤ since x d.now) →
      ∃ u, exec (.trackerStateSave t) s = .next u ∧ u.dev.en = { d.en with savedAt := some d.now } ∧
        (d.pw.warn = false → u.dev.mm.nextSeq = d.mm.nextSeq + 6 ∧
          ∀ p < 6, ∃ x ∈ u.dev.mm.sectors, ∃ r ∈ x.recs, r.kind = 3 ∧ r.part = p ∧ r.seq = d.mm.nextSeq + p ∧
            r.pay = padTo 48 ((upFrom (6 * p + 1) 6).flatMap (trackBytes d))) ∧
        (d.pw.warn = true → u.dev.mm.sectors = d.mm.sectors ∧
          u.dev.mm.due.recs = d.mm.due.recs ++ (upFrom 0 6).map (fun p => (3, p, (upFrom (6 * p + 1) 6).flatMap (trackBytes d)))) ∧
        ChangesOnly [.hist, .en] [] d u.dev ∧ u.hst = s.hst)

/-! ### Link (file 08) -/

/-- A frame that a port sends reads back as itself: its header and CRC check, its length is 12 bytes over its payload's, and its fields and
payload are those sent, ALIVE among them (R226 to R229). Characters sent from either disparity are received as they were sent, and the burst
that carries the frame splits into its start, the frame's bytes and its end (R220, R223; the code tables are the family's, log 85). -/
def Obligations.FrameBytesReadBack : Prop :=
  (∀ (p : Port) (alive : Nat) (f : Frame), alive < 16 → f.dest < 64 → f.src ≤ 62 → f.typ < 256 → f.seq < 256 → f.stat < 16 →
    f.pay.length ≤ 256 →
    (frameBytes p alive f).length = 12 + f.pay.length ∧ headerOk (frameBytes p alive f) = true ∧ crcOk (frameBytes p alive f) = true ∧
    frameOf (frameBytes p alive f) = { f with turned := false, stamp := 0 } ∧ ((frameBytes p alive f).getD 4 0).toNat % 16 = alive) ∧
  (∀ (rd : Bool) (l : List Sym), decodeGroups rd (encodeSyms rd l).1 = (l, (encodeSyms rd l).2)) ∧
  ∀ (b : Burst) (l : List Byte), b.frame = some l →
    (splitFrame (burstSyms b)).body = l.map some ∧ (splitFrame (burstSyms b)).fin = (if b.aborted then .abort else .eof) ∧
    (b.ls < 256 → (readHead (burstSyms b)).map Prod.fst = some b.ls) ∧
    (∀ src alive : Nat, src < 63 → alive < 16 → b.ans = some (true, src, alive + 16 * (15 - alive)) →
      (readHead (burstSyms b)).bind Prod.snd = some ⟨none, src, alive⟩) ∧
    ∀ reason src alive : Nat, reason < 16 → src < 64 → alive < 16 → b.ans = some (false, src, alive + 16 * reason) →
      (readHead (burstSyms b)).bind Prod.snd = some ⟨some reason, src, alive⟩

/-- Training: a rate that has failed gives way to the next lower one, the last to a new cycle, the third cycle to BROKEN; the south end
listens at each rate for 100 us in turn; a port locks on 16 consecutive valid characters that begin with SYNC, counts what comes and what it
sends from there on, answers TURN with a training burst 100 ns to 200 ns later, and fails the rate at a code violation; BROKEN trains again
after 100 ms; a hop that comes UP with the check of 4,096 characters in each direction and 64 delay exchanges resets ALIVE, its north end
sends the first burst, a tone that waited is driven on that port, and cell trips that waited latch; one delay exchange every 10 s replaces
the oldest of 64 (R57, R224, R234, R236, R238, R427). What a south end does with its own failed attempts and after a silent lock is the
model's choice (log 118).

An UP hop goes down when no valid burst comes for 100 us, when the wake stream comes, and by RETRAIN, which also starts a training or
broken hop again; a hop in bypass, or one that RETRAIN does not name, stays (R236, R237, R244, R268). -/
def Obligations.HopsTrainAndFall : Prop :=
  (∀ (s : State) (t : Time) (p : Port) (x : LinkPort) (d : Dev), d = tick t s.dev → d.awake = true → Calm d → port d p = x →
      (∀ groups : List Nat,
        (training x = false ∨ checkFailed p groups d = false → exec (.trainRateTimeout t p groups) s = .next { s with dev := d }) ∧
        (training x = true → checkFailed p groups d = true → ∃ u, exec (.trainRateTimeout t p groups) s = .next u ∧
          RateFailed d u.dev p ∧ ChangesOnly (portPart p :: evParts) evRegs d u.dev ∧ HostEvents s.hst u.hst)) ∧
      (∀ (groups : List Nat) (l : List Sym) (rd : Bool), (l, rd) = decodeGroups x.rxRd groups → training x = true →
        ∃ u, exec (.burstRx t p groups) s = .next u ∧
          (x.locked = false → locks l = false → (port u.dev p).still = x.still ∧ ChangesOnly [.queues, .cyc] [R.ringCnt] d u.dev) ∧
          (x.locked = true → 0 < badCount l → RateFailed d u.dev p ∧
            ChangesOnly (portPart p :: evParts) evRegs d u.dev) ∧
          (∀ y, y = { x with
              rxRd := rd, lineAt := d.now, locked := true, rxN := x.rxN + l.length,
              trainAt := if x.locked = true then x.trainAt else d.now } →
            (x.locked = true ∧ badCount l = 0) ∨ (x.locked = false ∧ locks l = true) →
            (l.getLast? ≠ some (.ctl .turn) → (port u.dev p).still = y.still) ∧
            (l.getLast? = some (.ctl .turn) → toneOn d p = false →
              (port u.dev p).rxN = y.rxN ∧ (port u.dev p).locked = true ∧
              ∃ k : Nat, 20 ≤ k ∧ k ≤ 40 ∧ TrainSent (setPort p y d) p (d.now + BitVec.ofNat 64 k) (port u.dev p)) ∧
            ChangesOnly [portPart p, .free, .queues, .cyc] [R.ringCnt] d u.dev)) ∧
      (∀ from0 : Time, from0 = (if x.locked = true then x.lineAt else x.listenAt) →
        (training x = false ∨ p = .north ∨ passed (usT 100) from0 d.now = false →
          exec (.trainListenRate t p) s = .next { s with dev := d }) ∧
        (training x = true → p = .south → passed (usT 100) from0 d.now = true →
          ∃ u, exec (.trainListenRate t p) s = .next u ∧
            port u.dev p = { x.tryRate (if x.trial < 2 then x.trial + 1 else startRate d p) d.now with
              trainAt := if x.locked = true then d.now else x.trainAt } ∧
            ChangesOnly [portPart p] [] d u.dev ∧ u.hst = s.hst)) ∧
      (∀ (ex : List DlyStamps) (y : LinkPort),
        y = { x with
          st := .up, rate := x.trial, cycles := 0, ups := (x.ups + 1) % 65536, alive := 0, lastAlive := none, rxBuf := []
          dly := ex.map (exchangeDelay x.trial), dlyAt := d.now, burstAt := d.now, lineAt := d.now, ownTo := 0, waitAt := d.now
          sent := none, toneDue := false } →
        (training x = false ∨ ex.length ≠ 64 ∨ x.locked = false ∨ x.rxN < 4096 ∨ x.txN < 4096 ∨
            passed (checkTime x.trial) x.trainAt d.now = false →
          exec (.linkUp t p ex) s = .next { s with dev := d }) ∧
        (training x = true → ex.length = 64 → x.locked = true → 4096 ≤ x.rxN → 4096 ≤ x.txN →
            passed (checkTime x.trial) x.trainAt d.now = true →
          ∃ u, exec (.linkUp t p ex) s = .next u ∧ (port u.dev p).st = .up ∧ u.dev.pw.tripWake = [] ∧
            (∀ e ∈ d.pw.tripWake, (0, e.1) ∉ d.sf.present → (0, e.1) ∈ u.dev.sf.causes) ∧
            (d.pw.tripWake = [] →
              (x.toneDue = true → u.dev.tn = { d.tn with fwd := none } ∧
                port u.dev p = { y.cutOff d.now with toneTx := true, toneLeft := 9, toneFrom := d.now } ∧
                (d.tn.fwd = none ∨ d.tn.fwd = some p ∨ (port d (otherPort p)).toneTx = true →
                  port u.dev (otherPort p) = port d (otherPort p))) ∧
              (x.toneDue = false → u.dev.tn = d.tn ∧ (p = .south ∨ toneOn d p = true → port u.dev p = y) ∧
                (p = .north → toneOn d p = false → BurstSent (setPort p y d) p d.now (port u.dev p))) ∧
              ChangesOnly [.north, .south, .tn, .queues, .ex] [] d u.dev ∧ u.hst = s.hst))) ∧
      (x.st ≠ .broken ∨ passed (msT 100) x.trainAt d.now = false → exec (.trainRetry t p) s = .next { s with dev := d }) ∧
      (x.st = .broken → passed (msT 100) x.trainAt d.now = true → ∃ u, exec (.trainRetry t p) s = .next u ∧
        port u.dev p = { x with
          st := .training, trial := startRate d p, cycles := 0, tries := 0, locked := false, rxN := 0, txN := 0, ownTo := 0
          sent := none, ackDue := none, wakeTx := false, wakeRx := false, rxHead := none, rxBad := false, cut := false
          again := false, quietAt := none, trainAt := d.now, listenAt := d.now } ∧
        ChangesOnly [portPart p] [] d u.dev ∧ u.hst = s.hst) ∧
      ∀ e : DlyStamps,
        (x.st ≠ .up ∨ passed (msT 10000) x.dlyAt d.now = false → exec (.delayExchange t p e) s = .next { s with dev := d }) ∧
        (x.st = .up → passed (msT 10000) x.dlyAt d.now = true → ∃ u, exec (.delayExchange t p e) s = .next u ∧
          port u.dev p = { x with dly := lastN 64 (x.dly ++ [exchangeDelay x.rate e]), dlyAt := d.now } ∧
          ChangesOnly [portPart p] [] d u.dev ∧ u.hst = s.hst)) ∧
  ((∀ (s : State) (t : Time) (p : Port) (d : Dev), d = tick t s.dev → d.awake = true → Calm d →
      ((port d p).st ≠ .up ∨ silent (port d p) d.now = false → exec (.hopDownTimeout t p) s = .next { s with dev := d }) ∧
      ((port d p).st = .up → silent (port d p) d.now = true →
        ∃ u, exec (.hopDownTimeout t p) s = .next u ∧ WentDown d u.dev p ∧ (port u.dev p).wakeRx = false ∧
          ChangesOnly (portPart p :: .rg :: evParts) evRegs d u.dev ∧ HostEvents s.hst u.hst) ∧
      ((port d p).st ≠ .up → exec (.wakeStreamOnUp t p) s = .next { s with dev := d }) ∧
      ((port d p).st = .up → ∃ u, exec (.wakeStreamOnUp t p) s = .next u ∧ WentDown d u.dev p ∧
        (port u.dev p).wakeRx = true ∧ (port u.dev p).wakeAt = d.now ∧ training (port u.dev p) = false ∧
        ChangesOnly (portPart p :: .rg :: evParts) evRegs d u.dev ∧ HostEvents s.hst u.hst)) ∧
    ∀ (s : State) (t : Time) (v : Word) (d : Dev), d = tick t s.dev → d.running = true → Calm d →
      ∃ u, exec (.linkRetrain t v) s = .next u ∧
        (∀ p : Port,
          (bit v (portIdx p) = true → (port d p).st = .up → WentDown d u.dev p) ∧
          (bit v (portIdx p) = true → (port d p).st = .training ∨ (port d p).st = .broken →
            (port u.dev p).st = .training ∧ (port u.dev p).trial = rateLimit d p ∧ (port u.dev p).cycles = 0) ∧
          (bit v (portIdx p) = false ∨ (port d p).st = .bypass →
            (port u.dev p).still = (port d p).still)) ∧
        ChangesOnly (.north :: .south :: .rg :: evParts) evRegs d u.dev ∧ HostEvents s.hst u.hst)

/-- Bursts: a burst that ends with TURN is answered 100 ns to 200 ns later; its ACK ends the frame outstanding, a lost or refused one is sent again
at most three times, a busy peer's and one that the tone cut off are sent again uncounted; after three retries the frame is dropped and counted.
Every code violation counts; characters that do not end with TURN pass no line. A line without a valid character for 2.0 us is taken back by the
north end, with a training burst while it trains, and with no frame that waits for the peer's burst; one that the tone has left by it 2.0 us later
(R222 to R225, R233, R234, R236, R237, R242). -/
def Obligations.BurstsAlternate : Prop :=
  (∀ (s : State) (t : Time) (p : Port) (groups : List Nat) (x : LinkPort) (l : List Sym) (ans : Option Answer) (d : Dev),
    d = tick t s.dev → d.running = true → Calm d → port d p = x → x.st = .up → l = (decodeGroups x.rxRd groups).1 →
    ans = ((readHead l).orElse (fun _ => x.rxHead)).bind Prod.snd →
    ∃ u, exec (.burstRx t p groups) s = .next u ∧
      regFld u.dev (cntOff p 0) 31 16 = satNat 65535 (regFld d (cntOff p 0) 31 16 + badCount l) ∧
      (badCount l = 0 → l.getLast? ≠ some (.ctl .turn) → (port u.dev p).ownTo = x.ownTo ∧ (port u.dev p).out = x.out ∧
        (port u.dev p).retries = x.retries) ∧
      (badCount l = 0 → l.getLast? = some (.ctl .turn) →
        (∀ ls a, (readHead l).orElse (fun _ => x.rxHead) = some (ls, a) → x.rxBad = false → lsFits d p ls = true → x.out = none →
          (port u.dev p).burstAt = d.now ∧ (port u.dev p).peerLs = ls) ∧
        (∀ f, x.out = some f → x.cut = false → ans ≠ some ⟨none, f.src, x.alive⟩ → ans ≠ some ⟨some 1, f.src, x.alive⟩ →
          3 ≤ x.retries → (port u.dev p).alive = (x.alive + 1) % 16 ∧ (port u.dev p).retries = 0 ∧
            regFld u.dev (cntOff p 1) 31 16 = satNat 65535 (regFld d (cntOff p 1) 31 16 + 1) ∧
            level u.dev 31 (portIdx p) = satNat 255 (level d 31 (portIdx p) + 1) ∧
            (lasting d 31 (portIdx p) = false → bucketN d 31 ≤ level d 31 (portIdx p) + 1 →
              (port u.dev p).st = .training)) ∧
        (toneOn d p = false → ∃ (k : Nat) (start : Time), 20 ≤ k ∧ k ≤ 40 ∧ start = d.now + BitVec.ofNat 64 k ∧
          (x.out = none ∨ x.cut = true → BurstSent d p start (port u.dev p) ∧ (port u.dev p).alive = x.alive ∧
            (port u.dev p).retries = x.retries) ∧
          (∀ f, x.out = some f → x.cut = false →
            (ans = some ⟨none, f.src, x.alive⟩ →
              BurstSent (setPort p { x with out := none, retries := 0, again := false, alive := (x.alive + 1) % 16 } d) p start
                (port u.dev p) ∧
              (port u.dev p).alive = (x.alive + 1) % 16 ∧ (port u.dev p).retries = 0) ∧
            (ans = some ⟨some 1, f.src, x.alive⟩ →
              BurstSent (setPort p { x with again := true } d) p start (port u.dev p) ∧ (port u.dev p).retries = x.retries) ∧
            (ans ≠ some ⟨none, f.src, x.alive⟩ → ans ≠ some ⟨some 1, f.src, x.alive⟩ → x.retries < 3 →
              BurstSent (setPort p { x with again := true } d) p start (port u.dev p) ∧ (port u.dev p).retries = x.retries + 1 ∧
              regFld u.dev (cntOff p 1) 15 0 = satNat 65535 (regFld d (cntOff p 1) 15 0 + 1))))) ∧
      ChangesOnly (portPart p :: .rg :: .ex :: .free :: evParts) (cntOff p 0 :: cntOff p 1 :: evRegs) d u.dev ∧
      u.hst = { s.hst with win := u.hst.win, eq := u.hst.eq, cmds := u.hst.cmds, devAt := u.hst.devAt, devWrote := u.hst.devWrote }) ∧
  ∀ (s : State) (t : Time) (c : Instr) (due : Bool) (d : Dev), d = tick t s.dev → d.running = true → Calm d →
    (c = .lineReclaim t ∧ due = (passed (usT 2) d.ln.lineAt d.now && decide (d.ln.ownTo.toNat + usT 2 ≤ d.now.toNat))) ∨
      (c = .toneLineRetake t .north ∧ due = (match d.ln.quietAt with
        | some q => passed (usT 2) q d.now
        | none => false)) →
    ((d.ln.st ≠ .up ∧ (training d.ln = false ∨ c ≠ .lineReclaim t)) ∨ toneOn d .north = true ∨ due = false →
      exec c s = .next { s with dev := d }) ∧
    (training d.ln = true → c = .lineReclaim t → toneOn d .north = false → due = true →
      ∃ u, exec c s = .next u ∧ TrainSent d .north d.now u.dev.ln ∧ ChangesOnly [.north] [] d u.dev ∧ u.hst = s.hst) ∧
    (d.ln.st = .up → toneOn d .north = false → due = true →
      ∃ u, exec c s = .next u ∧ BurstSent d .north d.now u.dev.ln ∧ ChangesOnly [.north, .queues, .ex] [] d u.dev ∧ u.hst = s.hst)

/-- Frames: one cut off by a tone leaves nothing, nor does one that ended with ABORT, whose copy ends with ABORT where it had begun; a bad one is
refused in the next burst and counted by its cause, and at N the hop trains at the next lower rate; a repeated ALIVE is acknowledged and counted,
not delivered; with four frames in the receive buffer a good one is refused as busy; else it is acknowledged, and one for another position goes on
by the other port, cut-through where that is allowed, or is dropped and counted where 32 wait there; a payload that does not fit its type counts as
a data error; LINK_TEST returns (R222, R229 to R235, R237, R242, R245, R246, R248). That violations are counted alone, then the header, then the CRC
is the model's choice (log 87). -/
def Obligations.FramesTaken : Prop :=
  ∀ (s : State) (t : Time) (p : Port) (groups : List Nat) (x y : LinkPort) (l : List Sym) (c : FrameChars) (b : List Byte) (al : Nat)
    (d : Dev), d = tick t s.dev → d.running = true → Calm d → port d p = x → x.st = .up →
    l = (decodeGroups x.rxRd groups).1 → c = splitFrame l → .ctl .sof ∈ l → b = c.body.filterMap id → al = (b.getD 4 0).toNat % 16 →
    y = { x with
      rxRd := (decodeGroups x.rxRd groups).2, lineAt := d.now
      rxHead := (readHead c.head).orElse (fun _ => x.rxHead), rxBad := x.rxBad || c.head.any (fun z => decide (z = .bad)) } →
    ∃ u, exec (.frameRx t p groups) s = .next u ∧
      regFld u.dev (cntOff p 0) 31 16 = satNat 65535 (regFld d (cntOff p 0) 31 16 + badCount (if c.fin = .tone then c.head else l)) ∧
      (0 < badCount l → none ∈ c.body → (port u.dev p).st = .up → c.fin ≠ .abort → c.fin ≠ .tone →
        (port u.dev p).ackDue.map Prod.fst = some false ∧ (port u.dev p).lastAlive = x.lastAlive) ∧
      (c.fin = .tone → badCount c.head = 0 → port u.dev p = y ∧ ChangesOnly [portPart p] [] d u.dev ∧ u.hst = s.hst) ∧
      (badCount l = 0 →
        (c.fin = .abort → port u.dev p = y ∧ ChangesOnly [portPart p, portPart (otherPort p), .free] [] d u.dev ∧ u.hst = s.hst ∧
          ∀ (q : Port) (go : Bool), q = otherPort p →
            go = (headerOk b && decide (x.lastAlive ≠ some al) && cutThrough d p q (headerAt d.now x.rate (c.body.length - 7))) →
            (go = false → port u.dev q = port d q) ∧
            (go = true → (frameOf b).loc = false → d.rg.pos ≤ 62 → (frameOf b).dest ≠ d.rg.pos → (frameOf b).src ≠ d.rg.pos →
              (frameOf b).typ ∉ [0x04, 0x07] → ∃ m, (port u.dev q).sent = some m ∧ m.aborted = true ∧ (port u.dev q).out = none ∧
                m.frame = some (frameBytes q (port d q).alive (frameOf b)))) ∧
        (c.fin = .eof ∨ c.fin = .other →
          (frameCause b ≠ 0 →
            (lasting d 30 (portIdx p) = true ∨ level d 30 (portIdx p) + 1 < bucketN d 30 →
              (port u.dev p).ackDue = some (false, if headerOk b = true then (b.getD 1 0).toNat % 64 else 0x3F, al)) ∧
            (lasting d 30 (portIdx p) = false → bucketN d 30 ≤ level d 30 (portIdx p) + 1 →
              (port u.dev p).st = .training ∧ (port u.dev p).trial = max (rateLimit d p) (min 2 (x.rate + 1))) ∧
            level u.dev 30 (portIdx p) = satNat 255 (level d 30 (portIdx p) + 1) ∧
            regFld u.dev (cntOff p 0) 15 0 = satNat 65535 (regFld d (cntOff p 0) 15 0 + if frameCause b = 1 then 1 else 0) ∧
            regFld u.dev (cntOff p 2) 15 0 = satNat 65535 (regFld d (cntOff p 2) 15 0 + if frameCause b = 2 then 1 else 0) ∧
            ChangesOnly (.north :: .south :: .free :: .rg :: evParts) (cntOff p 0 :: cntOff p 2 :: evRegs) d u.dev ∧
            HostEvents s.hst u.hst) ∧
          (frameCause b = 0 → c.fin = .other → (port u.dev p).ackDue = some (false, (b.getD 1 0).toNat % 64, al) ∧
            (port u.dev p).lastAlive = x.lastAlive ∧ u.hst = s.hst) ∧
          (frameCause b = 0 → c.fin = .eof → x.lastAlive = some al →
            port u.dev p = { y with ackDue := some (true, (frameOf b).src, al + 16 * (15 - al)) } ∧
            regFld u.dev (cntOff p 2) 31 16 = satNat 65535 (regFld d (cntOff p 2) 31 16 + 1) ∧
            ChangesOnly [portPart p, .cyc] [cntOff p 2] d u.dev ∧ u.hst = s.hst) ∧
          (frameCause b = 0 → c.fin = .eof → x.lastAlive ≠ some al → 4 ≤ x.rxBuf.length →
            port u.dev p = { y with ackDue := some (false, (frameOf b).src, al + 16) } ∧
            ChangesOnly [portPart p] [] d u.dev ∧ u.hst = s.hst) ∧
          (frameCause b = 0 → c.fin = .eof → x.lastAlive ≠ some al → x.rxBuf.length < 4 →
            (port u.dev p).ackDue = some (true, (frameOf b).src, al + 16 * (15 - al)) ∧ (port u.dev p).lastAlive = some al ∧
            (∀ (q : Port) (th : Nat), q = otherPort p → th = headerAt d.now x.rate (c.body.length - 7) →
              (frameOf b).loc = false → d.rg.pos ≤ 62 → (frameOf b).dest ≠ d.rg.pos → (frameOf b).src ≠ d.rg.pos →
              (frameOf b).dest ≠ 0x3F → (frameOf b).typ ∉ [0x03, 0x04, 0x07, 0x09, 0x0A] →
              (cutThrough d p q th = true → (port u.dev q).out = some (frameOf b) ∧
                ((port u.dev q).sent.bind Burst.frame) = some (frameBytes q (port d q).alive (frameOf b)) ∧
                ChangesOnly [portPart p, portPart q, .free] [] d u.dev) ∧
              (cutThrough d p q th = false →
                ((port d q).queue.length < 32 → (port u.dev q).queue = (port d q).queue ++ [frameOf b]) ∧
                (32 ≤ (port d q).queue.length →
                  regFld u.dev R.ringCnt 15 0 = satNat 65535 (regFld d R.ringCnt 15 0 + 1)) ∧
                ChangesOnly [portPart p, .queues, .cyc] [R.ringCnt] d u.dev)) ∧
            ((frameOf b).loc = true ∨ (d.rg.pos ≤ 62 ∧ (frameOf b).dest = d.rg.pos) →
              (payloadOk (frameOf b) = true → (frameOf b).typ ∉ [0x01, 0x05, 0x10] → (port u.dev p).rxBuf = x.rxBuf ++
                [⟨(frameOf b).typ, (frameOf b).stat, BitVec.ofNat 64 (headerAt d.now x.rate (c.body.length - 7))⟩]) ∧
              (payloadOk (frameOf b) = false →
                regFld u.dev R.linkDataErr 15 0 = satNat 65535 (regFld d R.linkDataErr 15 0 + 1) ∧
                ChangesOnly [portPart p, .cyc] [R.linkDataErr] d u.dev) ∧
              ((frameOf b).loc = true → (frameOf b).typ = 0x10 → x.queue.length < 32 →
                ∃ g, (port u.dev p).queue = x.queue ++ [g] ∧ g.typ = 0x10 ∧ g.loc = true ∧ g.pay = (frameOf b).pay ∧
                  ChangesOnly [portPart p, .queues] [] d u.dev)))))

/-- The fault tone: on each port its bursts of 20 us repeat every 1 ms, and end in 100 us of holdoff once no port is driven; one that arrives is
forwarded by the other port unless this device originates, is in holdoff or receives it at both ports within 1 us, and cuts off what these ports
send; 2.0 us of it latch "fault tone received", counted, and no output stays on; its end stops the forwarding, and a short one is counted. A wake
stream ends on a port 2.0 ms after it began, the hop that it took down trains, and the REQUESTs that asked for a stream are answered when no port
drives one any more (R240 to R245, R296, R311). -/
def Obligations.ToneAndWakeStream : Prop :=
  ∀ (s : State) (t : Time) (d : Dev), d = tick t s.dev → d.running = true → Calm d →
    (∀ due : Port → Bool, (∀ p, due p = true ↔ (port d p).toneTx = false ∧ 0 < (port d p).toneLeft ∧
        passed (msT 1) (port d p).toneFrom d.now = true) →
      ((∀ p, due p = false) → exec (.faultToneRepeat t) s = .next { s with dev := d }) ∧
      ((∃ p, due p = true) → ∃ u, exec (.faultToneRepeat t) s = .next u ∧ u.dev.tn = { d.tn with fwd := none } ∧
        (∀ p, due p = true → port u.dev p = { (port d p).cutOff d.now with
          toneTx := true, toneLeft := (port d p).toneLeft - 1, toneFrom := d.now }) ∧
        (∀ p, due p = false → d.tn.fwd ≠ some p ∨ (port d p).toneTx = true → port u.dev p = port d p) ∧
        (∀ p, due p = false → d.tn.fwd = some p → (port d p).toneTx = false →
          port u.dev p = { port d p with quietAt := some d.now, lineAt := d.now }) ∧
        ChangesOnly [.tn, .north, .south] [] d u.dev ∧ u.hst = s.hst)) ∧
    (∀ ended : Port → Bool, (∀ p, ended p = true ↔ (port d p).toneTx = true ∧ passed (usT 20) (port d p).toneFrom d.now = true) →
      ((∀ p, ended p = false) → exec (.faultToneBurstEnd t) s = .next { s with dev := d }) ∧
      ((∃ p, ended p = true) → ∃ u, exec (.faultToneBurstEnd t) s = .next u ∧
        (∀ p, ended p = false → port u.dev p = port d p) ∧
        (∀ p, ended p = true → port u.dev p = if (port d p).rxTone then { port d p with toneTx := false }
          else { port d p with toneTx := false, quietAt := some d.now, lineAt := d.now }) ∧
        u.dev.tn = (if (d.ln.toneTx && !ended .north) || (d.ls.toneTx && !ended .south) then d.tn else { d.tn with hold := true, holdAt := d.now }) ∧
        ChangesOnly [.tn, .north, .south] [] d u.dev ∧ u.hst = s.hst)) ∧
    (∃ u, exec (.toneHoldoffEnd t) s = .next u ∧
      u.dev.tn = { d.tn with hold := d.tn.hold && !passed (usT 100) d.tn.holdAt d.now } ∧
      ChangesOnly [.tn] [] d u.dev ∧ u.hst = s.hst) ∧
    (∀ (p : Port) (both : Bool), both = ((port d (otherPort p)).rxTone && decide (since (port d (otherPort p)).rxAt d.now ≤ usT 1)) →
      ∃ u, exec (.toneRx t p) s = .next u ∧
        port u.dev p = { (port d p).cutOff d.now with rxTone := true, rxAt := d.now, rxOk := false, quietAt := none, lineAt := d.now } ∧
        (driving d = true ∨ d.tn.hold = true → u.dev.tn = d.tn) ∧
        (driving d = false → d.tn.hold = false → both = true → u.dev.tn = { d.tn with fwd := none }) ∧
        (driving d = false → d.tn.hold = false → both = false →
          (d.tn.fwd = none → u.dev.tn = { d.tn with fwd := some (otherPort p) } ∧
            port u.dev (otherPort p) = { (port d (otherPort p)).cutOff d.now with quietAt := none }) ∧
          (d.tn.fwd ≠ none → u.dev.tn = d.tn)) ∧
        (d.tn.fwd ≠ none → port u.dev (otherPort p) = port d (otherPort p)) ∧
        ChangesOnly [.north, .south, .tn] [] d u.dev ∧ u.hst = s.hst) ∧
    (∀ p : Port,
      ((port d p).rxTone = false ∨ (port d p).rxOk = true ∨ since (port d p).rxAt d.now < usT 2 ∨ toneIgnored d p = true →
        exec (.toneConfirm t p) s = .next { s with dev := d }) ∧
      ((port d p).rxTone = true → (port d p).rxOk = false → usT 2 ≤ since (port d p).rxAt d.now → toneIgnored d p = false →
        ∃ u, exec (.toneConfirm t p) s = .next u ∧
          regFld u.dev R.linkToneCnt 15 0 = satNat 65535 (regFld d R.linkToneCnt 15 0 + 1) ∧ (port u.dev p).rxOk = true ∧
          ((3, 0) ∉ d.sf.present → (3, 0) ∈ u.dev.sf.causes ∧ u.dev.sf.lastBit = 3 ∧ u.dev.sf.lastPos = 0x3F ∧
            u.dev.outputsOff = true) ∧
          u.dev.tn = d.tn ∧
          ChangesOnly (portPart p :: latchParts) (R.linkToneCnt :: R.safeCnt :: evRegs) d u.dev ∧ HostEvents s.hst u.hst)) ∧
    (∀ p : Port, (port d p).rxTone = false → exec (.toneEnd t p) s = .next { s with dev := d }) ∧
    (∀ (p : Port) (len : Nat), len = since (port d p).rxAt d.now → (port d p).rxTone = true →
      ∃ u, exec (.toneEnd t p) s = .next u ∧ (port u.dev p).rxTone = false ∧ (port u.dev p).quietAt = some d.now ∧
        (port u.dev p).lineAt = d.now ∧ u.dev.sf.toneQuiet = d.now ∧
        u.dev.tn = (if d.tn.fwd = some (otherPort p) then { d.tn with fwd := none, hold := true, holdAt := d.now } else d.tn) ∧
        (regFld u.dev R.linkToneCnt 31 16 = satNat 65535 (regFld d R.linkToneCnt 31 16 +
          if len < usT 2 ∧ (port d p).rxOk = false ∧ toneIgnored d p = false then 1 else 0)) ∧
        ((port d (otherPort p)).rxTone = false → (3, 0) ∉ u.dev.sf.present) ∧
        u.dev.sf.causes = d.sf.causes ∧
        ChangesOnly (.north :: .south :: .tn :: .sf :: evParts) (R.linkToneCnt :: evRegs) d u.dev ∧
        HostEvents s.hst u.hst) ∧
    (∃ u, exec (.wakeStreamEnd t) s = .next u ∧
      (∀ p : Port,
        (wakeOver d p = false → (port u.dev p).still = (port d p).still) ∧
        (wakeOver d p = true → (port u.dev p).wakeTx = false ∧ (port u.dev p).wakeRx = false ∧
          ((port d p).wakeRx = true → training (port u.dev p) = true ∧ (port u.dev p).trial = startRate d p))) ∧
      (d.head = false → (d.ln.wakeTx = true ∨ d.ls.wakeTx = true) → (∀ p : Port, (port d p).wakeTx = true → wakeOver d p = true) →
        ∀ c ∈ d.ex.cmds, c.d = [] → ⟨c.h, 0x00, [], d.now⟩ ∈ u.dev.ex.results ∧ ∀ k ∈ u.dev.ex.cmds, k.h ≠ c.h) ∧
      ChangesOnly [.north, .south, .queues, .ex, .cyc] [R.ringCnt] d u.dev)

/-! ### Ring (file 09) -/

/-- RING_ENUM is busy while sweeps, another enumeration or commands to the stack run, meets a ring break with both hops down, and else sends
the first ENUM frame. A stack device takes NEXT as its position and passes the frame on with its entry, or stays unassigned; OP 0x10 sets
its route; a frame of another OP goes on as it is; the frame back at the head's south port ends the pass (R229, R231, R253, R254). -/
def Obligations.EnumerationAssigns : Prop :=
  (∀ (s : State) (t : Time) (h : Nat) (c : Desc) (d : Dev), d = tick t s.dev → d.awake = true → Calm d → d.head = true → dOp c = 0x80 →
    zeroFrom c 2 = true →
    ∃ u, exec (.ringEnum t h c) s = .next u ∧
      (d.sw.collect ≠ [] ∨ d.rg.enumH ≠ none ∨ stackCommand s.hst = true →
        Finished s u h 0x31 [] ∧ ChangesOnly [] [] d u.dev) ∧
      (d.sw.collect = [] → d.rg.enumH = none → stackCommand s.hst = false →
        (d.ln.st ≠ .up → d.ls.st ≠ .up → Finished s u h 0x21 [] ∧ ChangesOnly [] [] d u.dev) ∧
        (d.ln.st = .up ∨ d.ls.st = .up →
          u.dev.rg = { d.rg with enumH := some h, enumPass := 1, enumAt := d.now } ∧
          Queued d u.dev .north (allFrame 0 (statusNibble d) 0x09 0 [1, 1, 0, 0]) ∧
          ChangesOnly [.rg, .queues, .cyc] [R.ringCnt] d u.dev ∧ u.hst = s.hst))) ∧
  ∀ (s : State) (t : Time) (p : Port) (e : EnumMsg) (d : Dev), d = unbuffer p 0x09 (tick t s.dev) → d.running = true → Calm d →
    ∃ u, exec (.enumRx t p e) s = .next u ∧
      (d.head = true → e.op ≠ 1 ∨ p = .north ∨ d.rg.enumPass ≠ 1 → u.dev = d ∧ u.hst = s.hst) ∧
      (d.head = false → e.op = 1 ∨ e.op = 2 → 1 ≤ e.next → e.next ≤ 62 →
        u.dev.rg = { d.rg with pos := e.next } ∧
        PassedOn d u.dev p (allFrame 0 (port d p).rxStat 0x09 0
          (enumBytes ⟨e.op, if e.op = 1 then e.next + 1 else e.next - 1, e.count + 1, e.overflow,
            e.entries ++ [(BitVec.ofNat 8 (rateByte d), BitVec.ofNat 8 (ncells d))]⟩)) ∧
        ChangesOnly (.rg :: .queues :: .cyc :: passParts) [R.ringCnt] d u.dev ∧ u.hst = s.hst) ∧
      (d.head = false → e.op = 1 ∨ e.op = 2 → e.next = 0 ∨ 62 < e.next →
        u.dev.rg = { d.rg with pos := 0x3F } ∧
        PassedOn d u.dev p (allFrame 0 (port d p).rxStat 0x09 0
          (enumBytes ⟨e.op, e.next, e.count, true, e.entries⟩)) ∧
        ChangesOnly (.rg :: .queues :: .cyc :: passParts) [R.ringCnt] d u.dev ∧ u.hst = s.hst) ∧
      (d.head = false → e.op = 0x10 →
        u.dev.rg = { d.rg with b := e.next, castled := decide (e.next ≠ 0x3F) } ∧
        ((port d (otherPort p)).st = .up →
          PassedOn d u.dev p (allFrame 0 (port d p).rxStat 0x09 0 (enumBytes e))) ∧
        (e.next ≠ 0x3F → (port d p).st ≠ .up → (port u.dev p).queue = []) ∧
        ChangesOnly (.rg :: .queues :: .cyc :: passParts) [R.ringCnt] d u.dev ∧ u.hst = s.hst) ∧
      (d.head = false → e.op ≠ 1 → e.op ≠ 2 → e.op ≠ 0x10 →
        PassedOn d u.dev p (allFrame 0 (port d p).rxStat 0x09 0 (enumBytes e)) ∧
        ChangesOnly (.queues :: .cyc :: passParts) [R.ringCnt] d u.dev ∧ u.hst = s.hst) ∧
      (d.head = true → e.op = 1 → p = .south → d.rg.enumPass = 1 →
        u.dev.rg.n = e.next - 1 ∧ u.dev.rg.overflow = e.overflow ∧ u.dev.rg.enumPass = 3 ∧ u.dev.rg.b = 0x3F ∧
        u.dev.rg.castled = false ∧ u.dev.rg.brk = false ∧
        (∀ k x, e.entries[k]? = some x → ∃ r, (k + 1, r) ∈ u.dev.rg.recs ∧ r.rate = x.1.toNat % 16 ∧ r.ncells = x.2.toNat) ∧
        Queued d u.dev .north (allFrame 0 (statusNibble d) 0x09 0 [0x10, 0x3F, 0, 0]) ∧
        ChangesOnly [.rg, .sf, .queues, .cyc] [R.ringCnt] d u.dev ∧ u.hst = s.hst)

/-- Beacons: the head sends one on each port at every multiple of 1 ms and numbers them; a stack device that uses a copy takes its error, state and
hops (those of the north copy are kept beside), steps ring time beyond 1 us and restarts it below minus 1 s, and passes the copy on with the hop's
delay in CORR and the arrival of its TMARK noted, from which its residence is added as it departs; 3 ms without one is holdover, 53 ms lost (R255 to
R257). -/
def Obligations.BeaconsCarryTime : Prop :=
  (∀ (s : State) (t : Time) (d : Dev), d = tick t s.dev → d.awake = true → Calm d → d.head = true →
    (d.now.toNat % msT 1 ≠ 0 → exec (.beaconSend t) s = .next { s with dev := d }) ∧
    (d.now.toNat % msT 1 = 0 → ∃ u, exec (.beaconSend t) s = .next u ∧ u.dev.rg = { d.rg with beNum := (d.rg.beNum + 1) % 65536 } ∧
      (∀ p : Port, (port d p).queue.length < 32 → (port u.dev p).queue = (port d p).queue ++
        [allFrame 0 (statusNibble d) 0x07 d.rg.beNum
          (beaconBytes d.now.toNat 0 1 d.pw.locked d.rg.beNum)]) ∧
      ChangesOnly [.rg, .queues, .cyc] [R.ringCnt] d u.dev ∧ u.hst = s.hst)) ∧
  (∀ (s : State) (t : Time) (p : Port) (b : Beacon) (g : Nat) (e : Int) (hn : Option Nat) (d : Dev), d = unbuffer p 0x07 (tick t s.dev) →
    hn = (if p = .north then some b.hops else d.tb.hopsN) → d.running = true → Calm d → d.head = false → e = beaconError d t p b →
    g = (if -80 ≤ e ∧ e ≤ 80 then
      (if d.tb.st = .holdover ∨ d.tb.st = .lost ∨ d.tb.st = .none then 1 else min 16 (d.tb.good + 1)) else 0) →
    ∃ u, exec (.beaconRx t p b) s = .next u ∧
      (useCopy d p b = false → u.dev.tb = { d.tb with heard := u.dev.tb.heard, hopsN := hn } ∧
        ChangesOnly (.tb :: .queues :: .cyc :: passParts) [R.ringTimeCnt, R.ringCnt] d u.dev) ∧
      (useCopy d p b = true →
        u.dev.tb = { d.tb with
          st := if 16 ≤ g ∧ d.pw.locked = true then .locked else .acquiring
          hops := b.hops, fromS := decide (p = .south)
          err := clampInt (-32768) 32767 e
          good := g, rxAt := u.dev.now, num := some b.num, heard := u.dev.tb.heard, hopsN := hn }) ∧
      (useCopy d p b = false ∨ (-8000 ≤ e ∧ e ≤ 8000) →
        u.dev.now = d.now ∧
        PassedOn d u.dev p { allFrame 0 (port d p).rxStat 0x07 b.num
          (beaconBytes b.t0.toNat (b.corr + delayEighths (port d p)) (b.hops + 1) b.locked b.num) with
            stamp := 8 * (d.now.toNat - since t d.now) + b.frac } ∧
        ChangesOnly (.tb :: .queues :: .cyc :: passParts) [R.ringTimeCnt, R.ringCnt] d u.dev) ∧
      (useCopy d p b = true → 8000 < e → d.now.toNat + (e / 40).toNat < 2 ^ 64 →
        u.dev.now.toNat = d.now.toNat + (e / 40).toNat ∧
        regFld u.dev R.ringTimeCnt 15 0 = satNat 65535 (regFld d R.ringTimeCnt 15 0 + 1)) ∧
      (useCopy d p b = true → -8000000000 ≤ e → e < -8000 →
        u.dev.now = d.now ∧
        regFld u.dev R.ringTimeCnt 15 0 = satNat 65535 (regFld d R.ringTimeCnt 15 0 + 1)) ∧
      (useCopy d p b = true → e < -8000000000 → beaconTime d p b / 40 + since t d.now < 2 ^ 64 →
        u.dev.now.toNat = beaconTime d p b / 40 + since t d.now ∧
        u.dev.pr.commits = [] ∧ u.dev.sw.wanted = [] ∧ u.dev.sw.held = [] ∧ u.dev.ex.streams = [] ∧
        level u.dev 38 0 = satNat 255 (level d 38 0 + 1))) ∧
  ∀ (s : State) (t : Time) (d : Dev), d = tick t s.dev → d.running = true → Calm d → d.head = false →
    (d.tb.st = .acquiring ∨ d.tb.st = .locked → msT 3 ≤ since d.tb.rxAt d.now →
      ∃ u, exec (.timebaseHoldover t) s = .next u ∧ u.dev.tb = { d.tb with st := .holdover, good := 0 } ∧
        ChangesOnly [.tb] [] d u.dev ∧ u.hst = s.hst) ∧
    (since d.tb.rxAt d.now < msT 3 → exec (.timebaseHoldover t) s = .next { s with dev := d }) ∧
    (d.tb.st = .holdover → msT 53 ≤ since d.tb.rxAt d.now →
      ∃ u, exec (.timebaseLost t) s = .next u ∧ u.dev.tb = { d.tb with st := .lost } ∧
        level u.dev 37 0 = satNat 255 (level d 37 0 + 1) ∧
        ChangesOnly (.tb :: evParts) evRegs d u.dev ∧ HostEvents s.hst u.hst) ∧
    (d.tb.st ≠ .holdover ∨ since d.tb.rxAt d.now < msT 53 → exec (.timebaseLost t) s = .next { s with dev := d })

/-- Heartbeats: the head sends one 0.5 ms past each multiple of 1 ms and numbers it, and with it ends an enumeration and counts, for each position,
the heartbeats that did not show it within 5 ms; a position writes its own slot and passes the frame on, one without a position marks it; back at
the head it shows which positions are there, ends losses and a break; 5 ms without one is a break (R246, R250, R253, R254, R262, R268, R328). -/
def Obligations.HeartbeatsSupervise : Prop :=
  (∀ (s : State) (t : Time) (d : Dev), d = tick t s.dev → d.awake = true → Calm d → d.head = true →
    (d.now.toNat % msT 1 ≠ usT 500 → exec (.heartbeatSend t) s = .next { s with dev := d }) ∧
    (d.now.toNat % msT 1 = usT 500 → ∃ u, exec (.heartbeatSend t) s = .next u ∧
      (d.rg.enumH = none →
        u.dev.rg = { d.rg with
          hbCtr := (d.rg.hbCtr + 1) % 16, hbNum := (d.rg.hbNum + 1) % 65536, recs := u.dev.rg.recs
          hbOpen := d.rg.hbOpen.filter (fun e => d.rg.hbOpen.all (fun x => x.num ≠ e.num || !passed (msT 5) x.at0 d.now)) ++
            [⟨d.rg.hbNum, d.now, []⟩] } ∧
        (d.rg.hbOpen = [] → u.dev.rg.recs = d.rg.recs) ∧
        (∀ e, d.rg.hbOpen = [e] → passed (msT 5) e.at0 d.now = true → u.dev.rg.recs = d.rg.recs.map (fun r =>
          if r.1 ∈ e.seen then r else (r.1, { r.2 with missed := min 65535 (r.2.missed + 1) }))) ∧
        (d.ln.st = .up → d.ln.queue.length < 32 → ∃ l f, u.dev.ln.queue = d.ln.queue ++ f :: l ∧
          f.typ = 0x0A ∧ f.dest = 0x3F ∧ f.pay.length = 130 ∧ leNat (f.pay.take 2) = d.rg.hbNum % 65536) ∧
        ChangesOnly [.rg, .queues, .cyc] [R.ringCnt] d u.dev ∧ u.hst = s.hst) ∧
      (∀ h, d.rg.enumH = some h → d.rg.enumPass = 3 →
        u.dev.rg.enumDone = true ∧ u.dev.rg.enumH = none ∧
        Finished s u h (if d.rg.second = true ∨ d.rg.overflow = true then 0x01 else 0x00) (enumResult d)) ∧
      (∀ h, d.rg.enumH = some h → d.rg.enumPass = 2 → msT 5 ≤ since d.rg.enumAt d.now →
        u.dev.rg.enumDone = true ∧ u.dev.rg.enumH = none ∧ u.dev.rg.n = (heardPositions d).length)) ∧
    (since d.rg.hbBack d.now < msT 5 ∨ d.rg.brk = true → exec (.breakDetectTimeout t) s = .next { s with dev := d }) ∧
    (msT 5 ≤ since d.rg.hbBack d.now → d.rg.brk = false →
      ∃ u, exec (.breakDetectTimeout t) s = .next u ∧
        (u.dev.rg = { d.rg with
            brk := true, brkAt := d.now, upAt := none
            lo := if d.rg.loEv then d.rg.lo else highest d.rg.inN
            hi := if d.rg.hiEv then d.rg.hi else lowest (d.rg.n + 1) d.rg.inS } ∧
          level u.dev 35 0 = satNat 255 (level d 35 0 + 1)) ∧
        ChangesOnly (.rg :: evParts) evRegs d u.dev ∧ HostEvents s.hst u.hst)) ∧
  ∀ (s : State) (t : Time) (p : Port) (hb : Heartbeat) (d : Dev), d = unbuffer p 0x0A (tick t s.dev) → d.running = true → Calm d →
    ∃ u, exec (.heartbeatRx t p hb) s = .next u ∧
      (d.head = true → u.dev.rg.hbBack = d.now ∧ u.dev.rg.unas = hb.unassigned ∧
        (∀ q, 1 ≤ q → q ≤ 62 → slotSeen d hb q = true → q ∉ u.dev.sf.lost ∧
          (∀ r ∈ u.dev.rg.recs, r.1 = q → r.2.seen = true ∧ r.2.advAt = d.now ∧ r.2.missed = 0) ∧
          (p = .north → q ∈ u.dev.rg.inN) ∧ (p = .south → q ∈ u.dev.rg.inS)) ∧
        (d.rg.brk = true → p = .south → hb.turned = false → d.rg.castled = false → u.dev.rg.brk = false) ∧
        (d.rg.castled = false → ChangesOnly (.rg :: .sf :: evParts) evRegs d u.dev ∧ HostEvents s.hst u.hst) ∧
        ChangesOnly (.rg :: .sf :: .sw :: .ex :: evParts) evRegs d u.dev) ∧
      (d.head = false → d.rg.pos ≤ 62 → u.dev.sf.hbRx = d.now ∧ u.dev.sf.hbEver = true ∧
        (d.rg.hbLast ≠ some hb.num →
          u.dev.rg = { d.rg with hbCtr := (d.rg.hbCtr + 1) % 16, hbLast := some hb.num }) ∧
        (d.rg.hbLast = some hb.num → u.dev.rg = d.rg) ∧
        (∀ q go, q = otherPort p → go = cutThrough d p q (port d p).rxTh.toNat → go = true →
          ∃ f, (port u.dev q).out = some f ∧ f.typ = 0x0A ∧ f.stat = (port d p).rxStat ∧ (f.pay.drop (4 + 2 * d.rg.pos)).take 2 =
              [BitVec.ofNat 8 (slotFirst u.dev), BitVec.ofNat 8 (slotSecond u.dev)]) ∧
        ((port d (otherPort p)).st = .up → (port d (otherPort p)).queue.length < 24 →
            cutThrough d p (otherPort p) (port d p).rxTh.toNat = false →
          ∃ l f, (port u.dev (otherPort p)).queue = (port d (otherPort p)).queue ++ l ++ [f] ∧
            f.typ = 0x0A ∧ f.stat = (port d p).rxStat ∧ f.pay.length = 130 ∧ (f.pay.drop (4 + 2 * d.rg.pos)).take 2 =
              [BitVec.ofNat 8 (slotFirst u.dev), BitVec.ofNat 8 (slotSecond u.dev)]) ∧
        ((hbSlot hb 0).1.getLsbD 6 = d.pr.svcHead → ChangesOnly (.rg :: .sf :: evParts ++ passParts) evRegs d u.dev) ∧
        u.hst = s.hst) ∧
      (d.head = false → 62 < d.rg.pos →
        ((port d (otherPort p)).st = .up → PassedOn d u.dev p
          (allFrame 0 (port d p).rxStat 0x0A hb.num (hbBytes { hb with unassigned := true }))) ∧
        ((port d (otherPort p)).st ≠ .up → Queued d u.dev p
          (allFrame 0 (port d p).rxStat 0x0A hb.num (hbBytes { hb with unassigned := true, turned := true }))) ∧
        ChangesOnly (.queues :: .cyc :: passParts) [R.ringCnt] d u.dev ∧ u.hst = s.hst)

/-- A break that has lasted CASTLE_MS makes the head castle with B the low bound, ends the streams of unreachable positions, and marks the sweeps
that collect; a first enumeration pass that does not return leads to a second and to castling (the moments of the second pass are the model's
choice, log 52); a castled ring whose hops have all been UP for 1 s is restored (R253, R268 to R270, R304). -/
def Obligations.RingCastles : Prop :=
  ∀ (s : State) (t : Time) (d : Dev), d = tick t s.dev → d.awake = true → Calm d → d.head = true →
    (d.rg.brk = false ∨ passed (msT (regFld d R.ringCfg 7 0)) d.rg.brkAt d.now = false ∨ (d.rg.castled = true ∧ d.rg.b = d.rg.lo) →
      exec (.castle t) s = .next { s with dev := d }) ∧
    (d.rg.brk = true → passed (msT (regFld d R.ringCfg 7 0)) d.rg.brkAt d.now = true → d.rg.castled = false ∨ d.rg.b ≠ d.rg.lo →
      ∃ u, exec (.castle t) s = .next u ∧
        u.dev.rg = { d.rg with b := d.rg.lo, castled := decide (d.rg.lo ≠ 0x3F) } ∧
        regFld u.dev R.ringCnt 31 16 = satNat 65535 (regFld d R.ringCnt 31 16 + 1) ∧
        (∀ c ∈ u.dev.sw.collect, c.castled = true) ∧
        (∀ x ∈ u.hst.streams, reachable d x.pos = true) ∧
        ChangesOnly ([.rg, .sw, .ex] ++ evParts) evRegs d u.dev) ∧
    (d.rg.enumH = none ∨ d.rg.enumPass ≠ 1 ∨ passed (msT 20) d.rg.enumAt d.now = false →
      exec (.enumTimeout t) s = .next { s with dev := d }) ∧
    (∀ h, d.rg.enumH = some h → d.rg.enumPass = 1 → passed (msT 20) d.rg.enumAt d.now = true →
      ∃ u, exec (.enumTimeout t) s = .next u ∧
        u.dev.rg.enumPass = 2 ∧ u.dev.rg.second = true ∧ u.dev.rg.enumAt = d.now ∧ u.dev.rg.brk = true ∧
        u.dev.rg.b = highest d.rg.inN ∧ u.dev.rg.castled = decide (highest d.rg.inN ≠ 0x3F) ∧
        regFld u.dev R.ringCnt 31 16 = satNat 65535 (regFld d R.ringCnt 31 16 + 1) ∧
        ChangesOnly ([.rg, .sw, .ex] ++ evParts) evRegs d u.dev) ∧
    (d.rg.castled = false ∨ d.sw.collect ≠ [] ∨ allUp d = false ∨ d.rg.upAt = none → exec (.ringRestore t) s = .next { s with dev := d }) ∧
    (∀ a, d.rg.castled = true → d.sw.collect = [] → allUp d = true → d.rg.upAt = some a → passed (msT 1000) a d.now = true →
      ∃ u, exec (.ringRestore t) s = .next u ∧
        u.dev.rg = { d.rg with
          brk := false, lo := 0x3F, hi := 0x3F, loEv := false, hiEv := false, b := 0x3F, castled := false } ∧
        (∀ p : Port, (port d p).queue.length < 32 → (port u.dev p).queue = (port d p).queue ++
          [allFrame 0 (statusNibble d) 0x09 0 [0x10, 0x3F, 0, 0]]) ∧
        ChangesOnly (.rg :: evParts) evRegs d u.dev ∧ HostEvents s.hst u.hst)

/-- A SWEEP collects one entry for each requested position, and two collect at most; one without a position that can answer ends at once; a trigger
makes a position of its range sample at its time, or, with RETRIG, send again what it holds and otherwise sample at once, with LATE; an instant
served takes the charge snapshot and holds two frames of 256 and 64 bytes; frames are held to 100 ms after the instant, when a sweep that still
collects ends (R73, R138, R259, R263 to R266). -/
def Obligations.SweepsSample : Prop :=
  (∀ (s : State) (t : Time) (h : Nat) (c : Desc) (d : Dev), d = tick t s.dev → d.awake = true → Calm d → d.head = true → dOp c = 0x10 →
    okSweep c = true →
    ∃ u, exec (.sweep t h c) s = .next u ∧
      (2 ≤ d.sw.collect.length → Finished s u h 0x31 [] ∧ u.dev.sw = d.sw) ∧
      (d.sw.collect.length < 2 → (∃ p ∈ sweepPositions d c, missingAtStart d p = 0) →
        (∃ k ∈ u.dev.sw.collect, k.h = h ∧ k.slots.map SweepSlot.pos = sweepPositions d c ∧
          (swStart c ≠ 0 → k.T = BitVec.ofNat 64 (swStart c)) ∧
          (∀ e, swStart c = 0 → findCmd s.hst h = some e → k.T = BitVec.ofNat 64 (e.since.toNat + leadT d))) ∧
        (0 ∈ sweepPositions d c → ∃ w ∈ u.dev.sw.wanted, w.h = some h)) ∧
      (d.sw.collect = [] → (∀ p ∈ sweepPositions d c, missingAtStart d p ≠ 0) → (∀ k ∈ u.dev.sw.collect, k.h ≠ h) ∧
        ∃ st res, Finished s u h st res) ∧
      ChangesOnly [.sw, .queues, .ex, .cyc] [R.ringCnt] d u.dev) ∧
  (∀ (s : State) (t : Time) (p : Port) (tr : Trigger) (d : Dev), d = unbuffer p 0x04 (tick t s.dev) → d.awake = true → Calm d → d.head = false → d.rg.pos ≠ 0x3F →
    ∃ u, exec (.sweepTriggerRx t p tr) s = .next u ∧
      (d.rg.pos < tr.first ∨ tr.last < d.rg.pos → ChangesOnly [] [] d u.dev) ∧
      (tr.first ≤ d.rg.pos → d.rg.pos ≤ tr.last →
        (tr.retrig = false → (∀ w ∈ d.sw.wanted, w.h ≠ some tr.h) →
          u.dev.sw = { d.sw with wanted := d.sw.wanted ++ [⟨tr.T, some tr.h, d.now, measMode d, false⟩] }) ∧
        (tr.retrig = false → (∃ w ∈ d.sw.wanted, w.h = some tr.h) → u.dev.sw = d.sw) ∧
        (tr.retrig = true → (∀ x ∈ d.sw.held, x.h ≠ tr.h ∨ holdTime x.T ≤ d.now.toNat) →
          u.dev.sw = { d.sw with wanted := d.sw.wanted.filter (fun w => w.h ≠ some tr.h) ++
            [⟨tr.T, some tr.h, d.now, measMode d, true⟩] })) ∧
      (∀ x, tr.first ≤ d.rg.pos → d.rg.pos ≤ tr.last → tr.retrig = true →
        d.sw.held.find? (fun x => x.h == tr.h && decide (d.now.toNat < holdTime x.T)) = some x → (port d (dataPort d)).queue.length < 31 →
        ∃ f g, (port u.dev (dataPort d)).queue = (port d (dataPort d)).queue ++ [f, g] ∧
          f.typ = 0x05 ∧ g.typ = 0x05 ∧ f.pay = x.f0 ∧ g.pay.length = x.f1.length) ∧
      ChangesOnly [.sw, .queues, .cyc] [R.ringCnt] d u.dev ∧ u.hst = s.hst) ∧
  (∀ (s : State) (t req : Time) (a b : List LaneSample) (cur : List CurSample) (raw : List CurRaw) (ws : List Wanted) (d o : Dev),
    d = tick t s.dev → o = asOf t d → d.awake = true → Calm d → ws = d.sw.wanted.filter (fun w => decide (w.T = req) && servedAt t w) →
    (ws = [] ∨ usT 20 < since t d.now → exec (.requestedInstant t req a b ⟨cur, raw⟩) s = .next { s with dev := d }) ∧
    (ws ≠ [] → since t d.now ≤ usT 20 → ∃ u, exec (.requestedInstant t req a b ⟨cur, raw⟩) s = .next u ∧
      u.dev.sw.wanted = d.sw.wanted.filter (fun w => !(decide (w.T = req) && servedAt t w)) ∧
      reg u.dev R.curQsnapLo = reg u.dev R.curQaccLo ∧ reg u.dev R.curQsnapHi = reg u.dev R.curQaccHi ∧
      (let l := (streamTimes t.toNat raw).filter (fun e => decide (d.io.cu.rawTo.toNat ≤ e.1) && curOnAt d e.1)
       let q := (l.map (fun e => curCorrect d false e.1 e.2.a)).foldl addCharge (qacc d * qUnit + d.io.cu.qfrac, false)
       reg64 u.dev R.curQaccLo R.curQaccHi = unsigned 64 (q.1 / qUnit)) ∧
      (∀ w, ws = [w] → (a.map LaneSample.cell).Nodup → ∀ x ∈ a, 1 ≤ x.cell → x.cell ≤ ncells d → x.cell ≤ ncells o → x.cell ≤ 32 →
        reg u.dev (resOff .a x.cell) = (laneEvalIn w.mode o .a t x).word) ∧
      ∀ w h, ws = [w] → w.h = some h → ∃ x ∈ u.dev.sw.held, x.h = h ∧ x.T = req ∧ x.f0.length = 256 ∧ x.f1.length = 64 ∧
        (w.soon = true → (x.f1.getD 3 0).toNat % 2 = 1))) ∧
  (∀ (s : State) (t : Time) (d : Dev), d = tick t s.dev → d.awake = true → Calm d →
    ∃ u, exec (.syncInputEdge t) s = .next u ∧
      u.dev.sw = (if syncMode d = 2 then { d.sw with wanted := d.sw.wanted ++ [⟨d.now, none, d.now, measMode d, false⟩] }
        else d.sw) ∧
      ChangesOnly [.sw] [] d u.dev ∧ u.hst = s.hst) ∧
  ∀ (s : State) (t : Time) (h : Nat) (d : Dev), d = tick t s.dev → d.running = true → Calm d →
    (∃ u, exec (.sweepHoldExpire t h) s = .next u ∧
      u.dev.sw = { d.sw with
        held := d.sw.held.filter (fun x => decide (x.h ≠ h) || decide (d.now.toNat < holdTime x.T)) } ∧
      ChangesOnly [.sw] [] d u.dev ∧ u.hst = s.hst) ∧
    ∃ u, exec (.sweepDeadline t h) s = .next u ∧
      (∀ c ∈ u.dev.sw.collect, c.h = h → d.now.toNat < holdTime c.T) ∧
      (∀ c, d.head = true → d.sw.collect = [c] → c.h = h → holdTime c.T ≤ d.now.toNat →
        ∃ st res, (st = 0x00 ∨ st = 0x01) ∧ Finished s u h st res) ∧
      ChangesOnly [.sw, .ex, .queues, .cyc] [R.ringCnt] d u.dev

/-- Streams. STREAM_START: the head takes a slot for a stream of its own that fits, a stack device begins one that fits, and each then holds a
source that numbers its records from 0; one that does not fit ends with what refuses it. STREAM_RECORD: at every DECIM-th grid instant of lane group
A the source numbers a record; the head writes 16 bytes of header and the data into the stream's buffer, a stack device puts it into its frame, and
drops it where a new frame finds two unsent ones; the first record completes STREAM_START. STREAM_FRAME_FLUSH: 10 ms after its first record a frame
is sent as it is. STREAM_FRAME_RX: the head writes the records of a frame into the stream's buffer. STREAM_STOP: the source ends, what its frame
holds is sent, and the command is DONE; of a stream that does not run it is denied (R302 to R304). -/
def Obligations.StreamsRun : Prop :=
  (∀ (s : State) (t : Time) (h : Nat) (c : Desc) (x : StreamSlot) (d : Dev), d = tick t s.dev → d.awake = true → Calm d → dOp c = 0x11 →
    okStreamStart c = true → d.head = true → dTarget c = 0 → streamAdmit h c d s.hst = .inl x →
    ∃ u, exec (.streamStart t h c) s = .next u ∧ u.hst = { s.hst with streams := s.hst.streams ++ [x] } ∧
      u.dev.ex = { d.ex with streams := d.ex.streams ++
        [⟨h, ssSrc c, ssDecim c, streamLen (ssSrc c) (ncells d), 0, 0, 0, [], false, false, 0⟩] } ∧ ChangesOnly [.ex] [] d u.dev) ∧
  (∀ (s : State) (t : Time) (h : Nat) (c : Desc) (d : Dev), d = tick t s.dev → d.awake = true → Calm d → dOp c = 0x11 →
    okStreamStart c = true → d.head = false → streamUnfit (streamLen (ssSrc c) (ncells d)) (ssSize c) = false →
    ∃ u, exec (.streamStart t h c) s = .next u ∧ u.hst = s.hst ∧
      u.dev.ex = { d.ex with streams := d.ex.streams ++
        [⟨h, ssSrc c, ssDecim c, streamLen (ssSrc c) (ncells d), 0, 0, 0, [], false, false, 0⟩] } ∧ ChangesOnly [.ex] [] d u.dev) ∧
  (∀ (s : State) (t : Time) (h st : Nat) (c : Desc) (d : Dev), d = tick t s.dev → d.awake = true → Calm d → dOp c = 0x11 →
    okStreamStart c = true → (d.head = true ∧ dTarget c = 0 ∧ streamAdmit h c d s.hst = .inr st) ∨
      (d.head = false ∧ streamUnfit (streamLen (ssSrc c) (ncells d)) (ssSize c) = true ∧ st = 0x12) →
    ∃ u, exec (.streamStart t h c) s = .next u ∧ Finished s u h st [] ∧ u.dev.ex.streams = d.ex.streams ∧
      ChangesOnly [.ex, .queues, .cyc] [R.ringCnt] d u.dev) ∧
  (∀ (s : State) (t : Time) (h : Nat) (x : StreamSrc) (e : StreamSlot) (d : Dev), d = tick t s.dev → d.awake = true → Calm d →
    findSource d h = some x → onGrid (x.decim * groupP2 d .a) d.now = true → d.head = true → x.started = true →
    s.hst.streams.find? (fun s => s.h == h) = some e → streamSlot s.hst e.k = some e → e.wr + 16 + e.s ≤ e.size →
    ∃ u, exec (.streamRecord t h) s = .next u ∧
      winRead u.hst (e.off + e.wr) 16 =
        leBytes 8 d.now.toNat ++ leBytes 2 e.h ++ leBytes 2 x.next ++
          [BitVec.ofNat 8 e.pos, BitVec.ofNat 8 (b2n (decide (x.next ≠ e.cnt)))] ++ leBytes 2 e.s ∧
      winRead u.hst (e.off + e.wr + 16) e.s = padTo e.s (streamData d x.src) ∧
      streamSlot u.hst e.k = some { e with wr := (e.wr + 16 + e.s) % e.size, cnt := (x.next + 1) % 65536 } ∧
      findSource u.dev h = some { x with next := (x.next + 1) % 65536 } ∧ ChangesOnly [.ex] [] d u.dev) ∧
  (∀ (s : State) (t : Time) (h : Nat) (x : StreamSrc) (d : Dev), d = tick t s.dev → d.awake = true → Calm d →
    findSource d h = some x → onGrid (x.decim * groupP2 d .a) d.now = true → d.head = false →
    ∃ u, exec (.streamRecord t h) s = .next u ∧ u.hst = s.hst ∧
      (∃ y, findSource u.dev h = some y ∧ y.started = true ∧ y.next = (x.next + 1) % 65536 ∧
        (x.buf = [] → 2 ≤ unsentStream d → x.started = true → y.lost = true ∧ y.buf = [] ∧ y.put = x.put) ∧
        (x.started = true → x.buf ≠ [] ∨ unsentStream d < 2 → x.buf.length + 1 < streamK h x.size →
          y = { x with
            buf := x.buf ++ [streamData d x.src], first := if x.buf = [] then x.next else x.first
            t0 := if x.buf = [] then d.now else x.t0, next := (x.next + 1) % 65536, put := (x.next + 1) % 65536, lost := false })) ∧
      (x.started = false → (∃ k ∈ d.ex.cmds, k.h = h) → ∃ r ∈ u.dev.ex.results, r.h = h ∧ r.status = 0x00) ∧
      ChangesOnly [.ex, .queues, .cyc] [R.ringCnt] d u.dev) ∧
  (∀ (s : State) (t : Time) (h : Nat) (x : StreamSrc) (d : Dev), d = tick t s.dev → d.awake = true → Calm d →
    findSource d h = some x → onGrid (x.decim * groupP2 d .a) d.now = false →
    exec (.streamRecord t h) s = .next { s with dev := d }) ∧
  (∀ (s : State) (t : Time) (h : Nat) (x : StreamSrc) (d : Dev), d = tick t s.dev → d.awake = true → Calm d →
    findSource d h = some x → x.buf ≠ [] → msT 10 ≤ since x.t0 d.now →
    ∃ u, exec (.streamFrameFlush t h) s = .next u ∧ u.hst = s.hst ∧ findSource u.dev h = some { x with buf := [] } ∧
      Queued d u.dev (headPort d) (ownFrame d 0 0x0C x.first (streamBytes x)) ∧ ChangesOnly [.ex, .queues, .cyc] [R.ringCnt] d u.dev) ∧
  (∀ (s : State) (t : Time) (h : Nat) (x : StreamSrc) (d : Dev), d = tick t s.dev → d.awake = true → Calm d →
    findSource d h = some x → x.buf = [] ∨ since x.t0 d.now < msT 10 →
    exec (.streamFrameFlush t h) s = .next { s with dev := d }) ∧
  (∀ (s : State) (t : Time) (f : StreamFrame) (e : StreamSlot) (d : Dev), d = unbufferAny 0x0C (tick t s.dev) → d.awake = true → Calm d →
    d.head = true → s.hst.on = true → s.hst.streams.find? (fun x => x.h == f.h && x.pos == f.pos) = some e →
    streamSlot s.hst e.k = some e → e.stop = none → f.records ≠ [] →
    ∃ u, exec (.streamFrameRx t f) s = .next u ∧ u.dev = d ∧
      streamSlot u.hst e.k = some { e with
        wr := (e.wr + f.records.length * (16 + e.s)) % e.size, cnt := (f.first + f.records.length) % 65536 } ∧
      (∀ r, f.records = [r] → e.wr + 16 + e.s ≤ e.size → winRead u.hst (e.off + e.wr) 16 =
        leBytes 8 f.t0.toNat ++ leBytes 2 e.h ++ leBytes 2 (f.first % 65536) ++
          [BitVec.ofNat 8 e.pos, BitVec.ofNat 8 (b2n (decide (f.first % 65536 ≠ e.cnt)))] ++ leBytes 2 e.s) ∧
      u.hst = { s.hst with win := u.hst.win, streams := u.hst.streams, devAt := u.hst.devAt, devWrote := u.hst.devWrote }) ∧
  (∀ (s : State) (t : Time) (h : Nat) (c : Desc) (x : StreamSrc) (d : Dev), d = tick t s.dev → d.awake = true → Calm d → dOp c = 0x12 →
    okStreamStop c = true → dFld c 2 15 0 ≠ h → findSource d (dFld c 2 15 0) = some x →
    ∃ u, exec (.streamStop t h c) s = .next u ∧ Finished s u h 0x00 (if d.head then [] else leBytes 2 x.put) ∧
      u.dev.ex.streams = d.ex.streams.filter (fun y => y.h ≠ x.h) ∧
      (d.head = false → x.buf ≠ [] → (port d (headPort d)).queue.length < 31 → ∃ l, (port u.dev (headPort d)).queue =
        (port d (headPort d)).queue ++ ownFrame d 0 0x0C x.first (streamBytes x) :: l) ∧
      ChangesOnly [.ex, .queues, .cyc] [R.ringCnt] d u.dev) ∧
  ∀ (s : State) (t : Time) (h : Nat) (c : Desc) (d : Dev), d = tick t s.dev → d.awake = true → Calm d → dOp c = 0x12 →
    okStreamStop c = true → dFld c 2 15 0 ≠ h → findSource d (dFld c 2 15 0) = none →
    ∃ u, exec (.streamStop t h c) s = .next u ∧ Finished s u h 0x12 [] ∧ u.dev.ex.streams = d.ex.streams ∧
      ChangesOnly [.ex, .queues, .cyc] [R.ringCnt] d u.dev

/-- At a stack device a REQUEST is accepted once, its command held among eight at most, and a repeat changes nothing that is held (log 63 for the
ninth); a wake REQUEST drives the stream on the port it names; chunks of a table are kept for a command held; results are held for 100 ms (R251,
R252, R286, R288, R296). -/
def Obligations.RequestsHeld : Prop :=
  (∀ (s : State) (t : Time) (p : Port) (r : Request) (d : Dev), d = unbuffer p 0x01 (tick t s.dev) → d.awake = true → Calm d →
    d.head = false →
    (62 < d.rg.pos → exec (.requestRx t p r) s = .next { s with dev := d }) ∧
    (d.rg.pos ≤ 62 → ∃ u, exec (.requestRx t p r) s = .next u ∧
      (r.kind = 0 → holdsCmd d r.h = false → (∀ x ∈ d.ex.results, x.h ≠ r.h) →
        (d.ex.cmds.length < 8 → u.dev.ex = { d.ex with cmds := d.ex.cmds ++ [⟨r.h, r.d, d.now⟩] } ∧
          ((port d (headPort d)).queue.length < 32 →
            ∃ f, (port u.dev (headPort d)).queue = (port d (headPort d)).queue ++ [f] ∧
              f.typ = 0x02 ∧ f.pay = leBytes 2 r.h ++ [0, 1] ++ zeros 8)) ∧
        (8 ≤ d.ex.cmds.length → ChangesOnly [] [] d u.dev)) ∧
      (r.kind = 0 → holdsCmd d r.h = true ∨ (∃ x ∈ d.ex.results, x.h = r.h) → u.dev.ex = d.ex) ∧
      (r.kind = 1 → (∀ x ∈ d.ex.results, x.h ≠ r.h) → ChangesOnly [] [] d u.dev) ∧
      (r.kind = 1 → u.dev.ex = d.ex) ∧
      (r.kind = 2 → (port u.dev (if r.port = 0 then .north else .south)).wakeTx = true ∧
        (port u.dev (if r.port = 0 then .north else .south)).wakeAt = d.now ∧ holdsCmd u.dev r.h = true) ∧
      ChangesOnly [.ex, .queues, .north, .south, .cyc] [R.ringCnt] d u.dev ∧ u.hst = s.hst)) ∧
  (∀ (s : State) (t : Time) (h off : Nat) (data : List Byte) (d : Dev), d = unbufferAny 0x0B (tick t s.dev) → d.awake = true → Calm d →
    d.head = false → ∃ u, exec (.bulkRx t h off data) s = .next u ∧
      (holdsCmd d h = true → (h, off, data) ∈ u.dev.ex.bulk) ∧ (holdsCmd d h = false → u.dev.ex.bulk = d.ex.bulk) ∧
      (d.mm.install = none → ChangesOnly [.ex] [] d u.dev ∧ u.hst = s.hst)) ∧
  ∀ (s : State) (t : Time) (h : Nat) (d : Dev), d = tick t s.dev → d.running = true → Calm d →
    ∃ u, exec (.responseHoldExpire t h) s = .next u ∧
      u.dev.ex = { d.ex with results := d.ex.results.filter (fun r => decide (r.h ≠ h) || !passed (msT 100) r.at0 d.now) } ∧
      ChangesOnly [.ex] [] d u.dev ∧ u.hst = s.hst

/-- In the head a command is dispatched in order, to a position that is enumerated, reachable and awake, or ends NO_SUCH_POSITION, RING_BREAK
or DENIED_STATE; an accept is noted, a final RESPONSE ends the command; without an accept it ends TIMEOUT; an EVENT goes to the event ring;
a table with an uncorrectable word ends the command INTERNAL, with the event; RING_STATUS answers, and ECHO with the ring time at which its request
came (R251, R286, R287, R292, R296, R305, R306). -/
def Obligations.HeadRunsCommands : Prop :=
  (∀ (s : State) (t : Time) (d : Dev), d = tick t s.dev → d.awake = true → Calm d → d.head = true → s.hst.on = true →
    ∀ (h : Nat) (c : HeadCmd), findCmd s.hst h = some c → isWaiting s.hst c = false →
      (d.outputsOff = true ∨ (∀ k ∈ s.hst.cmds, userOffset k = false) →
        ∃ u, exec (.commandDispatch t h) s = .next u ∧
        (c.sent = true ∨ heldBack d s.hst c = true → ChangesOnly [] [] d u.dev ∧ u.hst = s.hst) ∧
        (c.sent = false → heldBack d s.hst c = false → tableBad c.d d ≠ [] →
          HostEvents (complete c 0x7F [] u.dev s.hst) u.hst ∧
          u.dev.ev.count = (d.ev.count + (tableBad c.d d).length + 1) % 65536) ∧
        (c.sent = false → heldBack d s.hst c = false → tableBad c.d d = [] →
          (dTarget c.d = 0 → findCmd u.hst h = some { c with sent := true }) ∧
          (0 < dTarget c.d → dTarget c.d < 0x3F →
            (enumerated d (dTarget c.d) = false → u.hst = complete c 0x22 [] u.dev s.hst) ∧
            (enumerated d (dTarget c.d) = true → (posRec d (dTarget c.d)).low = true → isWake c.d = false →
              u.hst = complete c 0x12 [] u.dev s.hst) ∧
            (enumerated d (dTarget c.d) = true → (posRec d (dTarget c.d)).low = false →
              reachable d (dTarget c.d) = false → u.hst = complete c 0x21 [] u.dev s.hst) ∧
            (enumerated d (dTarget c.d) = true → (posRec d (dTarget c.d)).low = false →
              reachable d (dTarget c.d) = true → dOp c.d ≠ 0x11 → tableOf c.d = none → (∀ k ∈ s.hst.cmds, k.bulk = []) →
              findCmd u.hst h = some { c with sent := true } ∧
              Queued d u.dev (towards d (dTarget c.d)) (ownFrame d (dTarget c.d) 0x01 h
                (leBytes 2 h ++ [0, 0] ++ descBytes c.d)) ∧
              ChangesOnly [.ex, .queues, .cyc] [R.ringCnt] d u.dev)))) ∧
      (∃ u, exec (.reqAcceptTimeout t h) s = .next u ∧
        (∀ e, c.sent = true → c.acc = [] → c.wakeFor = false → 0 < dTarget c.d → dTarget c.d < 0x3F →
          d.ex.departed.find? (fun e => e.1 == h) = some e →
          (passed (reqTimeout d) e.2 d.now = true → u.hst = complete c 0x20 [] u.dev s.hst) ∧
          (passed (reqTimeout d) e.2 d.now = false → u.hst = s.hst)) ∧
        (d.ex.departed.find? (fun e => e.1 == h) = none ∨ c.acc ≠ [] → u.hst = s.hst) ∧
        ChangesOnly [] [] d u.dev)) ∧
  (∀ (s : State) (t : Time) (src : Nat) (r : Response) (c : HeadCmd) (d : Dev), d = unbufferAny 0x02 (tick t s.dev) → d.awake = true →
    Calm d → d.head = true → s.hst.on = true → findCmd s.hst r.h = some c → isWaiting s.hst c = false → c.wakeFor = false →
    dTarget c.d = src → src < 0x3F → (∀ k ∈ s.hst.cmds, dOp k.d ≠ 0x90) →
    ∃ u, exec (.responseRx t src r) s = .next u ∧
      (r.kind = 0 → findCmd u.hst r.h = some { c with acc := src :: c.acc.filter (fun p => p ≠ src) }) ∧
      (r.kind ≠ 0 → r.code ≠ 0x00 ∨ (dOp c.d ≠ 0x11 ∧ dOp c.d ≠ 0x12) → c.got = [] → r.off = 0 → r.total = r.data.length → r.total ≤ 244 →
        u.hst = answer src r.h r.code r.data u.dev s.hst) ∧
      ChangesOnly [] [] d u.dev) ∧
  (∀ (s : State) (t : Time) (p : Port) (e : List Byte) (d : Dev), d = unbuffer p 0x03 (tick t s.dev) → d.awake = true → Calm d →
    d.head = true →
    ∃ u, exec (.eventRx t e p) s = .next u ∧
      (e.length ≠ 32 → u.dev = d ∧ u.hst = s.hst) ∧
      (e.length = 32 → (eventOf e).code ∉ [0x0001, 0x1003, 0x1206, 0x1401, 0x1601] →
        (u.dev, u.hst) = pushEvent (eventOf e) (d, s.hst)) ∧
      (e.length = 32 → (eventOf e).code = 0x0001 → ∀ r ∈ u.dev.rg.recs, r.1 = (eventOf e).pos → r.2.low = false)) ∧
  ∀ (s : State) (t : Time) (h : Nat) (c : Desc) (d : Dev), d = tick t s.dev → d.awake = true → Calm d →
    (dOp c = 0x81 → zeroFrom c 2 = true → d.head = true →
      ∃ u, exec (.ringStatus t h c) s = .next u ∧ Finished s u h 0x00 (ringStatusBytes d) ∧
        (ringStatusBytes d).length = 520 ∧ ChangesOnly [] [] d u.dev) ∧
    (dOp c = 0xF0 → ∃ u, exec (.echo t h c) s = .next u ∧
      Finished s u h 0x00 (wordsBytes ((upFrom 2 14).map (dWord c)) ++ leBytes 8 (receivedAt h (d, s.hst)).toNat) ∧
      ChangesOnly [.ex, .queues, .cyc] [R.ringCnt] d u.dev)

/-! ### Host port (file 10) -/

/-- The host port: a write of the window is what a read of it returns, but that bytes which the device wrote in the same cycle stand, and no other
byte changes; a read of an aligned register returns its word; the status as often as it is clocked out, identity and modes; an unknown opcode, and
what falls outside the regions, is odd in octal mode, or carries there an extension byte that is not its opcode's complement, is refused and counted
(R272 to R277). -/
def Obligations.PortTransfers : Prop :=
  (∀ (s : State) (t : Time) (addr : Nat) (l : List Byte) (ext : Byte) (d : Dev), d = tick t s.dev → d.awake = true → Calm d → d.head = true →
    s.hst.on = true → s.hst.octal = true → ext ≠ ~~~0x12 →
    ∃ u, exec (.write t addr l ext) s = .next u ∧ regFld u.dev R.hostErr 7 0 = satNat 255 (regFld d R.hostErr 7 0 + 1) ∧
      ChangesOnly [.cyc] [R.hostErr] d u.dev ∧ u.hst = { s.hst with lastErr := true, out := [] }) ∧
  (∀ (s : State) (t : Time) (addr : Nat) (l : List Byte) (ext : Byte) (d : Dev), d = tick t s.dev → d.awake = true → Calm d → d.head = true →
    s.hst.on = true → s.hst.octal = false ∨ ext = ~~~0x12 →
    ∃ u, exec (.write t addr l ext) s = .next u ∧
      (octalOdd s.hst addr l.length = false → addr + l.length ≤ winSize → addr < winSize →
        (∀ i < l.length, winRead u.hst (addr + i) 1 =
          if devByte d.now s.hst (addr + i) then winRead s.hst (addr + i) 1 else [l.getD i 0]) ∧
        ((∀ i < l.length, devByte d.now s.hst (addr + i) = false) → winRead u.hst addr l.length = l) ∧
        (∀ a, a < addr ∨ addr + l.length ≤ a → winRead u.hst a 1 = winRead s.hst a 1) ∧
        ChangesOnly [.mem] [] d u.dev ∧
        u.hst = { s.hst with
          win := u.hst.win, lastErr := false, out := [] }) ∧
      (octalOdd s.hst addr l.length = true → regFld u.dev R.hostErr 7 0 = satNat 255 (regFld d R.hostErr 7 0 + 1) ∧
        ChangesOnly [.cyc] [R.hostErr] d u.dev ∧ u.hst = { s.hst with lastErr := true, out := [] }) ∧
      (octalOdd s.hst addr l.length = false → regionOf addr = none →
        regFld u.dev R.hostErr 15 8 = satNat 255 (regFld d R.hostErr 15 8 + 1) ∧
        ChangesOnly [.cyc] [R.hostErr] d u.dev ∧ u.hst = { s.hst with lastErr := true, out := [] }) ∧
      (∀ (off : Nat) (v : Word), addr = 0x100000 + off → off % 4 = 0 → off < 0x10000 → l = wordBytes v →
        ∃ w, exec (.registerWrite t .hostPort off 4 v) s = .next w ∧ u.dev = w.dev)) ∧
  (∀ (s : State) (addr n : Nat) (ext : Byte), s.dev.awake = true → Settled s → s.dev.head = true → s.hst.on = true →
    s.hst.octal = false ∨ ext = ~~~0x0C →
    ∃ u, exec (.read addr n ext) s = .next u ∧
      (octalOdd s.hst addr n = false → addr < winSize → addr + n ≤ winSize → windowBad s.dev addr n = [] →
        u.hst = { s.hst with lastErr := false, out := winRead s.hst addr n } ∧ ChangesOnly [] [] s.dev u.dev) ∧
      (∀ off, addr = 0x100000 + off → n = 4 → off % 4 = 0 → off < 0x10000 →
        u.hst = { s.hst with lastErr := false, out := wordBytes (readWord (s.dev, s.hst) off) } ∧ ChangesOnly [] [] s.dev u.dev) ∧
      (octalOdd s.hst addr n = true → regFld u.dev R.hostErr 7 0 = satNat 255 (regFld s.dev R.hostErr 7 0 + 1) ∧
        u.hst = { s.hst with lastErr := true, out := zeros n }) ∧
      (octalOdd s.hst addr n = false → regionOf addr = none →
        regFld u.dev R.hostErr 15 8 = satNat 255 (regFld s.dev R.hostErr 15 8 + 1) ∧
        u.hst = { s.hst with lastErr := true, out := zeros n })) ∧
  ∀ s : State, s.dev.awake = true → Settled s → s.dev.head = true → s.hst.on = true →
    (∀ (c : Instr) (op ext : Byte), ((∃ addr n : Nat, c = .read addr n ext ∧ op = 0x0C) ∨ (∃ n : Nat, c = .readStatus ⟨0x05, n, ext⟩ ∧ op = 0x05) ∨
        (∃ n : Nat, c = .readId n ext ∧ op = 0x9F) ∨ (c = .exitOctal ext ∧ op = 0xFF)) →
      s.hst.octal = true → ext ≠ ~~~op →
        ∃ u, exec c s = .next u ∧ regFld u.dev R.hostErr 7 0 = satNat 255 (regFld s.dev R.hostErr 7 0 + 1) ∧
          ChangesOnly [.cyc] [R.hostErr] s.dev u.dev ∧ u.hst = { s.hst with lastErr := true, out := [] }) ∧
    (∀ (n : Nat) (ext : Byte), s.hst.octal = false ∨ ext = ~~~0x05 → ∃ u, exec (.readStatus ⟨0x05, n, ext⟩) s = .next u ∧
      ChangesOnly [] [] s.dev u.dev ∧ u.hst = { s.hst with
        lastErr := false
        out := List.replicate n
          (BitVec.ofNat 8 (1 + 2 * b2n s.hst.octal + 4 * b2n s.hst.lastErr + 8 * b2n (hint s.dev s.hst))) }) ∧
    (∀ (op : Byte) (n : Nat) (ext : Byte), op ∉ portOpcodes → ∃ u, exec (.readStatus ⟨op, n, ext⟩) s = .next u ∧
      regFld u.dev R.hostErr 7 0 = satNat 255 (regFld s.dev R.hostErr 7 0 + 1) ∧ ChangesOnly [.cyc] [R.hostErr] s.dev u.dev ∧
      u.hst = { s.hst with lastErr := true, out := [] }) ∧
    (∀ (n : Nat) (ext : Byte), s.hst.octal = false ∨ ext = ~~~0x9F → ∃ u, exec (.readId n ext) s = .next u ∧
      ChangesOnly [] [] s.dev u.dev ∧ u.hst = { s.hst with
        lastErr := false
        out := ([0x51, 0x64, 0x32, BitVec.ofNat 8 (Config.mrev.toNat + 16 * Config.crev.toNat)] ++ zeros n).take n }) ∧
    (∃ u, exec .enterOctal s = .next u ∧
      (s.hst.octal = false → u.hst = { s.hst with octal := true, lastErr := false, out := [] } ∧ ChangesOnly [] [] s.dev u.dev) ∧
      (s.hst.octal = true → u.hst = { s.hst with lastErr := true, out := [] } ∧
        regFld u.dev R.hostErr 7 0 = satNat 255 (regFld s.dev R.hostErr 7 0 + 1) ∧ ChangesOnly [.cyc] [R.hostErr] s.dev u.dev)) ∧
    (∀ ext : Byte, ∃ u, exec (.exitOctal ext) s = .next u ∧
      (s.hst.octal = true → ext = ~~~0xFF →
        u.hst = { s.hst with octal := false, lastErr := false, out := [] } ∧ ChangesOnly [] [] s.dev u.dev) ∧
      (s.hst.octal = false → u.hst = { s.hst with lastErr := true, out := [] } ∧
        regFld u.dev R.hostErr 7 0 = satNat 255 (regFld s.dev R.hostErr 7 0 + 1) ∧ ChangesOnly [.cyc] [R.hostErr] s.dev u.dev)) ∧
    ∃ u, exec .hcsLowIdle s = .next u ∧ u.hst = { s.hst with octal := false } ∧ ChangesOnly [] [] s.dev u.dev

/-- The rings: a submission doorbell makes the head take, check and answer each descriptor; a completion is written at its ring's tail and
ends its handle, but one that is QUIET and DONE is not; head doorbells free what they pass; a doorbell out of range is counted; deadlines
end commands; interrupt moderation changes nothing that is stored (R260, R281 to R287, R289 to R291, R295, R307). -/
def Obligations.RingsServed : Prop :=
  (∀ (s : State) (t : Time) (p : Nat) (w : Word) (d : Dev), d = tick t s.dev → d.awake = true → Calm d → d.head = true → s.hst.on = true → p < 4 →
    p < s.hst.pairs.length →
    (∃ u, exec (.sqDoorbell t p w) s = .next u ∧
      ((pair s.hst p).run = false ∨ ringSize d (pairOff R.hostSqCfg p) ≤ doorIndex w →
        regFld u.dev R.hostErr 31 24 = satNat 255 (regFld d R.hostErr 31 24 + 1) ∧
        ChangesOnly [.cyc] [R.hostErr] d u.dev ∧ u.hst = s.hst) ∧
      ((pair s.hst p).run = true → 2 ≤ ringSize d (pairOff R.hostSqCfg p) →
        (pair s.hst p).sqHead < ringSize d (pairOff R.hostSqCfg p) →
        doorIndex w = nextIdx (ringSize d (pairOff R.hostSqCfg p)) (pair s.hst p).sqHead →
        (pair u.hst p).sqHead = doorIndex w ∧
        ∀ (off : Nat) (c : Desc), off = ringBase d (pairOff R.hostSqCfg p) 64 + 64 * (pair s.hst p).sqHead → c = readDesc s.hst off →
          (malformed c p d s.hst ≠ 0 → u.hst.cmds = s.hst.cmds ∧
            winRead u.hst (off + 4) 4 = [0, 0, 2, BitVec.ofNat 8 (malformed c p d s.hst)]) ∧
          (malformed c p d s.hst = 0 → headFull p d s.hst ≠ 0 → u.hst.cmds = s.hst.cmds ∧
            winRead u.hst (off + 4) 4 = [0, 0, 3, BitVec.ofNat 8 (headFull p d s.hst)]) ∧
          (malformed c p d s.hst = 0 → headFull p d s.hst = 0 →
            ∃ h, winRead u.hst (off + 4) 4 = leBytes 2 h ++ [1, 0] ∧
              u.hst.cmds = s.hst.cmds ++ [⟨h, p, c, d.now, false, [], [], [], 0, false, [], 0, 0⟩] ∧
              u.hst.nextH = handleAfter h) ∧
          (∀ a, a < off + 4 ∨ off + 8 ≤ a → winRead u.hst a 1 = winRead s.hst a 1) ∧
          ChangesOnly [] [] d u.dev)) ∧
    (∃ u, exec (.cqHeadDoorbell t p w) s = .next u ∧
      ∀ (q : Pair) (n : Nat), q = pair s.hst p → n = ringSize d (pairOff R.hostCqCfg p) →
        (q.run = false ∨ n ≤ doorIndex w ∨ ringDist n q.cqHead q.cqTail < ringDist n q.cqHead (doorIndex w) →
          regFld u.dev R.hostErr 31 24 = satNat 255 (regFld d R.hostErr 31 24 + 1) ∧
          ChangesOnly [.cyc] [R.hostErr] d u.dev ∧ u.hst = s.hst) ∧
        (q.run = true → doorIndex w < n → ringDist n q.cqHead (doorIndex w) ≤ ringDist n q.cqHead q.cqTail → q.waiting = [] →
          u.hst = setPair p { q with
            cqHead := doorIndex w, written := q.written.drop (ringDist n q.cqHead (doorIndex w)) } s.hst ∧
          ChangesOnly [] [] d u.dev))) ∧
  (∀ (s : State) (t : Time) (w : Word) (e : EvtRing) (n : Nat) (d : Dev), d = tick t s.dev → d.awake = true → Calm d → d.head = true → s.hst.on = true →
    e = s.hst.eq → n = ringSize d R.hostEqCfg →
    (∃ u, exec (.eqHeadDoorbell t w) s = .next u ∧
      (e.run = false ∨ n ≤ doorIndex w ∨ ringDist n e.head e.tail < ringDist n e.head (doorIndex w) →
        regFld u.dev R.hostErr 31 24 = satNat 255 (regFld d R.hostErr 31 24 + 1) ∧
        ChangesOnly [.cyc] [R.hostErr] d u.dev ∧ u.hst = s.hst) ∧
      (e.run = true → doorIndex w < n → ringDist n e.head (doorIndex w) ≤ ringDist n e.head e.tail →
        u.hst = { s.hst with eq := { e with
          head := doorIndex w, unserved := e.unserved.drop (ringDist n e.head (doorIndex w)) } } ∧
        ChangesOnly [] [] d u.dev)) ∧
    (∀ r, ∃ u, exec (.intTimeExpire t r) s = .next u ∧ ChangesOnly [] [] d u.dev ∧ u.hst = s.hst) ∧
    ∀ (h : Nat) (c : HeadCmd), findCmd s.hst h = some c → isWaiting s.hst c = false →
      (∃ u, exec (.commandDeadline t h) s = .next u ∧
        (c.age d.now < deadline c.d * lsbPerSec → u.hst = s.hst) ∧
        (deadline c.d * lsbPerSec ≤ c.age d.now →
          u.hst = if dTarget c.d = 0x3F then completeBroadcast c u.dev s.hst else complete c 0x20 [] u.dev s.hst) ∧
        ChangesOnly [] [] d u.dev) ∧
      ∃ u, exec (.commitAnswerTimeout t h) s = .next u ∧
        (dTarget c.d = 0x3F → dOp c.d = 0x04 → c.sent = true → c.applyAt + reqTimeout d ≤ d.now.toNat →
          u.hst = completeBroadcast c d s.hst) ∧
        (dTarget c.d ≠ 0x3F ∨ dOp c.d ≠ 0x04 ∨ c.sent = false ∨ d.now.toNat < c.applyAt + reqTimeout d → u.hst = s.hst) ∧
        ChangesOnly [] [] d u.dev) ∧
  ∀ (d : Dev) (x : Hst) (c : HeadCmd) (st : Nat) (res : List Byte) (at0 held : Nat),
    ((dQuiet c.d && decide (st = 0)) = true → complete c st res d x = dropCmd c.h x) ∧
    (c.pair < x.pairs.length → (pair x c.pair).waiting = [] → (dQuiet c.d && decide (st = 0)) = false →
      placeResult (pair x c.pair) (resLen d c.pair) res.length = some (at0, held) →
      winRead (complete c st res d x) (ringBase d (pairOff R.hostCqCfg c.pair) 16 + 16 * (pair x c.pair).cqTail) 16 =
        cqBytes d (pair x c.pair).phase c.h st (dTarget c.d) (resBase d c.pair + at0) res.length ∧
      (pair (complete c st res d x) c.pair).cqTail =
        nextIdx (ringSize d (pairOff R.hostCqCfg c.pair)) (pair x c.pair).cqTail ∧
      ∀ k ∈ (complete c st res d x).cmds, k.h ≠ c.h)

/-! ### Events and check units (file 12) -/

/-- Buckets and events: an occurrence raises its level by one, to 255 at most, and counts its event unless its source is quiet, and one
more where the level reaches N; a leak lowers it by one, and below N ends what it kept present. In the head
an event is 32 bytes at the event ring's tail, or is lost and counted where the ring is full (R290, R292, R355 to R357).

The check-value units: data advance the unit's CRC and are counted; RESTART takes the parameters and the initial value; COMPARE shows
whether the result is the expected one; an alive counter is in step, repeated or has jumped, and only the first check after a
synchronisation takes any (R358 to R361). -/
def Obligations.BucketsAndCheckUnits : Prop :=
  ((∀ (d : Dev) (src i code : Nat) (l : List Byte), d.ev.count < 65536 →
      level (occur src i code l d) src i = satNat 255 (level d src i + 1) ∧
      (∀ z j, bucketBase z + j ≠ bucketBase src + i → level (occur src i code l d) z j = level d z j) ∧
      (occur src i code l d).ev.count = (d.ev.count + (if quiet d src then 0 else 1) +
        (if lasting d src i = false ∧ bucketN d src ≤ level d src i + 1 then 1 else 0)) % 65536 ∧
      ChangesOnly evParts evRegs d (occur src i code l d)) ∧
    (∀ (s : State) (t : Time) (src i : Nat) (d : Dev), d = tick t s.dev → d.running = true → Calm d → src < 43 → i < bucketCount src →
      ∃ u, exec (.bucketLeak t src i) s = .next u ∧
        level u.dev src i = level d src i - b2n (leakDue src i d) ∧
        (∀ b item, bucketFault src i = some (b, item) → lasting d src i = true → level d src i ≤ bucketN d src →
          0 < level d src i → leakDue src i d = true → (b, item) ∉ u.dev.sf.present ∧ u.dev.sf.causes = d.sf.causes) ∧
        (leakDue src i d = false → ChangesOnly [] [] d u.dev) ∧
        (lasting d src i = false ∨ bucketN d src < level d src i →
          ChangesOnly [.ev] [] d u.dev ∧ u.dev.ev.count = d.ev.count) ∧
        ChangesOnly (.sf :: evParts) evRegs d u.dev ∧ HostEvents s.hst u.hst) ∧
    ∀ (e : EvRec) (d : Dev) (x : Hst), x.eq.run = true →
      (x.eq.unserved.length < eqRoom d → (pushEvent e (d, x)).1 = d ∧
        winRead (pushEvent e (d, x)).2 (ringBase d R.hostEqCfg 32 + 32 * x.eq.tail) 32 =
          e.bytes (b2n x.eq.phase + 2 * b2n e.urgent + 4 * b2n x.eq.lost) ∧
        (pushEvent e (d, x)).2.eq.tail = nextIdx (ringSize d R.hostEqCfg) x.eq.tail ∧
        (pushEvent e (d, x)).2.eq.unserved = x.eq.unserved ++ [(d.now, e.urgent)]) ∧
      (eqRoom d ≤ x.eq.unserved.length →
        regFld (pushEvent e (d, x)).1 R.hostEvtLost 15 0 = satNat 65535 (regFld d R.hostEvtLost 15 0 + 1) ∧
        (pushEvent e (d, x)).2 = { x with eq := { x.eq with lost := true } })) ∧
  (∀ (s : State) (n : Nat) (d : Dev), d = s.dev → d.running = true → Settled s → n < 2 →
      (∀ (k : Nat) (v : Word), k = 1 ∨ k = 2 ∨ k = 4 → ∃ u, exec (.chkData n k v) s = .next u ∧
        chkUnit u.dev n = { chkUnit d n with
          state := crcFeed (chkUnit d n).width (chkUnit d n).poly (chkUnit d n).refin (chkUnit d n).state
            (leBytes k v.toNat) } ∧
        chkUnit u.dev (1 - n) = chkUnit d (1 - n) ∧
        regFld u.dev (chkOff R.chkStat n) 31 16 = (regFld d (chkOff R.chkStat n) 31 16 + k) % 65536 ∧
        ChangesOnly [.ck] [chkOff R.chkStat n] d u.dev ∧ u.hst = s.hst) ∧
      (∃ u, exec (.chkRestart n) s = .next u ∧
        chkUnit u.dev n = { chkUnit d n with
          width := regFld d (chkOff R.chkCfg n) 5 0
          poly := (reg d (chkOff R.chkPoly n)).toNat
          ini := (reg d (chkOff R.chkInit n)).toNat
          xorout := (reg d (chkOff R.chkXorout n)).toNat
          refin := regBit d (chkOff R.chkCfg n) 8
          refout := regBit d (chkOff R.chkCfg n) 9
          state := (reg d (chkOff R.chkInit n)).toNat % 2 ^ regFld d (chkOff R.chkCfg n) 5 0
          synced := false } ∧
        regFld u.dev (chkOff R.chkStat n) 31 16 = 0 ∧ regFld u.dev (chkOff R.chkStat n) 2 0 = 0 ∧
        regBit u.dev (chkOff R.chkStat n) 6 = false ∧
        ChangesOnly [.ck] [chkOff R.chkStat n] d u.dev ∧ u.hst = s.hst) ∧
      (∃ u, exec (.chkAlvSync n) s = .next u ∧ chkUnit u.dev n = { chkUnit d n with synced := false } ∧
        regBit u.dev (chkOff R.chkStat n) 6 = false ∧ ChangesOnly [.ck] [chkOff R.chkStat n] d u.dev ∧ u.hst = s.hst)) ∧
  ∀ (s : State) (t : Time) (n : Nat) (d : Dev), d = tick t s.dev → d.running = true → Calm d → n < 2 →
      (∃ u, exec (.chkCompare t n) s = .next u ∧
        regFld u.dev (chkOff R.chkStat n) 2 0 =
          (if BitVec.ofNat 32 (chkUnit d n).result = reg d (chkOff R.chkExpect n) then 5 else 6) ∧
        (BitVec.ofNat 32 (chkUnit d n).result = reg d (chkOff R.chkExpect n) ∨ regBit d (chkOff R.chkCfg n) 16 = false →
          ChangesOnly [] [chkOff R.chkStat n] d u.dev) ∧
        ChangesOnly evParts (chkOff R.chkStat n :: evRegs) d u.dev ∧ HostEvents s.hst u.hst) ∧
      ∀ (w : Word) (v next : Nat) (x : ChkUnit), v = fld w 15 0 → x = chkUnit d n →
        next = (v + regFld d (chkOff R.chkAlvCfg n) 7 0) % 2 ^ regFld d (chkOff R.chkAlvCfg n) 12 8 % 65536 →
        ∃ u, exec (.chkAlv t n w) s = .next u ∧
          (x.synced = false → chkUnit u.dev n = { x with exp := next, synced := true, last := v } ∧
            regFld u.dev (chkOff R.chkStat n) 6 3 = 8 ∧ ChangesOnly [.ck] [chkOff R.chkStat n] d u.dev) ∧
          (x.synced = true → v = x.exp → chkUnit u.dev n = { x with exp := next, last := v } ∧
            regFld u.dev (chkOff R.chkStat n) 6 3 = 9 ∧ ChangesOnly [.ck] [chkOff R.chkStat n] d u.dev) ∧
          (x.synced = true → v ≠ x.exp → v = x.last → chkUnit u.dev n = x ∧ regFld u.dev (chkOff R.chkStat n) 6 3 = 10 ∧
            regFld u.dev (chkOff R.chkAcnt n) 15 0 = satNat 65535 (regFld d (chkOff R.chkAcnt n) 15 0 + 1)) ∧
          (x.synced = true → v ≠ x.exp → v ≠ x.last → chkUnit u.dev n = { x with exp := next, last := v } ∧
            regFld u.dev (chkOff R.chkStat n) 6 3 = 12 ∧
            regFld u.dev (chkOff R.chkAcnt n) 31 16 = satNat 65535 (regFld d (chkOff R.chkAcnt n) 31 16 + 1)) ∧
          ChangesOnly (.ck :: evParts) (chkOff R.chkStat n :: chkOff R.chkAcnt n :: evRegs) d u.dev ∧
          HostEvents s.hst u.hst

/-! ### Registers (files 12 and 15) -/

/-- NCELLS never exceeds 32: kept by every step from every state in which a waiting commit of MEAS_CELLS is one of its group (R65, R338). -/
def Obligations.StepKeepsCellCount : Prop :=
  (∀ s u : State, s.dev.cellsLegal → step s = .next u → u.dev.cellsLegal) ∧ State.reset.dev.cellsLegal

/-- A write to a register merges its byte lanes and writable bits: into the shadow on the C-die, as a posted write that lands later
elsewhere, into a direct or status register at once; a misaligned, denied or busy write changes nothing and is counted; a read-only register
ignores it; an alias write sets or clears one bit; a counter that hardware raised in the cycle of the write has its increments added to what the
write leaves, once (R10, R333, R335, R336, R350, R352, R353).

REG_READ answers the words; REG_WRITE and REG_MODIFY of a dangerous register are DENIED_WINDOW while the window is closed and change no
register; a write of a shadowed register of the C-die takes its writable bits, and REG_MODIFY answers the word before and after (R297 to
R299, R335). -/
def Obligations.RegistersTakeWrites : Prop :=
  ((∀ (s : State) (t : Time) (m : Master) (off size : Nat) (v : Word) (r : RegRow) (o : Nat) (k : Word) (d : Dev), d = tick t s.dev → d.awake = true → Calm d →
      (m = .hostPort → hostOn (d, s.hst) = true) → o = off / 4 * 4 → regInfo o = some r → hostIgnored d o = false →
      k = laneMask (off % 4) size &&& r.writable →
      ∃ u, exec (.registerWrite t m off size v) s = .next u ∧
        (aligned off size = false ∨ (r.cls = .trigger ∧ size ≠ 4) →
          regFld u.dev R.protErrCnt 23 16 = satNat 255 (regFld d R.protErrCnt 23 16 + 1) ∧ (m = .hostPort → u.hst.lastErr = true) ∧
          ChangesOnly [.cyc] [R.protErrCnt, R.hostErr] d u.dev) ∧
        (aligned off size = true → r.cls ≠ .trigger ∨ size = 4 → r.priv = .read → ChangesOnly [] [] d u.dev) ∧
        (aligned off size = true → r.cls ≠ .trigger ∨ size = 4 → r.priv = .dangerous → dangerousOk m d = false →
          regFld u.dev R.protErrCnt 7 0 = satNat 255 (regFld d R.protErrCnt 7 0 + 1) ∧
          level u.dev 9 0 = satNat 255 (level d 9 0 + 1) ∧ (m = .hostPort → u.hst.lastErr = true) ∧
          ChangesOnly evParts (R.protErrCnt :: R.hostErr :: evRegs) d u.dev) ∧
        (aligned off size = true → r.cls ≠ .trigger → WriteAllowed m r d → domainBusy d o = true →
          regFld u.dev R.protErrCnt 15 8 = satNat 255 (regFld d R.protErrCnt 15 8 + 1) ∧ (m = .hostPort → u.hst.lastErr = true) ∧
          ChangesOnly [.cyc] [R.protErrCnt, R.hostErr] d u.dev) ∧
        (aligned off size = true → WriteAllowed m r d → domainBusy d o = false →
          (r.shadowed = true → onAon o = false → onMdie o = false →
            shadow u.dev o = mergeBits (k &&& ~~~kget 0 d.cyc.hw o) (shadow d o) (v <<< (8 * (off % 4))) ∧
            (∀ q, q ≠ o → shadow u.dev q = shadow d q) ∧
            u.dev.pr = { d.pr with parShad := d.pr.parShad.filter (fun e => e.1 ≠ o) } ∧ ChangesOnly [.shad, .pr, .cyc] [] d u.dev) ∧
          (r.shadowed = true → onAon o = false → onMdie o = true →
            u.dev.pr = { d.pr with xM := some ⟨o, k, v <<< (8 * (off % 4))⟩ } ∧
            ChangesOnly [.pr] [] d u.dev) ∧
          (r.shadowed = true → onAon o = true →
            u.dev.pr = { d.pr with xA := some ⟨o, k, v <<< (8 * (off % 4))⟩ } ∧
            ChangesOnly [.pr] [] d u.dev) ∧
          (r.cls = .status → ChangesOnly [.cyc] [o] d u.dev ∧
            ((∀ e ∈ d.cyc.sums, e.1 / 1024 ≠ o) → reg u.dev o = mergeBits k (reg d o) (v <<< (8 * (off % 4)))) ∧
            ∀ hi lo was n, hi < 32 → lo ≤ hi → d.cyc.sums = [(sumKey o hi lo, (was, n))] →
              reg u.dev o = addFld (mergeBits k (setFld (reg d o) hi lo was) (v <<< (8 * (off % 4)))) hi lo n) ∧
          (r.cls = .direct →
            reg u.dev o = directWord o (reg d o) (mergeBits k (readWord (d, s.hst) o) (v <<< (8 * (off % 4)))) ∧
            ChangesOnly [.pr] [o] d u.dev))) ∧
    (∀ (s : State) (t : Time) (addr : Nat) (v : Word) (r : RegRow) (o i : Nat) (d : Dev), d = tick t s.dev → d.awake = true → Calm d →
      hostOn (d, s.hst) = true → inAlias addr = true → addr % 4 = 0 → (o, i) = aliasBit addr → regInfo o = some r →
      bit r.writable i = true → WriteAllowed .hostPort r d → domainBusy d o = false → r.shadowed = true →
      onAon o = false → onMdie o = false → kget 0 d.cyc.hw o = 0 →
      ∃ u, exec (.aliasWrite t addr 4 v) s = .next u ∧
        (∀ j, j < 32 → bit (shadow u.dev o) j = if j = i then bit v 0 else bit (shadow d o) j) ∧
        (∀ q, q ≠ o → shadow u.dev q = shadow d q) ∧
        u.dev.pr = { d.pr with parShad := d.pr.parShad.filter (fun e => e.1 ≠ o) } ∧ ChangesOnly [.shad, .pr, .cyc] [] d u.dev) ∧
    (∀ (s : State) (t : Time) (aon : Bool) (d : Dev), d = tick t s.dev → d.running = true → Calm d →
      ((if aon then d.pr.xA else d.pr.xM) = none → exec (.postedWriteLand t aon) s = .next { s with dev := d }) ∧
      ∀ w : Posted, (if aon then d.pr.xA else d.pr.xM) = some w → ∃ u, exec (.postedWriteLand t aon) s = .next u ∧
        (if aon then u.dev.pr.xA else u.dev.pr.xM) = none ∧ (if aon then u.dev.pr.xM else u.dev.pr.xA) = (if aon then d.pr.xM else d.pr.xA) ∧
        (d.pr.revert = none ∨ (if aon then d.pr.xM else d.pr.xA) ≠ none →
          shadow u.dev w.off = mergeBits (w.mask &&& ~~~kget 0 d.cyc.hw w.off) (shadow d w.off) w.v ∧
          (∀ q, q ≠ w.off → shadow u.dev q = shadow d q) ∧
          u.dev.pr.commits = d.pr.commits.map (fun c =>
            if c.waitM || c.waitA then
              (if (c.waitM && aon) || (c.waitA && !aon) then { c with waitM := c.waitM && aon, waitA := c.waitA && !aon }
                else { c with
                  waitM := false, waitA := false, due := BitVec.ofNat 64 (max c.due.toNat (ceil20 d.now.toNat))
                  snap := if c.timed then c.snap
                    else some ⟨localWords u.dev c, snapFaults c.mask (localWords u.dev c) (u.dev, s.hst)⟩ })
            else c) ∧
          ((∀ c ∈ d.pr.commits, c.waitM = false ∧ c.waitA = false) → ChangesOnly [.shad, .pr, .cyc] [] d u.dev ∧ u.hst = s.hst) ∧
          ChangesOnly (.shad :: .pr :: evParts) (R.protErrCnt :: evRegs) d u.dev ∧ HostEvents s.hst u.hst)) ∧
    ∀ (b : Both) (o : Nat), (regInfo o = none → readWord b o = 0) ∧ (∀ r, regInfo o = some r → r.cls = .trigger → readWord b o = 0)) ∧
  (∀ (s : State) (t : Time) (h : Nat) (c : Desc) (o : Nat) (d : Dev), d = tick t s.dev → d.awake = true → Calm d → o = (dWord c 2).toNat →
      (dOp c = 0x01 → okRegRead c = true → ∃ u, exec (.regRead t h c) s = .next u ∧
        Finished s u h 0x00 (wordsBytes ((upFrom 0 (dWord c 3).toNat).map (fun i => readWord (d, s.hst) (o + 4 * i)))) ∧
        ChangesOnly [.ex, .queues, .cyc] [R.ringCnt] d u.dev) ∧
      (dOp c = 0x02 → okRegWrite c = true → ∃ u, exec (.regWrite t h c) s = .next u ∧
        (windowOpen d = false → dangerousIn o (dWord c 3).toNat ≠ [] → Finished s u h 0x11 [] ∧
          ChangesOnly (.ex :: evParts) (R.protErrCnt :: evRegs) d u.dev) ∧
        (∀ r, (dWord c 3).toNat = 1 → regInfo o = some r → r.shadowed = true → WriteAllowed .executor r d → onAon o = false →
          onMdie o = false → hostIgnored d o = false →
          shadow u.dev o = mergeBits (r.writable &&& ~~~kget 0 d.cyc.hw o) (shadow d o) (dWord c 4) ∧ Finished s u h 0x00 [] ∧
          u.dev.pr = { d.pr with parShad := d.pr.parShad.filter (fun e => e.1 ≠ o) } ∧
          ChangesOnly [.shad, .pr, .ex, .queues, .cyc] [R.ringCnt] d u.dev)) ∧
      (dOp c = 0x03 → okRegModify c = true → ∃ u, exec (.regModify t h c) s = .next u ∧
        (windowOpen d = false → dangerousIn o 1 ≠ [] → Finished s u h 0x11 [] ∧
          ChangesOnly (.ex :: evParts) (R.protErrCnt :: evRegs) d u.dev) ∧
        (∀ r, regInfo o = some r → r.shadowed = true → WriteAllowed .executor r d → onAon o = false → onMdie o = false →
          hostIgnored d o = false →
          shadow u.dev o =
            mergeBits (r.writable &&& ~~~kget 0 d.cyc.hw o) (shadow d o) (mergeBits (dWord c 3) (shadow d o) (dWord c 4)) ∧
          Finished s u h 0x00 (wordBytes (shadow d o) ++ wordBytes (mergeBits (dWord c 3) (shadow d o) (dWord c 4))) ∧
          u.dev.pr = { d.pr with parShad := d.pr.parShad.filter (fun e => e.1 ≠ o) } ∧
          ChangesOnly [.shad, .pr, .ex, .queues, .cyc] [R.ringCnt] d u.dev)))

/-- Commits: PROT_COMMIT and COMMIT take a snapshot of their groups' shadows, once the posted writes in flight have landed, for the next
multiple of 20 us at least 4 us on, or, with a time, for the first one not before that time, taking the snapshot then; one whose time has
passed is as one without a time. The head sends a broadcast COMMIT to both ports and takes it itself; a COMMIT frame is taken once, and by no
device without a position, and applies at its time, at once where that has passed. The snapshot shows the blocks at fault, which raise
configuration faults; a commit that is due brings its words, but for the blocks at fault; nothing changes while none is due (R246, R248, R260,
R300, R337 to R339, R342, R348, R354). That a timed COMMIT of one target takes the grid of 20 us is the model's choice (log 108). -/
def Obligations.CommitsApply : Prop :=
  (∀ (s : State) (t : Time) (m : Master) (v : Word) (x : Hst) (d : Dev), d = tick t s.dev → d.running = true → Calm d →
    (m = .hostPort → hostOn (d, s.hst) = true) → x = (if m = .hostPort then { s.hst with lastErr := false } else s.hst) →
    ∃ u, exec (.protCommit t m v) s = .next u ∧
      (fld v 7 0 = 0 → ChangesOnly [] [] d u.dev ∧ u.hst = x) ∧
      (fld v 7 0 ≠ 0 → CommitMade d u.dev x ⟨BitVec.ofNat 64 (ceil20 (d.now.toNat + usT 4)), fld v 7 0, .register, d.pr.xM.isSome,
        d.pr.xA.isSome, 0, false, d.pr.revert.isSome, none⟩ ∧ HostEvents x u.hst)) ∧
  (∀ (s : State) (t : Time) (h : Nat) (c : Desc) (d : Dev), d = tick t s.dev → d.awake = true → Calm d → dOp c = 0x04 → okCommit c = true →
    ∃ u, exec (.commit t h c) s = .next u ∧
      (dTarget c ≠ 0x3F → cmTimed c = false ∨ cmTime c < d.now.toNat →
        CommitMade d u.dev s.hst ⟨BitVec.ofNat 64 (ceil20 (d.now.toNat + usT 4)), cmMask c, .single h, d.pr.xM.isSome, d.pr.xA.isSome,
          if cmTimed c then d.now.toNat - cmTime c else 0, false, d.pr.revert.isSome, none⟩ ∧ HostEvents s.hst u.hst) ∧
      (dTarget c ≠ 0x3F → cmTimed c = true → d.now.toNat ≤ cmTime c → u.dev.pr = { d.pr with commits := d.pr.commits ++
          [⟨BitVec.ofNat 64 (ceil20 (max (cmTime c) (d.now.toNat + usT 4))), cmMask c, .single h, d.pr.xM.isSome, d.pr.xA.isSome, 0, true,
            d.pr.revert.isSome, none⟩] } ∧
        ChangesOnly [.pr] [] d u.dev ∧ u.hst = s.hst) ∧
      (dTarget c = 0x3F → d.head = false → u = { s with dev := d }) ∧
      ∀ at0 : Nat, at0 = (if cmTimed c then cmTime c else d.now.toNat + leadT d) → dTarget c = 0x3F → d.head = true → d.now.toNat ≤ at0 →
        u.dev.pr = { d.pr with commits := d.pr.commits ++
          [⟨BitVec.ofNat 64 at0, cmMask c, .broadcast h, false, false, 0, true, false, none⟩] } ∧
        (d.ln.queue.length < 32 → d.ls.queue.length < 32 → ∀ f : Frame,
          f = ⟨0x3F, false, 0, 0x08, h % 256, statusNibble d, commitBytes at0 (cmMask c) h, false, 0⟩ →
          u.dev.ln.queue = d.ln.queue ++ [f] ∧ u.dev.ls.queue = d.ls.queue ++ [f]) ∧
        ChangesOnly [.pr, .queues, .cyc] [R.ringCnt] d u.dev ∧
        u.hst = (match findCmd s.hst h with
          | none => s.hst
          | some k => setCmd { k with
              answers := (d.rg.recs.filter (fun r => r.2.low)).map (fun r => (r.1, 3)), applyAt := at0 } s.hst)) ∧
  (∀ (s : State) (t at0 : Time) (mask h : Nat) (d : Dev), d = unbufferAny 0x08 (tick t s.dev) → d.running = true → Calm d →
    (d.head = true ∨ 62 < d.rg.pos ∨ (h, at0) ∈ d.pr.seen → exec (.commitFrameRx t at0 mask h) s = .next { s with dev := d }) ∧
    (d.head = false → d.rg.pos ≤ 62 → (h, at0) ∉ d.pr.seen → ∃ u, exec (.commitFrameRx t at0 mask h) s = .next u ∧
      u.dev.pr.seen = lastN 16 (d.pr.seen ++ [(h, at0)]) ∧
      (d.now.toNat ≤ at0.toNat →
        u.dev.pr = { d.pr with
          seen := lastN 16 (d.pr.seen ++ [(h, at0)])
          commits := d.pr.commits ++ [⟨at0, mask, .broadcast h, false, false, 0, true, false, none⟩] } ∧
        ChangesOnly [.pr] [] d u.dev ∧ u.hst = s.hst) ∧
      (at0.toNat < d.now.toNat → d.pr.commits = [] → u.dev.pr.commits = [] ∧
        (snapFaults mask (dueWords d mask) (d, s.hst) = [] →
          ∀ g < 8, mask.testBit g = true → ∀ o ∈ groupOffsets g,
            reg u.dev o = if d.pr.revert.isSome = true ∧ o ∈ dangerousOffsets then reg d o else shadowBefore d o)))) ∧
  ∀ (s : State) (t : Time) (d : Dev), d = tick t s.dev → d.running = true → Calm d →
    ((∀ c ∈ d.pr.commits, commitReady d c = false) → exec (.commitApply t) s = .next { s with dev := d }) ∧
    ∀ (l : List PendCommit) (c : PendCommit) (x : Snap), d.pr.commits.filter (commitReady d) = [c] →
      l = d.pr.commits.filter (fun k => !commitReady d k) →
      x = c.snap.getD ⟨dueWords d c.mask, snapFaults c.mask (dueWords d c.mask) (d, s.hst)⟩ →
      ∃ u, exec (.commitApply t) s = .next u ∧ u.dev.pr.commits = l ∧
        (∀ g < 8, c.mask.testBit g = true → ∀ o ∈ groupOffsets g,
          reg u.dev o = if ∃ r ∈ x.bad, blockNum r.1 = blockNum o then reg d o else lookIn d x.words o) ∧
        (c.snap = none → ∀ r ∈ x.bad, r.2 ≠ 1 → ∃ f ∈ u.dev.pr.cfgFaults, f.1 = r.1 ∧ f.2.1 = r.2)

/-- Protection: the scan, each 1 ms, and any use of a copy count each parity finding and raise a configuration fault, and a shadow whose parity is
at fault is kept for its group's next commit; 2,000 low samples of SVC_N open the service
window for MINUTES, once in a hold; its time, PROT_SVC_CLOSE or the head's silence of 10 ms close it, and a closed window sets dangerous
shadows back once no posted write is in flight, and with EXTEST in force drops the outputs; the key to PROT_CFG_STORE stores the protected
configuration into the slot that is not active, unless something pends, and each step of the store follows the one before (R342, R343,
R346 to R348, R402). -/
def Obligations.ProtectionKept : Prop :=
  (∀ (s : State) (t : Time) (x : ParitySeen) (scans : Bool) (bad : List Nat) (d : Dev), d = tick t s.dev → d.running = true → Calm d →
    scans = passed (msT 1) d.pr.parAt d.now → bad = (if scans then x.scan ++ x.uses else x.uses) →
    (scans = false → x.uses = [] → x.shadows = [] → exec (.parityScan t x) s = .next { s with dev := d }) ∧
    ∃ u, exec (.parityScan t x) s = .next u ∧ u.dev.pr.parAt = (if scans then d.now else d.pr.parAt) ∧
      (∀ o, o ∈ u.dev.pr.parBad ↔ if scans = true then o ∈ bad ∧ (hasParity o = true ∨ o ∈ d.pr.parBad)
        else (o ∈ bad ∧ hasParity o = true) ∨ o ∈ d.pr.parBad) ∧
      (∀ o, (∃ k, (o, k) ∈ u.dev.pr.parShad) ↔ (∃ k, (o, k) ∈ d.pr.parShad) ∨ (o ∈ x.shadows ∧ shadowParity o = true)) ∧
      regFld u.dev R.protErrCnt 31 24 = satNat 255 (regFld d R.protErrCnt 31 24 +
        ((bad.filter hasParity).dedup.filter (fun o => decide (o ∉ d.pr.parBad))).length) ∧
      (∀ o, bad = [o] → hasParity o = true → o ∉ d.pr.parBad → (∃ f ∈ u.dev.pr.cfgFaults, f.1 = o ∧ f.2.1 = 1) ∧
        level u.dev 8 0 = satNat 255 (level d 8 0 + 1)) ∧
      (bad = [] → ∀ f ∈ d.pr.cfgFaults, f ∈ u.dev.pr.cfgFaults ∨ (f.1 ∈ d.pr.parBad ∧ f.2 = (1, 8))) ∧
      ChangesOnly (.pr :: evParts) (R.protErrCnt :: evRegs) d u.dev ∧ HostEvents s.hst u.hst) ∧
  (∀ (s : State) (t : Time) (d : Dev), d = tick t s.dev → d.awake = true → Calm d →
    (∀ k : Nat, ∃ u, exec (.serviceWindowOpen t k) s = .next u ∧
      (k = 0 → u.dev.pr = { d.pr with svcLow := false, svcSpent := false, svcFrom := some d.now } ∧
        ChangesOnly [.pr] [] d u.dev ∧ u.hst = s.hst) ∧
      (2000 ≤ k → svcHeld d = true → d.pr.svcSpent = false → windowOpen u.dev = true ∧
        u.dev.pr = { d.pr with
          svcLow := true, svcSpent := true
          svcUntil := some (BitVec.ofNat 64 (d.now.toNat + svcMinutes d * 60 * lsbPerSec)) } ∧
        u.dev.ev.count = (d.ev.count + 1) % 65536) ∧
      (k ≠ 0 → k < 2000 ∨ svcHeld d = false ∨ d.pr.svcSpent = true → u.dev.pr = { d.pr with svcLow := true } ∧
        ChangesOnly [.pr] [] d u.dev ∧ u.hst = s.hst) ∧
      ChangesOnly (.pr :: evParts) evRegs d u.dev ∧ HostEvents s.hst u.hst) ∧
    (∀ (c : Instr) (reason : Nat) (closes : Bool),
      (c = .protSvcClose t 1 ∧ reason = 2 ∧ closes = d.pr.svcUntil.isSome) ∨
      (c = .serviceWindowTimeout t ∧ reason = 1 ∧ closes = (match d.pr.svcUntil with
        | some x => decide (x.toNat ≤ d.now.toNat)
        | none => false)) ∨
      (c = .svcHeadTimeout t ∧ reason = 4 ∧ closes = (d.pr.svcHead && decide (msT 10 ≤ since d.sf.hbRx d.now))) →
      (closes = false → exec c s = .next { s with dev := d }) ∧
      (closes = true → ∃ u, exec c s = .next u ∧
        (reason = 4 → u.dev.pr.svcHead = false ∧ u.dev.pr.svcUntil = d.pr.svcUntil) ∧
        (reason ≠ 4 → u.dev.pr.svcUntil = none ∧ u.dev.pr.svcHead = d.pr.svcHead) ∧
        (windowOpen u.dev = true → (∀ o, shadow u.dev o = shadow d o) ∧ ChangesOnly [.pr] [] d u.dev ∧ u.hst = s.hst) ∧
        (windowOpen u.dev = false →
          (d.sf.extest = true → u.dev.outputsOff = true) ∧
          (d.pr.xM = none → d.pr.xA = none →
            (∀ o ∈ dangerousOffsets, shadow u.dev o = reg d o) ∧ (∀ o, o ∉ dangerousOffsets → shadow u.dev o = shadow d o)) ∧
          (d.pr.xM ≠ none ∨ d.pr.xA ≠ none → u.dev.pr.revert = some reason ∧ ∀ o, shadow u.dev o = shadow d o)) ∧
        (d.sf.extest = false → ChangesOnly (.pr :: .shad :: evParts) evRegs d u.dev) ∧
        ChangesOnly (.pr :: .shad :: .sf :: evParts) (R.safeCnt :: evRegs) d u.dev ∧ HostEvents s.hst u.hst)) ∧
    ∀ (m : Master) (key : Word) (x : Hst), (m = .hostPort → hostOn (d, s.hst) = true) →
      x = (if m = .hostPort then { s.hst with lastErr := false } else s.hst) →
      ∃ u, exec (.protCfgStore t m key) s = .next u ∧
        (dangerousOk m d = false → regFld u.dev R.protErrCnt 7 0 = satNat 255 (regFld d R.protErrCnt 7 0 + 1) ∧ u.dev.pr = d.pr ∧
          (m = .hostPort → u.hst.lastErr = true)) ∧
        (dangerousOk m d = true → key ≠ 0x5A5A0003 → ChangesOnly [] [] d u.dev ∧ u.hst = x) ∧
        (dangerousOk m d = true → key = 0x5A5A0003 →
          (cfgRefused d = true → u.dev.pr = d.pr ∧ u.dev.ev.count = (d.ev.count + 1) % 65536) ∧
          (cfgRefused d = false → u.hst = x ∧ ∃ j : CfgStore, u.dev.pr = { d.pr with storing := some j, cfgCleanup := none } ∧
            j.slot = (if d.pr.recValid then 1 - d.pr.cfgActive else 0) ∧ j.step = (if (cfgSlot d j.slot).blank then 3 else 2) ∧
            j.at0 = d.now ∧ j.data.seq = cfgNextSeq d ∧ j.data.entries = recordOffsets.map (fun o => (o, reg d o))) ∧
          ChangesOnly (.pr :: evParts) evRegs d u.dev ∧ HostEvents x u.hst)) ∧
  ∀ (s : State) (t : Time) (ok : Bool) (bad : List Nat) (x : CfgStore) (d : Dev), d = tick t s.dev → d.running = true → Calm d →
    d.pr.storing = some x → x.slot < 2 →
    (d.pw.warn = true ∨ passed (nvmSpan .cfgStore d).2 (nvmSpan .cfgStore d).1 d.now = false →
      exec (.nvmOperationDone t .cfgStore ⟨ok, bad⟩) s = .next { s with dev := d }) ∧
    (d.pw.warn = false → passed (nvmSpan .cfgStore d).2 (nvmSpan .cfgStore d).1 d.now = true →
      ∃ u, exec (.nvmOperationDone t .cfgStore ⟨ok, bad⟩) s = .next u ∧
        (x.step = 2 → u.dev.pr.storing = some { x with step := 3, at0 := d.now } ∧ cfgSlot u.dev x.slot = CfgSlot.empty) ∧
        (x.step = 3 → u.dev.pr.storing = some { x with step := if ok then 5 else 12, at0 := d.now }) ∧
        (x.step = 5 → ok = false → u.dev.pr.storing = some { x with step := 12, at0 := d.now }) ∧
        (x.step = 13 ∨ x.step = 15 → ok = false → ∃ n, n ∈ [24, 26] ∧ u.dev.pr.storing = some { x with step := n, at0 := d.now }) ∧
        (x.step = 24 ∨ x.step = 26 → u.dev.pr.storing = none ∧ cfgSlot u.dev x.slot = CfgSlot.empty ∧
          u.dev.pr.recValid = d.pr.recValid ∧ u.dev.pr.cfgActive = d.pr.cfgActive) ∧
        (x.step = 5 ∨ x.step = 15 → ok = true → u.dev.pr.recValid = true ∧ u.dev.pr.cfgActive = x.slot ∧
          (cfgSlot u.dev x.slot).data = some x.data ∧
          u.dev.pr.storing = if (cfgSlot d (1 - x.slot)).blank then none else some { x with step := 7, at0 := d.now }) ∧
        (x.step = 7 → u.dev.pr.storing = none ∧ cfgSlot u.dev (1 - x.slot) = CfgSlot.empty ∧
          cfgSlot u.dev x.slot = cfgSlot d x.slot) ∧
        ChangesOnly (.pr :: .mem :: evParts) evRegs d u.dev ∧ HostEvents s.hst u.hst)

/-! ### Memories and history (file 13) -/

/-- Memories: a word read with one or two changed bits is counted as corrected and noted, one with three as uncorrectable: a word of the host
window stays known and shows to the host port, an engine's memory fails its engine, Belvedere's resets the device, and a sector of the
non-volatile memory is refreshed; scrubber and sweep pause while the load is shed; the sweep starts every 30 days and reads a sector each
100 ms; a refresh ends after its four operations; an operation of the non-volatile memory completes no sooner than its time, and none under
a supply warning (R37, R38, R166, R363 to R368).

History: the lifetime is recorded every 3,600 s, a checkpoint of 20 records is taken every 21,600 s, and a summary closes after 90,000 s under
the next number and is kept; under a supply warning each waits. HIST_MARK is programmed before it acts: two records, its time kept, DONE.
HIST_READ answers the blocks asked for that are held, DONE_PARTIAL where one is not, the open summary, the identity area and the seal record.
FW_UPDATE is refused in the order window, state, busy, or fails a header check and leaves the target bank erased, or begins (R369, R370, R372,
R377, R378, R382, R383). -/
def Obligations.MemoriesAndHistory : Prop :=
  (∀ (s : State) (t : Time) (d : Dev), d = tick t s.dev → d.awake = true → Calm d →
      (∀ (m addr : Nat) (e : BitVec 79) (who : Reader),
        (memIndex m = false ∨ (who = .scrubber ∧ d.pw.persist = true) ∨ errCount e = 0 →
          exec (.sramScrub t m addr e who) s = .next { s with dev := d }) ∧
        (memIndex m = true → who ≠ .scrubber ∨ d.pw.persist = false → 1 ≤ errCount e → errCount e ≤ 3 →
          ∃ u, exec (.sramScrub t m addr e who) s = .next u ∧
            ((m = 0x40 ∨ m = 0x41) ∧ errCount e = 3 → u.dev.pw.st = .starting ∧ u.dev.pw.cause.testBit 6 = true) ∧
            ((m ≠ 0x40 ∧ m ≠ 0x41) ∨ errCount e < 3 →
              regFld u.dev R.memCeCnt 15 0 = satNat 65535 (regFld d R.memCeCnt 15 0 + if errCount e ≤ 2 ∧ m ≠ 0x50 then 1 else 0) ∧
              regFld u.dev R.memCeCnt 31 16 = satNat 65535 (regFld d R.memCeCnt 31 16 + if errCount e ≤ 2 ∧ m = 0x50 then 1 else 0) ∧
              regFld u.dev R.memUeCnt 15 0 = satNat 65535 (regFld d R.memUeCnt 15 0 + if errCount e = 3 ∧ m ≠ 0x50 then 1 else 0) ∧
              regFld u.dev R.memUeCnt 31 16 = satNat 65535 (regFld d R.memUeCnt 31 16 + if errCount e = 3 ∧ m = 0x50 then 1 else 0) ∧
              u.dev.mm.lastErr = packW [(m, 0), (errCount e, 8)] ∧ u.dev.mm.lastAddr = BitVec.ofNat 32 addr ∧
              (errCount e = 3 → 0x20 ≤ m → (m, addr) ∈ u.dev.mm.bad) ∧ (errCount e ≤ 2 → u.dev.mm.bad = d.mm.bad) ∧
              (errCount e = 3 → m < 0x20 → engineFailed u.dev (m % 16) = true) ∧
              (errCount e ≤ 2 → m = 0x50 → d.mm.refresh = none → 0 < freeReserve d → u.dev.mm.refresh = some (addr / 512 * 512, 1)) ∧
              (errCount e = 3 → who = .hostPort → 0x20 ≤ m → m ≤ 0x23 → u.hst.lastErr = true) ∧
              (∀ h, errCount e = 3 → who = .command h → 0x20 ≤ m → m ≤ 0x3F → d.head = false → (∃ c ∈ d.ex.cmds, c.h = h ∧ c.d ≠ []) →
                ∃ r ∈ u.dev.ex.results, r.h = h ∧ r.status = 0x7F) ∧
              ((∀ h, who ≠ .command h) → 0x20 ≤ m → m < 0x50 → ChangesOnly (.mem :: evParts) (R.memCeCnt :: R.memUeCnt :: evRegs) d u.dev)))) ∧
      (∃ u, exec (.nvSweepStart t) s = .next u ∧
        (d.mm.sweepOn = false → d.pw.persist = false → d.mm.sweepStart + sweepEvery ≤ d.mm.life →
          u.dev.mm = { d.mm with sweepOn := true, sweepAt := 0, sweepStart := d.mm.life, sweepLast := d.now }) ∧
        (d.mm.sweepOn = true ∨ d.pw.persist = true ∨ d.mm.life < d.mm.sweepStart + sweepEvery → u.dev.mm = d.mm) ∧
        ChangesOnly [.mem] [] d u.dev ∧ u.hst = s.hst) ∧
      (∀ (found : List (Nat × BitVec 79)),
        (d.mm.sweepOn = false ∨ d.pw.warn = true ∨ d.pw.persist = true ∨ passed (msT 100) d.mm.sweepLast d.now = false →
          exec (.nvSweepSector t found) s = .next { s with dev := d }) ∧
        (d.mm.sweepOn = true → d.pw.warn = false → d.pw.persist = false → passed (msT 100) d.mm.sweepLast d.now = true →
          ∃ u, exec (.nvSweepSector t found) s = .next u ∧ u.dev.mm.sweepAt = d.mm.sweepAt + 1 ∧ u.dev.mm.sweepLast = d.now ∧
            u.dev.mm.sweepOn = decide (d.mm.sweepAt + 1 < nvmSectors) ∧
            (found = [] → ChangesOnly [.mem] [] d u.dev ∧ u.hst = s.hst) ∧
            ∀ (i : Nat) (e : BitVec 79), found = [(i, e)] → i < 512 → d.mm.refresh = none →
              (1 ≤ errCount e → errCount e ≤ 2 → 0 < freeReserve d → u.dev.mm.refresh = some (512 * d.mm.sweepAt, 1) ∧
                regFld u.dev R.memCeCnt 31 16 = satNat 65535 (regFld d R.memCeCnt 31 16 + 1)) ∧
              (errCount e = 3 → (0x50, 512 * d.mm.sweepAt + i) ∈ u.dev.mm.bad ∧
                regFld u.dev R.memUeCnt 31 16 = satNat 65535 (regFld d R.memUeCnt 31 16 + 1)))) ∧
      ∀ (op : NvmOp) (ok : Bool) (bad : List Nat),
        (d.pw.warn = true ∨ passed (nvmSpan op d).2 (nvmSpan op d).1 d.now = false →
          exec (.nvmOperationDone t op ⟨ok, bad⟩) s = .next { s with dev := d }) ∧
        (d.pw.warn = false → passed (nvmSpan op d).2 (nvmSpan op d).1 d.now = true →
          ∃ u, exec (.nvmOperationDone t op ⟨ok, bad⟩) s = .next u ∧
            (nvmRuns op d = false ∨ bad = [] → u.dev.mm.remap = d.mm.remap) ∧
            (∀ x, bad = [x] → nvmRuns op d = true → (nvmArea op d).1 ≤ x → x < (nvmArea op d).1 + (nvmArea op d).2 → 0 < freeReserve d →
              u.dev.mm.remap = d.mm.remap ++ [(x, reserveFrom + d.mm.remap.length)]) ∧
            (∀ a k, op = .refresh → d.mm.refresh = some (a, k) →
              (k < 4 → u.dev.mm.refresh = some (a, k + 1)) ∧
              (4 ≤ k → d.mm.refreshQ = [] → u.dev.mm.refresh = none) ∧
              (∀ b l, 4 ≤ k → bad = [] → d.mm.refreshQ = b :: l → d.mm.remap.length < reserveSize →
                u.dev.mm.refresh = some (b, 1) ∧ u.dev.mm.refreshQ = l)) ∧
            (op = .minsec → u.dev.mm.minsec = max d.mm.minsec (if d.mm.bootB then d.mm.bankB.sec else d.mm.bankA.sec)) ∧
            (∀ j, op = .fwErase → ok = true → d.mm.install = some j → j.step = 2 →
              fwBank u.dev j.bankB = FwBank.erased ∧ u.dev.mm.install = some { j with step := 3, at0 := d.now }) ∧
            (∀ j, op = .fwMarker → ok = true → d.mm.install = some j → j.step = 5 → u.dev.mm.install = none ∧
              fwBank u.dev j.bankB = ⟨true, j.sec, j.ver, some j.hash,
                some ⟨0x4B4D5746, (fwBank d d.mm.bootB).seq + 1, some j.hash, 0xFFFFFFFF⟩⟩ ∧
              Finished s u j.h 0x00 (fwResult j.bankB 0 j.ver)) ∧
            (∀ j r, op = .histMark → ok = true → d.mm.marks = j :: r → u.dev.mm.marks = r ∧
              u.dev.mm.nextSeq = d.mm.nextSeq + 2 ∧ u.dev.mm.lastUtc = j.utc ∧
              u.dev.mm.summ.num = d.mm.summ.num + b2n (decide (j.kind / 2 % 2 = 1 ∧ d.mm.sumClose + 3600 ≤ d.mm.life)) ∧
              Finished s u j.h 0x00 [] ∧ ChangesOnly [.mem, .hist, .ex, .queues, .cyc] [R.ringCnt] d u.dev) ∧
            (∀ j r, op = .histMark → ok = false → d.mm.marks = j :: r → u.dev.mm.marks = r ∧
              u.dev.mm.nextSeq = d.mm.nextSeq ∧ Finished s u j.h 0x41 []))) ∧
  (∀ (s : State) (t : Time) (d : Dev), d = tick t s.dev → d.awake = true → Calm d →
      (∀ (c : Instr) (due : Bool), (c = .lifetimeRecord t ∧ due = decide (d.mm.lifeRec + 3600 ≤ d.mm.life)) ∨
          (c = .summaryCheckpoint t ∧ due = decide (d.mm.checkLife + 21600 ≤ d.mm.life)) ∨
          (c = .summaryClose t ∧ due = decide (d.mm.sumClose + 90000 ≤ d.mm.life)) →
        (due = false → exec c s = .next { s with dev := d }) ∧
        (due = true → d.pw.warn = true → ∃ u, exec c s = .next u ∧
          u.dev.mm = { d.mm with due := { d.mm.due with
            life := d.mm.due.life || decide (c = .lifetimeRecord t)
            check := d.mm.due.check || decide (c = .summaryCheckpoint t)
            close := if c = .summaryClose t then some (1, 0, 0) else d.mm.due.close } } ∧
          ChangesOnly [.hist] [] d u.dev ∧ u.hst = s.hst)) ∧
      (d.pw.warn = false →
        (d.mm.lifeRec + 3600 ≤ d.mm.life → ∃ u, exec (.lifetimeRecord t) s = .next u ∧ u.dev.mm.lifeRec = d.mm.life ∧
          u.dev.mm.nextSeq = d.mm.nextSeq + 1 ∧ ChangesOnly [.mem, .hist] [] d u.dev ∧ u.hst = s.hst) ∧
        (d.mm.checkLife + 21600 ≤ d.mm.life → ∃ u, exec (.summaryCheckpoint t) s = .next u ∧
          u.dev.mm.nextSeq = d.mm.nextSeq + 20 ∧ u.dev.mm.checkpoint = some (rebase d) ∧ u.dev.mm.checkLife = d.mm.life ∧
          ChangesOnly [.mem, .hist] [] d u.dev ∧ u.hst = s.hst) ∧
        (d.mm.sumClose + 90000 ≤ d.mm.life → ∃ u, exec (.summaryClose t) s = .next u ∧
          u.dev.mm.summ.num = d.mm.summ.num + 1 ∧ u.dev.mm.sumClose = d.mm.life ∧ u.dev.mm.checkpoint = none ∧
          (∃ b, u.dev.mm.sums.getLast? = some (d.mm.summ.num, b) ∧ u.dev.mm.sumHash = (sha256 b).take 8 ∧
            ∃ body, b = body ++ padTo 64 (deviceSign body)) ∧
          ChangesOnly [.mem, .hist] [] d u.dev ∧ u.hst = s.hst))) ∧
  ∀ (s : State) (t : Time) (h : Nat) (c : Desc) (d : Dev), d = tick t s.dev → d.awake = true → Calm d →
    (dOp c = 0x41 → okHistMark c = true → ∃ u, exec (.histMark t h c) s = .next u ∧
      (∃ j : MarkJob, u.dev.mm = { d.mm with marks := d.mm.marks ++ [j] } ∧ j.h = h ∧
        j.utc = (dWord c 3).toNat + 2 ^ 32 * (dWord c 4).toNat ∧ j.kind = dFld c 2 2 0 ∧ j.at0 = d.now ∧
        j.p0 = leBytes 8 j.utc ++ leBytes 8 d.now.toNat ++ [BitVec.ofNat 8 j.kind] ++ zeros 31 ∧
        j.p1 = wordsBytes ((upFrom 5 8).map (dWord c))) ∧
      ChangesOnly [.mem] [] d u.dev ∧ u.hst = s.hst) ∧
    (dOp c = 0x40 → okHistRead c = true → ∀ first n : Nat, first = (dWord c 3).toNat → n = (dWord c 4).toNat →
      ∃ u, exec (.histRead t h c) s = .next u ∧
        (hrArea c = 2 → Finished s u h 0x00 (histHeader 2 1 (2 * b2n (badWithin d 0x310000 0x3000)) 0 0 0 ++ identityBytes d)) ∧
        (hrArea c = 3 → Finished s u h 0x00 (histHeader 3 1 (2 * b2n (badWithin d 0x314000 0x4000)) 0 0 0 ++ sealBytes d)) ∧
        (hrArea c = 0 → first = 0xFFFFFFFF → ∃ res, Finished s u h 0x00 res ∧ res.length = 16 + (summaryBody d).length + 64 ∧
          res.take 8 = [0, 1, 1, 0] ++ leBytes 4 d.mm.summ.num ∧ res.drop 16 = summaryBody d ++ zeros 64) ∧
        (∀ l : List (Nat × List Byte), (hrArea c = 0 ∧ l = d.mm.sums) ∨
            (hrArea c = 1 ∧ l = (d.mm.sectors.filter (fun x => d.mm.sectors.any (fun y => y.sig.isSome && y.seq == x.seq))).map
              (fun x => (x.seq, x.bytes))) →
          first ≠ 0xFFFFFFFF → ∀ hit, hit = l.filter (fun b => decide (first ≤ b.1) && decide (b.1 < first + n)) →
          ∃ res, Finished s u h (if hit.length < n then 0x01 else 0x00) res ∧ res.length = 16 + (hit.flatMap Prod.snd).length ∧
            res.drop 16 = hit.flatMap Prod.snd ∧
            res.take 2 = [BitVec.ofNat 8 (hrArea c), BitVec.ofNat 8 hit.length] ∧
            ((res.getD 2 0).toNat.testBit 2 = true ↔ hit.length < n) ∧
            (∀ a b x : Nat × List Byte, l.head? = some a → l.getLast? = some b → hit.head? = some x →
              (res.drop 4).take 12 = leBytes 4 x.1 ++ leBytes 4 a.1 ++ leBytes 4 b.1)) ∧
        ChangesOnly [.free, .ex, .queues, .cyc] [R.ringCnt] d u.dev) ∧
    (dOp c = 0xA0 → okFwUpdate c = true → ∃ u, exec (.fwUpdate t h c) s = .next u ∧
      (∀ st, fwRefusal d = some st → Finished s u h st [] ∧ u.dev.mm = d.mm) ∧
      (windowOpen d = false → fwRefusal d = some 0x11) ∧
      (fwRefusal d = none → ∀ (off len : Nat) (x : Option (List Byte)), off = (dWord c 2).toNat → len = (dWord c 3).toNat →
        x = (if d.head then some (winRead s.hst off 256) else bulkHeader d h) →
        (x = none → u.dev.mm.install = some ⟨h, !d.mm.bootB, len, off, 0, 0, [], 1, d.now⟩ ∧ ChangesOnly [.mem] [] d u.dev ∧ u.hst = s.hst) ∧
        (∀ y, x = some y → fwDetail d len y ≠ 0 →
          Finished s u h 0x40 (fwResult (!d.mm.bootB) (fwDetail d len y) (BitVec.ofNat 32 (tab32 y 0x0C))) ∧
          u.dev.mm.install = none ∧ fwBank u.dev (!d.mm.bootB) = FwBank.erased ∧ fwBank u.dev d.mm.bootB = fwBank d d.mm.bootB) ∧
        (∀ y, x = some y → fwDetail d len y = 0 →
          u.dev.mm.install = some ⟨h, !d.mm.bootB, len, off, BitVec.ofNat 32 (tab32 y 0x0C), fwSec y, (y.drop 0x20).take 32, 2, d.now⟩ ∧
          fwBank u.dev (!d.mm.bootB) = { fwBank d (!d.mm.bootB) with marker := none } ∧ fwBank u.dev d.mm.bootB = fwBank d d.mm.bootB ∧
          ChangesOnly [.mem] [] d u.dev ∧ u.hst = s.hst)) ∧
      ChangesOnly [.mem, .ex, .queues, .cyc] [R.ringCnt] d u.dev)

/-! ### Self-test, repair and boundary scan (file 14) -/

/-- Online tests: a lane stage test begins in its turn and a comparator group's in its slot, and each ends at its time and marks the stage, spare
stage or pair that failed and no other; a lane test that waits is denied where its group has a failed lane or spare. SELFTEST answers the newest
record, waits, is denied or busy, or begins its test and completes with it; REPAIR needs the window, fuses each soft spare in scope in turn, and
ends when its record is written (R330, R392 to R394, R396, R398, R399). A TAP instruction that takes the pins ends both hops and, with the window
closed, both outputs; leaving them trains both ports (R330, R400 to R402). -/
def Obligations.SelfTestsMark : Prop :=
  (∀ (s : State) (t : Time) (d : Dev), d = tick t s.dev → d.awake = true → Calm d →
    (∀ (g : LaneGroup) (cell : Nat) (spareOk stageOk go : Bool),
      (go = true ↔ 1 ≤ cell ∧ cell ≤ ncells d ∧ cell = stageNext d g ∧ spareStageFailed d g = false ∧ laneFailed d g = false ∧
        relieved d (laneIdx g cell) = false ∧ (stages d g).on = none ∧ (stages d g).queue = none) →
      (go = false → exec (.laneStageTest t g cell spareOk stageOk) s = .next { s with dev := d }) ∧
      (go = true → ∃ u, exec (.laneStageTest t g cell spareOk stageOk) s = .next u ∧
        stages u.dev g = { stages d g with next := cell + 1, on := some ⟨cell, none, spareOk, stageOk⟩ } ∧
        regFld u.dev R.bistOnline (onlineBit g + 4) (onlineBit g) = (cell - 1) % 32 ∧ regBit u.dev R.bistOnline (onlineBit g + 5) = true ∧
        (∀ x, x ∈ u.dev.ca.todo ↔ x ∈ d.ca.todo ∨ x = ⟨later d.now (if spareOk then 3 * groupW d g + 2 * groupP2 d g
          else groupW d g + groupP2 d g), .stageEnd g⟩) ∧
        ChangesOnly [.bi, .ca] [R.bistOnline] d u.dev ∧ u.hst = s.hst)) ∧
    (∀ (k : Nat) (pairs : List PairSeen), k < 4 →
      (cmpSlot d k t = false ∨ groupCells d k = [] → exec (.cmpGroupTest t k pairs) s = .next { s with dev := d }) ∧
      (cmpSlot d k t = true → groupCells d k ≠ [] → ∃ u, exec (.cmpGroupTest t k pairs) s = .next u ∧
        u.dev.ca.cmpGroup = k ∧ u.dev.ca.cmpFrom = some d.now ∧ u.dev.bi = { d.bi with cmpJob := false } ∧
        (∃ r : CmpFound, r.h = none ∧ (∀ x, x ∈ u.dev.ca.todo ↔ x ∈ d.ca.todo ∨ x = ⟨later d.now (msT 15), .cmpEnd k r⟩) ∧
          ∀ n, 1 ≤ n → n ≤ 32 →
            (r.ov.testBit (n - 1) = true ↔ n ∈ groupCells d k ∧ pairSkipped d n = false ∧
              ∃ p ∈ pairs, p.cell = n ∧ ovFails (laneA d n) p = true) ∧
            (r.uv.testBit (n - 1) = true ↔ n ∈ groupCells d k ∧ pairSkipped d n = false ∧
              ∃ p ∈ pairs, p.cell = n ∧ uvFails (laneA d n) p = true) ∧
            (r.skip.testBit (n - 1) = true ↔ n ∈ groupCells d k ∧ pairSkipped d n = true)) ∧
        ChangesOnly [.bi, .ca] [] d u.dev ∧ u.hst = s.hst)) ∧
    ∀ (h : Nat) (c : Desc),
      (∀ r : OnlineTest, dOp c = 0x70 → okSelftest c = true → ∃ u, exec (.selftest t h c r) s = .next u ∧
        (d.pw.persist = true → Finished s u h 0x12 []) ∧
        (d.pw.persist = false →
          (∀ l, stType c = 0 → d.bi.recs.getLast? = some l →
            Finished s u h 0x00 (l ++ if l.getD 6 0 = 2 then d.bi.captured.flatMap (fun e => e.2.flatten) else [])) ∧
          (∀ (g : LaneGroup) (cell : Nat), stType c = 1 → g = (if stIndex c < 32 then .a else .b) → cell = stIndex c % 32 + 1 →
            (ncells d < cell ∨ laneFailed d g = true ∨ spareStageFailed d g = true → Finished s u h 0x12 []) ∧
            (cell ≤ ncells d → laneFailed d g = false → spareStageFailed d g = false →
              (stageAsked d = true → Finished s u h 0x31 []) ∧
              (stageAsked d = false → (stages d g).on ≠ none ∨ relieved d (laneIdx g cell) = true →
                stages u.dev g = { stages d g with queue := some ⟨cell, some h, r.spareOk, r.stageOk⟩ } ∧ u.hst = s.hst) ∧
              (stageAsked d = false → (stages d g).on = none → relieved d (laneIdx g cell) = false →
                stages u.dev g = { stages d g with queue := none, on := some ⟨cell, some h, r.spareOk, r.stageOk⟩ } ∧ u.hst = s.hst))) ∧
          (stType c = 2 →
            (groupCells d (stIndex c) = [] → Finished s u h 0x12 []) ∧
            (groupCells d (stIndex c) ≠ [] →
              (d.bi.cmpJob = true ∨ d.bi.cmpQueue ≠ none → Finished s u h 0x31 []) ∧
              (d.bi.cmpJob = false → d.bi.cmpQueue = none →
                (d.ca.cmpFrom ≠ none → u.dev.bi = { d.bi with cmpQueue := some (h, stIndex c, r.pairs) } ∧ u.hst = s.hst) ∧
                (d.ca.cmpFrom = none → (∀ n ∈ groupCells d (stIndex c), pairSkipped d n = true) → Finished s u h 0x30 []) ∧
                (d.ca.cmpFrom = none → (∃ n ∈ groupCells d (stIndex c), pairSkipped d n = false) →
                  u.dev.ca.cmpFrom = some d.now ∧ u.dev.ca.cmpGroup = stIndex c ∧ u.dev.bi = { d.bi with cmpJob := true } ∧
                  u.hst = s.hst)))) ∧
          (stType c = 3 →
            (servedBy d (stIndex c) ≠ [] → Finished s u h 0x12 []) ∧
            (servedBy d (stIndex c) = [] → d.bi.engTest ≠ none ∨ d.en.rebal ≠ [] → Finished s u h 0x31 []) ∧
            (servedBy d (stIndex c) = [] → d.bi.engTest = none → d.en.rebal = [] →
              u.dev.bi = { d.bi with engTest := some (stIndex c) } ∧
              (∃ x ∈ u.dev.ca.todo, x.step = .engEnd h (stIndex c) r.bank ∧ x.due = later d.now engTestLen) ∧ u.hst = s.hst)))) ∧
      ∀ bad : List (Nat × Nat), dOp c = 0x71 → okRepair c = true → ∃ u, exec (.repair t h c bad) s = .next u ∧
        (windowOpen d = false → repairRefusal d = some 0x11) ∧
        (∀ st, repairRefusal d = some st → Finished s u h st [] ∧ u.dev.bi = d.bi ∧ u.dev.ca = d.ca) ∧
        (repairRefusal d = none → ∀ l : List (Nat × Nat),
          l = (if rpMem c = 0xFF then upFrom 0 66 else [rpMem c]).flatMap (fun m => (softList (bankRepair d m)).map (fun i => (m, i))) →
          (∃ j, u.dev.bi = { d.bi with job := some j } ∧ j.h = h ∧ (j.status = 0x00 ∨ j.status = 0x01) ∧
            (j.status = 0x00 ↔ ∀ e ∈ l, e ∉ bad)) ∧
          (∀ i (e : Nat × Nat), l[i]? = some e →
            ⟨later d.now (usT 320 * (i + 1)), .fuse e.1 e.2 (decide (e ∉ bad))⟩ ∈ u.dev.ca.todo) ∧
          ⟨later d.now (usT 320 * l.length), .fuseEnd⟩ ∈ u.dev.ca.todo ∧ ChangesOnly [.bi, .ca] [] d u.dev ∧ u.hst = s.hst)) ∧
  (∀ (g : LaneGroup) (x : StageTest) (d v : Dev), (stages d g).on = some x → (stages d g).queue = none → 1 ≤ x.cell → x.cell ≤ 32 →
    v = stageEnd g d →
    (stages v g).on = none ∧ regBit v R.bistOnline (onlineBit g + 5) = false ∧
    spareStageFailed v g = (spareStageFailed d g || !x.spareOk) ∧
    (∀ j, j < 32 → regBit v (laneFailOff g) j = (regBit d (laneFailOff g) j || (decide (j + 1 = x.cell) && x.spareOk && !x.stageOk))) ∧
    (x.spareOk = true → x.stageOk = false → laneFailed d g = true → regBit d (laneFailOff g) (x.cell - 1) = false →
      laneIdx g x.cell ∈ v.me.dead) ∧
    (∀ h, x.h = some h → d.head = true →
      ⟨h, 0x00, [BitVec.ofNat 8 (laneIdx g x.cell), if x.spareOk = false then 2 else if x.stageOk = true then 0 else 1, 0, 0]⟩ ∈ v.ex.done) ∧
    (x.h = none → ChangesOnly (.bi :: .me :: evParts) (R.bistOnline :: laneFailOff g :: evRegs) d v)) ∧
  (∀ (g : LaneGroup) (x y : StageTest) (h : Nat) (d v : Dev), (stages d g).on = some x → (stages d g).queue = some y → y.h = some h →
    d.head = true → v = stageEnd g d → laneFailed v g = true ∨ spareStageFailed v g = true →
    (stages v g).on = none ∧ (stages v g).queue = none ∧ ⟨h, 0x12, []⟩ ∈ v.ex.done) ∧
  (∀ (k : Nat) (r : CmpFound) (d v : Dev), d.bi.cmpQueue = none → v = cmpTestEnd k r d →
    v.ca.cmpFrom = none ∧ v.bi.cmpJob = false ∧
    (∀ j, j < 32 → regBit v R.bistCmpFail j = (regBit d R.bistCmpFail j || r.ov.testBit j || r.uv.testBit j)) ∧
    (r.h = none → ChangesOnly (.bi :: .ca :: evParts) (R.bistCmpFail :: evRegs) d v)) ∧
  (∀ (m i : Nat) (ok : Bool) (d : Dev), m < 66 → i < 6 →
    ((bankRepair (fuseDone m i ok d) m).fused = (if ok then (bankRepair d m).fused ||| 2 ^ i else (bankRepair d m).fused)) ∧
    (∀ n, n ≠ m → bankRepair (fuseDone m i ok d) n = bankRepair d n) ∧
    ChangesOnly (.bi :: evParts) evRegs d (fuseDone m i ok d)) ∧
  (∀ (s : State) (t : Time) (ok : Bool) (bad : List Nat) (j : RepairJob) (d : Dev), d = tick t s.dev → d.running = true → Calm d → d.pw.warn = false →
    passed (nvmSpan .repairRecord d).2 (nvmSpan .repairRecord d).1 d.now = true → d.bi.recDue = true → d.bi.job = some j →
    ∃ u, exec (.nvmOperationDone t .repairRecord ⟨ok, bad⟩) s = .next u ∧ u.dev.bi.recDue = false ∧ u.dev.bi.job = none ∧
      Finished s u j.h (if ok = true then j.status else 0x41) j.res ∧
      (ok = true → ∃ x, bestRepair u.dev = some x ∧ x.engines = d.bi.engines ∧ x.banks = d.bi.banks) ∧
      (ok = false → u.dev.bi.slot0 = d.bi.slot0 ∧ u.dev.bi.slot1 = d.bi.slot1)) ∧
  ∀ (s : State) (t : Time) (c : Instr) (k : Nat) (cells : List Bool) (d : Dev), d = tick t s.dev → d.awake = true → Calm d →
    (c = .tapReset t ∧ k = 0x02 ∧ cells = []) ∨ (∃ ir, c = .tapUpdateIr t ir cells ∧ k = if ir ≤ 6 then ir else 0x1F) →
    ∃ u, exec c s = .next u ∧
      u.dev.bi = { d.bi with ir := k, cells := if cells.length = 84 ∧ d.bi.ir ∈ [0x00, 0x01, 0x05, 0x06] then cells else d.bi.cells } ∧
      u.dev.sf.extest = holdsPins k ∧
      (holdsPins k = true → windowOpen d = false ∨ k = 0x04 → u.dev.outputsOff = true) ∧
      (holdsPins k = true → holdsPins d.bi.ir = false → ∀ p : Port, (port d p).st = .up → (port u.dev p).st = .training) ∧
      (holdsPins k = false → holdsPins d.bi.ir = true → ∀ p : Port, (port u.dev p).st = .training) ∧
      (holdsPins k = false → holdsPins d.bi.ir = false → u.dev.ln = d.ln ∧ u.dev.ls = d.ls) ∧
      ChangesOnly ([.bi, .sf, .north, .south, .rg] ++ evParts) (R.safeCnt :: evRegs) d u.dev ∧ HostEvents s.hst u.hst

/-! ### Power and reset (file 02) -/

/-- Resets: each cause of Table PWR-5 that can arise leaves the device held in Starting with both outputs off, every register at its reset
value and the host port as after power-on, and is remembered; power-on also forgets the earlier causes; what stays within its bound resets
nothing. The key to SYS_RESET asks for a reset 10 ms on. A start samples MODE, counts, begins ring time at 0 and shows its cause and kind, with
the host port of a head on 0.2 ms before READY; READY is STANDBY with the ports training (R2, R35, R40, R44, R46 to R48, R50, R60, R61, R308,
R364, R408, R427). -/
def Obligations.ResetsAndStarts : Prop :=
  (∀ s : State, Settled s → ∃ u, exec .vstkPowerOn s = .next u ∧ u.dev.pw.st = .starting ∧ u.dev.pw.held = true ∧
    u.dev.pw.cause = 1 ∧ u.dev.outputsOff = true ∧ (∀ o, reg u.dev o = regReset o ∧ shadow u.dev o = regReset o) ∧
    u.dev.mm.life = u.dev.mm.lifeRec ∧ (u.dev.mm.lifeRec = s.dev.mm.lifeRec ∨ u.dev.mm.lifeRec = s.dev.mm.lifePrev) ∧ u.dev.rg.pos = 0x3F ∧ u.hst = Hst.init) ∧
  (∀ (s : State) (t : Time) (c : Instr) (b : Nat) (d : Dev), d = (if s.dev.running then tick t s.dev else s.dev) → Calm d →
    (c = .brownOutReset t ∧ b = 1 ∧ d.pw.st ≠ .off ∧ d.pw.st ≠ .shutdown) ∨
      (resettable b d = true ∧ ((∃ us, c = .railReset t us ∧ 5 < us ∧ b = 2) ∨ (∃ ns, c = .externalReset t ns ∧ 1000 ≤ ns ∧ b = 3) ∨
        (∃ k, c = .swResetExpire t ∧ d.pw.swReset = some k ∧ passed (msT 10) k d.now = true ∧ b = 4) ∨ (c = .clockMonitorFault t ∧ b = 5) ∨
        (c = .lockstepMismatch t ∧ b = 6) ∨
        (∃ m a e who, c = .sramScrub t m a e who ∧ (m = 0x40 ∨ m = 0x41) ∧ errCount e = 3 ∧ d.awake = true ∧
          (who ≠ .scrubber ∨ d.pw.persist = false) ∧ b = 6) ∨
        (∃ k, c = .thermalReset t k ∧ 140 < k ∧ b = 7))) →
    ∃ u, exec c s = .next u ∧ u.dev.pw.st = .starting ∧ u.dev.pw.held = true ∧ u.dev.pw.cause = d.pw.cause ||| 2 ^ b ∧
      u.dev.outputsOff = true ∧
      (d.pw.st ≠ .starting ∨ d.pw.held = false ∨ d.pw.aborted = false ∨ b = 1 →
        (∀ o, reg u.dev o = regReset o ∧ shadow u.dev o = regReset o) ∧ u.hst = Hst.init)) ∧
  (∀ (s : State) (t : Time) (c : Instr) (d : Dev), d = (if s.dev.running then tick t s.dev else s.dev) → Calm d →
    (c = .brownOutReset t ∧ (d.pw.st = .off ∨ d.pw.st = .shutdown)) ∨
      (∃ us, c = .railReset t us ∧ (us ≤ 5 ∨ resettable 2 d = false)) ∨
      (∃ ns, c = .externalReset t ns ∧ (ns < 200 ∨ (1000 ≤ ns ∧ resettable 3 d = false))) ∨
      (c = .swResetExpire t ∧ (d.pw.swReset = none ∨ (∃ k, d.pw.swReset = some k ∧ passed (msT 10) k d.now = false) ∨
        resettable 4 d = false)) ∨
      (c = .clockMonitorFault t ∧ resettable 5 d = false) ∨ (c = .lockstepMismatch t ∧ resettable 6 d = false) ∨
      (∃ k, c = .thermalReset t k ∧ (k ≤ 140 ∨ resettable 7 d = false)) →
    exec c s = .next { s with dev := d }) ∧
  (∀ (s : State) (t : Time) (m : Master) (key : Word) (x : Hst) (d : Dev), d = tick t s.dev → d.awake = true → Calm d →
    (m = .hostPort → hostOn (d, s.hst) = true) → x = (if m = .hostPort then { s.hst with lastErr := false } else s.hst) →
    ∃ u, exec (.sysReset t m key) s = .next u ∧
      (dangerousOk m d = true → u.dev.pw = { d.pw with swReset := if key = 0x5A5A0001 then some d.now else d.pw.swReset } ∧
        ChangesOnly [.pw] [] d u.dev ∧ u.hst = x) ∧
      (dangerousOk m d = false → u.dev.pw = d.pw ∧ (m = .hostPort → u.hst.lastErr = true) ∧
        regFld u.dev R.protErrCnt 7 0 = satNat 255 (regFld d R.protErrCnt 7 0 + 1))) ∧
  (∀ (s : State) (env : StartEnv), Settled s →
    (s.dev.pw.st ≠ .starting ∨ s.dev.pw.held = false ∨ env.ended = false → exec (.resetRelease env) s = .next s) ∧
    (s.dev.pw.st = .starting → s.dev.pw.held = true → env.ended = true → ∃ u, exec (.resetRelease env) s = .next u ∧
      u.dev.pw.st = .starting ∧ u.dev.pw.held = false ∧ u.dev.pw.mode = env.mode ∧ u.dev.pw.cause = 0 ∧
      u.dev.pw.rstCause = packW [(s.dev.pw.cause % 512, 0), (if s.dev.pw.cause % 512 / 256 = 1 then s.dev.pw.wakeSrc else 0, 12)] ∧
      u.dev.pw.quick = decide (fullReason s.dev = 0) ∧ u.dev.pw.fullReason = fullReason s.dev ∧
      u.dev.now = stepAt 89800 5800 u.dev ∧ u.dev.mm.startNo = s.dev.mm.startNo + 1 ∧
      u.dev.rg.pos = (if env.mode = true then 0 else if s.dev.rg.pos = 0 then 0x3F else s.dev.rg.pos) ∧
      u.hst.on = u.dev.head ∧ u.hst.hiz = !u.dev.head)) ∧
  ∀ s : State, Settled s →
    (s.dev.pw.st ≠ .starting ∨ s.dev.pw.held = true → exec .startComplete s = .next s) ∧
    (s.dev.pw.st = .starting → s.dev.pw.held = false → ∃ u, exec .startComplete s = .next u ∧ u.dev.pw.st = .standby ∧
      HostEvents s.hst u.hst ∧ u.dev.now.toNat = max s.dev.now.toNat (readyAt s.dev).toNat ∧
      (s.dev.sf.extest = false → u.dev.ln.st = .training ∧ u.dev.ls.st = .training))

/-- Power states: the supply warning, its end, at which what waited is written and an erase or program that it suspended has that much longer to
run, the shed it leads to and that one's end; the clock and buck flags; idleness of 10 ms; POWER, which sets the floor or begins a closing unless it
is denied; a closing that has run enters its state, one that is aborted becomes a full start; the seal is tested 100 ms apart; asleep the
comparators sample every 100 ms; and each wake source that is enabled wakes a device from a low-power state, in which RST_N is low, drives the wake
stream and is remembered (R31, R34, R37, R38, R42, R47, R51 to R54, R57 to R59, R217, R301, R349). -/
def Obligations.PowerStatesMove : Prop :=
  (∀ (s : State) (t : Time) (d : Dev), d = tick t s.dev → d.awake = true → Calm d →
    (d.pw.warn = false → ∃ u, exec (.supplyWarning t) s = .next u ∧ u.dev.pw.warn = true ∧ u.dev.pw.warnAt = d.now ∧
      ChangesOnly [.pw, .free] [] d u.dev ∧ u.hst = s.hst) ∧
    (d.pw.warn = true → ∃ u, exec (.supplyWarningClear t) s = .next u ∧ u.dev.pw.warn = false ∧ u.dev.pw.nvmSusp = false ∧
      u.dev.pw.dip = some (d.pw.warnAt, d.now) ∧ level u.dev 6 0 = satNat 255 (level d 6 0 + 1) ∧ u.dev.mm.due = NvDue.none ∧
      u.dev.bi.pendRec = none ∧
      (d.mm.due = NvDue.none → d.bi.pendRec = none →
        u.dev.pw = { d.pw with warn := false, nvmSusp := false, dip := some (d.pw.warnAt, d.now) } ∧
        (quiet d 6 = false → d.mm.summ.recs < recordBudget → d.mm.nextSeq < u.dev.mm.nextSeq) ∧
        u.dev.ca = { d.ca with store := d.ca.store.map (fun x => { x with at0 := heldFrom d x.at0 }) } ∧
        u.dev.pr = { d.pr with storing := d.pr.storing.map (fun x => { x with at0 := heldFrom d x.at0 }) } ∧
        u.dev.mm.install = d.mm.install.map (fun x => { x with at0 := heldFrom d x.at0 }) ∧
        u.dev.mm.marks = d.mm.marks.map (fun x => { x with at0 := heldFrom d x.at0 }) ∧
        u.dev.mm.refreshAt = heldFrom d d.mm.refreshAt ∧ u.dev.bi = { d.bi with recAt := heldFrom d d.bi.recAt } ∧
        ChangesOnly ([.pw, .ca, .pr, .bi, .mem] ++ evParts) evRegs d u.dev) ∧
      HostEvents s.hst u.hst) ∧
    (d.pw.warn = true → d.pw.persist = false → msT 10 ≤ since d.pw.warnAt d.now →
      ∃ u, exec (.supplyLowShed t) s = .next u ∧ u.dev.pw = { d.pw with persist := true, shedAt := d.now } ∧
        level u.dev 7 0 = satNat 255 (level d 7 0 + 1) ∧
        ChangesOnly ([.pw, .ba, .free] ++ evParts) evRegs d u.dev ∧ HostEvents s.hst u.hst) ∧
    (d.pw.warn = false ∨ d.pw.persist = true ∨ since d.pw.warnAt d.now < msT 10 →
      exec (.supplyLowShed t) s = .next { s with dev := d }) ∧
    (∀ x, d.pw.warn = false → d.pw.persist = true → d.pw.dip = some x → msT 100 ≤ since x.2 d.now →
      ∃ u, exec (.shedEnd t) s = .next u ∧ u.dev.pw.persist = false ∧ u.dev.en.held = [] ∧
        (d.en.held = [] → u.dev.pw = { d.pw with persist := false } ∧
          ChangesOnly ([.pw, .en, .ba, .free] ++ evParts) evRegs d u.dev ∧ HostEvents s.hst u.hst)) ∧
    (d.pw.warn = true ∨ d.pw.persist = false ∨ (∀ x, d.pw.dip = some x → since x.2 d.now < msT 100) →
      exec (.shedEnd t) s = .next { s with dev := d }) ∧
    (∃ u, exec (.buckDropout t) s = .next u ∧ u.dev.pw = { d.pw with dropout := true } ∧
      ChangesOnly [.pw] [] d u.dev ∧ u.hst = s.hst) ∧
    (∃ u, exec (.buckDropoutEnd t) s = .next u ∧ u.dev.pw = { d.pw with dropout := false } ∧
      ChangesOnly [.pw] [] d u.dev ∧ u.hst = s.hst) ∧
    (∀ b, ∃ u, exec (.clockLock t b) s = .next u ∧ u.dev.pw = { d.pw with locked := b } ∧
      ChangesOnly [.pw] [] d u.dev ∧ u.hst = s.hst) ∧
    (∀ idle : Bool, (idle = true ↔ d.pw.st = .active ∧ d.pw.floorActive = false ∧ d.en.imp = none ∧ d.en.est = none ∧
        msT 10 ≤ since d.pw.workAt d.now) →
      exec (.activeIdleTimeout t) s = .next { s with dev := if idle then { d with pw := { d.pw with st := .standby } } else d }) ∧
    (∀ (h : Nat) (c : Desc), dOp c = 0x90 → okPower c = true → ∃ u, exec (.power t h c) s = .next u ∧
      (d.ca.user = none → 4 ≤ pwState c → Finished s u h 0x00 [] ∧ u.dev.pw.floorActive = decide (pwState c = 5) ∧
        u.dev.pw.st = (if pwState c = 5 then .active else d.pw.st)) ∧
      (pwState c ≤ 3 → d.head = false ∨ dTarget c ≠ 0x3F → lowDenied (lowState (pwState c)) d = true →
        u.dev.pw.st = d.pw.st ∧ (d.ca.user = none → Finished s u h 0x12 [])) ∧
      (pwState c ≤ 3 → d.head = false ∨ dTarget c ≠ 0x3F → lowDenied (lowState (pwState c)) d = false →
        u.dev.pw.st = .closing ∧ u.dev.pw.target = lowState (pwState c) ∧ u.dev.pw.closeAt = d.now ∧ u.dev.pw.aborted = false ∧
        u.dev.ba.plan = none ∧ (pwState c ≠ 3 → u.dev.ba.gzPlan = none) ∧ u.dev.en.imp = none ∧ u.dev.en.est = none ∧
        u.dev.en.held = [] ∧ (d.head = true → u.dev.outputsOff = true))) ∧
    (∀ c : HeadCmd, d.head = true → s.hst.on = true → s.hst.cmds = [c] → lowPower c.d = true → dTarget c.d = 0x3F →
      answerOf c 0 = some 0x00 → isWaiting s.hst c = false → msT 1 ≤ since c.since d.now →
      ∃ u, exec (.powerAckTimeout t) s = .next u ∧ u.dev.pw.st = .closing ∧ u.dev.pw.target = lowState (pwState c.d) ∧
        u.dev.outputsOff = true) ∧
    ∀ dt ohms : Nat,
      (∀ a, d.pr.sealLast = some a → a ≤ d.now.toNat → d.now.toNat < a + msT 98 →
        exec (.sealTest t dt ohms) s = .next { s with dev := d }) ∧
      (d.pr.sealLast = none ∨ (∃ a, d.pr.sealLast = some a ∧ a + msT 98 ≤ d.now.toNat) →
        ∃ u, exec (.sealTest t dt ohms) s = .next u ∧ u.dev.pr.sealValid = true ∧ u.dev.pr.sealLast = some d.now.toNat ∧
          u.dev.pr.sealOpen = decide (1000 < ohms) ∧
          u.dev.mm.sealCount = (if 1000 < ohms ∧ d.pr.sealOpen = false then satNat 0xFFFF (d.mm.sealCount + 1)
            else d.mm.sealCount) ∧
          ChangesOnly (.pr :: .mem :: evParts) evRegs d u.dev ∧ HostEvents s.hst u.hst)) ∧
  (∀ (s : State) (t : Time) (d : Dev), d = tick t s.dev → d.pw.st = .closing → Calm d →
    (∀ r : SelfTestRun, d.pw.aborted = false → d.pw.target.low = true → d.pw.warn = false → usT 64500 ≤ since d.pw.closeAt d.now →
      ∃ u, exec (.closingComplete t r) s = .next u ∧ u.dev.pw.st = d.pw.target ∧ u.hst.on = false ∧
        u.dev.ln = LinkPort.init ∧ u.dev.ls = LinkPort.init ∧ u.dev.bi.recSeq = d.bi.recSeq + 1 ∧
        u.dev.bi.secrets = (d.bi.secrets && !r.cleared) ∧ u.dev.bi.secretLock = true ∧ u.dev.pr.sealLast = none ∧ u.dev.pw.cmpMs = 0 ∧
        u.dev.pw.entryMs = 0 ∧ u.dev.pw.secs = 0) ∧
    (∀ r : SelfTestRun, d.pw.aborted = false ∧ (since d.pw.closeAt d.now < usT 64500 ∨ d.pw.warn = true) ∨
        (d.pw.aborted = true ∧ since d.pw.closeAt d.now < msT 2) →
      exec (.closingComplete t r) s = .next { s with dev := d }) ∧
    (∀ r : SelfTestRun, d.pw.aborted = true → msT 2 ≤ since d.pw.closeAt d.now →
      ∃ u, exec (.closingComplete t r) s = .next u ∧ u.dev.pw.st = .starting ∧ u.dev.pw.held = true ∧ u.dev.pw.aborted = true ∧
        u.dev.pw.wakeSrc = d.pw.wakeSrc ∧ u.dev.outputsOff = true) ∧
    (wakeEn d 0 = true → ∀ dt, ∃ u, exec (.wakePin t dt) s = .next u ∧ u.dev.pw.aborted = true ∧
      u.dev.pw.wakeSrc = (if d.pw.aborted then d.pw.wakeSrc else 1) ∧
      u.dev.pw.st = (if usT 2100 ≤ since d.pw.closeAt d.now then .starting else .closing)) ∧
    (wakeEn d 0 = false → ∀ dt, exec (.wakePin t dt) s = .next { s with dev := d })) ∧
  ∀ (s : State) (t : Time) (dt : Nat) (d : Dev), s.dev.pw.st.low = true → Settled s → d = elapse dt s.dev →
    pinState s.dev s.hst .rst = .low ∧ pinState s.dev s.hst .soa = .off ∧ pinState s.dev s.hst .sob = .off ∧
    (∀ (c : Instr) (src : Nat),
      (c = .wakePin t dt ∧ wakeEn d 0 = true ∧ src = 1) ∨
        (∃ n z, c = .linkWake t dt n z ∧ (n || z) = true ∧ wakeEn d 1 = true ∧ src = 2) ∨
        (c = .wakeTimerExpire dt ∧ sleeping d = true ∧ wakeEn d 2 = true ∧ 1000 * regFld d R.sysWakeTimer 16 0 ≤ d.pw.entryMs ∧
          src = 4) ∨
        (∃ ohms, c = .sealTest t dt ohms ∧ sleeping d = true ∧ 1000 < ohms ∧ d.pr.sealOpen = false ∧ sealDue d = true ∧ src = 5) →
      ∃ u, exec c s = .next u ∧ u.dev.pw.st = .starting ∧ u.dev.pw.held = true ∧ u.dev.pw.wakeSrc = src ∧
        u.dev.pw.cause = d.pw.cause ||| 256 ∧ u.dev.outputsOff = true ∧
        (src ≠ 2 → u.dev.ln.wakeTx = true ∧ u.dev.ls.wakeTx = true) ∧
        (d.pw.st = .gazebo → d.ba.gz ≠ none → u.dev.ba.gzRes.toNat % 16 = 5)) ∧
    (∀ c : Instr, (c = .wakePin t dt ∧ wakeEn d 0 = false) ∨ (c = .linkWake t dt false false) ∨
        (c = .wakeTimerExpire dt ∧ sleeping d = true ∧ (wakeEn d 2 = false ∨ d.pw.entryMs < 1000 * regFld d R.sysWakeTimer 16 0)) →
      exec c s = .next { s with dev := d }) ∧
    (wakeEn d 1 = false → ∃ u, exec (.linkWake t dt true false) s = .next u ∧ u.dev.pw.st = d.pw.st ∧ u.dev.ls.wakeTx = true ∧
      ChangesOnly [.south] [] d u.dev ∧ u.hst = s.hst) ∧
    (sleeping d = true → ∀ mv : List Int,
      (d.pw.entryMs < d.pw.cmpMs + 100 → exec (.sleepCmpSample dt mv) s = .next { s with dev := d }) ∧
      (d.pw.cmpMs + 100 ≤ d.pw.entryMs → ∃ u, exec (.sleepCmpSample dt mv) s = .next u ∧
        u.dev.pw = { d.pw with
          tripSeen := outside d mv, cmpMs := d.pw.cmpMs + 100 * ((d.pw.entryMs - d.pw.cmpMs) / 100) } ∧
        ChangesOnly [.pw] [] d u.dev ∧ u.hst = s.hst) ∧
      (s.dev.pw.tripSeen ≠ [] → ∃ u, exec (.sleepCmpConfirm mv) s = .next u ∧
        ((∃ e ∈ outside s.dev mv, e ∈ s.dev.pw.tripSeen) → u.dev.pw.st = .starting ∧ u.dev.pw.wakeSrc = 3 ∧
          u.dev.pw.tripWake = (outside s.dev mv).filter (fun e => decide (e ∈ s.dev.pw.tripSeen))) ∧
        ((∀ e ∈ outside s.dev mv, e ∉ s.dev.pw.tripSeen) → u.dev.pw.st = s.dev.pw.st ∧ u.dev.pw.tripSeen = []))) ∧
    ∀ (r : GazeboReading) (g : Gazebo) (x : Gazebo × Nat × Nat), d.pw.st = .gazebo → d.ba.gz = some g →
      x = gzCycle d.ca.capture (ncells d) (regFld d R.balPcap 10 0) (rext d) d.pw.entryMs r g →
      (g.first = false → d.pw.entryMs < g.ms + 10000 → exec (.gazeboCycle dt r) s = .next { s with dev := d }) ∧
      (g.first = true ∨ g.ms + 10000 ≤ d.pw.entryMs → ∃ u, exec (.gazeboCycle dt r) s = .next u ∧
        (x.2.1 = 0 → u.dev.pw.st = .gazebo ∧ u.dev.ba.gz = some x.1 ∧ ChangesOnly [.ba] [] d u.dev ∧ u.hst = s.hst) ∧
        (x.2.1 ≠ 0 → u.dev.ba.gz = none ∧
          u.dev.ba.gzRes = packW [(x.2.1, 0), (x.2.2, 8), ((d.pw.entryMs / 60000) % 65536, 16)]) ∧
        (x.2.1 ≠ 0 → wakeEn d 3 = true → u.dev.pw.st = .starting ∧ u.dev.pw.wakeSrc = 6) ∧
        (x.2.1 ≠ 0 → wakeEn d 3 = false → u.dev.pw.st = .sleep ∧ u.dev.pw.cmpMs = d.pw.entryMs ∧ u.hst = s.hst))
end

