-- ==== Sys2Proof/Laws/Fields.lean ====
section
/-! SUPPORT. Fields and bits of register words: what a read finds after a write. -/

namespace Sys2Proof.Machine

-- One theorem after the other: the package as one text else asks for more threads than the check grants.
set_option Elab.async false

/-- A word as the part above a field, the field, and the part below it. -/
theorem split_word (w lo k : Nat) :
    w = w / 2 ^ (lo + k) * 2 ^ (lo + k) + (w / 2 ^ lo % 2 ^ k) * 2 ^ lo + w % 2 ^ lo := by
  have h1 := Nat.div_add_mod w (2 ^ lo)
  have h2 := Nat.div_add_mod (w / 2 ^ lo) (2 ^ k)
  have h3 : w / 2 ^ lo / 2 ^ k = w / 2 ^ (lo + k) := by rw [Nat.div_div_eq_div_mul, ← Nat.pow_add]
  rw [h3] at h2
  calc w = 2 ^ lo * (w / 2 ^ lo) + w % 2 ^ lo := h1.symm
    _ = 2 ^ lo * (2 ^ k * (w / 2 ^ (lo + k)) + w / 2 ^ lo % 2 ^ k) + w % 2 ^ lo := by rw [h2]
    _ = _ := by rw [Nat.pow_add]; ring

/-- A field written, as a number. -/
theorem setFld_toNat (w : Word) (hi lo v : Nat) (h : hi < 32) (hl : lo ≤ hi) :
    (setFld w hi lo v).toNat = w.toNat / 2 ^ (hi + 1) * 2 ^ (hi + 1) + (v % 2 ^ (hi + 1 - lo)) * 2 ^ lo + w.toNat % 2 ^ lo := by
  have hk : lo + (hi + 1 - lo) = hi + 1 := by omega
  have hs := split_word w.toNat lo (hi + 1 - lo)
  rw [hk] at hs
  have hw : w.toNat < 2 ^ 32 := w.isLt
  have hv : v % 2 ^ (hi + 1 - lo) < 2 ^ (hi + 1 - lo) := Nat.mod_lt _ (by positivity)
  have hr : w.toNat % 2 ^ lo < 2 ^ lo := Nat.mod_lt _ (by positivity)
  have hA : w.toNat / 2 ^ (hi + 1) < 2 ^ (32 - (hi + 1)) := by
    rw [Nat.div_lt_iff_lt_mul (by positivity), ← Nat.pow_add]
    rwa [show 32 - (hi + 1) + (hi + 1) = 32 by omega]
  unfold setFld
  simp only [BitVec.toNat_ofNat, Nat.shiftRight_eq_div_pow]
  have e : w.toNat - w.toNat / 2 ^ lo % 2 ^ (hi + 1 - lo) * 2 ^ lo + v % 2 ^ (hi + 1 - lo) * 2 ^ lo =
      w.toNat / 2 ^ (hi + 1) * 2 ^ (hi + 1) + (v % 2 ^ (hi + 1 - lo)) * 2 ^ lo + w.toNat % 2 ^ lo := by
    generalize w.toNat / 2 ^ (hi + 1) * 2 ^ (hi + 1) = A at *
    generalize w.toNat / 2 ^ lo % 2 ^ (hi + 1 - lo) * 2 ^ lo = B at *
    omega
  rw [e]
  apply Nat.mod_eq_of_lt
  have h1 : v % 2 ^ (hi + 1 - lo) * 2 ^ lo + w.toNat % 2 ^ lo < 2 ^ (hi + 1) := by
    have : (v % 2 ^ (hi + 1 - lo) + 1) * 2 ^ lo ≤ 2 ^ (hi + 1 - lo) * 2 ^ lo := Nat.mul_le_mul_right _ hv
    rw [← Nat.pow_add, show hi + 1 - lo + lo = hi + 1 by omega] at this
    nlinarith
  have h2 : (w.toNat / 2 ^ (hi + 1) + 1) * 2 ^ (hi + 1) ≤ 2 ^ (32 - (hi + 1)) * 2 ^ (hi + 1) := Nat.mul_le_mul_right _ hA
  rw [← Nat.pow_add, show 32 - (hi + 1) + (hi + 1) = 32 by omega] at h2
  nlinarith

/-- Read of the field written. -/
theorem fld_setFld (w : Word) (hi lo v : Nat) (h : hi < 32 := by decide) (hl : lo ≤ hi := by decide) :
    fld (setFld w hi lo v) hi lo = v % 2 ^ (hi + 1 - lo) := by
  unfold fld
  rw [setFld_toNat w hi lo v h hl, Nat.shiftRight_eq_div_pow]
  have hr : w.toNat % 2 ^ lo < 2 ^ lo := Nat.mod_lt _ (by positivity)
  have : w.toNat / 2 ^ (hi + 1) * 2 ^ (hi + 1) = w.toNat / 2 ^ (hi + 1) * 2 ^ (hi + 1 - lo) * 2 ^ lo := by
    rw [Nat.mul_assoc, ← Nat.pow_add, show hi + 1 - lo + lo = hi + 1 by omega]
  rw [this, ← Nat.add_mul, Nat.add_comm, Nat.add_mul_div_right _ _ (by positivity), Nat.div_eq_of_lt hr, Nat.zero_add,
    Nat.mul_add_mod_self_right, Nat.mod_mod]

/-- Read of a field above the one written. -/
theorem fld_setFld_above (w : Word) (hi lo v a b : Nat) (h : hi < 32 := by decide) (hl : lo ≤ hi := by decide)
    (hb : hi < b := by decide) : fld (setFld w hi lo v) a b = fld w a b := by
  unfold fld
  rw [setFld_toNat w hi lo v h hl, Nat.shiftRight_eq_div_pow, Nat.shiftRight_eq_div_pow]
  congr 1
  obtain ⟨c, rfl⟩ : ∃ c, b = hi + 1 + c := ⟨b - (hi + 1), by omega⟩
  rw [show (2 : Nat) ^ (hi + 1 + c) = 2 ^ (hi + 1) * 2 ^ c from Nat.pow_add .., ← Nat.div_div_eq_div_mul,
    ← Nat.div_div_eq_div_mul]
  congr 1
  have hv : v % 2 ^ (hi + 1 - lo) < 2 ^ (hi + 1 - lo) := Nat.mod_lt _ (by positivity)
  have hr : w.toNat % 2 ^ lo < 2 ^ lo := Nat.mod_lt _ (by positivity)
  have h1 : v % 2 ^ (hi + 1 - lo) * 2 ^ lo + w.toNat % 2 ^ lo < 2 ^ (hi + 1) := by
    have : (v % 2 ^ (hi + 1 - lo) + 1) * 2 ^ lo ≤ 2 ^ (hi + 1 - lo) * 2 ^ lo := Nat.mul_le_mul_right _ hv
    rw [← Nat.pow_add, show hi + 1 - lo + lo = hi + 1 by omega] at this
    nlinarith
  rw [Nat.add_assoc, Nat.add_comm, Nat.add_mul_div_right _ _ (by positivity), Nat.div_eq_of_lt h1, Nat.zero_add]

/-- Read of a field below the one written. -/
theorem fld_setFld_below (w : Word) (hi lo v a b : Nat) (h : hi < 32 := by decide) (hl : lo ≤ hi := by decide)
    (ha : a < lo := by decide) (hb : b ≤ a := by decide) : fld (setFld w hi lo v) a b = fld w a b := by
  unfold fld
  rw [setFld_toNat w hi lo v h hl, Nat.shiftRight_eq_div_pow, Nat.shiftRight_eq_div_pow]
  have key : ∀ n : Nat, n / 2 ^ b % 2 ^ (a + 1 - b) = n % 2 ^ (a + 1) / 2 ^ b := by
    intro n
    rw [show a + 1 = b + (a + 1 - b) by omega, Nat.pow_add, Nat.mod_mul_right_div_self]
    simp
  rw [key, key]
  congr 1
  obtain ⟨c, rfl⟩ : ∃ c, lo = a + 1 + c := ⟨lo - (a + 1), by omega⟩
  have e1 : (2 : Nat) ^ (hi + 1) = 2 ^ (a + 1) * 2 ^ (hi + 1 - (a + 1)) := by rw [← Nat.pow_add]; congr 1; omega
  have e2 : (2 : Nat) ^ (a + 1 + c) = 2 ^ (a + 1) * 2 ^ c := Nat.pow_add ..
  rw [e1, Nat.mul_left_comm (w.toNat / _), e2, Nat.mul_left_comm (v % _), ← Nat.mul_add, Nat.mul_add_mod,
    Nat.mod_mul_right_mod]

/-- A bit is a field of one bit. -/
theorem bit_eq_fld (w : Word) (i : Nat) : bit w i = decide (fld w i i = 1) := by
  unfold bit fld
  rw [BitVec.getLsbD, Nat.testBit_eq_decide_div_mod_eq, Nat.shiftRight_eq_div_pow]
  simp

/-- Read of the bit written. -/
theorem bit_putBit (w : Word) (i : Nat) (b : Bool) (h : i < 32) : bit (putBit w i b) i = b := by
  rw [bit_eq_fld, putBit, fld_setFld w i i _ h (Nat.le_refl i)]
  cases b <;> simp [b2n]

/-- Read of another bit. -/
theorem bit_putBit_ne (w : Word) (i j : Nat) (b : Bool) (h : i < 32) (hj : j ≠ i) : bit (putBit w i b) j = bit w j := by
  rcases Nat.lt_or_gt_of_ne hj with k | k
  · rw [bit_eq_fld, bit_eq_fld, putBit, fld_setFld_below w i i _ j j h (Nat.le_refl i) k (Nat.le_refl j)]
  · rw [bit_eq_fld, bit_eq_fld, putBit, fld_setFld_above w i i _ j j h (Nat.le_refl i) k]

end Sys2Proof.Machine
end

