-- ==== Sys2Proof/Laws/Maps.lean ====
section
/-! SUPPORT. Sparse maps: what a read finds after a write, in every map, and that writes keep the canonical form. -/

namespace Sys2Proof.Machine

-- One theorem after the other: the package as one text else asks for more threads than the check grants.
set_option Elab.async false

variable {α : Type}

/-- Dropping a key leaves every other one. -/
theorem mget_mdrop (d : Nat → α) (m : List (Nat × α)) (k i : Nat) :
    mget d (mdrop k m) i = if i = k then d k else mget d m i := by
  induction m with
  | nil => by_cases h : i = k <;> simp [mdrop, mget, h]
  | cons e r ih =>
    obtain ⟨j, u⟩ := e
    by_cases hk : k = j
    · subst hk
      by_cases hi : i = k
      · subst hi; simp [mdrop, ih]
      · simp [mdrop, ih, hi, mget]
    · by_cases hi : i = j
      · have : i ≠ k := fun h => hk (h ▸ hi)
        simp [mdrop, hk, mget, hi, Ne.symm hk]
      · simp [mdrop, hk, mget, hi, ih]

/-- Putting an entry whose key the map does not list. -/
theorem mget_mput (d : Nat → α) (m : List (Nat × α)) (k : Nat) (v : α) (i : Nat) :
    mget d (mput k v (mdrop k m)) i = if i = k then v else mget d (mdrop k m) i := by
  induction m with
  | nil => by_cases h : i = k <;> simp [mdrop, mput, mget, h]
  | cons e r ih =>
    obtain ⟨j, u⟩ := e
    by_cases hk : k = j
    · simpa [mdrop, hk] using hk ▸ ih
    · by_cases hl : k < j
      · simp [mdrop, hk, mput, hl, mget]
      · by_cases hi : i = j
        · have : i ≠ k := fun h => hk (h ▸ hi)
          simp [mdrop, hk, mput, hl, mget, hi, Ne.symm hk]
        · simp [mdrop, hk, mput, hl, mget, hi, ih]

variable [DecidableEq α]

/-- Read after write, in every map. -/
theorem mget_mset (d : Nat → α) (m : List (Nat × α)) (k : Nat) (v : α) (i : Nat) :
    mget d (mset d m k v) i = if i = k then v else mget d m i := by
  unfold mset
  by_cases hv : v = d k
  · by_cases h : i = k <;> simp [hv, mget_mdrop, h]
  · by_cases h : i = k <;> simp [hv, mget_mput, mget_mdrop, h]

/-- Read of the key written. -/
@[simp] theorem mget_mset_self (d : Nat → α) (m : List (Nat × α)) (k : Nat) (v : α) : mget d (mset d m k v) k = v := by
  simp [mget_mset]

/-- Read of another key after a write. -/
theorem mget_mset_ne (d : Nat → α) (m : List (Nat × α)) {k i : Nat} (v : α) (h : i ≠ k) :
    mget d (mset d m k v) i = mget d m i := by simp [mget_mset, h]

/-- Read of a key outside a list written at consecutive keys. -/
theorem mget_msetList_out (d : Nat → α) (l : List α) (m : List (Nat × α)) (k i : Nat) (h : i < k ∨ k + l.length ≤ i) :
    mget d (msetList d m k 1 l) i = mget d m i := by
  induction l generalizing k m with
  | nil => rfl
  | cons v r ih =>
    simp only [List.length_cons] at h
    rw [msetList, ih _ (k + 1) (by omega), mget_mset_ne _ _ v (by omega)]

/-- Read of a key inside it. -/
theorem mget_msetList_in (d : Nat → α) (l : List α) (m : List (Nat × α)) (k i : Nat) (hi : i < l.length) :
    mget d (msetList d m k 1 l) (k + i) = l[i] := by
  induction l generalizing k i m with
  | nil => simp at hi
  | cons v r ih =>
    cases i with
    | zero =>
      simp only [Nat.add_zero]
      rw [msetList, mget_msetList_out d r _ (k + 1) k (by omega)]
      simp
    | succ i =>
      simp only [List.length_cons] at hi
      have := ih (mset d m k v) (k + 1) i (by omega)
      rw [msetList]
      simpa [Nat.add_assoc, Nat.add_comm 1 i] using this

/-- A list written is read back. -/
theorem mgetList_msetList (d : Nat → α) (m : List (Nat × α)) (l : List α) (k : Nat) :
    mgetList d (msetList d m k 1 l) k 1 l.length = l := by
  have key : ∀ (n i : Nat), i + n = l.length → mgetList d (msetList d m k 1 l) (k + i) 1 n = l.drop i := by
    intro n
    induction n with
    | zero => intro i h; simp [mgetList, List.drop_eq_nil_of_le (show l.length ≤ i by omega)]
    | succ n ih =>
      intro i h
      have hi : i < l.length := by omega
      rw [mgetList, mget_msetList_in d l m k i hi, Nat.add_assoc, ih (i + 1) (by omega), List.drop_eq_getElem_cons hi]
  simpa using key l.length 0 (by omega)

/-- A map in the form from a higher bound is in it from a lower one. -/
theorem mwfFrom_mono {d : Nat → α} {lo hi : Nat} (h : lo ≤ hi) {m : List (Nat × α)} (hm : mwfFrom d hi m = true) :
    mwfFrom d lo m = true := by
  cases m with
  | nil => rfl
  | cons e r =>
    obtain ⟨j, v⟩ := e
    simp only [mwfFrom, Bool.and_eq_true, decide_eq_true_eq] at hm ⊢
    exact ⟨⟨by omega, hm.1.2⟩, hm.2⟩

/-- Dropping a key keeps the form. -/
theorem mdrop_mwfFrom {d : Nat → α} {lo k : Nat} {m : List (Nat × α)} (hm : mwfFrom d lo m = true) :
    mwfFrom d lo (mdrop k m) = true := by
  induction m generalizing lo with
  | nil => rfl
  | cons e r ih =>
    obtain ⟨j, u⟩ := e
    simp only [mwfFrom, Bool.and_eq_true, decide_eq_true_eq] at hm
    obtain ⟨⟨h1, h2⟩, h3⟩ := hm
    by_cases hk : k = j
    · simpa [mdrop, hk] using hk ▸ mwfFrom_mono (by omega) (ih h3)
    · simpa [mdrop, hk, mwfFrom, h1, h2] using ih h3

/-- A new entry keeps the form. -/
theorem mput_mwfFrom {d : Nat → α} {lo k : Nat} {v : α} (hk : lo ≤ k) (hv : v ≠ d k) {m : List (Nat × α)}
    (hm : mwfFrom d lo m = true) : mwfFrom d lo (mput k v (mdrop k m)) = true := by
  induction m generalizing lo with
  | nil => simp [mdrop, mput, mwfFrom, hk, hv]
  | cons e r ih =>
    obtain ⟨j, u⟩ := e
    simp only [mwfFrom, Bool.and_eq_true, decide_eq_true_eq] at hm
    obtain ⟨⟨h1, h2⟩, h3⟩ := hm
    by_cases he : k = j
    · simpa [mdrop, he] using he ▸ ih hk (mwfFrom_mono (by omega) h3)
    · by_cases hl : k < j
      · simpa [mdrop, he, mput, hl, mwfFrom, hk, hv, h2, Nat.succ_le_of_lt hl] using mdrop_mwfFrom h3
      · have hlt : j + 1 ≤ k := by omega
        simpa [mdrop, he, mput, hl, mwfFrom, h1, h2] using ih hlt h3

/-- A write keeps the canonical form. -/
theorem mset_mwf {d : Nat → α} (k : Nat) (v : α) {m : List (Nat × α)} (hm : mwf d m = true) :
    mwf d (mset d m k v) = true := by
  unfold mset
  by_cases hv : v = d k
  · simpa [hv, mwf] using mdrop_mwfFrom hm
  · simpa [hv, mwf] using mput_mwfFrom (Nat.zero_le k) hv hm

/-- So do writes of a list. -/
theorem msetList_mwf {d : Nat → α} (l : List α) (k st : Nat) {m : List (Nat × α)} (hm : mwf d m = true) :
    mwf d (msetList d m k st l) = true := by
  induction l generalizing k m with
  | nil => exact hm
  | cons v r ih => exact ih (k + st) (mset_mwf k v hm)

end Sys2Proof.Machine
end

