-- ==== Sys2Proof/Laws/State.lean ====
section
/-! SUPPORT. One lemma per field for each update of the device, the host port and the state, so that no proof unfolds a record update. -/

namespace Sys2Proof.Machine

@[simp] theorem setReg_now (off : Nat) (v : Word) (d : Dev) : (setReg off v d).now = d.now := rfl
@[simp] theorem setReg_free (off : Nat) (v : Word) (d : Dev) : (setReg off v d).free = d.free := rfl
@[simp] theorem setReg_regs (off : Nat) (v : Word) (d : Dev) : (setReg off v d).regs = mset regReset d.regs off v := rfl
@[simp] theorem setReg_shad (off : Nat) (v : Word) (d : Dev) : (setReg off v d).shad = d.shad := rfl
@[simp] theorem setReg_cyc (off : Nat) (v : Word) (d : Dev) : (setReg off v d).cyc = d.cyc := rfl
@[simp] theorem setReg_pw (off : Nat) (v : Word) (d : Dev) : (setReg off v d).pw = d.pw := rfl
@[simp] theorem setReg_pr (off : Nat) (v : Word) (d : Dev) : (setReg off v d).pr = d.pr := rfl
@[simp] theorem setReg_sf (off : Nat) (v : Word) (d : Dev) : (setReg off v d).sf = d.sf := rfl
@[simp] theorem setReg_mm (off : Nat) (v : Word) (d : Dev) : (setReg off v d).mm = d.mm := rfl
@[simp] theorem setReg_ev (off : Nat) (v : Word) (d : Dev) : (setReg off v d).ev = d.ev := rfl
@[simp] theorem setReg_ln (off : Nat) (v : Word) (d : Dev) : (setReg off v d).ln = d.ln := rfl
@[simp] theorem setReg_ls (off : Nat) (v : Word) (d : Dev) : (setReg off v d).ls = d.ls := rfl
@[simp] theorem setReg_tn (off : Nat) (v : Word) (d : Dev) : (setReg off v d).tn = d.tn := rfl
@[simp] theorem setReg_rg (off : Nat) (v : Word) (d : Dev) : (setReg off v d).rg = d.rg := rfl
@[simp] theorem setReg_tb (off : Nat) (v : Word) (d : Dev) : (setReg off v d).tb = d.tb := rfl
@[simp] theorem setReg_sw (off : Nat) (v : Word) (d : Dev) : (setReg off v d).sw = d.sw := rfl
@[simp] theorem setReg_ex (off : Nat) (v : Word) (d : Dev) : (setReg off v d).ex = d.ex := rfl
@[simp] theorem setReg_me (off : Nat) (v : Word) (d : Dev) : (setReg off v d).me = d.me := rfl
@[simp] theorem setReg_ca (off : Nat) (v : Word) (d : Dev) : (setReg off v d).ca = d.ca := rfl
@[simp] theorem setReg_ba (off : Nat) (v : Word) (d : Dev) : (setReg off v d).ba = d.ba := rfl
@[simp] theorem setReg_io (off : Nat) (v : Word) (d : Dev) : (setReg off v d).io = d.io := rfl
@[simp] theorem setReg_ck (off : Nat) (v : Word) (d : Dev) : (setReg off v d).ck = d.ck := rfl
@[simp] theorem setReg_en (off : Nat) (v : Word) (d : Dev) : (setReg off v d).en = d.en := rfl
@[simp] theorem setReg_bi (off : Nat) (v : Word) (d : Dev) : (setReg off v d).bi = d.bi := rfl

@[simp] theorem setShadow_now (off : Nat) (v : Word) (d : Dev) : (setShadow off v d).now = d.now := rfl
@[simp] theorem setShadow_free (off : Nat) (v : Word) (d : Dev) : (setShadow off v d).free = d.free := rfl
@[simp] theorem setShadow_regs (off : Nat) (v : Word) (d : Dev) : (setShadow off v d).regs = d.regs := rfl
@[simp] theorem setShadow_shad (off : Nat) (v : Word) (d : Dev) : (setShadow off v d).shad = mset regReset d.shad off v := rfl
@[simp] theorem setShadow_cyc (off : Nat) (v : Word) (d : Dev) : (setShadow off v d).cyc = d.cyc := rfl
@[simp] theorem setShadow_pw (off : Nat) (v : Word) (d : Dev) : (setShadow off v d).pw = d.pw := rfl
@[simp] theorem setShadow_pr (off : Nat) (v : Word) (d : Dev) : (setShadow off v d).pr = d.pr := rfl
@[simp] theorem setShadow_sf (off : Nat) (v : Word) (d : Dev) : (setShadow off v d).sf = d.sf := rfl
@[simp] theorem setShadow_mm (off : Nat) (v : Word) (d : Dev) : (setShadow off v d).mm = d.mm := rfl
@[simp] theorem setShadow_ev (off : Nat) (v : Word) (d : Dev) : (setShadow off v d).ev = d.ev := rfl
@[simp] theorem setShadow_ln (off : Nat) (v : Word) (d : Dev) : (setShadow off v d).ln = d.ln := rfl
@[simp] theorem setShadow_ls (off : Nat) (v : Word) (d : Dev) : (setShadow off v d).ls = d.ls := rfl
@[simp] theorem setShadow_tn (off : Nat) (v : Word) (d : Dev) : (setShadow off v d).tn = d.tn := rfl
@[simp] theorem setShadow_rg (off : Nat) (v : Word) (d : Dev) : (setShadow off v d).rg = d.rg := rfl
@[simp] theorem setShadow_tb (off : Nat) (v : Word) (d : Dev) : (setShadow off v d).tb = d.tb := rfl
@[simp] theorem setShadow_sw (off : Nat) (v : Word) (d : Dev) : (setShadow off v d).sw = d.sw := rfl
@[simp] theorem setShadow_ex (off : Nat) (v : Word) (d : Dev) : (setShadow off v d).ex = d.ex := rfl
@[simp] theorem setShadow_me (off : Nat) (v : Word) (d : Dev) : (setShadow off v d).me = d.me := rfl
@[simp] theorem setShadow_ca (off : Nat) (v : Word) (d : Dev) : (setShadow off v d).ca = d.ca := rfl
@[simp] theorem setShadow_ba (off : Nat) (v : Word) (d : Dev) : (setShadow off v d).ba = d.ba := rfl
@[simp] theorem setShadow_io (off : Nat) (v : Word) (d : Dev) : (setShadow off v d).io = d.io := rfl
@[simp] theorem setShadow_ck (off : Nat) (v : Word) (d : Dev) : (setShadow off v d).ck = d.ck := rfl
@[simp] theorem setShadow_en (off : Nat) (v : Word) (d : Dev) : (setShadow off v d).en = d.en := rfl
@[simp] theorem setShadow_bi (off : Nat) (v : Word) (d : Dev) : (setShadow off v d).bi = d.bi := rfl

@[simp] theorem setRegs_now (off : Nat) (vs : List Word) (d : Dev) : (setRegs off vs d).now = d.now := rfl
@[simp] theorem setRegs_free (off : Nat) (vs : List Word) (d : Dev) : (setRegs off vs d).free = d.free := rfl
@[simp] theorem setRegs_regs (off : Nat) (vs : List Word) (d : Dev) : (setRegs off vs d).regs = msetList regReset d.regs off 4 vs := rfl
@[simp] theorem setRegs_shad (off : Nat) (vs : List Word) (d : Dev) : (setRegs off vs d).shad = d.shad := rfl
@[simp] theorem setRegs_cyc (off : Nat) (vs : List Word) (d : Dev) : (setRegs off vs d).cyc = d.cyc := rfl
@[simp] theorem setRegs_pw (off : Nat) (vs : List Word) (d : Dev) : (setRegs off vs d).pw = d.pw := rfl
@[simp] theorem setRegs_pr (off : Nat) (vs : List Word) (d : Dev) : (setRegs off vs d).pr = d.pr := rfl
@[simp] theorem setRegs_sf (off : Nat) (vs : List Word) (d : Dev) : (setRegs off vs d).sf = d.sf := rfl
@[simp] theorem setRegs_mm (off : Nat) (vs : List Word) (d : Dev) : (setRegs off vs d).mm = d.mm := rfl
@[simp] theorem setRegs_ev (off : Nat) (vs : List Word) (d : Dev) : (setRegs off vs d).ev = d.ev := rfl
@[simp] theorem setRegs_ln (off : Nat) (vs : List Word) (d : Dev) : (setRegs off vs d).ln = d.ln := rfl
@[simp] theorem setRegs_ls (off : Nat) (vs : List Word) (d : Dev) : (setRegs off vs d).ls = d.ls := rfl
@[simp] theorem setRegs_tn (off : Nat) (vs : List Word) (d : Dev) : (setRegs off vs d).tn = d.tn := rfl
@[simp] theorem setRegs_rg (off : Nat) (vs : List Word) (d : Dev) : (setRegs off vs d).rg = d.rg := rfl
@[simp] theorem setRegs_tb (off : Nat) (vs : List Word) (d : Dev) : (setRegs off vs d).tb = d.tb := rfl
@[simp] theorem setRegs_sw (off : Nat) (vs : List Word) (d : Dev) : (setRegs off vs d).sw = d.sw := rfl
@[simp] theorem setRegs_ex (off : Nat) (vs : List Word) (d : Dev) : (setRegs off vs d).ex = d.ex := rfl
@[simp] theorem setRegs_me (off : Nat) (vs : List Word) (d : Dev) : (setRegs off vs d).me = d.me := rfl
@[simp] theorem setRegs_ca (off : Nat) (vs : List Word) (d : Dev) : (setRegs off vs d).ca = d.ca := rfl
@[simp] theorem setRegs_ba (off : Nat) (vs : List Word) (d : Dev) : (setRegs off vs d).ba = d.ba := rfl
@[simp] theorem setRegs_io (off : Nat) (vs : List Word) (d : Dev) : (setRegs off vs d).io = d.io := rfl
@[simp] theorem setRegs_ck (off : Nat) (vs : List Word) (d : Dev) : (setRegs off vs d).ck = d.ck := rfl
@[simp] theorem setRegs_en (off : Nat) (vs : List Word) (d : Dev) : (setRegs off vs d).en = d.en := rfl
@[simp] theorem setRegs_bi (off : Nat) (vs : List Word) (d : Dev) : (setRegs off vs d).bi = d.bi := rfl

@[simp] theorem withPw_now (f : Power → Power) (d : Dev) : (withPw f d).now = d.now := rfl
@[simp] theorem withPw_free (f : Power → Power) (d : Dev) : (withPw f d).free = d.free := rfl
@[simp] theorem withPw_regs (f : Power → Power) (d : Dev) : (withPw f d).regs = d.regs := rfl
@[simp] theorem withPw_shad (f : Power → Power) (d : Dev) : (withPw f d).shad = d.shad := rfl
@[simp] theorem withPw_cyc (f : Power → Power) (d : Dev) : (withPw f d).cyc = d.cyc := rfl
@[simp] theorem withPw_pw (f : Power → Power) (d : Dev) : (withPw f d).pw = f d.pw := rfl
@[simp] theorem withPw_pr (f : Power → Power) (d : Dev) : (withPw f d).pr = d.pr := rfl
@[simp] theorem withPw_sf (f : Power → Power) (d : Dev) : (withPw f d).sf = d.sf := rfl
@[simp] theorem withPw_mm (f : Power → Power) (d : Dev) : (withPw f d).mm = d.mm := rfl
@[simp] theorem withPw_ev (f : Power → Power) (d : Dev) : (withPw f d).ev = d.ev := rfl
@[simp] theorem withPw_ln (f : Power → Power) (d : Dev) : (withPw f d).ln = d.ln := rfl
@[simp] theorem withPw_ls (f : Power → Power) (d : Dev) : (withPw f d).ls = d.ls := rfl
@[simp] theorem withPw_tn (f : Power → Power) (d : Dev) : (withPw f d).tn = d.tn := rfl
@[simp] theorem withPw_rg (f : Power → Power) (d : Dev) : (withPw f d).rg = d.rg := rfl
@[simp] theorem withPw_tb (f : Power → Power) (d : Dev) : (withPw f d).tb = d.tb := rfl
@[simp] theorem withPw_sw (f : Power → Power) (d : Dev) : (withPw f d).sw = d.sw := rfl
@[simp] theorem withPw_ex (f : Power → Power) (d : Dev) : (withPw f d).ex = d.ex := rfl
@[simp] theorem withPw_me (f : Power → Power) (d : Dev) : (withPw f d).me = d.me := rfl
@[simp] theorem withPw_ca (f : Power → Power) (d : Dev) : (withPw f d).ca = d.ca := rfl
@[simp] theorem withPw_ba (f : Power → Power) (d : Dev) : (withPw f d).ba = d.ba := rfl
@[simp] theorem withPw_io (f : Power → Power) (d : Dev) : (withPw f d).io = d.io := rfl
@[simp] theorem withPw_ck (f : Power → Power) (d : Dev) : (withPw f d).ck = d.ck := rfl
@[simp] theorem withPw_en (f : Power → Power) (d : Dev) : (withPw f d).en = d.en := rfl
@[simp] theorem withPw_bi (f : Power → Power) (d : Dev) : (withPw f d).bi = d.bi := rfl

@[simp] theorem withProt_now (f : Prot → Prot) (d : Dev) : (withProt f d).now = d.now := rfl
@[simp] theorem withProt_free (f : Prot → Prot) (d : Dev) : (withProt f d).free = d.free := rfl
@[simp] theorem withProt_regs (f : Prot → Prot) (d : Dev) : (withProt f d).regs = d.regs := rfl
@[simp] theorem withProt_shad (f : Prot → Prot) (d : Dev) : (withProt f d).shad = d.shad := rfl
@[simp] theorem withProt_cyc (f : Prot → Prot) (d : Dev) : (withProt f d).cyc = d.cyc := rfl
@[simp] theorem withProt_pw (f : Prot → Prot) (d : Dev) : (withProt f d).pw = d.pw := rfl
@[simp] theorem withProt_pr (f : Prot → Prot) (d : Dev) : (withProt f d).pr = f d.pr := rfl
@[simp] theorem withProt_sf (f : Prot → Prot) (d : Dev) : (withProt f d).sf = d.sf := rfl
@[simp] theorem withProt_mm (f : Prot → Prot) (d : Dev) : (withProt f d).mm = d.mm := rfl
@[simp] theorem withProt_ev (f : Prot → Prot) (d : Dev) : (withProt f d).ev = d.ev := rfl
@[simp] theorem withProt_ln (f : Prot → Prot) (d : Dev) : (withProt f d).ln = d.ln := rfl
@[simp] theorem withProt_ls (f : Prot → Prot) (d : Dev) : (withProt f d).ls = d.ls := rfl
@[simp] theorem withProt_tn (f : Prot → Prot) (d : Dev) : (withProt f d).tn = d.tn := rfl
@[simp] theorem withProt_rg (f : Prot → Prot) (d : Dev) : (withProt f d).rg = d.rg := rfl
@[simp] theorem withProt_tb (f : Prot → Prot) (d : Dev) : (withProt f d).tb = d.tb := rfl
@[simp] theorem withProt_sw (f : Prot → Prot) (d : Dev) : (withProt f d).sw = d.sw := rfl
@[simp] theorem withProt_ex (f : Prot → Prot) (d : Dev) : (withProt f d).ex = d.ex := rfl
@[simp] theorem withProt_me (f : Prot → Prot) (d : Dev) : (withProt f d).me = d.me := rfl
@[simp] theorem withProt_ca (f : Prot → Prot) (d : Dev) : (withProt f d).ca = d.ca := rfl
@[simp] theorem withProt_ba (f : Prot → Prot) (d : Dev) : (withProt f d).ba = d.ba := rfl
@[simp] theorem withProt_io (f : Prot → Prot) (d : Dev) : (withProt f d).io = d.io := rfl
@[simp] theorem withProt_ck (f : Prot → Prot) (d : Dev) : (withProt f d).ck = d.ck := rfl
@[simp] theorem withProt_en (f : Prot → Prot) (d : Dev) : (withProt f d).en = d.en := rfl
@[simp] theorem withProt_bi (f : Prot → Prot) (d : Dev) : (withProt f d).bi = d.bi := rfl

@[simp] theorem withMem_now (f : Mem → Mem) (d : Dev) : (withMem f d).now = d.now := rfl
@[simp] theorem withMem_free (f : Mem → Mem) (d : Dev) : (withMem f d).free = d.free := rfl
@[simp] theorem withMem_regs (f : Mem → Mem) (d : Dev) : (withMem f d).regs = d.regs := rfl
@[simp] theorem withMem_shad (f : Mem → Mem) (d : Dev) : (withMem f d).shad = d.shad := rfl
@[simp] theorem withMem_cyc (f : Mem → Mem) (d : Dev) : (withMem f d).cyc = d.cyc := rfl
@[simp] theorem withMem_pw (f : Mem → Mem) (d : Dev) : (withMem f d).pw = d.pw := rfl
@[simp] theorem withMem_pr (f : Mem → Mem) (d : Dev) : (withMem f d).pr = d.pr := rfl
@[simp] theorem withMem_sf (f : Mem → Mem) (d : Dev) : (withMem f d).sf = d.sf := rfl
@[simp] theorem withMem_mm (f : Mem → Mem) (d : Dev) : (withMem f d).mm = f d.mm := rfl
@[simp] theorem withMem_ev (f : Mem → Mem) (d : Dev) : (withMem f d).ev = d.ev := rfl
@[simp] theorem withMem_ln (f : Mem → Mem) (d : Dev) : (withMem f d).ln = d.ln := rfl
@[simp] theorem withMem_ls (f : Mem → Mem) (d : Dev) : (withMem f d).ls = d.ls := rfl
@[simp] theorem withMem_tn (f : Mem → Mem) (d : Dev) : (withMem f d).tn = d.tn := rfl
@[simp] theorem withMem_rg (f : Mem → Mem) (d : Dev) : (withMem f d).rg = d.rg := rfl
@[simp] theorem withMem_tb (f : Mem → Mem) (d : Dev) : (withMem f d).tb = d.tb := rfl
@[simp] theorem withMem_sw (f : Mem → Mem) (d : Dev) : (withMem f d).sw = d.sw := rfl
@[simp] theorem withMem_ex (f : Mem → Mem) (d : Dev) : (withMem f d).ex = d.ex := rfl
@[simp] theorem withMem_me (f : Mem → Mem) (d : Dev) : (withMem f d).me = d.me := rfl
@[simp] theorem withMem_ca (f : Mem → Mem) (d : Dev) : (withMem f d).ca = d.ca := rfl
@[simp] theorem withMem_ba (f : Mem → Mem) (d : Dev) : (withMem f d).ba = d.ba := rfl
@[simp] theorem withMem_io (f : Mem → Mem) (d : Dev) : (withMem f d).io = d.io := rfl
@[simp] theorem withMem_ck (f : Mem → Mem) (d : Dev) : (withMem f d).ck = d.ck := rfl
@[simp] theorem withMem_en (f : Mem → Mem) (d : Dev) : (withMem f d).en = d.en := rfl
@[simp] theorem withMem_bi (f : Mem → Mem) (d : Dev) : (withMem f d).bi = d.bi := rfl

@[simp] theorem withExec_now (f : Exec → Exec) (d : Dev) : (withExec f d).now = d.now := rfl
@[simp] theorem withExec_free (f : Exec → Exec) (d : Dev) : (withExec f d).free = d.free := rfl
@[simp] theorem withExec_regs (f : Exec → Exec) (d : Dev) : (withExec f d).regs = d.regs := rfl
@[simp] theorem withExec_shad (f : Exec → Exec) (d : Dev) : (withExec f d).shad = d.shad := rfl
@[simp] theorem withExec_cyc (f : Exec → Exec) (d : Dev) : (withExec f d).cyc = d.cyc := rfl
@[simp] theorem withExec_pw (f : Exec → Exec) (d : Dev) : (withExec f d).pw = d.pw := rfl
@[simp] theorem withExec_pr (f : Exec → Exec) (d : Dev) : (withExec f d).pr = d.pr := rfl
@[simp] theorem withExec_sf (f : Exec → Exec) (d : Dev) : (withExec f d).sf = d.sf := rfl
@[simp] theorem withExec_mm (f : Exec → Exec) (d : Dev) : (withExec f d).mm = d.mm := rfl
@[simp] theorem withExec_ev (f : Exec → Exec) (d : Dev) : (withExec f d).ev = d.ev := rfl
@[simp] theorem withExec_ln (f : Exec → Exec) (d : Dev) : (withExec f d).ln = d.ln := rfl
@[simp] theorem withExec_ls (f : Exec → Exec) (d : Dev) : (withExec f d).ls = d.ls := rfl
@[simp] theorem withExec_tn (f : Exec → Exec) (d : Dev) : (withExec f d).tn = d.tn := rfl
@[simp] theorem withExec_rg (f : Exec → Exec) (d : Dev) : (withExec f d).rg = d.rg := rfl
@[simp] theorem withExec_tb (f : Exec → Exec) (d : Dev) : (withExec f d).tb = d.tb := rfl
@[simp] theorem withExec_sw (f : Exec → Exec) (d : Dev) : (withExec f d).sw = d.sw := rfl
@[simp] theorem withExec_ex (f : Exec → Exec) (d : Dev) : (withExec f d).ex = f d.ex := rfl
@[simp] theorem withExec_me (f : Exec → Exec) (d : Dev) : (withExec f d).me = d.me := rfl
@[simp] theorem withExec_ca (f : Exec → Exec) (d : Dev) : (withExec f d).ca = d.ca := rfl
@[simp] theorem withExec_ba (f : Exec → Exec) (d : Dev) : (withExec f d).ba = d.ba := rfl
@[simp] theorem withExec_io (f : Exec → Exec) (d : Dev) : (withExec f d).io = d.io := rfl
@[simp] theorem withExec_ck (f : Exec → Exec) (d : Dev) : (withExec f d).ck = d.ck := rfl
@[simp] theorem withExec_en (f : Exec → Exec) (d : Dev) : (withExec f d).en = d.en := rfl
@[simp] theorem withExec_bi (f : Exec → Exec) (d : Dev) : (withExec f d).bi = d.bi := rfl

@[simp] theorem withEng_now (f : Eng → Eng) (d : Dev) : (withEng f d).now = d.now := rfl
@[simp] theorem withEng_free (f : Eng → Eng) (d : Dev) : (withEng f d).free = d.free := rfl
@[simp] theorem withEng_regs (f : Eng → Eng) (d : Dev) : (withEng f d).regs = d.regs := rfl
@[simp] theorem withEng_shad (f : Eng → Eng) (d : Dev) : (withEng f d).shad = d.shad := rfl
@[simp] theorem withEng_cyc (f : Eng → Eng) (d : Dev) : (withEng f d).cyc = d.cyc := rfl
@[simp] theorem withEng_pw (f : Eng → Eng) (d : Dev) : (withEng f d).pw = d.pw := rfl
@[simp] theorem withEng_pr (f : Eng → Eng) (d : Dev) : (withEng f d).pr = d.pr := rfl
@[simp] theorem withEng_sf (f : Eng → Eng) (d : Dev) : (withEng f d).sf = d.sf := rfl
@[simp] theorem withEng_mm (f : Eng → Eng) (d : Dev) : (withEng f d).mm = d.mm := rfl
@[simp] theorem withEng_ev (f : Eng → Eng) (d : Dev) : (withEng f d).ev = d.ev := rfl
@[simp] theorem withEng_ln (f : Eng → Eng) (d : Dev) : (withEng f d).ln = d.ln := rfl
@[simp] theorem withEng_ls (f : Eng → Eng) (d : Dev) : (withEng f d).ls = d.ls := rfl
@[simp] theorem withEng_tn (f : Eng → Eng) (d : Dev) : (withEng f d).tn = d.tn := rfl
@[simp] theorem withEng_rg (f : Eng → Eng) (d : Dev) : (withEng f d).rg = d.rg := rfl
@[simp] theorem withEng_tb (f : Eng → Eng) (d : Dev) : (withEng f d).tb = d.tb := rfl
@[simp] theorem withEng_sw (f : Eng → Eng) (d : Dev) : (withEng f d).sw = d.sw := rfl
@[simp] theorem withEng_ex (f : Eng → Eng) (d : Dev) : (withEng f d).ex = d.ex := rfl
@[simp] theorem withEng_me (f : Eng → Eng) (d : Dev) : (withEng f d).me = d.me := rfl
@[simp] theorem withEng_ca (f : Eng → Eng) (d : Dev) : (withEng f d).ca = d.ca := rfl
@[simp] theorem withEng_ba (f : Eng → Eng) (d : Dev) : (withEng f d).ba = d.ba := rfl
@[simp] theorem withEng_io (f : Eng → Eng) (d : Dev) : (withEng f d).io = d.io := rfl
@[simp] theorem withEng_ck (f : Eng → Eng) (d : Dev) : (withEng f d).ck = d.ck := rfl
@[simp] theorem withEng_en (f : Eng → Eng) (d : Dev) : (withEng f d).en = f d.en := rfl
@[simp] theorem withEng_bi (f : Eng → Eng) (d : Dev) : (withEng f d).bi = d.bi := rfl

@[simp] theorem withTone_now (f : Tone → Tone) (d : Dev) : (withTone f d).now = d.now := rfl
@[simp] theorem withTone_free (f : Tone → Tone) (d : Dev) : (withTone f d).free = d.free := rfl
@[simp] theorem withTone_regs (f : Tone → Tone) (d : Dev) : (withTone f d).regs = d.regs := rfl
@[simp] theorem withTone_shad (f : Tone → Tone) (d : Dev) : (withTone f d).shad = d.shad := rfl
@[simp] theorem withTone_cyc (f : Tone → Tone) (d : Dev) : (withTone f d).cyc = d.cyc := rfl
@[simp] theorem withTone_pw (f : Tone → Tone) (d : Dev) : (withTone f d).pw = d.pw := rfl
@[simp] theorem withTone_pr (f : Tone → Tone) (d : Dev) : (withTone f d).pr = d.pr := rfl
@[simp] theorem withTone_sf (f : Tone → Tone) (d : Dev) : (withTone f d).sf = d.sf := rfl
@[simp] theorem withTone_mm (f : Tone → Tone) (d : Dev) : (withTone f d).mm = d.mm := rfl
@[simp] theorem withTone_ev (f : Tone → Tone) (d : Dev) : (withTone f d).ev = d.ev := rfl
@[simp] theorem withTone_ln (f : Tone → Tone) (d : Dev) : (withTone f d).ln = d.ln := rfl
@[simp] theorem withTone_ls (f : Tone → Tone) (d : Dev) : (withTone f d).ls = d.ls := rfl
@[simp] theorem withTone_tn (f : Tone → Tone) (d : Dev) : (withTone f d).tn = f d.tn := rfl
@[simp] theorem withTone_rg (f : Tone → Tone) (d : Dev) : (withTone f d).rg = d.rg := rfl
@[simp] theorem withTone_tb (f : Tone → Tone) (d : Dev) : (withTone f d).tb = d.tb := rfl
@[simp] theorem withTone_sw (f : Tone → Tone) (d : Dev) : (withTone f d).sw = d.sw := rfl
@[simp] theorem withTone_ex (f : Tone → Tone) (d : Dev) : (withTone f d).ex = d.ex := rfl
@[simp] theorem withTone_me (f : Tone → Tone) (d : Dev) : (withTone f d).me = d.me := rfl
@[simp] theorem withTone_ca (f : Tone → Tone) (d : Dev) : (withTone f d).ca = d.ca := rfl
@[simp] theorem withTone_ba (f : Tone → Tone) (d : Dev) : (withTone f d).ba = d.ba := rfl
@[simp] theorem withTone_io (f : Tone → Tone) (d : Dev) : (withTone f d).io = d.io := rfl
@[simp] theorem withTone_ck (f : Tone → Tone) (d : Dev) : (withTone f d).ck = d.ck := rfl
@[simp] theorem withTone_en (f : Tone → Tone) (d : Dev) : (withTone f d).en = d.en := rfl
@[simp] theorem withTone_bi (f : Tone → Tone) (d : Dev) : (withTone f d).bi = d.bi := rfl

@[simp] theorem withTime_now (f : Timebase → Timebase) (d : Dev) : (withTime f d).now = d.now := rfl
@[simp] theorem withTime_free (f : Timebase → Timebase) (d : Dev) : (withTime f d).free = d.free := rfl
@[simp] theorem withTime_regs (f : Timebase → Timebase) (d : Dev) : (withTime f d).regs = d.regs := rfl
@[simp] theorem withTime_shad (f : Timebase → Timebase) (d : Dev) : (withTime f d).shad = d.shad := rfl
@[simp] theorem withTime_cyc (f : Timebase → Timebase) (d : Dev) : (withTime f d).cyc = d.cyc := rfl
@[simp] theorem withTime_pw (f : Timebase → Timebase) (d : Dev) : (withTime f d).pw = d.pw := rfl
@[simp] theorem withTime_pr (f : Timebase → Timebase) (d : Dev) : (withTime f d).pr = d.pr := rfl
@[simp] theorem withTime_sf (f : Timebase → Timebase) (d : Dev) : (withTime f d).sf = d.sf := rfl
@[simp] theorem withTime_mm (f : Timebase → Timebase) (d : Dev) : (withTime f d).mm = d.mm := rfl
@[simp] theorem withTime_ev (f : Timebase → Timebase) (d : Dev) : (withTime f d).ev = d.ev := rfl
@[simp] theorem withTime_ln (f : Timebase → Timebase) (d : Dev) : (withTime f d).ln = d.ln := rfl
@[simp] theorem withTime_ls (f : Timebase → Timebase) (d : Dev) : (withTime f d).ls = d.ls := rfl
@[simp] theorem withTime_tn (f : Timebase → Timebase) (d : Dev) : (withTime f d).tn = d.tn := rfl
@[simp] theorem withTime_rg (f : Timebase → Timebase) (d : Dev) : (withTime f d).rg = d.rg := rfl
@[simp] theorem withTime_tb (f : Timebase → Timebase) (d : Dev) : (withTime f d).tb = f d.tb := rfl
@[simp] theorem withTime_sw (f : Timebase → Timebase) (d : Dev) : (withTime f d).sw = d.sw := rfl
@[simp] theorem withTime_ex (f : Timebase → Timebase) (d : Dev) : (withTime f d).ex = d.ex := rfl
@[simp] theorem withTime_me (f : Timebase → Timebase) (d : Dev) : (withTime f d).me = d.me := rfl
@[simp] theorem withTime_ca (f : Timebase → Timebase) (d : Dev) : (withTime f d).ca = d.ca := rfl
@[simp] theorem withTime_ba (f : Timebase → Timebase) (d : Dev) : (withTime f d).ba = d.ba := rfl
@[simp] theorem withTime_io (f : Timebase → Timebase) (d : Dev) : (withTime f d).io = d.io := rfl
@[simp] theorem withTime_ck (f : Timebase → Timebase) (d : Dev) : (withTime f d).ck = d.ck := rfl
@[simp] theorem withTime_en (f : Timebase → Timebase) (d : Dev) : (withTime f d).en = d.en := rfl
@[simp] theorem withTime_bi (f : Timebase → Timebase) (d : Dev) : (withTime f d).bi = d.bi := rfl

@[simp] theorem withRing_now (f : Ring → Ring) (d : Dev) : (withRing f d).now = d.now := rfl
@[simp] theorem withRing_free (f : Ring → Ring) (d : Dev) : (withRing f d).free = d.free := rfl
@[simp] theorem withRing_regs (f : Ring → Ring) (d : Dev) : (withRing f d).regs = d.regs := rfl
@[simp] theorem withRing_shad (f : Ring → Ring) (d : Dev) : (withRing f d).shad = d.shad := rfl
@[simp] theorem withRing_cyc (f : Ring → Ring) (d : Dev) : (withRing f d).cyc = d.cyc := rfl
@[simp] theorem withRing_pw (f : Ring → Ring) (d : Dev) : (withRing f d).pw = d.pw := rfl
@[simp] theorem withRing_pr (f : Ring → Ring) (d : Dev) : (withRing f d).pr = d.pr := rfl
@[simp] theorem withRing_sf (f : Ring → Ring) (d : Dev) : (withRing f d).sf = d.sf := rfl
@[simp] theorem withRing_mm (f : Ring → Ring) (d : Dev) : (withRing f d).mm = d.mm := rfl
@[simp] theorem withRing_ev (f : Ring → Ring) (d : Dev) : (withRing f d).ev = d.ev := rfl
@[simp] theorem withRing_ln (f : Ring → Ring) (d : Dev) : (withRing f d).ln = d.ln := rfl
@[simp] theorem withRing_ls (f : Ring → Ring) (d : Dev) : (withRing f d).ls = d.ls := rfl
@[simp] theorem withRing_tn (f : Ring → Ring) (d : Dev) : (withRing f d).tn = d.tn := rfl
@[simp] theorem withRing_rg (f : Ring → Ring) (d : Dev) : (withRing f d).rg = f d.rg := rfl
@[simp] theorem withRing_tb (f : Ring → Ring) (d : Dev) : (withRing f d).tb = d.tb := rfl
@[simp] theorem withRing_sw (f : Ring → Ring) (d : Dev) : (withRing f d).sw = d.sw := rfl
@[simp] theorem withRing_ex (f : Ring → Ring) (d : Dev) : (withRing f d).ex = d.ex := rfl
@[simp] theorem withRing_me (f : Ring → Ring) (d : Dev) : (withRing f d).me = d.me := rfl
@[simp] theorem withRing_ca (f : Ring → Ring) (d : Dev) : (withRing f d).ca = d.ca := rfl
@[simp] theorem withRing_ba (f : Ring → Ring) (d : Dev) : (withRing f d).ba = d.ba := rfl
@[simp] theorem withRing_io (f : Ring → Ring) (d : Dev) : (withRing f d).io = d.io := rfl
@[simp] theorem withRing_ck (f : Ring → Ring) (d : Dev) : (withRing f d).ck = d.ck := rfl
@[simp] theorem withRing_en (f : Ring → Ring) (d : Dev) : (withRing f d).en = d.en := rfl
@[simp] theorem withRing_bi (f : Ring → Ring) (d : Dev) : (withRing f d).bi = d.bi := rfl

@[simp] theorem withSweep_now (f : Sweeps → Sweeps) (d : Dev) : (withSweep f d).now = d.now := rfl
@[simp] theorem withSweep_free (f : Sweeps → Sweeps) (d : Dev) : (withSweep f d).free = d.free := rfl
@[simp] theorem withSweep_regs (f : Sweeps → Sweeps) (d : Dev) : (withSweep f d).regs = d.regs := rfl
@[simp] theorem withSweep_shad (f : Sweeps → Sweeps) (d : Dev) : (withSweep f d).shad = d.shad := rfl
@[simp] theorem withSweep_cyc (f : Sweeps → Sweeps) (d : Dev) : (withSweep f d).cyc = d.cyc := rfl
@[simp] theorem withSweep_pw (f : Sweeps → Sweeps) (d : Dev) : (withSweep f d).pw = d.pw := rfl
@[simp] theorem withSweep_pr (f : Sweeps → Sweeps) (d : Dev) : (withSweep f d).pr = d.pr := rfl
@[simp] theorem withSweep_sf (f : Sweeps → Sweeps) (d : Dev) : (withSweep f d).sf = d.sf := rfl
@[simp] theorem withSweep_mm (f : Sweeps → Sweeps) (d : Dev) : (withSweep f d).mm = d.mm := rfl
@[simp] theorem withSweep_ev (f : Sweeps → Sweeps) (d : Dev) : (withSweep f d).ev = d.ev := rfl
@[simp] theorem withSweep_ln (f : Sweeps → Sweeps) (d : Dev) : (withSweep f d).ln = d.ln := rfl
@[simp] theorem withSweep_ls (f : Sweeps → Sweeps) (d : Dev) : (withSweep f d).ls = d.ls := rfl
@[simp] theorem withSweep_tn (f : Sweeps → Sweeps) (d : Dev) : (withSweep f d).tn = d.tn := rfl
@[simp] theorem withSweep_rg (f : Sweeps → Sweeps) (d : Dev) : (withSweep f d).rg = d.rg := rfl
@[simp] theorem withSweep_tb (f : Sweeps → Sweeps) (d : Dev) : (withSweep f d).tb = d.tb := rfl
@[simp] theorem withSweep_sw (f : Sweeps → Sweeps) (d : Dev) : (withSweep f d).sw = f d.sw := rfl
@[simp] theorem withSweep_ex (f : Sweeps → Sweeps) (d : Dev) : (withSweep f d).ex = d.ex := rfl
@[simp] theorem withSweep_me (f : Sweeps → Sweeps) (d : Dev) : (withSweep f d).me = d.me := rfl
@[simp] theorem withSweep_ca (f : Sweeps → Sweeps) (d : Dev) : (withSweep f d).ca = d.ca := rfl
@[simp] theorem withSweep_ba (f : Sweeps → Sweeps) (d : Dev) : (withSweep f d).ba = d.ba := rfl
@[simp] theorem withSweep_io (f : Sweeps → Sweeps) (d : Dev) : (withSweep f d).io = d.io := rfl
@[simp] theorem withSweep_ck (f : Sweeps → Sweeps) (d : Dev) : (withSweep f d).ck = d.ck := rfl
@[simp] theorem withSweep_en (f : Sweeps → Sweeps) (d : Dev) : (withSweep f d).en = d.en := rfl
@[simp] theorem withSweep_bi (f : Sweeps → Sweeps) (d : Dev) : (withSweep f d).bi = d.bi := rfl

@[simp] theorem withBist_now (f : Bist → Bist) (d : Dev) : (withBist f d).now = d.now := rfl
@[simp] theorem withBist_free (f : Bist → Bist) (d : Dev) : (withBist f d).free = d.free := rfl
@[simp] theorem withBist_regs (f : Bist → Bist) (d : Dev) : (withBist f d).regs = d.regs := rfl
@[simp] theorem withBist_shad (f : Bist → Bist) (d : Dev) : (withBist f d).shad = d.shad := rfl
@[simp] theorem withBist_cyc (f : Bist → Bist) (d : Dev) : (withBist f d).cyc = d.cyc := rfl
@[simp] theorem withBist_pw (f : Bist → Bist) (d : Dev) : (withBist f d).pw = d.pw := rfl
@[simp] theorem withBist_pr (f : Bist → Bist) (d : Dev) : (withBist f d).pr = d.pr := rfl
@[simp] theorem withBist_sf (f : Bist → Bist) (d : Dev) : (withBist f d).sf = d.sf := rfl
@[simp] theorem withBist_mm (f : Bist → Bist) (d : Dev) : (withBist f d).mm = d.mm := rfl
@[simp] theorem withBist_ev (f : Bist → Bist) (d : Dev) : (withBist f d).ev = d.ev := rfl
@[simp] theorem withBist_ln (f : Bist → Bist) (d : Dev) : (withBist f d).ln = d.ln := rfl
@[simp] theorem withBist_ls (f : Bist → Bist) (d : Dev) : (withBist f d).ls = d.ls := rfl
@[simp] theorem withBist_tn (f : Bist → Bist) (d : Dev) : (withBist f d).tn = d.tn := rfl
@[simp] theorem withBist_rg (f : Bist → Bist) (d : Dev) : (withBist f d).rg = d.rg := rfl
@[simp] theorem withBist_tb (f : Bist → Bist) (d : Dev) : (withBist f d).tb = d.tb := rfl
@[simp] theorem withBist_sw (f : Bist → Bist) (d : Dev) : (withBist f d).sw = d.sw := rfl
@[simp] theorem withBist_ex (f : Bist → Bist) (d : Dev) : (withBist f d).ex = d.ex := rfl
@[simp] theorem withBist_me (f : Bist → Bist) (d : Dev) : (withBist f d).me = d.me := rfl
@[simp] theorem withBist_ca (f : Bist → Bist) (d : Dev) : (withBist f d).ca = d.ca := rfl
@[simp] theorem withBist_ba (f : Bist → Bist) (d : Dev) : (withBist f d).ba = d.ba := rfl
@[simp] theorem withBist_io (f : Bist → Bist) (d : Dev) : (withBist f d).io = d.io := rfl
@[simp] theorem withBist_ck (f : Bist → Bist) (d : Dev) : (withBist f d).ck = d.ck := rfl
@[simp] theorem withBist_en (f : Bist → Bist) (d : Dev) : (withBist f d).en = d.en := rfl
@[simp] theorem withBist_bi (f : Bist → Bist) (d : Dev) : (withBist f d).bi = f d.bi := rfl

@[simp] theorem withCur_now (f : Cur → Cur) (d : Dev) : (withCur f d).now = d.now := rfl
@[simp] theorem withCur_free (f : Cur → Cur) (d : Dev) : (withCur f d).free = d.free := rfl
@[simp] theorem withCur_regs (f : Cur → Cur) (d : Dev) : (withCur f d).regs = d.regs := rfl
@[simp] theorem withCur_shad (f : Cur → Cur) (d : Dev) : (withCur f d).shad = d.shad := rfl
@[simp] theorem withCur_cyc (f : Cur → Cur) (d : Dev) : (withCur f d).cyc = d.cyc := rfl
@[simp] theorem withCur_pw (f : Cur → Cur) (d : Dev) : (withCur f d).pw = d.pw := rfl
@[simp] theorem withCur_pr (f : Cur → Cur) (d : Dev) : (withCur f d).pr = d.pr := rfl
@[simp] theorem withCur_sf (f : Cur → Cur) (d : Dev) : (withCur f d).sf = d.sf := rfl
@[simp] theorem withCur_mm (f : Cur → Cur) (d : Dev) : (withCur f d).mm = d.mm := rfl
@[simp] theorem withCur_ev (f : Cur → Cur) (d : Dev) : (withCur f d).ev = d.ev := rfl
@[simp] theorem withCur_ln (f : Cur → Cur) (d : Dev) : (withCur f d).ln = d.ln := rfl
@[simp] theorem withCur_ls (f : Cur → Cur) (d : Dev) : (withCur f d).ls = d.ls := rfl
@[simp] theorem withCur_tn (f : Cur → Cur) (d : Dev) : (withCur f d).tn = d.tn := rfl
@[simp] theorem withCur_rg (f : Cur → Cur) (d : Dev) : (withCur f d).rg = d.rg := rfl
@[simp] theorem withCur_tb (f : Cur → Cur) (d : Dev) : (withCur f d).tb = d.tb := rfl
@[simp] theorem withCur_sw (f : Cur → Cur) (d : Dev) : (withCur f d).sw = d.sw := rfl
@[simp] theorem withCur_ex (f : Cur → Cur) (d : Dev) : (withCur f d).ex = d.ex := rfl
@[simp] theorem withCur_me (f : Cur → Cur) (d : Dev) : (withCur f d).me = d.me := rfl
@[simp] theorem withCur_ca (f : Cur → Cur) (d : Dev) : (withCur f d).ca = d.ca := rfl
@[simp] theorem withCur_ba (f : Cur → Cur) (d : Dev) : (withCur f d).ba = d.ba := rfl
@[simp] theorem withCur_io (f : Cur → Cur) (d : Dev) : (withCur f d).io = { d.io with cu := f d.io.cu } := rfl
@[simp] theorem withCur_ck (f : Cur → Cur) (d : Dev) : (withCur f d).ck = d.ck := rfl
@[simp] theorem withCur_en (f : Cur → Cur) (d : Dev) : (withCur f d).en = d.en := rfl
@[simp] theorem withCur_bi (f : Cur → Cur) (d : Dev) : (withCur f d).bi = d.bi := rfl

@[simp] theorem withDue_now (f : NvDue → NvDue) (d : Dev) : (withDue f d).now = d.now := rfl
@[simp] theorem withDue_free (f : NvDue → NvDue) (d : Dev) : (withDue f d).free = d.free := rfl
@[simp] theorem withDue_regs (f : NvDue → NvDue) (d : Dev) : (withDue f d).regs = d.regs := rfl
@[simp] theorem withDue_shad (f : NvDue → NvDue) (d : Dev) : (withDue f d).shad = d.shad := rfl
@[simp] theorem withDue_cyc (f : NvDue → NvDue) (d : Dev) : (withDue f d).cyc = d.cyc := rfl
@[simp] theorem withDue_pw (f : NvDue → NvDue) (d : Dev) : (withDue f d).pw = d.pw := rfl
@[simp] theorem withDue_pr (f : NvDue → NvDue) (d : Dev) : (withDue f d).pr = d.pr := rfl
@[simp] theorem withDue_sf (f : NvDue → NvDue) (d : Dev) : (withDue f d).sf = d.sf := rfl
@[simp] theorem withDue_mm (f : NvDue → NvDue) (d : Dev) : (withDue f d).mm = { d.mm with due := f d.mm.due } := rfl
@[simp] theorem withDue_ev (f : NvDue → NvDue) (d : Dev) : (withDue f d).ev = d.ev := rfl
@[simp] theorem withDue_ln (f : NvDue → NvDue) (d : Dev) : (withDue f d).ln = d.ln := rfl
@[simp] theorem withDue_ls (f : NvDue → NvDue) (d : Dev) : (withDue f d).ls = d.ls := rfl
@[simp] theorem withDue_tn (f : NvDue → NvDue) (d : Dev) : (withDue f d).tn = d.tn := rfl
@[simp] theorem withDue_rg (f : NvDue → NvDue) (d : Dev) : (withDue f d).rg = d.rg := rfl
@[simp] theorem withDue_tb (f : NvDue → NvDue) (d : Dev) : (withDue f d).tb = d.tb := rfl
@[simp] theorem withDue_sw (f : NvDue → NvDue) (d : Dev) : (withDue f d).sw = d.sw := rfl
@[simp] theorem withDue_ex (f : NvDue → NvDue) (d : Dev) : (withDue f d).ex = d.ex := rfl
@[simp] theorem withDue_me (f : NvDue → NvDue) (d : Dev) : (withDue f d).me = d.me := rfl
@[simp] theorem withDue_ca (f : NvDue → NvDue) (d : Dev) : (withDue f d).ca = d.ca := rfl
@[simp] theorem withDue_ba (f : NvDue → NvDue) (d : Dev) : (withDue f d).ba = d.ba := rfl
@[simp] theorem withDue_io (f : NvDue → NvDue) (d : Dev) : (withDue f d).io = d.io := rfl
@[simp] theorem withDue_ck (f : NvDue → NvDue) (d : Dev) : (withDue f d).ck = d.ck := rfl
@[simp] theorem withDue_en (f : NvDue → NvDue) (d : Dev) : (withDue f d).en = d.en := rfl
@[simp] theorem withDue_bi (f : NvDue → NvDue) (d : Dev) : (withDue f d).bi = d.bi := rfl

@[simp] theorem clearBad_now (a n : Nat) (d : Dev) : (clearBad a n d).now = d.now := rfl
@[simp] theorem clearBad_free (a n : Nat) (d : Dev) : (clearBad a n d).free = d.free := rfl
@[simp] theorem clearBad_regs (a n : Nat) (d : Dev) : (clearBad a n d).regs = d.regs := rfl
@[simp] theorem clearBad_shad (a n : Nat) (d : Dev) : (clearBad a n d).shad = d.shad := rfl
@[simp] theorem clearBad_cyc (a n : Nat) (d : Dev) : (clearBad a n d).cyc = d.cyc := rfl
@[simp] theorem clearBad_pw (a n : Nat) (d : Dev) : (clearBad a n d).pw = d.pw := rfl
@[simp] theorem clearBad_pr (a n : Nat) (d : Dev) : (clearBad a n d).pr = d.pr := rfl
@[simp] theorem clearBad_sf (a n : Nat) (d : Dev) : (clearBad a n d).sf = d.sf := rfl
@[simp] theorem clearBad_mm (a n : Nat) (d : Dev) : (clearBad a n d).mm = { d.mm with bad := badOutside a n d.mm.bad } := rfl
@[simp] theorem clearBad_ev (a n : Nat) (d : Dev) : (clearBad a n d).ev = d.ev := rfl
@[simp] theorem clearBad_ln (a n : Nat) (d : Dev) : (clearBad a n d).ln = d.ln := rfl
@[simp] theorem clearBad_ls (a n : Nat) (d : Dev) : (clearBad a n d).ls = d.ls := rfl
@[simp] theorem clearBad_tn (a n : Nat) (d : Dev) : (clearBad a n d).tn = d.tn := rfl
@[simp] theorem clearBad_rg (a n : Nat) (d : Dev) : (clearBad a n d).rg = d.rg := rfl
@[simp] theorem clearBad_tb (a n : Nat) (d : Dev) : (clearBad a n d).tb = d.tb := rfl
@[simp] theorem clearBad_sw (a n : Nat) (d : Dev) : (clearBad a n d).sw = d.sw := rfl
@[simp] theorem clearBad_ex (a n : Nat) (d : Dev) : (clearBad a n d).ex = d.ex := rfl
@[simp] theorem clearBad_me (a n : Nat) (d : Dev) : (clearBad a n d).me = d.me := rfl
@[simp] theorem clearBad_ca (a n : Nat) (d : Dev) : (clearBad a n d).ca = d.ca := rfl
@[simp] theorem clearBad_ba (a n : Nat) (d : Dev) : (clearBad a n d).ba = d.ba := rfl
@[simp] theorem clearBad_io (a n : Nat) (d : Dev) : (clearBad a n d).io = d.io := rfl
@[simp] theorem clearBad_ck (a n : Nat) (d : Dev) : (clearBad a n d).ck = d.ck := rfl
@[simp] theorem clearBad_en (a n : Nat) (d : Dev) : (clearBad a n d).en = d.en := rfl
@[simp] theorem clearBad_bi (a n : Nat) (d : Dev) : (clearBad a n d).bi = d.bi := rfl

@[simp] theorem startLeak_now (s i : Nat) (d : Dev) : (startLeak s i d).now = d.now := rfl
@[simp] theorem startLeak_free (s i : Nat) (d : Dev) : (startLeak s i d).free = d.free := rfl
@[simp] theorem startLeak_regs (s i : Nat) (d : Dev) : (startLeak s i d).regs = d.regs := rfl
@[simp] theorem startLeak_shad (s i : Nat) (d : Dev) : (startLeak s i d).shad = d.shad := rfl
@[simp] theorem startLeak_cyc (s i : Nat) (d : Dev) : (startLeak s i d).cyc = d.cyc := rfl
@[simp] theorem startLeak_pw (s i : Nat) (d : Dev) : (startLeak s i d).pw = d.pw := rfl
@[simp] theorem startLeak_pr (s i : Nat) (d : Dev) : (startLeak s i d).pr = d.pr := rfl
@[simp] theorem startLeak_sf (s i : Nat) (d : Dev) : (startLeak s i d).sf = d.sf := rfl
@[simp] theorem startLeak_mm (s i : Nat) (d : Dev) : (startLeak s i d).mm = d.mm := rfl
@[simp] theorem startLeak_ev (s i : Nat) (d : Dev) : (startLeak s i d).ev = { d.ev with leakAt := (bucketBase s + i, d.now, bucketW d s) :: d.ev.leakAt.filter (fun e => e.1 ≠ bucketBase s + i) } := rfl
@[simp] theorem startLeak_ln (s i : Nat) (d : Dev) : (startLeak s i d).ln = d.ln := rfl
@[simp] theorem startLeak_ls (s i : Nat) (d : Dev) : (startLeak s i d).ls = d.ls := rfl
@[simp] theorem startLeak_tn (s i : Nat) (d : Dev) : (startLeak s i d).tn = d.tn := rfl
@[simp] theorem startLeak_rg (s i : Nat) (d : Dev) : (startLeak s i d).rg = d.rg := rfl
@[simp] theorem startLeak_tb (s i : Nat) (d : Dev) : (startLeak s i d).tb = d.tb := rfl
@[simp] theorem startLeak_sw (s i : Nat) (d : Dev) : (startLeak s i d).sw = d.sw := rfl
@[simp] theorem startLeak_ex (s i : Nat) (d : Dev) : (startLeak s i d).ex = d.ex := rfl
@[simp] theorem startLeak_me (s i : Nat) (d : Dev) : (startLeak s i d).me = d.me := rfl
@[simp] theorem startLeak_ca (s i : Nat) (d : Dev) : (startLeak s i d).ca = d.ca := rfl
@[simp] theorem startLeak_ba (s i : Nat) (d : Dev) : (startLeak s i d).ba = d.ba := rfl
@[simp] theorem startLeak_io (s i : Nat) (d : Dev) : (startLeak s i d).io = d.io := rfl
@[simp] theorem startLeak_ck (s i : Nat) (d : Dev) : (startLeak s i d).ck = d.ck := rfl
@[simp] theorem startLeak_en (s i : Nat) (d : Dev) : (startLeak s i d).en = d.en := rfl
@[simp] theorem startLeak_bi (s i : Nat) (d : Dev) : (startLeak s i d).bi = d.bi := rfl

@[simp] theorem stopLeak_now (s i : Nat) (d : Dev) : (stopLeak s i d).now = d.now := rfl
@[simp] theorem stopLeak_free (s i : Nat) (d : Dev) : (stopLeak s i d).free = d.free := rfl
@[simp] theorem stopLeak_regs (s i : Nat) (d : Dev) : (stopLeak s i d).regs = d.regs := rfl
@[simp] theorem stopLeak_shad (s i : Nat) (d : Dev) : (stopLeak s i d).shad = d.shad := rfl
@[simp] theorem stopLeak_cyc (s i : Nat) (d : Dev) : (stopLeak s i d).cyc = d.cyc := rfl
@[simp] theorem stopLeak_pw (s i : Nat) (d : Dev) : (stopLeak s i d).pw = d.pw := rfl
@[simp] theorem stopLeak_pr (s i : Nat) (d : Dev) : (stopLeak s i d).pr = d.pr := rfl
@[simp] theorem stopLeak_sf (s i : Nat) (d : Dev) : (stopLeak s i d).sf = d.sf := rfl
@[simp] theorem stopLeak_mm (s i : Nat) (d : Dev) : (stopLeak s i d).mm = d.mm := rfl
@[simp] theorem stopLeak_ev (s i : Nat) (d : Dev) : (stopLeak s i d).ev = { d.ev with leakAt := d.ev.leakAt.filter (fun e => e.1 ≠ bucketBase s + i) } := rfl
@[simp] theorem stopLeak_ln (s i : Nat) (d : Dev) : (stopLeak s i d).ln = d.ln := rfl
@[simp] theorem stopLeak_ls (s i : Nat) (d : Dev) : (stopLeak s i d).ls = d.ls := rfl
@[simp] theorem stopLeak_tn (s i : Nat) (d : Dev) : (stopLeak s i d).tn = d.tn := rfl
@[simp] theorem stopLeak_rg (s i : Nat) (d : Dev) : (stopLeak s i d).rg = d.rg := rfl
@[simp] theorem stopLeak_tb (s i : Nat) (d : Dev) : (stopLeak s i d).tb = d.tb := rfl
@[simp] theorem stopLeak_sw (s i : Nat) (d : Dev) : (stopLeak s i d).sw = d.sw := rfl
@[simp] theorem stopLeak_ex (s i : Nat) (d : Dev) : (stopLeak s i d).ex = d.ex := rfl
@[simp] theorem stopLeak_me (s i : Nat) (d : Dev) : (stopLeak s i d).me = d.me := rfl
@[simp] theorem stopLeak_ca (s i : Nat) (d : Dev) : (stopLeak s i d).ca = d.ca := rfl
@[simp] theorem stopLeak_ba (s i : Nat) (d : Dev) : (stopLeak s i d).ba = d.ba := rfl
@[simp] theorem stopLeak_io (s i : Nat) (d : Dev) : (stopLeak s i d).io = d.io := rfl
@[simp] theorem stopLeak_ck (s i : Nat) (d : Dev) : (stopLeak s i d).ck = d.ck := rfl
@[simp] theorem stopLeak_en (s i : Nat) (d : Dev) : (stopLeak s i d).en = d.en := rfl
@[simp] theorem stopLeak_bi (s i : Nat) (d : Dev) : (stopLeak s i d).bi = d.bi := rfl

@[simp] theorem setPort_now (p : Port) (x : LinkPort) (d : Dev) : (setPort p x d).now = d.now := by cases p <;> rfl
@[simp] theorem setPort_free (p : Port) (x : LinkPort) (d : Dev) : (setPort p x d).free = d.free := by cases p <;> rfl
@[simp] theorem setPort_regs (p : Port) (x : LinkPort) (d : Dev) : (setPort p x d).regs = d.regs := by cases p <;> rfl
@[simp] theorem setPort_shad (p : Port) (x : LinkPort) (d : Dev) : (setPort p x d).shad = d.shad := by cases p <;> rfl
@[simp] theorem setPort_cyc (p : Port) (x : LinkPort) (d : Dev) : (setPort p x d).cyc = d.cyc := by cases p <;> rfl
@[simp] theorem setPort_pw (p : Port) (x : LinkPort) (d : Dev) : (setPort p x d).pw = d.pw := by cases p <;> rfl
@[simp] theorem setPort_pr (p : Port) (x : LinkPort) (d : Dev) : (setPort p x d).pr = d.pr := by cases p <;> rfl
@[simp] theorem setPort_sf (p : Port) (x : LinkPort) (d : Dev) : (setPort p x d).sf = d.sf := by cases p <;> rfl
@[simp] theorem setPort_mm (p : Port) (x : LinkPort) (d : Dev) : (setPort p x d).mm = d.mm := by cases p <;> rfl
@[simp] theorem setPort_ev (p : Port) (x : LinkPort) (d : Dev) : (setPort p x d).ev = d.ev := by cases p <;> rfl
@[simp] theorem setPort_tn (p : Port) (x : LinkPort) (d : Dev) : (setPort p x d).tn = d.tn := by cases p <;> rfl
@[simp] theorem setPort_rg (p : Port) (x : LinkPort) (d : Dev) : (setPort p x d).rg = d.rg := by cases p <;> rfl
@[simp] theorem setPort_tb (p : Port) (x : LinkPort) (d : Dev) : (setPort p x d).tb = d.tb := by cases p <;> rfl
@[simp] theorem setPort_sw (p : Port) (x : LinkPort) (d : Dev) : (setPort p x d).sw = d.sw := by cases p <;> rfl
@[simp] theorem setPort_ex (p : Port) (x : LinkPort) (d : Dev) : (setPort p x d).ex = d.ex := by cases p <;> rfl
@[simp] theorem setPort_me (p : Port) (x : LinkPort) (d : Dev) : (setPort p x d).me = d.me := by cases p <;> rfl
@[simp] theorem setPort_ca (p : Port) (x : LinkPort) (d : Dev) : (setPort p x d).ca = d.ca := by cases p <;> rfl
@[simp] theorem setPort_ba (p : Port) (x : LinkPort) (d : Dev) : (setPort p x d).ba = d.ba := by cases p <;> rfl
@[simp] theorem setPort_io (p : Port) (x : LinkPort) (d : Dev) : (setPort p x d).io = d.io := by cases p <;> rfl
@[simp] theorem setPort_ck (p : Port) (x : LinkPort) (d : Dev) : (setPort p x d).ck = d.ck := by cases p <;> rfl
@[simp] theorem setPort_en (p : Port) (x : LinkPort) (d : Dev) : (setPort p x d).en = d.en := by cases p <;> rfl
@[simp] theorem setPort_bi (p : Port) (x : LinkPort) (d : Dev) : (setPort p x d).bi = d.bi := by cases p <;> rfl

@[simp] theorem setOut_now (o : Out) (x : OutState) (d : Dev) : (setOut o x d).now = d.now := by cases o <;> rfl
@[simp] theorem setOut_free (o : Out) (x : OutState) (d : Dev) : (setOut o x d).free = d.free := by cases o <;> rfl
@[simp] theorem setOut_regs (o : Out) (x : OutState) (d : Dev) : (setOut o x d).regs = d.regs := by cases o <;> rfl
@[simp] theorem setOut_shad (o : Out) (x : OutState) (d : Dev) : (setOut o x d).shad = d.shad := by cases o <;> rfl
@[simp] theorem setOut_cyc (o : Out) (x : OutState) (d : Dev) : (setOut o x d).cyc = d.cyc := by cases o <;> rfl
@[simp] theorem setOut_pw (o : Out) (x : OutState) (d : Dev) : (setOut o x d).pw = d.pw := by cases o <;> rfl
@[simp] theorem setOut_pr (o : Out) (x : OutState) (d : Dev) : (setOut o x d).pr = d.pr := by cases o <;> rfl
@[simp] theorem setOut_mm (o : Out) (x : OutState) (d : Dev) : (setOut o x d).mm = d.mm := by cases o <;> rfl
@[simp] theorem setOut_ev (o : Out) (x : OutState) (d : Dev) : (setOut o x d).ev = d.ev := by cases o <;> rfl
@[simp] theorem setOut_ln (o : Out) (x : OutState) (d : Dev) : (setOut o x d).ln = d.ln := by cases o <;> rfl
@[simp] theorem setOut_ls (o : Out) (x : OutState) (d : Dev) : (setOut o x d).ls = d.ls := by cases o <;> rfl
@[simp] theorem setOut_tn (o : Out) (x : OutState) (d : Dev) : (setOut o x d).tn = d.tn := by cases o <;> rfl
@[simp] theorem setOut_rg (o : Out) (x : OutState) (d : Dev) : (setOut o x d).rg = d.rg := by cases o <;> rfl
@[simp] theorem setOut_tb (o : Out) (x : OutState) (d : Dev) : (setOut o x d).tb = d.tb := by cases o <;> rfl
@[simp] theorem setOut_sw (o : Out) (x : OutState) (d : Dev) : (setOut o x d).sw = d.sw := by cases o <;> rfl
@[simp] theorem setOut_ex (o : Out) (x : OutState) (d : Dev) : (setOut o x d).ex = d.ex := by cases o <;> rfl
@[simp] theorem setOut_me (o : Out) (x : OutState) (d : Dev) : (setOut o x d).me = d.me := by cases o <;> rfl
@[simp] theorem setOut_ca (o : Out) (x : OutState) (d : Dev) : (setOut o x d).ca = d.ca := by cases o <;> rfl
@[simp] theorem setOut_ba (o : Out) (x : OutState) (d : Dev) : (setOut o x d).ba = d.ba := by cases o <;> rfl
@[simp] theorem setOut_io (o : Out) (x : OutState) (d : Dev) : (setOut o x d).io = d.io := by cases o <;> rfl
@[simp] theorem setOut_ck (o : Out) (x : OutState) (d : Dev) : (setOut o x d).ck = d.ck := by cases o <;> rfl
@[simp] theorem setOut_en (o : Out) (x : OutState) (d : Dev) : (setOut o x d).en = d.en := by cases o <;> rfl
@[simp] theorem setOut_bi (o : Out) (x : OutState) (d : Dev) : (setOut o x d).bi = d.bi := by cases o <;> rfl

@[simp] theorem port_setPort (p : Port) (x : LinkPort) (d : Dev) : port (setPort p x d) p = x := by cases p <;> rfl
@[simp] theorem port_setPort_other (p : Port) (x : LinkPort) (d : Dev) : port (setPort p x d) (otherPort p) = port d (otherPort p) := by
  cases p <;> rfl
@[simp] theorem outState_setOut (o : Out) (x : OutState) (d : Dev) : outState (setOut o x d) o = x := by cases o <;> rfl

@[simp] theorem setReg_running (off : Nat) (v : Word) (d : Dev) : (setReg off v d).running = d.running := rfl
@[simp] theorem setReg_awake (off : Nat) (v : Word) (d : Dev) : (setReg off v d).awake = d.awake := rfl
@[simp] theorem setReg_head (off : Nat) (v : Word) (d : Dev) : (setReg off v d).head = d.head := rfl

@[simp] theorem winWrite_on (off : Nat) (l : List Byte) (x : Hst) : (winWrite off l x).on = x.on := rfl
@[simp] theorem winWrite_octal (off : Nat) (l : List Byte) (x : Hst) : (winWrite off l x).octal = x.octal := rfl
@[simp] theorem winWrite_lastErr (off : Nat) (l : List Byte) (x : Hst) : (winWrite off l x).lastErr = x.lastErr := rfl
@[simp] theorem winWrite_hiz (off : Nat) (l : List Byte) (x : Hst) : (winWrite off l x).hiz = x.hiz := rfl
@[simp] theorem winWrite_kept (off : Nat) (l : List Byte) (x : Hst) : (winWrite off l x).kept = x.kept := rfl
@[simp] theorem winWrite_out (off : Nat) (l : List Byte) (x : Hst) : (winWrite off l x).out = x.out := rfl
@[simp] theorem winWrite_win (off : Nat) (l : List Byte) (x : Hst) : (winWrite off l x).win = msetList winDefault x.win off 1 l := rfl
@[simp] theorem winWrite_pairs (off : Nat) (l : List Byte) (x : Hst) : (winWrite off l x).pairs = x.pairs := rfl
@[simp] theorem winWrite_eq (off : Nat) (l : List Byte) (x : Hst) : (winWrite off l x).eq = x.eq := rfl
@[simp] theorem winWrite_cmds (off : Nat) (l : List Byte) (x : Hst) : (winWrite off l x).cmds = x.cmds := rfl
@[simp] theorem winWrite_nextH (off : Nat) (l : List Byte) (x : Hst) : (winWrite off l x).nextH = x.nextH := rfl
@[simp] theorem winWrite_timedOut (off : Nat) (l : List Byte) (x : Hst) : (winWrite off l x).timedOut = x.timedOut := rfl
@[simp] theorem winWrite_streams (off : Nat) (l : List Byte) (x : Hst) : (winWrite off l x).streams = x.streams := rfl
@[simp] theorem winWrite_devAt (off : Nat) (l : List Byte) (x : Hst) : (winWrite off l x).devAt = x.devAt := rfl
@[simp] theorem winWrite_devWrote (off : Nat) (l : List Byte) (x : Hst) : (winWrite off l x).devWrote = x.devWrote := rfl
@[simp] theorem devWrite_on (t : Time) (off : Nat) (l : List Byte) (x : Hst) : (devWrite t off l x).on = x.on := rfl
@[simp] theorem hostWrite_on (t : Time) (off : Nat) (l : List Byte) (x : Hst) : (hostWrite t off l x).on = x.on := rfl
@[simp] theorem devWrite_octal (t : Time) (off : Nat) (l : List Byte) (x : Hst) : (devWrite t off l x).octal = x.octal := rfl
@[simp] theorem hostWrite_octal (t : Time) (off : Nat) (l : List Byte) (x : Hst) : (hostWrite t off l x).octal = x.octal := rfl
@[simp] theorem devWrite_lastErr (t : Time) (off : Nat) (l : List Byte) (x : Hst) : (devWrite t off l x).lastErr = x.lastErr := rfl
@[simp] theorem hostWrite_lastErr (t : Time) (off : Nat) (l : List Byte) (x : Hst) : (hostWrite t off l x).lastErr = x.lastErr := rfl
@[simp] theorem devWrite_hiz (t : Time) (off : Nat) (l : List Byte) (x : Hst) : (devWrite t off l x).hiz = x.hiz := rfl
@[simp] theorem hostWrite_hiz (t : Time) (off : Nat) (l : List Byte) (x : Hst) : (hostWrite t off l x).hiz = x.hiz := rfl
@[simp] theorem devWrite_kept (t : Time) (off : Nat) (l : List Byte) (x : Hst) : (devWrite t off l x).kept = x.kept := rfl
@[simp] theorem hostWrite_kept (t : Time) (off : Nat) (l : List Byte) (x : Hst) : (hostWrite t off l x).kept = x.kept := rfl
@[simp] theorem devWrite_out (t : Time) (off : Nat) (l : List Byte) (x : Hst) : (devWrite t off l x).out = x.out := rfl
@[simp] theorem hostWrite_out (t : Time) (off : Nat) (l : List Byte) (x : Hst) : (hostWrite t off l x).out = x.out := rfl
@[simp] theorem devWrite_win (t : Time) (off : Nat) (l : List Byte) (x : Hst) : (devWrite t off l x).win = msetList winDefault x.win off 1 l := rfl
@[simp] theorem devWrite_pairs (t : Time) (off : Nat) (l : List Byte) (x : Hst) : (devWrite t off l x).pairs = x.pairs := rfl
@[simp] theorem hostWrite_pairs (t : Time) (off : Nat) (l : List Byte) (x : Hst) : (hostWrite t off l x).pairs = x.pairs := rfl
@[simp] theorem devWrite_eq (t : Time) (off : Nat) (l : List Byte) (x : Hst) : (devWrite t off l x).eq = x.eq := rfl
@[simp] theorem hostWrite_eq (t : Time) (off : Nat) (l : List Byte) (x : Hst) : (hostWrite t off l x).eq = x.eq := rfl
@[simp] theorem devWrite_cmds (t : Time) (off : Nat) (l : List Byte) (x : Hst) : (devWrite t off l x).cmds = x.cmds := rfl
@[simp] theorem hostWrite_cmds (t : Time) (off : Nat) (l : List Byte) (x : Hst) : (hostWrite t off l x).cmds = x.cmds := rfl
@[simp] theorem devWrite_nextH (t : Time) (off : Nat) (l : List Byte) (x : Hst) : (devWrite t off l x).nextH = x.nextH := rfl
@[simp] theorem hostWrite_nextH (t : Time) (off : Nat) (l : List Byte) (x : Hst) : (hostWrite t off l x).nextH = x.nextH := rfl
@[simp] theorem devWrite_timedOut (t : Time) (off : Nat) (l : List Byte) (x : Hst) : (devWrite t off l x).timedOut = x.timedOut := rfl
@[simp] theorem hostWrite_timedOut (t : Time) (off : Nat) (l : List Byte) (x : Hst) : (hostWrite t off l x).timedOut = x.timedOut := rfl
@[simp] theorem devWrite_streams (t : Time) (off : Nat) (l : List Byte) (x : Hst) : (devWrite t off l x).streams = x.streams := rfl
@[simp] theorem hostWrite_streams (t : Time) (off : Nat) (l : List Byte) (x : Hst) : (hostWrite t off l x).streams = x.streams := rfl
@[simp] theorem hostWrite_devAt (t : Time) (off : Nat) (l : List Byte) (x : Hst) : (hostWrite t off l x).devAt = x.devAt := rfl
@[simp] theorem hostWrite_devWrote (t : Time) (off : Nat) (l : List Byte) (x : Hst) : (hostWrite t off l x).devWrote = x.devWrote := rfl
@[simp] theorem setPair_on (p : Nat) (q : Pair) (x : Hst) : (setPair p q x).on = x.on := rfl
@[simp] theorem setPair_octal (p : Nat) (q : Pair) (x : Hst) : (setPair p q x).octal = x.octal := rfl
@[simp] theorem setPair_lastErr (p : Nat) (q : Pair) (x : Hst) : (setPair p q x).lastErr = x.lastErr := rfl
@[simp] theorem setPair_hiz (p : Nat) (q : Pair) (x : Hst) : (setPair p q x).hiz = x.hiz := rfl
@[simp] theorem setPair_kept (p : Nat) (q : Pair) (x : Hst) : (setPair p q x).kept = x.kept := rfl
@[simp] theorem setPair_out (p : Nat) (q : Pair) (x : Hst) : (setPair p q x).out = x.out := rfl
@[simp] theorem setPair_win (p : Nat) (q : Pair) (x : Hst) : (setPair p q x).win = x.win := rfl
@[simp] theorem setPair_pairs (p : Nat) (q : Pair) (x : Hst) : (setPair p q x).pairs = x.pairs.set p q := rfl
@[simp] theorem setPair_eq (p : Nat) (q : Pair) (x : Hst) : (setPair p q x).eq = x.eq := rfl
@[simp] theorem setPair_cmds (p : Nat) (q : Pair) (x : Hst) : (setPair p q x).cmds = x.cmds := rfl
@[simp] theorem setPair_nextH (p : Nat) (q : Pair) (x : Hst) : (setPair p q x).nextH = x.nextH := rfl
@[simp] theorem setPair_timedOut (p : Nat) (q : Pair) (x : Hst) : (setPair p q x).timedOut = x.timedOut := rfl
@[simp] theorem setPair_streams (p : Nat) (q : Pair) (x : Hst) : (setPair p q x).streams = x.streams := rfl
@[simp] theorem setPair_devAt (p : Nat) (q : Pair) (x : Hst) : (setPair p q x).devAt = x.devAt := rfl
@[simp] theorem setPair_devWrote (p : Nat) (q : Pair) (x : Hst) : (setPair p q x).devWrote = x.devWrote := rfl
@[simp] theorem dropCmd_on (h : Nat) (x : Hst) : (dropCmd h x).on = x.on := rfl
@[simp] theorem setCmd_on (c : HeadCmd) (x : Hst) : (setCmd c x).on = x.on := rfl
@[simp] theorem dropCmd_octal (h : Nat) (x : Hst) : (dropCmd h x).octal = x.octal := rfl
@[simp] theorem setCmd_octal (c : HeadCmd) (x : Hst) : (setCmd c x).octal = x.octal := rfl
@[simp] theorem dropCmd_lastErr (h : Nat) (x : Hst) : (dropCmd h x).lastErr = x.lastErr := rfl
@[simp] theorem setCmd_lastErr (c : HeadCmd) (x : Hst) : (setCmd c x).lastErr = x.lastErr := rfl
@[simp] theorem dropCmd_hiz (h : Nat) (x : Hst) : (dropCmd h x).hiz = x.hiz := rfl
@[simp] theorem setCmd_hiz (c : HeadCmd) (x : Hst) : (setCmd c x).hiz = x.hiz := rfl
@[simp] theorem dropCmd_kept (h : Nat) (x : Hst) : (dropCmd h x).kept = x.kept := rfl
@[simp] theorem setCmd_kept (c : HeadCmd) (x : Hst) : (setCmd c x).kept = x.kept := rfl
@[simp] theorem dropCmd_out (h : Nat) (x : Hst) : (dropCmd h x).out = x.out := rfl
@[simp] theorem setCmd_out (c : HeadCmd) (x : Hst) : (setCmd c x).out = x.out := rfl
@[simp] theorem dropCmd_win (h : Nat) (x : Hst) : (dropCmd h x).win = x.win := rfl
@[simp] theorem setCmd_win (c : HeadCmd) (x : Hst) : (setCmd c x).win = x.win := rfl
@[simp] theorem dropCmd_pairs (h : Nat) (x : Hst) : (dropCmd h x).pairs = x.pairs := rfl
@[simp] theorem setCmd_pairs (c : HeadCmd) (x : Hst) : (setCmd c x).pairs = x.pairs := rfl
@[simp] theorem dropCmd_eq (h : Nat) (x : Hst) : (dropCmd h x).eq = x.eq := rfl
@[simp] theorem setCmd_eq (c : HeadCmd) (x : Hst) : (setCmd c x).eq = x.eq := rfl
@[simp] theorem dropCmd_nextH (h : Nat) (x : Hst) : (dropCmd h x).nextH = x.nextH := rfl
@[simp] theorem setCmd_nextH (c : HeadCmd) (x : Hst) : (setCmd c x).nextH = x.nextH := rfl
@[simp] theorem dropCmd_timedOut (h : Nat) (x : Hst) : (dropCmd h x).timedOut = x.timedOut := rfl
@[simp] theorem setCmd_timedOut (c : HeadCmd) (x : Hst) : (setCmd c x).timedOut = x.timedOut := rfl
@[simp] theorem dropCmd_streams (h : Nat) (x : Hst) : (dropCmd h x).streams = x.streams := rfl
@[simp] theorem setCmd_streams (c : HeadCmd) (x : Hst) : (setCmd c x).streams = x.streams := rfl
@[simp] theorem dropCmd_devAt (h : Nat) (x : Hst) : (dropCmd h x).devAt = x.devAt := rfl
@[simp] theorem setCmd_devAt (c : HeadCmd) (x : Hst) : (setCmd c x).devAt = x.devAt := rfl
@[simp] theorem dropCmd_devWrote (h : Nat) (x : Hst) : (dropCmd h x).devWrote = x.devWrote := rfl
@[simp] theorem setCmd_devWrote (c : HeadCmd) (x : Hst) : (setCmd c x).devWrote = x.devWrote := rfl

end Sys2Proof.Machine
end

