-- ==== Sys2Proof/Laws/Frame.lean ====
section
/-! SUPPORT. What each shared operation can change, once: a frame for each, and the values that matter to its callers. -/

namespace Sys2Proof.Machine

-- One theorem after the other: the package as one text else asks for more threads than the check grants.
set_option Elab.async false

/-! ### Registers -/

/-- Read after write of a register. -/
theorem reg_setReg (off : Nat) (v : Word) (d : Dev) (r : Nat) : reg (setReg off v d) r = if r = off then v else reg d r := by
  simp [reg, mget_mset]

@[simp] theorem reg_setReg_self (off : Nat) (v : Word) (d : Dev) : reg (setReg off v d) off = v := by simp [reg_setReg]

theorem reg_setReg_ne {off r : Nat} (v : Word) (d : Dev) (h : r ≠ off) : reg (setReg off v d) r = reg d r := by
  simp [reg_setReg, h]

/-- A bit of a register after a bit of it is written. -/
theorem regBit_setRegBit (off i : Nat) (b : Bool) (d : Dev) (j : Nat) (h : i < 32) :
    regBit (setRegBit off i b d) off j = if j = i then b else regBit d off j := by
  unfold regBit setRegBit
  rw [reg_setReg_self]
  split
  · next e => rw [e, bit_putBit _ _ _ h]
  · next e => rw [bit_putBit_ne _ _ _ _ h e]

/-- A count is a write of the word with the field raised. -/
theorem reg_bump (off hi lo n : Nat) (d : Dev) (r : Nat) :
    reg (bump off hi lo n d) r = if r = off then addFld (reg d off) hi lo n else reg d r :=
  reg_setReg off (addFld (reg d off) hi lo n) d r

/-- The counter after a count, which saturates. -/
theorem regFld_bump (off hi lo n : Nat) (d : Dev) (h : hi < 32 := by decide) (hl : lo ≤ hi := by decide) :
    regFld (bump off hi lo n d) off hi lo = min (2 ^ (hi + 1 - lo) - 1) (regFld d off hi lo + n) := by
  unfold regFld
  rw [reg_bump, if_pos rfl, addFld, fld_setFld _ _ _ _ h hl]
  have : (0 : Nat) < 2 ^ (hi + 1 - lo) := by positivity
  unfold satNat
  split
  · rw [Nat.mod_eq_of_lt (by omega)]; omega
  · rw [Nat.mod_eq_of_lt (by omega)]; omega

/-- A register depends on the map of registers alone. -/
theorem reg_congr {a b : Dev} (h : b.regs = a.regs) (r : Nat) : reg b r = reg a r := by simp [reg, h]

/-! ### Frames compose -/

theorem Part.same_refl (p : Part) (a : Dev) : p.same a a := by cases p <;> simp [Part.same]

theorem Part.same_trans (p : Part) {a b c : Dev} (h : p.same a b) (k : p.same b c) : p.same a c := by
  cases p <;> simp only [Part.same] at h k ⊢ <;> first | exact k.trans h | exact ⟨k.1.trans h.1, k.2.trans h.2⟩

theorem ChangesOnly.refl (ps : List Part) (rs : List Nat) (a : Dev) : ChangesOnly ps rs a a :=
  ⟨fun p _ => p.same_refl a, fun _ _ => rfl⟩

theorem ChangesOnly.trans {ps : List Part} {rs : List Nat} {a b c : Dev} (h : ChangesOnly ps rs a b)
    (k : ChangesOnly ps rs b c) : ChangesOnly ps rs a c :=
  ⟨fun p hp => p.same_trans (h.1 p hp) (k.1 p hp), fun r hr => (k.2 r hr).trans (h.2 r hr)⟩

theorem ChangesOnly.mono {ps qs : List Part} {rs us : List Nat} {a b : Dev} (h : ChangesOnly ps rs a b)
    (hp : ps ⊆ qs := by decide) (hr : rs ⊆ us := by decide) : ChangesOnly qs us a b :=
  ⟨fun p k => h.1 p (fun m => k (hp m)), fun r k => h.2 r (fun m => k (hr m))⟩

/-- A loop changes only what its body changes. -/
theorem ChangesOnly.each {α : Type} {ps : List Part} {rs : List Nat} (f : α → Dev → Dev)
    (h : ∀ x d, ChangesOnly ps rs d (f x d)) (l : List α) (d : Dev) : ChangesOnly ps rs d (each f l d) := by
  induction l generalizing d with
  | nil => exact .refl ..
  | cons x r ih => exact (h x d).trans (ih _)

/-- Either branch of a test. -/
theorem ChangesOnly.ite {ps : List Part} {rs : List Nat} {p : Prop} [Decidable p] {a b c : Dev} (h : ChangesOnly ps rs a b)
    (k : ChangesOnly ps rs a c) : ChangesOnly ps rs a (if p then b else c) := by
  split <;> assumption

/-! ### Shared operations -/

theorem frame_setReg (off : Nat) (v : Word) (d : Dev) : ChangesOnly [] [off] d (setReg off v d) :=
  ⟨fun p _ => by cases p <;> simp [Part.same], fun r h => reg_setReg_ne v d (by simpa using h)⟩

theorem frame_bump (off hi lo n : Nat) (d : Dev) : ChangesOnly [.cyc] [off] d (bump off hi lo n d) := by
  refine ⟨fun p hp => ?_, fun r h => reg_setReg_ne _ d (by simpa using h)⟩
  cases p <;> simp_all [Part.same, bump, setReg]

theorem frame_setRegBit (off i : Nat) (b : Bool) (d : Dev) : ChangesOnly [] [off] d (setRegBit off i b d) :=
  frame_setReg ..

/-- Queuing a frame changes the queues; a frame without room counts. -/
theorem frame_enqueue (p : Port) (f : Frame) (d : Dev) : ChangesOnly [.queues, .cyc] [R.ringCnt] d (enqueue p f d) := by
  unfold enqueue
  simp only
  split
  · refine ⟨fun q hq => ?_, fun r _ => by cases p <;> rfl⟩
    cases p <;> cases q <;> simp_all [Part.same, setPort, port, LinkPort.still]
  · exact (frame_bump ..).mono

theorem frame_enqueueTurning (p : Port) (f : Frame) (d : Dev) :
    ChangesOnly [.queues, .cyc] [R.ringCnt] d (enqueueTurning p f d) := by
  unfold enqueueTurning
  exact .ite (frame_enqueue ..) (.ite (frame_enqueue ..) (.ite (frame_enqueue ..) ((frame_bump ..).mono)))

/-- A new sector of the event log clears no uncorrectable word elsewhere. -/
@[simp] theorem badAfterLog_outside (l : List LogSector) (bad : List (Nat × Nat)) :
    badOutside 0x334000 0x200000 (badAfterLog l bad) = badOutside 0x334000 0x200000 bad := by
  unfold badAfterLog
  split
  · split
    · rename_i x _ _
      have : x.seq % logSectors < 512 := Nat.mod_lt _ (by decide)
      simp only [badOutside, List.filter_filter]
      congr 1
      funext e
      by_cases h0 : e.1 = 0x50 <;> by_cases h1 : 0x334000 ≤ 8 * e.2 <;> by_cases h2 : 8 * e.2 < 0x334000 + 0x200000 <;>
        simp [h0, h1, h2]
      all_goals omega
    · rfl
  · rfl

theorem frame_logRec (kind part : Nat) (pay : List Byte) (d : Dev) : ChangesOnly [.hist] [] d (logRec kind part pay d) := by
  unfold logRec
  split <;>
  · refine ⟨fun q hq => ?_, fun r _ => rfl⟩
    cases q <;> simp_all [Part.same, logWrite, withDue, Mem.still]

@[simp] theorem logRec_ev (kind part : Nat) (pay : List Byte) (d : Dev) : (logRec kind part pay d).ev = d.ev :=
  (frame_logRec kind part pay d).1 .ev (by decide)

theorem frame_sendEvent (e : EvRec) (d : Dev) : ChangesOnly evParts [R.ringCnt] d (sendEvent e d) := by
  unfold sendEvent
  split
  · refine ⟨fun q hq => ?_, fun r _ => rfl⟩
    cases q <;> simp_all [Part.same, evParts]
  · split
    · exact (frame_enqueueTurning ..).mono
    · exact .refl ..

/-- Posting an event changes event accounting, the history and the queues. -/
theorem frame_postAt (t : Time) (code b10 src lv : Nat) (last record : Bool) (data : List Byte) (d : Dev) :
    ChangesOnly evParts [R.ringCnt] d (postAt t code b10 src lv last record data d) := by
  unfold postAt
  refine ChangesOnly.trans ?_ (frame_sendEvent ..)
  have h : ChangesOnly evParts [R.ringCnt] d { d with ev := { d.ev with count := (d.ev.count + 1) % 65536 } } := by
    refine ⟨fun q hq => ?_, fun r _ => rfl⟩
    cases q <;> simp_all [Part.same, evParts]
  split
  · exact h.trans ((frame_logRec ..).mono)
  · split
    · refine h.trans ⟨fun q hq => ?_, fun r _ => rfl⟩
      cases q <;> simp_all [Part.same, evParts, Mem.still]
    · exact h

theorem frame_post (code b10 : Nat) (data : List Byte) (d : Dev) : ChangesOnly evParts [R.ringCnt] d (post code b10 data d) :=
  frame_postAt ..

theorem frame_startLeak (s i : Nat) (d : Dev) : ChangesOnly [.ev] [] d (startLeak s i d) := by
  refine ⟨fun q hq => ?_, fun r _ => rfl⟩
  cases q <;> simp_all [Part.same]

theorem frame_stopLeak (s i : Nat) (d : Dev) : ChangesOnly [.ev] [] d (stopLeak s i d) := by
  refine ⟨fun q hq => ?_, fun r _ => rfl⟩
  cases q <;> simp_all [Part.same]

theorem frame_setLevel (s i n : Nat) (d : Dev) : ChangesOnly [.ev] [] d (setLevel s i n d) := by
  have h : ChangesOnly [.ev] [] d { d with ev := { d.ev with lvl := kset 0 d.ev.lvl (bucketBase s + i) n } } := by
    refine ⟨fun q hq => ?_, fun r _ => rfl⟩
    cases q <;> simp_all [Part.same]
  exact .ite (h.trans (frame_stopLeak ..)) (.ite (h.trans (frame_startLeak ..)) h)

/-- The level map that setting a level leaves. -/
theorem lvl_setLevel (s i n : Nat) (d : Dev) : (setLevel s i n d).ev.lvl = kset 0 d.ev.lvl (bucketBase s + i) n := by
  unfold setLevel
  simp only
  split
  · rfl
  · split <;> rfl

theorem frame_countOcc (s : Nat) (d : Dev) : ChangesOnly [.hist] [] d (countOcc s d) := by
  refine ⟨fun q hq => ?_, fun r _ => rfl⟩
  cases q <;> simp_all [Part.same, countOcc, Mem.still]

theorem level_setLevel (s i n : Nat) (d : Dev) : level (setLevel s i n d) s i = n := by
  simp [level, lvl_setLevel, kget, kset]

/-- Levels depend on the level map alone. -/
theorem level_congr {a b : Dev} (h : b.ev.lvl = a.ev.lvl) (s i : Nat) : level b s i = level a s i := by simp [level, h]

@[simp] theorem sendEvent_lvl (e : EvRec) (d : Dev) : (sendEvent e d).ev.lvl = d.ev.lvl := by
  unfold sendEvent
  split
  · rfl
  · split
    · exact congrArg Events.lvl ((frame_enqueueTurning ..).1 .ev (by decide))
    · rfl

@[simp] theorem postAt_lvl (t : Time) (code b10 src lv : Nat) (last record : Bool) (data : List Byte) (d : Dev) :
    (postAt t code b10 src lv last record data d).ev.lvl = d.ev.lvl := by
  unfold postAt
  rw [sendEvent_lvl]
  split
  · rw [logRec_ev]
  · split <;> rfl

@[simp] theorem post_lvl (code b10 : Nat) (data : List Byte) (d : Dev) : (post code b10 data d).ev.lvl = d.ev.lvl :=
  postAt_lvl ..

/-- The level of the instance that an occurrence raises. -/
theorem level_occur (s i code : Nat) (data : List Byte) (d : Dev) :
    level (occur s i code data d) s i = satNat 255 (level d s i + 1) := by
  unfold occur occurAt
  simp only
  split <;> split <;> simp [postTurn, countOcc, level] <;>
    simp [kget, kset, lvl_setLevel]

/-- One occurrence of a source. -/
theorem frame_occurAt (t : Time) (s i code : Nat) (data : List Byte) (d : Dev) :
    ChangesOnly evParts [R.ringCnt] d (occurAt t s i code data d) := by
  have h : ChangesOnly evParts [R.ringCnt] d (countOcc s (setLevel s i (satNat 255 (level d s i + 1)) d)) :=
    ((frame_setLevel ..).mono).trans ((frame_countOcc ..).mono)
  have two : ∀ c, ChangesOnly evParts [R.ringCnt] d c → ∀ (p q : Prop) [Decidable p] [Decidable q] (f g : Dev → Dev),
      (∀ x, ChangesOnly evParts [R.ringCnt] x (f x)) → (∀ x, ChangesOnly evParts [R.ringCnt] x (g x)) →
      ChangesOnly evParts [R.ringCnt] d (if q then g (if p then c else f c) else (if p then c else f c)) := by
    intro c hc p q _ _ f g hf hg
    have h1 : ChangesOnly evParts [R.ringCnt] d (if p then c else f c) := .ite hc (hc.trans (hf c))
    exact .ite (h1.trans (hg _)) h1
  exact two _ h _ _ (fun d => postAt t code i s _ _ false data d) (fun d => postTurn _ s i d)
    (fun _ => frame_postAt ..) (fun _ => frame_postAt ..)

theorem frame_occur (s i code : Nat) (data : List Byte) (d : Dev) :
    ChangesOnly evParts [R.ringCnt] d (occur s i code data d) := frame_occurAt ..

theorem frame_countOnly (s i : Nat) (d : Dev) : ChangesOnly evParts [R.ringCnt] d (countOnly s i d) := by
  unfold countOnly
  simp only
  split
  · exact ((frame_setLevel ..).mono).trans (frame_postAt ..)
  · exact (frame_setLevel ..).mono

theorem frame_leak (s i : Nat) (d : Dev) : ChangesOnly evParts [R.ringCnt] d (leak s i d) := by
  unfold leak
  split
  · exact .refl ..
  · simp only
    split
    · exact (((frame_startLeak ..).mono).trans ((frame_setLevel ..).mono)).trans (frame_postAt ..)
    · exact ((frame_startLeak ..).mono).trans ((frame_setLevel ..).mono)

theorem frame_denied (m : Master) (off : Nat) (p : Priv) (d : Dev) :
    ChangesOnly evParts [R.ringCnt, R.protErrCnt] d (denied m off p d) :=
  ((frame_bump ..).mono).trans ((frame_occur ..).mono)

theorem frame_setOut (o : Out) (x : OutState) (d : Dev) : ChangesOnly [.sf] [] d (setOut o x d) := by
  refine ⟨fun q hq => ?_, fun r _ => by cases o <;> rfl⟩
  cases o <;> cases q <;> simp_all [Part.same, setOut]

theorem frame_outOff (o : Out) (d : Dev) : ChangesOnly [.sf, .cyc] [R.safeCnt] d (outOff o d) := by
  unfold outOff
  simp only
  split
  · exact ((frame_setOut ..).mono).trans ((frame_bump ..).mono)
  · exact (frame_setOut ..).mono

theorem frame_react (a b : Bool) (d : Dev) : ChangesOnly [.sf, .cyc] [R.safeCnt] d (react a b d) := by
  have ha : ChangesOnly [.sf, .cyc] [R.safeCnt] d (if a then outOff .soa d else d) := .ite (frame_outOff ..) (.refl ..)
  have hb : ChangesOnly [.sf, .cyc] [R.safeCnt] d
      (if b then outOff .sob (if a then outOff .soa d else d) else (if a then outOff .soa d else d)) :=
    .ite (ha.trans (frame_outOff ..)) ha
  exact .ite (hb.trans ((frame_bump ..).mono)) hb

@[simp] theorem startTone_queue (now : Time) (x : LinkPort) : (x.startTone now).queue = x.queue := by
  unfold LinkPort.startTone LinkPort.cutOff
  split
  · rfl
  · split <;> rfl

@[simp] theorem cutOff_queue (now : Time) (x : LinkPort) : (x.cutOff now).queue = x.queue := by
  unfold LinkPort.cutOff
  split
  · rfl
  · split <;> rfl

theorem frame_originate (d : Dev) : ChangesOnly [.tn, .north, .south] [] d (originate d) := by
  unfold originate
  split
  · refine ⟨fun q hq => ?_, fun r _ => rfl⟩
    cases q <;> simp_all [Part.same]
  all_goals first
    | exact .refl ..
    | (refine ⟨fun q hq => ?_, fun r _ => rfl⟩
       cases q <;> simp_all [Part.same])

/-- What latching a cause can change (R311). -/
theorem frame_latch (b item : Nat) (d : Dev) : ChangesOnly latchParts latchRegs d (latch b item d) := by
  unfold latch
  split
  · exact .refl ..
  · have hr : ∀ e, ChangesOnly latchParts latchRegs e (faultReact b item e) := by
      intro e
      unfold faultReact
      split
      · exact (frame_react ..).mono
      split
      · exact (frame_react ..).mono
      split
      · exact (frame_react ..).mono
      split
      · split <;> exact (frame_outOff ..).mono
      · exact (frame_react ..).mono
    have hs : ChangesOnly latchParts latchRegs d (latchNote b item d) := by
      refine ⟨fun q hq => ?_, fun r _ => rfl⟩
      cases q <;> simp_all [Part.same, latchNote, latchParts, evParts, Mem.still]
    have hp : ∀ code data e, ChangesOnly latchParts latchRegs e (post code item data e) :=
      fun _ _ _ => (frame_post ..).mono
    simp only
    split
    · exact ((hs.trans (hp _ _ _)).trans (hr _)).trans ((frame_originate ..).mono)
    · exact (hs.trans (hp _ _ _)).trans (hr _)

theorem frame_gone (b item : Nat) (d : Dev) : ChangesOnly [.sf] [] d (gone b item d) := by
  refine ⟨fun q hq => ?_, fun r _ => rfl⟩
  cases q <;> simp_all [Part.same, gone]

theorem frame_occurFault (s i code : Nat) (data : List Byte) (d : Dev) :
    ChangesOnly latchParts latchRegs d (occurFault s i code data d) := by
  unfold occurFault
  simp only
  split
  · split
    · exact ((frame_occur ..).mono).trans (frame_latch ..)
    · exact (frame_occur ..).mono
  · exact (frame_occur ..).mono

theorem frame_release (b item : Nat) (d : Dev) : ChangesOnly (.sf :: evParts) [R.ringCnt] d (release b item d) := by
  unfold release
  split
  · refine ChangesOnly.trans ?_ ((frame_post ..).mono)
    refine ⟨fun q hq => ?_, fun r _ => rfl⟩
    cases q <;> simp_all [Part.same, gone]
  · exact .refl ..

/-- Sending a final RESPONSE fills queues. -/
theorem frame_sendFinal (h status : Nat) (res : List Byte) (d : Dev) :
    ChangesOnly [.queues, .cyc] [R.ringCnt] d (sendFinal h status res d) :=
  .each _ (fun _ _ => frame_enqueue ..) _ _

/-- The end of a command at this device (R251). -/
theorem frame_finish (h status : Nat) (res : List Byte) (d : Dev) :
    ChangesOnly [.ex, .queues, .cyc] [R.ringCnt] d (finish h status res d) := by
  unfold finish
  split
  · refine ⟨fun q hq => ?_, fun r _ => rfl⟩
    cases q <;> simp_all [Part.same]
  split
  · refine ChangesOnly.trans ?_ ((frame_sendFinal ..).mono)
    refine ⟨fun q hq => ?_, fun r _ => rfl⟩
    cases q <;> simp_all [Part.same]
  · exact .refl ..

end Sys2Proof.Machine
end

