-- ==== Sys2Proof/Laws/Settle.lean ====
section
/-! SUPPORT. The passing of ring time, the end of a command, and the shape of every command's next state. -/

namespace Sys2Proof.Machine

-- One theorem after the other: the package as one text else asks for more threads than the check grants.
set_option Elab.async false

/-! ### Parts kept, whatever the registers -/

/-- From device a to device b every part outside `ps` is the same. -/
structure Keeps (ps : List Part) (a b : Dev) : Prop where
  on : ∀ p, p ∉ ps → p.same a b

theorem Keeps.refl (ps : List Part) (a : Dev) : Keeps ps a a := ⟨fun p _ => p.same_refl a⟩

theorem Keeps.trans {ps : List Part} {a b c : Dev} (h : Keeps ps a b) (k : Keeps ps b c) : Keeps ps a c :=
  ⟨fun p hp => p.same_trans (h.on p hp) (k.on p hp)⟩

theorem Keeps.mono {ps qs : List Part} {a b : Dev} (h : Keeps ps a b) (hp : ps ⊆ qs := by decide) : Keeps qs a b :=
  ⟨fun p k => h.on p (fun m => k (hp m))⟩

theorem ChangesOnly.keeps {ps : List Part} {rs : List Nat} {a b : Dev} (h : ChangesOnly ps rs a b) : Keeps ps a b := ⟨h.1⟩

theorem Keeps.each {α : Type} {ps : List Part} (f : α → Dev → Dev) (h : ∀ x d, Keeps ps d (f x d)) (l : List α) (d : Dev) :
    Keeps ps d (each f l d) := by
  induction l generalizing d with
  | nil => exact .refl ..
  | cons x r ih => exact (h x d).trans (ih _)

theorem Keeps.ite {ps : List Part} {p : Prop} [Decidable p] {a b c : Dev} (h : Keeps ps a b) (k : Keeps ps a c) :
    Keeps ps a (if p then b else c) := by split <;> assumption

/-! ### The passing of ring time -/

theorem each_fst {α σ : Type} {P : σ → Prop} (f : α → σ → σ) (h : ∀ x s, P s → P (f x s)) (l : List α) (s : σ) (hs : P s) :
    P (each f l s) := by
  induction l generalizing s with
  | nil => exact hs
  | cons x r ih => exact ih _ (h x s hs)

theorem frame_lifeAdd (n : Nat) (d : Dev) : ChangesOnly timeParts [] d (lifeAdd n d) := by
  refine ⟨fun q hq => ?_, fun r _ => rfl⟩
  cases q <;> simp_all [Part.same, lifeAdd, timeParts]

theorem frame_advance (t : Time) (d : Dev) : ChangesOnly timeParts [] d (advance t d) := by
  unfold advance
  split
  · refine ⟨fun q hq => ?_, fun r _ => rfl⟩
    cases q <;> simp_all [Part.same, timeParts, lifeAdd]
  · exact .refl ..

theorem frame_withBal (n : Nat) (f : BalCell → BalCell) (d : Dev) : ChangesOnly [.ba] [] d (withBal n f d) := by
  refine ⟨fun q hq => ?_, fun r _ => rfl⟩
  cases q <;> simp_all [Part.same, withBal]

theorem frame_ba (m : Bal) (d : Dev) : ChangesOnly [.ba] [] d { d with ba := m } := by
  refine ⟨fun q hq => ?_, fun r _ => rfl⟩
  cases q <;> simp_all [Part.same]

theorem frame_ca (m : Cal) (d : Dev) : ChangesOnly [.ca] [] d { d with ca := m } := by
  refine ⟨fun q hq => ?_, fun r _ => rfl⟩
  cases q <;> simp_all [Part.same]

theorem frame_userConduct (l : List Nat) (d : Dev) : ChangesOnly [.ca] [] d (userConduct l d) := by
  unfold userConduct userBad
  split
  · split
    · split
      · split
        · exact frame_ca ..
        · exact .refl ..
      · exact .refl ..
    · exact .refl ..
  · exact .refl ..

theorem frame_voidReps (d : Dev) : ChangesOnly [.ba] [] d (voidReps d) := by
  unfold voidReps
  split
  · exact .refl ..
  · exact frame_ba ..

theorem frame_runTo (d : Dev) : ChangesOnly [.ba, .ca] [] d (runTo d) := by
  unfold runTo
  refine ChangesOnly.trans ?_ ((frame_ba _ _).mono)
  refine ChangesOnly.trans ?_ ((ChangesOnly.each _ (fun _ _ => frame_withBal ..) _ _).mono)
  refine ChangesOnly.trans ?_ ((ChangesOnly.each _ (fun _ _ => frame_ba ..) _ _).mono)
  exact ((frame_voidReps d).mono).trans ((frame_userConduct ..).mono)

theorem frame_releasePorts (d : Dev) : ChangesOnly timeParts [] d (releasePorts d) := by
  unfold releasePorts
  refine .ite ?_ (.refl ..)
  refine ⟨fun q hq => ?_, fun r _ => rfl⟩
  cases q <;> simp_all [Part.same, timeParts]

/-! ### What falls due (Table CAL-3, Tables BIST-4 to BIST-6, R399) -/

theorem keeps_post (code b10 : Nat) (data : List Byte) (d : Dev) : Keeps dueParts d (post code b10 data d) := (frame_post ..).keeps.mono

theorem keeps_setReg (off : Nat) (v : Word) (d : Dev) : Keeps dueParts d (setReg off v d) := (frame_setReg ..).keeps.mono

theorem keeps_finish (h st : Nat) (res : List Byte) (d : Dev) : Keeps dueParts d (finish h st res d) := (frame_finish ..).keeps.mono

theorem keeps_ca (m : Cal) (d : Dev) : Keeps dueParts d { d with ca := m } := (frame_ca ..).keeps.mono

theorem keeps_me (m : Meas) (d : Dev) : Keeps dueParts d { d with me := m } := by
  refine ⟨fun q hq => ?_⟩
  cases q <;> simp_all [Part.same, dueParts]

theorem keeps_withBist (f : Bist → Bist) (d : Dev) : Keeps dueParts d (withBist f d) := by
  refine ⟨fun q hq => ?_⟩
  cases q <;> simp_all [Part.same, dueParts]

theorem keeps_caBi (m : Cal) (b : Bist) (d : Dev) : Keeps dueParts d { d with ca := m, bi := b } := by
  refine ⟨fun q hq => ?_⟩
  cases q <;> simp_all [Part.same, dueParts]

theorem keeps_fitS (w : Nat) (v : Int) (d : Dev) : Keeps dueParts d (fitS w v d).2 := by
  unfold fitS freeWord
  split
  · exact .refl ..
  · refine ⟨fun q hq => ?_⟩
    cases q <;> simp_all [Part.same, dueParts]

theorem keeps_occurAt (t : Time) (s i code : Nat) (data : List Byte) (d : Dev) : Keeps dueParts d (occurAt t s i code data d) :=
  (frame_occurAt ..).keeps.mono

theorem keeps_withdraw (d : Dev) : Keeps dueParts d (withdraw d) :=
  .each _ (fun _ _ => .ite (keeps_ca ..) (.refl ..)) _ _

theorem keeps_handover (t : Time) (spare lane dir : Nat) (step : Int) (d : Dev) :
    Keeps dueParts d (handover t spare lane dir step d) := by
  unfold handover
  have h := keeps_fitS 24 step d
  generalize fitS 24 step d = r at h ⊢
  obtain ⟨v, e⟩ := r
  refine h.trans ?_
  refine .ite ?_ (keeps_setReg ..)
  refine Keeps.trans ?_ (keeps_withdraw _)
  refine Keeps.trans ?_ (frame_countOnly ..).keeps.mono
  refine Keeps.trans ?_ (keeps_occurAt ..)
  exact (keeps_setReg ..).trans (keeps_ca ..)

theorem keeps_bgJudge (d : Dev) : Keeps dueParts d (bgJudge d) := by
  unfold bgJudge
  dsimp only
  split
  · exact .ite (keeps_ca ..) (.refl ..)
  · refine .ite ?_ (.refl ..)
    refine Keeps.trans ?_ (frame_occurFault ..).keeps.mono
    exact keeps_ca ..

theorem keeps_bgTake (e : Int) (d : Dev) : Keeps dueParts d (bgTake e d) := by
  unfold bgTake
  dsimp only
  have h := keeps_fitS 16 (medianPpm (lastN 16 (d.ca.bg ++ [e]))) d
  generalize fitS 16 (medianPpm (lastN 16 (d.ca.bg ++ [e]))) d = r at h ⊢
  obtain ⟨v, c⟩ := r
  refine h.trans ?_
  dsimp only
  have k : Keeps dueParts c (setReg R.calBgDis (BitVec.ofNat 32 v) { c with ca := { c.ca with bg := lastN 16 (d.ca.bg ++ [e]) } }) :=
    (keeps_ca ..).trans (keeps_setReg ..)
  exact k.trans (keeps_bgJudge ..)

theorem keeps_fitStep (m a b : Nat) (o : ReliefOutcome) (d : Dev) : Keeps dueParts d (fitStep m a b o d) := by
  unfold fitStep
  refine .ite (.refl ..) (.trans (keeps_bgTake (bgError d o.bgRatio) d) ?_)
  exact .ite (keeps_ca ..) (keeps_occurAt ..)

theorem keeps_setCorr (off : Nat) (v : Word) (d : Dev) : Keeps dueParts d (setCorr off v d) := by
  unfold setCorr
  simp only
  exact .ite (keeps_setReg ..) ((keeps_setReg off v d).trans (keeps_ca ..))

theorem keeps_applyStep (m : Nat) (o : ReliefOutcome) (d : Dev) : Keeps dueParts d (applyStep m o d) := by
  unfold applyStep
  simp only
  split
  · split
    · exact keeps_ca ..
    · exact (((keeps_ca _ d).trans (keeps_ca ..)).trans (keeps_setCorr ..)).trans (keeps_setCorr ..)
  · exact .refl ..

theorem keeps_cmpBegin (k : Nat) (h : Option Nat) (seen : List PairSeen) (d : Dev) : Keeps dueParts d (cmpBegin k h seen d) :=
  keeps_caBi ..

theorem keeps_cmpTestEnd (k : Nat) (r : CmpFound) (d : Dev) : Keeps dueParts d (cmpTestEnd k r d) := by
  unfold cmpTestEnd
  simp only
  have h := (keeps_caBi { d.ca with cmpFrom := none } { d.bi with cmpJob := false } d).trans
    (Keeps.each (fun n d => post 0x1C02 0 [2, BitVec.ofNat 8 k] (setRegBit R.bistCmpFail (n - 1) true d))
      (fun _ _ => (keeps_setReg ..).trans (keeps_post ..)) (maskCells (r.ov ||| r.uv)) _)
  have h2 : ∀ e, Keeps dueParts d e → Keeps dueParts d (match e.bi.cmpQueue with
      | none => e
      | some (h, k2, seen) =>
        if (groupCells (withBist (fun t => { t with cmpQueue := none }) e) k2).all (pairSkipped (withBist (fun t => { t with cmpQueue := none }) e))
        then finish h St.inputNotReady [] (withBist (fun t => { t with cmpQueue := none }) e)
        else cmpBegin k2 (some h) seen (withBist (fun t => { t with cmpQueue := none }) e)) := by
    intro e he
    split
    · exact he
    · exact (he.trans (keeps_withBist ..)).trans (.ite (keeps_finish ..) (keeps_cmpBegin ..))
  refine h2 _ ?_
  split
  · exact h.trans (keeps_finish ..)
  · exact h

theorem keeps_stageBegin (g : LaneGroup) (x : StageTest) (d : Dev) : Keeps dueParts d (stageBegin g x d) :=
  ((keeps_setReg ..).trans (keeps_withBist ..)).trans (keeps_ca ..)

theorem keeps_stageTry (g : LaneGroup) (d : Dev) : Keeps dueParts d (stageTry g d) := by
  unfold stageTry
  split
  · refine .ite ?_ (.ite (keeps_ca ..) ((keeps_withBist ..).trans (keeps_stageBegin ..)))
    dsimp only
    split
    · exact (keeps_withBist ..).trans (keeps_finish ..)
    · exact keeps_withBist ..
  · exact .refl ..

theorem keeps_stageFound (g : LaneGroup) (x : StageTest) (d : Dev) : Keeps dueParts d (stageFound g x d) := by
  unfold stageFound
  refine .ite (keeps_setReg ..) (.ite (.refl ..) (Keeps.trans ?_ (keeps_post ..)))
  have k := keeps_setReg (laneFailOff g) (putBit (reg d (laneFailOff g)) (x.cell - 1) true) d
  exact .ite (k.trans (keeps_me ..)) k

theorem keeps_stageEnd (g : LaneGroup) (d : Dev) : Keeps dueParts d (stageEnd g d) := by
  unfold stageEnd
  split
  · exact .refl ..
  · next x hx =>
    refine Keeps.trans ?_ (keeps_stageTry ..)
    have h : Keeps dueParts d (stageFound g x (withStages g (fun s => { s with on := none })
        (setRegBit R.bistOnline (onlineBit g + 5) false d))) :=
      ((keeps_setReg ..).trans (keeps_withBist ..)).trans (keeps_stageFound ..)
    split
    · exact h.trans (keeps_finish ..)
    · exact h

theorem keeps_testBank (b : BankFails) (d : Dev) : Keeps dueParts d (testBank b d) := by
  unfold testBank
  simp only
  exact .ite (keeps_withBist ..) ((keeps_withBist _ d).trans (keeps_post ..))

theorem keeps_moved (n : Nat) (d : Dev) : Keeps dueParts d (moved n d) := by
  refine ⟨fun q hq => ?_⟩
  cases q <;> simp_all [Part.same, dueParts, moved]

theorem keeps_moveCell (n : Nat) (d : Dev) : Keeps dueParts d (moveCell n d) := by
  unfold moveCell
  split
  · refine Keeps.trans ?_ (keeps_moved ..)
    refine ⟨fun q hq => ?_⟩
    cases q <;> simp_all [Part.same, dueParts, hwStand]
  · exact .refl ..

theorem keeps_engineFail (k cause : Nat) (d : Dev) : Keeps dueParts d (engineFail k cause d) := by
  unfold engineFail
  simp only
  refine .ite ?_ (.refl ..)
  have h : ∀ e, Keeps dueParts d (occur 23 k 0x0E01 [BitVec.ofNat 8 cause] (withEng e d)) := by
    intro e
    refine Keeps.trans ?_ (keeps_occurAt ..)
    refine ⟨fun q hq => ?_⟩
    cases q <;> simp_all [Part.same, dueParts]
  exact .ite ((h _).trans (.each _ (fun _ _ => keeps_moveCell ..) _ _)) (h _)

theorem keeps_engineTested (h k : Nat) (l : List BankFails) (d : Dev) : Keeps dueParts d (engineTested h k l d) := by
  unfold engineTested
  simp only
  refine Keeps.trans ?_ (keeps_finish ..)
  refine Keeps.trans ?_ (keeps_withBist ..)
  have h1 := ((keeps_withBist (fun t => { t with engTest := none }) d).trans (keeps_withBist _ _)).trans
    (Keeps.each testBank (fun _ _ => keeps_testBank ..)
      (withRoom false d (l.filter (fun b => decide (b.mem = k ∨ b.mem = 16 + k))))
      (retestEngine k (withBist (fun t => { t with engTest := none }) d)))
  exact .ite (h1.trans (keeps_engineFail ..)) h1

theorem keeps_fuseDone (m i : Nat) (ok : Bool) (d : Dev) : Keeps dueParts d (fuseDone m i ok d) := by
  unfold fuseDone
  simp only
  exact .ite ((keeps_withBist _ d).trans (keeps_post ..)) (keeps_withBist ..)

/-- What is due acts within these parts. -/
theorem keeps_calStep (x : CalDue) (d : Dev) : Keeps tickParts d (calStep x d) := by
  unfold calStep
  simp only
  refine Keeps.trans (b := advance x.due d) (frame_advance ..).keeps.mono ?_
  have h : ∀ e, Keeps dueParts (advance x.due d) e → Keeps tickParts (advance x.due d) e := fun _ k => k.mono
  apply h
  split
  · exact .ite (.refl ..) (keeps_handover ..)
  · exact keeps_fitStep ..
  · exact keeps_applyStep ..
  · exact .ite (.refl ..) (keeps_handover ..)
  · exact keeps_cmpTestEnd ..
  · exact keeps_stageEnd ..
  · exact keeps_stageTry ..
  · exact keeps_engineTested ..
  · exact keeps_fuseDone ..
  · exact keeps_withBist ..

/-- A property of the power state that advancing the clock keeps is kept by all that falls due. -/
theorem calStep_pw {α : Type} (f : Power → α) (hf : ∀ t d, f (advance t d).pw = f d.pw) (x : CalDue) (d : Dev) :
    f (calStep x d).pw = f d.pw := by
  have h : ∀ e, Keeps dueParts (advance x.due d) e → f e.pw = f d.pw := fun e k =>
    (congrArg f (k.on .pw (by decide))).trans (hf ..)
  unfold calStep
  simp only
  apply h
  split
  · exact .ite (.refl ..) (keeps_handover ..)
  · exact keeps_fitStep ..
  · exact keeps_applyStep ..
  · exact .ite (.refl ..) (keeps_handover ..)
  · exact keeps_cmpTestEnd ..
  · exact keeps_stageEnd ..
  · exact keeps_stageTry ..
  · exact keeps_engineTested ..
  · exact keeps_fuseDone ..
  · exact keeps_withBist ..

theorem keeps_calRunN (t : Time) (n : Nat) (d : Dev) : Keeps tickParts d (calRunN t n d) := by
  induction n generalizing d with
  | zero => exact .refl ..
  | succ n ih =>
    unfold calRunN
    split
    · exact .refl ..
    · refine .ite (Keeps.trans ?_ (ih _)) (.refl ..)
      exact ((frame_ca _ _).keeps.mono).trans (keeps_calStep ..)

theorem calRun_pw {α : Type} (f : Power → α) (hf : ∀ t d, f (advance t d).pw = f d.pw) (t : Time) (d : Dev) :
    f (calRun t d).pw = f d.pw := by
  have h : ∀ n d, f (calRunN t n d).pw = f d.pw := by
    intro n
    induction n with
    | zero => exact fun _ => rfl
    | succ n ih =>
      intro d
      unfold calRunN
      split
      · rfl
      · split
        · rw [ih, calStep_pw f hf]
        · rfl
  exact h _ d

/-- Where nothing falls due nothing acts. -/
theorem calRun_quiet {t : Time} {d : Dev} (h : QuietTill t d) : calRun t d = d := by
  unfold calRun calRunN QuietTill at *
  split at h
  · simp_all
  · next x r e => simp only [e]; rw [if_neg (by omega)]

/-! ### Ring time as commands see it -/

theorem keeps_tick (t : Time) (d : Dev) : Keeps tickParts d (tick t d) :=
  (((keeps_calRunN t _ d).trans ((frame_advance t _).keeps.mono)).trans ((frame_runTo _).keeps.mono)).trans
    ((frame_releasePorts _).keeps.mono)

/-- Where nothing falls due ring time changes no register and only the parts of `timeParts`. -/
theorem frame_tick {t : Time} {d : Dev} (h : QuietTill t d) : ChangesOnly timeParts [] d (tick t d) := by
  unfold tick
  rw [calRun_quiet h]
  exact ((frame_advance t d).trans ((frame_runTo _).mono)).trans (frame_releasePorts _)

theorem reg_tick {t : Time} {d : Dev} (h : QuietTill t d) (r : Nat) : reg (tick t d) r = reg d r := (frame_tick h).2 r (by simp)

@[simp] theorem advance_st (t : Time) (d : Dev) : (advance t d).pw.st = d.pw.st := by
  unfold advance; split <;> rfl

@[simp] theorem advance_mode (t : Time) (d : Dev) : (advance t d).pw.mode = d.pw.mode := by
  unfold advance; split <;> rfl

@[simp] theorem advance_held (t : Time) (d : Dev) : (advance t d).pw.held = d.pw.held := by
  unfold advance; split <;> rfl

@[simp] theorem runTo_pw (d : Dev) : (runTo d).pw = d.pw := (frame_runTo d).1 .pw (by decide)

@[simp] theorem releasePorts_pw (d : Dev) : (releasePorts d).pw = d.pw := by unfold releasePorts; split <;> rfl

@[simp] theorem tick_st (t : Time) (d : Dev) : (tick t d).pw.st = d.pw.st := by
  simp [tick, calRun_pw (·.st) advance_st]

@[simp] theorem tick_mode (t : Time) (d : Dev) : (tick t d).pw.mode = d.pw.mode := by
  simp [tick, calRun_pw (·.mode) advance_mode]

@[simp] theorem tick_held (t : Time) (d : Dev) : (tick t d).pw.held = d.pw.held := by
  simp [tick, calRun_pw (·.held) advance_held]

@[simp] theorem tick_head (t : Time) (d : Dev) : (tick t d).head = d.head := by simp [Dev.head]

@[simp] theorem tick_awake (t : Time) (d : Dev) : (tick t d).awake = d.awake := by simp [Dev.awake]

@[simp] theorem tick_running (t : Time) (d : Dev) : (tick t d).running = d.running := by simp [Dev.running]

/-- The parts that ring time leaves alone. -/
theorem tick_same (t : Time) (d : Dev) (p : Part) (h : p ∉ tickParts := by decide) : p.same d (tick t d) := (keeps_tick t d).on p h

@[simp] theorem tick_pr (t : Time) (d : Dev) : (tick t d).pr = d.pr := tick_same t d .pr
@[simp] theorem tick_rg (t : Time) (d : Dev) : (tick t d).rg = d.rg := tick_same t d .rg
@[simp] theorem tick_tb (t : Time) (d : Dev) : (tick t d).tb = d.tb := tick_same t d .tb
@[simp] theorem tick_sw (t : Time) (d : Dev) : (tick t d).sw = d.sw := tick_same t d .sw
@[simp] theorem tick_io (t : Time) (d : Dev) : (tick t d).io = d.io := tick_same t d .io
@[simp] theorem tick_ck (t : Time) (d : Dev) : (tick t d).ck = d.ck := tick_same t d .ck

/-- Awake is running. -/
theorem running_of_awake {d : Dev} (h : d.awake = true) : d.running = true := by
  unfold Dev.awake PowerState.awake at h
  unfold Dev.running
  split at h <;> simp_all

/-! ### The end of a command -/

theorem pushEvent_dev (e : EvRec) (b : Both) : ChangesOnly [.cyc] [R.hostEvtLost] b.1 (pushEvent e b).1 := by
  unfold pushEvent
  simp only
  split
  · split
    · exact .refl ..
    · exact frame_bump ..
  · exact .refl ..

theorem pushEvent_host (e : EvRec) (b : Both) : HostEvents b.2 (pushEvent e b).2 := by
  unfold pushEvent HostEvents
  simp only
  split
  · split <;> simp
  · rfl

theorem HostEvents.refl (a : Hst) : HostEvents a a := rfl

theorem HostEvents.trans {a b c : Hst} (h : HostEvents a b) (k : HostEvents b c) : HostEvents a c := by
  unfold HostEvents at *
  rw [k, h]

/-- The end of a command changes, besides what it posts, only the count of events without room. -/
theorem frame_settle (b : Both) : ChangesOnly [.cyc, .ev, .ex] [R.hostEvtLost] b.1 (settle b).1 := by
  unfold settle
  refine each_fst (P := fun r : Both => ChangesOnly [.cyc, .ev, .ex] [R.hostEvtLost] b.1 r.1) _ ?_ _ _ ?_
  · intro e r h
    exact h.trans ((pushEvent_dev e r).mono)
  · refine ⟨fun q hq => ?_, fun r _ => rfl⟩
    cases q <;> simp_all [Part.same]

theorem settle_ev (b : Both) : (settle b).1.ev = { b.1.ev with out := [] } := by
  unfold settle
  refine each_fst (P := fun r : Both => r.1.ev = { b.1.ev with out := [] }) _ ?_ _ _ rfl
  intro e r h
  exact ((pushEvent_dev e r).1 .ev (by decide)).trans h

theorem settle_ex (b : Both) : (settle b).1.ex = { b.1.ex with done := [] } := by
  unfold settle
  refine each_fst (P := fun r : Both => r.1.ex = { b.1.ex with done := [] }) _ ?_ _ _ rfl
  intro e r h
  exact ((pushEvent_dev e r).1 .ex (by decide)).trans h

/-- With no completion left, the end of a command only posts events. -/
theorem settle_host (b : Both) (h : b.1.ex.done = []) : HostEvents b.2 (settle b).2 := by
  unfold settle
  simp only [h, each]
  refine each_fst (P := fun r : Both => HostEvents b.2 r.2) _ ?_ _ _ (.refl _)
  intro e r k
  exact k.trans (pushEvent_host e r)

/-- A command that leaves nothing for the host ends as it is. -/
theorem settle_quiet (b : Both) (h : b.1.ev.out = []) (k : b.1.ex.done = []) : settle b = b := by
  obtain ⟨d, x⟩ := b
  simp only at h k
  unfold settle
  simp only [h, k, each]
  rw [show ({ d.ev with out := [] } : Events) = d.ev by rw [← h], show ({ d.ex with done := [] } : Exec) = d.ex by rw [← k]]

/-! ### The shape of a next state -/

/-- A command awake with effect f: its next state, and what it can change. -/
theorem actAwake_next (t : Time) (f : Dev → Dev) (s : State) (h : s.dev.awake = true) :
    actAwake t f s = .next { s with
      dev := (settle (f (tick t s.dev), s.hst)).1
      hst := (settle (f (tick t s.dev), s.hst)).2 } := by
  simp [actAwake, act, actH, h, running_of_awake h]

/-- A command while the C-die runs. -/
theorem actAt_next (t : Time) (f : Dev → Dev) (s : State) (h : s.dev.running = true) :
    actAt t f s = .next { s with
      dev := (settle (f (tick t s.dev), s.hst)).1
      hst := (settle (f (tick t s.dev), s.hst)).2 } := by
  simp [actAt, act, actH, h]

/-- A command awake that leaves nothing for the host. -/
theorem actAwake_quiet (t : Time) (f : Dev → Dev) (s : State) (h : s.dev.awake = true)
    (he : (f (tick t s.dev)).ev.out = []) (hx : (f (tick t s.dev)).ex.done = []) :
    actAwake t f s = .next { s with dev := f (tick t s.dev) } := by
  rw [actAwake_next t f s h, settle_quiet _ he hx]

/-- A command while the C-die runs that leaves nothing for the host. -/
theorem actAt_quiet (t : Time) (f : Dev → Dev) (s : State) (h : s.dev.running = true)
    (he : (f (tick t s.dev)).ev.out = []) (hx : (f (tick t s.dev)).ex.done = []) :
    actAt t f s = .next { s with dev := f (tick t s.dev) } := by
  rw [actAt_next t f s h, settle_quiet _ he hx]

end Sys2Proof.Machine
end

