-- ==== Sys2Proof/Laws/Latch.lean ====
section
/-! SUPPORT. Latching a cause, reactions of the outputs, and releases: the safety state that each leaves. -/

namespace Sys2Proof.Machine

-- One theorem after the other: the package as one text else asks for more threads than the check grants.
set_option Elab.async false

@[simp] theorem originate_sf (d : Dev) : (originate d).sf = d.sf := (frame_originate d).1 .sf (by decide)

@[simp] theorem post_sf (code b10 : Nat) (data : List Byte) (d : Dev) : (post code b10 data d).sf = d.sf :=
  (frame_post code b10 data d).1 .sf (by decide)

@[simp] theorem occur_sf (s i code : Nat) (data : List Byte) (d : Dev) : (occur s i code data d).sf = d.sf :=
  (frame_occur s i code data d).1 .sf (by decide)

@[simp] theorem bump_sf (off hi lo n : Nat) (d : Dev) : (bump off hi lo n d).sf = d.sf := rfl

/-- What switching an output off leaves. -/
theorem outOff_sf (o : Out) (d : Dev) : (outOff o d).sf = match o with
    | .soa => { d.sf with outA := d.sf.outA.off d.now }
    | .sob => { d.sf with outB := d.sf.outB.off d.now } := by
  unfold outOff
  cases o <;> simp only [outState, setOut, OutState.off] <;> split <;> simp_all <;> rfl

@[simp] theorem outOff_now (o : Out) (d : Dev) : (outOff o d).now = d.now := (frame_outOff o d).1 .now (by decide)

@[simp] theorem post_now (code b10 : Nat) (data : List Byte) (d : Dev) : (post code b10 data d).now = d.now :=
  (frame_post code b10 data d).1 .now (by decide)

/-- What a reaction leaves. -/
theorem react_sf (a b : Bool) (d : Dev) : (react a b d).sf = { d.sf with
    outA := if a then d.sf.outA.off d.now else d.sf.outA
    outB := if b then d.sf.outB.off d.now else d.sf.outB } := by
  unfold react
  simp only
  cases a <;> cases b <;> split <;> simp [outOff_sf]

theorem faultReact_sf (b item : Nat) (d : Dev) : (faultReact b item d).sf = { d.sf with
    outA := if (latchOff d b item).1 then d.sf.outA.off d.now else d.sf.outA
    outB := if (latchOff d b item).2 then d.sf.outB.off d.now else d.sf.outB } := by
  unfold faultReact latchOff
  split
  · simp [react_sf]
  split
  · simp [react_sf]
  split
  · simp [react_sf]
  split
  · split <;> rename_i h <;> simp [outOff_sf, h]
  · simp [react_sf]

theorem routed_congr {a b : Dev} (h : reg b R.safeInCfg = reg a R.safeInCfg) (p : Nat) : routed b p = routed a p := by
  unfold routed regFld
  rw [h]

/-- A cause that is still present makes no new latch (R311). -/
theorem latch_present {b item : Nat} {d : Dev} (h : (b, item) ∈ d.sf.present) : latch b item d = d := by
  simp [latch, h]

/-- The safety state that a new latch leaves (R311). -/
theorem latch_sf {b item : Nat} {d : Dev} (h : (b, item) ∉ d.sf.present) :
    (latch b item d).sf = (d.sf.latched b item (latchPos b d) d.now).dropped (latchOff d b item) d.now := by
  have hr : ∀ e : Dev, reg e R.safeInCfg = reg d R.safeInCfg → latchOff e b item = latchOff d b item := by
    intro e he
    unfold latchOff
    simp [routed_congr he]
  have hl : ∀ data, latchOff (post 0x1601 item data (latchNote b item d)) b item = latchOff d b item :=
    fun data => hr _ ((frame_post ..).2 _ (by decide))
  unfold latch
  simp only [h, if_false]
  split <;> simp only [originate_sf, faultReact_sf, post_sf, post_now, hl] <;> rfl

@[simp] theorem originate_ev (d : Dev) : (originate d).ev = d.ev := (frame_originate d).1 .ev (by decide)

@[simp] theorem faultReact_ev (b item : Nat) (d : Dev) : (faultReact b item d).ev = d.ev := by
  unfold faultReact
  split
  · exact (frame_react ..).1 .ev (by decide)
  split
  · exact (frame_react ..).1 .ev (by decide)
  split
  · exact (frame_react ..).1 .ev (by decide)
  split
  · split <;> exact (frame_outOff ..).1 .ev (by decide)
  · exact (frame_react ..).1 .ev (by decide)

/-- A latch leaves the buckets alone. -/
@[simp] theorem latch_lvl (b item : Nat) (d : Dev) : (latch b item d).ev.lvl = d.ev.lvl := by
  unfold latch
  split
  · rfl
  · simp only
    split <;> simp [latchNote]

/-- The level after an occurrence of a source whose lasting instance latches a fault. -/
theorem level_occurFault (s i code : Nat) (data : List Byte) (d : Dev) :
    level (occurFault s i code data d) s i = satNat 255 (level d s i + 1) := by
  unfold occurFault
  simp only
  split
  · split
    · rw [level_congr (latch_lvl ..), level_occur]
    · exact level_occur ..
  · exact level_occur ..

/-- The threshold of a source depends on its register. -/
theorem bucketN_congr {a b : Dev} (s : Nat) (h : reg b (evtCfgOff s) = reg a (evtCfgOff s)) : bucketN b s = bucketN a s := by
  simp [bucketN, regFld, h]

end Sys2Proof.Machine
end

