-- ==== Sys2Proof/WellFormed.lean ====
section
/-! DEFINITION. Which operand values a command can carry: the ranges that the spec gives handles, positions, cells, ports, ring
pairs and the other numbered parts, and the lengths of its fixed lists. The meanings are total: an operand outside its range names
nothing, and such a command leaves the device as it is where the meaning looks the part up. -/

namespace Sys2Proof

/-- Handles run from 0x0001 to 0xFFFE (R286). -/
def handleWf (h : Nat) : Bool := decide (1 ≤ h) && decide (h ≤ 0xFFFE)

/-- A descriptor has sixteen words (R281). -/
def descWf (d : Desc) : Bool := decide (d.length = 16)

/-- Positions 0 to 62 (R246). -/
def posWf (p : Nat) : Bool := decide (p ≤ 62)

/-- Cells, taps and switches 1 to 32 (R65). -/
def cellWf (n : Nat) : Bool := decide (1 ≤ n) && decide (n ≤ 32)

/-- Ring pairs, Daroth wire ports and comparator groups 0 to 3 (R148, R278, R394). -/
def portNoWf (p : Nat) : Bool := decide (p < 4)

/-- Engines 0 to 15 (R159). -/
def engineWf (k : Nat) : Bool := decide (k < 16)

/-- Causes of an engine's failure (R166). -/
def causeWf (c : Nat) : Bool := decide (1 ≤ c) && decide (c ≤ 3)

/-- Check-value units 0 and 1 (R358). -/
def unitWf (n : Nat) : Bool := decide (n < 2)

/-- Widths of the data ports of a check-value unit in bytes (R359). -/
def dataPortWf (n : Nat) : Bool := decide (n = 1) || decide (n = 2) || decide (n = 4)

/-- Safety input channels SIA0, SIB0, SIA1, SIB1 (R319). -/
def channelWf (c : Nat) : Bool := decide (c < 4)

/-- Levels of the four input channels. -/
def levelsWf (l : List Bool) : Bool := decide (l.length = 4)

/-- Register offsets (R9). -/
def offsetWf (o : Nat) : Bool := decide (o < 0x10000)

/-- Bytes of one register write (R350). -/
def sizeWf (n : Nat) : Bool := decide (1 ≤ n) && decide (n ≤ 4)

/-- Addresses of the bit alias region (R352, R276). -/
def aliasWf (a : Nat) : Bool := decide (0x02000000 ≤ a) && decide (a < 0x02200000)

/-- A code group has ten bits (R220). -/
def groupWf (g : Nat) : Bool := decide (g < 1024)

/-- An event entry has 32 bytes (Table HOST-6). -/
def eventWf (e : List Byte) : Bool := decide (e.length = 32)

/-- A BULK chunk carries at most 248 bytes (R288, Table RING-2). -/
def bulkWf (l : List Byte) : Bool := decide (l.length ≤ 248)

/-- A current sample frame has 32 results (Table SENS-3). -/
def frameWordsWf {α : Type} (l : List α) : Bool := decide (l.length = 32)

/-- The weights of a window's parts come to the whole window, 65,536 (R71). -/
def windowWf (l : List RawPart) : Bool := decide ((l.map RawPart.share).foldl (fun a b => a + b) 0 = 65536)

/-- So do those of a current window (R131). -/
def curWindowWf (x : CurSample) : Bool := decide ((x.parts.map CurPart.share).foldl (fun a b => a + b) 0 = 65536)

/-- An engine-grid sample is one of a cell, over a whole window (R160). -/
def engSampleWf (e : EngSample) : Bool := cellWf e.x.cell && windowWf e.x.parts

/-- Spectra belong to a cell and a point (R177). -/
def spectraWf (r : CellSpectra) : Bool := cellWf r.cell && decide (r.point < 16)

/-- A lane group gives at most one reading of each cell (R72). -/
def samplesWf (l : List LaneSample) : Bool := l.all (fun x => cellWf x.cell && windowWf x.parts) && decide ((l.map LaneSample.cell).Nodup)

/-- A reply has at most status, 32 bytes of data and CRC-8 (R151, R157). -/
def wireWf (r : WireReply) : Bool := decide (r.cells.length ≤ 8 * 34)

/-- Conversions of the eight channels: 16 of each that is converted (R143). -/
def codesWf (l : List (List Nat)) : Bool := decide (l.length = 8) && l.all (fun c => decide (c.length = 16 ∨ c.length = 0) && c.all (fun x => decide (x < 65536)))

/-- Codes of the 5-bit instruction register (R400). -/
def irWf (n : Nat) : Bool := decide (n < 32)

/-- Memory indices (Table MEM-1). -/
def memWf (m : Nat) : Bool := decide (m ≤ 0x41) || decide (m = 0x50)

/-- A heartbeat has a slot for each of the positions 0 to 62 (R262). -/
def heartbeatWf (hb : Heartbeat) : Bool := decide (hb.slots.length = 63) && decide (hb.num < 65536)

/-- A sweep trigger names a range of positions (Table RING-6). -/
def triggerWf (tr : Trigger) : Bool := posWf tr.first && posWf tr.last

/-- A REQUEST carries a descriptor where it is a command (Table RING-2). -/
def requestWf (r : Request) : Bool := handleWf r.h && decide (r.kind ≤ 2) && (decide (r.kind ≠ 0) || descWf r.d)

/-- A RESPONSE fragment carries at most 244 bytes (Table RING-2). -/
def responseWf (r : Response) : Bool := handleWf r.h && decide (r.kind ≤ 1) && decide (r.data.length ≤ 244)

/-- Banks of a memory test lie in Table MEM-1, and bit positions in the code word (R386, R363). -/
def testWf (r : SelfTestRun) : Bool :=
  r.banks.all (fun b => decide (b.mem ≤ 0x41) && b.fails.all (fun f => decide (f.2 < 79)))

/-- Does a command carry operands in their ranges? -/
def Instr.wf : Instr → Bool
  | .vstkPowerOn => true
  | .supplyWarning _ => true
  | .supplyWarningClear _ => true
  | .supplyLowShed _ => true
  | .shedEnd _ => true
  | .brownOutReset _ => true
  | .railReset _ _ => true
  | .externalReset _ _ => true
  | .clockMonitorFault _ => true
  | .lockstepMismatch _ => true
  | .thermalReset _ _ => true
  | .sysReset _ _ _ => true
  | .swResetExpire _ => true
  | .resetRelease env => env.taps.all (fun x => cellWf x.1) && env.pairs.all (fun p => cellWf p.2.cell) && testWf env.test
  | .startComplete => true
  | .activeIdleTimeout _ => true
  | .closingComplete _ r => testWf r
  | .wakePin _ _ => true
  | .linkWake _ _ _ _ => true
  | .wakeTimerExpire _ => true
  | .sleepCmpSample _ _ => true
  | .sleepCmpConfirm _ => true
  | .sealTest _ _ _ => true
  | .gazeboCycle _ _ => true
  | .laneGridResult _ _ own other => samplesWf own && samplesWf other
  | .requestedInstant _ _ a b cur => samplesWf a && samplesWf b && decide (cur.res.length = 2) && cur.res.all curWindowWf
  | .syncInputEdge _ => true
  | .comparatorTripConfirm _ cell _ _ _ _ => cellWf cell
  | .comparatorTripRelease _ cell _ _ _ => cellWf cell
  | .openWireTest _ tap _ _ => cellWf tap
  | .stepTestComplete _ j _ _ => cellWf j
  | .balPwmEdge _ j _ _ => cellWf j
  | .trackingGap _ j => cellWf j
  | .reliefSlotStart _ _ r => r.all (fun x => decide (x.spare < 4))
  | .currentGridResult _ a b _ => curWindowWf a && curWindowWf b
  | .currentLimitTrip _ _ _ => true
  | .currentLimitRelease _ _ _ => true
  | .currentFrameSend _ _ samples => frameWordsWf samples && samples.all curWindowWf
  | .currentSamplesRx _ src f => posWf src && frameWordsWf f.words
  | .auxScan _ codes _ _ => codesWf codes
  | .wirePresenceSearch _ p r => portNoWf p && wireWf r
  | .wireTransaction _ p r => portNoWf p && wireWf r
  | .wireSpuEnd _ p => portNoWf p
  | .wireSpuOverload _ p => portNoWf p
  | .engineCheckpoint _ engines samples => engines.all engineWf && samples.all engSampleWf
  | .engineCheckpointMissed _ k cause => engineWf k && causeWf cause
  | .rebalanceReplayDone _ cell samples => cellWf cell && samples.all engSampleWf
  | .trackerUpdate _ samples _ => samples.all engSampleWf
  | .trackerStateSave _ => true
  | .impedanceStart _ h => handleWf h
  | .excitationPhase _ h point _ _ => handleWf h && decide (point < 16)
  | .impedanceEnd _ h _ spectra samples => handleWf h && spectra.all spectraWf && samples.all engSampleWf
  | .estimateEnd _ h spectra => handleWf h && spectra.cells.all spectraWf
  | .thermalManagerUpdate _ _ => true
  | .balTargetCheck _ a => samplesWf a
  | .balOvercurrent _ j _ _ => cellWf j
  | .balHoldExpire _ j => cellWf j
  | .balTlimitExpire _ j => cellWf j
  | .burstRx _ _ groups => groups.all groupWf
  | .frameRx _ _ groups => groups.all groupWf
  | .lineReclaim _ => true
  | .trainRateTimeout _ _ groups => groups.all groupWf
  | .linkUp _ _ ex => decide (ex.length = 64)
  | .trainRetry _ _ => true
  | .hopDownTimeout _ _ => true
  | .linkRetrain _ _ => true
  | .delayExchange _ _ _ => true
  | .faultToneRepeat _ => true
  | .toneRx _ _ => true
  | .toneConfirm _ _ => true
  | .toneEnd _ _ => true
  | .toneHoldoffEnd _ => true
  | .toneLineRetake _ _ => true
  | .wakeStreamOnUp _ _ => true
  | .wakeStreamEnd _ => true
  | .enumRx _ _ e => decide (e.entries.length ≤ 62)
  | .enumTimeout _ => true
  | .beaconSend _ => true
  | .beaconRx _ _ b => decide (b.num < 65536) && decide (b.hops < 256) && decide (b.frac < 8)
  | .timebaseHoldover _ => true
  | .timebaseLost _ => true
  | .heartbeatSend _ => true
  | .heartbeatRx _ _ hb => heartbeatWf hb
  | .commitFrameRx _ _ _ h => handleWf h
  | .commitApply _ => true
  | .sweepTriggerRx _ _ tr => triggerWf tr
  | .sweepHoldExpire _ h => handleWf h
  | .sweepDeadline _ h => handleWf h
  | .breakDetectTimeout _ => true
  | .castle _ => true
  | .ringRestore _ => true
  | .requestRx _ _ r => requestWf r
  | .responseRx _ src r => posWf src && responseWf r
  | .reqAcceptTimeout _ h => handleWf h
  | .eventRx _ e _ => eventWf e
  | .bulkRx _ h _ data => handleWf h && bulkWf data
  | .streamRecord _ h => handleWf h
  | .streamFrameFlush _ h => handleWf h
  | .streamFrameRx _ f => handleWf f.h && posWf f.pos
  | .readStatus _ => true
  | .readId n _ => decide (n ≤ 4)
  | .read _ n _ => decide (0 < n)
  | .write _ _ data _ => !data.isEmpty
  | .enterOctal => true
  | .exitOctal _ => true
  | .hcsLowIdle => true
  | .sqDoorbell _ pair _ => portNoWf pair
  | .commandDispatch _ h => handleWf h
  | .cqHeadDoorbell _ pair _ => portNoWf pair
  | .eqHeadDoorbell _ _ => true
  | .commandDeadline _ h => handleWf h
  | .intTimeExpire _ ring => decide (ring ≤ 4)
  | .regRead _ h d => handleWf h && descWf d
  | .regWrite _ h d => handleWf h && descWf d
  | .regModify _ h d => handleWf h && descWf d
  | .commit _ h d => handleWf h && descWf d
  | .sweep _ h d => handleWf h && descWf d
  | .streamStart _ h d => handleWf h && descWf d
  | .streamStop _ h d => handleWf h && descWf d
  | .balPlan _ h d => handleWf h && descWf d
  | .balStop _ h d => handleWf h && descWf d
  | .impedance _ h d => handleWf h && descWf d
  | .estimate _ h d => handleWf h && descWf d
  | .modelLoad _ h d => handleWf h && descWf d
  | .histRead _ h d => handleWf h && descWf d
  | .histMark _ h d => handleWf h && descWf d
  | .calRead _ h d => handleWf h && descWf d
  | .calStore _ h d => handleWf h && descWf d
  | .calUser _ h d => handleWf h && descWf d
  | .calUserEnd _ _ => true
  | .wireXfer _ h d => handleWf h && descWf d
  | .selftest _ h d _ => handleWf h && descWf d
  | .repair _ h d bad => handleWf h && descWf d && bad.all (fun e => memWf e.1 && decide (e.2 < 6))
  | .ringEnum _ h d => handleWf h && descWf d
  | .ringStatus _ h d => handleWf h && descWf d
  | .power _ h d => handleWf h && descWf d
  | .fwUpdate _ h d => handleWf h && descWf d
  | .echo _ h d => handleWf h && descWf d
  | .safetyCycle _ _ _ _ _ => true
  | .supervisorWatchdogExpire _ => true
  | .safeReset _ _ => true
  | .safeResetWindowEnd _ => true
  | .outputOn _ _ _ => true
  | .outputOff _ _ _ => true
  | .outputOffTest _ _ => true
  | .outputOffTestEnd _ _ mv => decide (1 ≤ mv.length ∧ mv.length ≤ 27)
  | .outputStuck _ _ _ _ => true
  | .outputOverload _ _ _ _ _ _ => true
  | .testPulseCycle _ before during => levelsWf before && levelsWf during
  | .inputFilterChange _ ch _ _ => channelWf ch
  | .registerWrite _ _ off size _ => offsetWf off && sizeWf size
  | .aliasWrite _ addr size _ => aliasWf addr && sizeWf size
  | .protCommit _ _ _ => true
  | .postedWriteLand _ _ => true
  | .parityScan _ x => x.scan.all offsetWf && x.uses.all offsetWf && x.shadows.all offsetWf
  | .protCfgStore _ _ _ => true
  | .serviceWindowOpen _ _ => true
  | .serviceWindowTimeout _ => true
  | .protSvcClose _ _ => true
  | .svcHeadTimeout _ => true
  | .bucketLeak _ src _ => decide (src ≤ 42)
  | .chkData n bytes _ => unitWf n && dataPortWf bytes
  | .chkRestart n => unitWf n
  | .chkCompare _ n => unitWf n
  | .chkAlvSync n => unitWf n
  | .chkAlv _ n _ => unitWf n
  | .sramScrub _ mem _ _ _ => memWf mem
  | .nvSweepSector _ _ => true
  | .nvmOperationDone _ _ _ => true
  | .lifetimeRecord _ => true
  | .summaryCheckpoint _ => true
  | .summaryClose _ => true
  | .laneStageTest _ _ cell _ _ => cellWf cell
  | .cmpGroupTest _ k pairs => portNoWf k && pairs.all (fun p => cellWf p.cell)
  | .tapReset _ => true
  | .tapUpdateIr _ ir cells => irWf ir && decide (cells.length = 0 ∨ cells.length = 84)
  | .clockLock _ _ => true
  | .buckDropout _ => true
  | .buckDropoutEnd _ => true
  | .powerAckTimeout _ => true
  | .commitAnswerTimeout _ h => handleWf h
  | .responseHoldExpire _ h => handleWf h
  | .faultToneBurstEnd _ => true
  | .trainListenRate _ _ => true
  | .nvSweepStart _ => true

end Sys2Proof
end

