-- ==== Sys2Proof/Tests/Slice0.lean ====
section
/-! SUPPORT. Tests: worked examples of the spec, one ill-formed command for each check of `Instr.wf`, and for every statement a
witness that its hypotheses can be met, clause by clause. -/

namespace Sys2Proof.Tests

-- One theorem after the other: the package as one text else asks for more threads than the check grants.
set_option Elab.async false

open Sys2Proof Sys2Proof.Machine

/-! ### Small states -/

/-- A device in STANDBY, in a head role or as a stack device. -/
def dv (head : Bool) : Dev := { Dev.init with pw := { Power.init with st := .standby, held := false, mode := head } }

/-- The device `d` with its host port on and nothing waiting. -/
def st (d : Dev) : State := ⟨d, { Hst.init with on := true, hiz := false }, []⟩

/-- A descriptor of an opcode and a target, with its argument words from word 2. -/
def dsc (op target : Nat) (args : List Word) : Desc :=
  BitVec.ofNat 32 (op + 256 * target) :: 0 :: (args ++ List.replicate (14 - args.length) 0)

/-- A device whose hops are UP. -/
def upDev (d : Dev) : Dev := { d with ln := { d.ln with st := .up }, ls := { d.ls with st := .up } }

/-- Did a command answer a next state? -/
def isNext (o : Host.Outcome State Fault Refusal) : Bool :=
  match o with
  | .next _ => true
  | _ => false

/-- A property of the next state. -/
def after (o : Host.Outcome State Fault Refusal) (p : State → Bool) : Bool :=
  match o with
  | .next s => p s
  | _ => false

/-- "123456789". -/
def digits : List Byte := [0x31, 0x32, 0x33, 0x34, 0x35, 0x36, 0x37, 0x38, 0x39]

/-! ### Worked examples of the spec -/

/-- R228: the frame CRC and the header CRC over "123456789". -/
theorem test_link_crcs : crc32c digits = 0xE3069283 ∧ crc8h digits = 0xDF := by decide +kernel

/-- R119's CRC-32 and the Daroth wire's CRC-8 (file 12's example) over "123456789". -/
theorem test_other_crcs : crc32 digits = 0xCBF43926 ∧ crc8w digits = 0xF4 := by decide +kernel

/-- File 12's example: byte 0x02 through WIDTH 3, POLY 3 gives 6. -/
theorem test_three_bit_code : crcFeed 3 3 false 0 [0x02] = 6 := by decide

/-- File 12's example: CHK1 fed with two words and a byte, then compared. -/
theorem test_check_unit :
    after (exec (.chkData 1 4 0x34333231) (st (dv true))) (fun s =>
      after (exec (.chkData 1 4 0x38373635) s) (fun s =>
        after (exec (.chkData 1 1 0x39) s) (fun s => decide ((chkUnit s.dev 1).result = 0xE3069283)))) = true := by decide +kernel

/-- R276 and Table MAP-23: alias addresses. -/
theorem test_alias_addresses :
    aliasBit 0x020A0210 = (0x5010, 4) ∧ aliasBit 0x02020020 = (0x1000, 8) ∧ aliasBit 0x020B0200 = (0x5810, 0) := by decide

/-- Table MAP-23, step 1: the alias write of NOTCH_A is posted to the M-die. -/
theorem test_alias_posted :
    after (exec (.aliasWrite 0 0x02020020 4 1) (st (dv true))) (fun s =>
      decide (s.dev.pr.xM = some ⟨0x1000, 0x100, 0x100⟩) && decide (shadow s.dev 0x1000 = 0x44)) = true := by decide +kernel

/-- Table BAL-4: K of sixteen switches of 172.4 mW at 1,500 mW and at 1,000 mW (P_REQ 2,758 mW). -/
theorem test_fair_derating :
    kOf false (2758 * 256000000) (1500 * 64) = 139 ∧ kOf false (2758 * 256000000) (1000 * 64) = 92 := by decide

/-- R208: P_MAX at 40 and at 95 degrees ambient. -/
theorem test_power_cap : pMaxOf 1500 (40 * 64) = 96000 ∧ pMaxOf 1500 (95 * 64) = 64000 := by decide

/-- Table LINK-7: the ACK byte of ALIVE 9. -/
theorem test_ack_byte : (port (setAnswer .south none 1 9 (dv false)) .south).ackDue = some (true, 1, 0x69) := by decide

/-- Table BIST-8: the repair of bank 0x27. -/
theorem test_bank_repair :
    analyse [(0x0A41, 17), (0x0B41, 17), (0x1C41, 17), (0x0733, 60), (0x0734, 2), (0x1FFF, 0)] BankRepair.init =
      { BankRepair.init with rows := [0x39, 0xFF, 0xFFFF, 0xFFFF], cols := [0x11, 0xFF] } := by decide +kernel

/-- A window of one part whose raw value is x all through. -/
def con (x : Int) : List RawPart := [⟨0, 65536, 65536 * x, 65536 * x * x⟩]

/-- A window of one part whose corrected current samples are x nV all through. -/
def curCon (x : Int) : List CurPart := [⟨0, 65536, 65536 * x, ⟨x, x⟩⟩]

/-- A span that a modulator takes without difficulty. -/
def quietIn : Span := ⟨0, 0⟩

/-- Cells 1 to 16 of MEAS-8's module, cells 7 and 8 balanced with coefficients 3,080. -/
def lfp : Dev :=
  let d := setReg R.measCells 16 (dv true)
  let d := setReg (R.measBcoef + 24) 0x0C080C08 (setReg (R.measBcoef + 28) 0x0C080C08 d)
  { d with me := { d.me with grid := [(7, (1, 3300000)), (8, (1, 3300000))] } }

/-- Table MEAS-8: cells 6 to 9 after the correction of R83. -/
theorem test_two_balanced_cells :
    (laneEval lfp .a 300000000 ⟨6, con 32980760, quietIn, 0, 0, 65536⟩).value = 3291300 ∧
    (laneEval lfp .a 300000000 ⟨7, con 32932240, quietIn, 0, 65536, 65536⟩).value = 3300000 ∧
    (laneEval lfp .a 300000000 ⟨8, con 32932240, quietIn, 65536, 65536, 0⟩).value = 3300000 ∧
    (laneEval lfp .a 300000000 ⟨9, con 32985760, quietIn, 65536, 0, 0⟩).value = 3291800 := by decide +kernel

/-- R79 and MEAS-8's text: result words. -/
theorem test_result_words :
    (LaneResult.word ⟨-1000, false, false, false, false, 0, false, false, false⟩) = 0xFFFC1800 ∧
    (LaneResult.word ⟨3300000, false, false, true, false, 1, false, false, false⟩) = 0x325AA024 := by decide

/-- Table MAP-20 and Tables MAP-3 to MAP-5: reset values. -/
theorem test_reset_values :
    regReset 0x0050 = 0xE10 ∧ regReset 0x1000 = 0x44 ∧ regReset 0x1008 = 0x01F401F4 ∧ regReset 0x1100 = 0x80 ∧
    evtCfgReset 0 = 0x00177002 ∧ evtCfgReset 4 = 0x0003E802 ∧ evtCfgReset 30 = 0x0520 ∧ evtCfgReset 15 = 0x83D60001 := by decide

/-- R340's image has 89 words (file 12's listing). -/
theorem test_image_length : imageOffsets.length = 89 := by decide +kernel

/-- R374, SHA-256 of the empty message (FIPS 180-4). -/
theorem test_sha : (sha256 []).take 4 = [0xE3, 0xB0, 0xC4, 0x42] := by decide +kernel

/-- No row of the table has bits: no word spells a command. -/
theorem test_no_word : decodeTableWord 8 0 = none ∧ State.reset.withFetchWord 8 0 = State.reset := ⟨rfl, rfl⟩

/-! ### Well-formedness -/

/-- A self-test run that found nothing. -/
def okRun : SelfTestRun := ⟨[], 0, 0, 0, 0, 0, 0, 0, 0, true, false, false⟩

/-- A heartbeat with 63 slots. -/
def hb63 : Heartbeat := ⟨1, false, false, List.replicate 63 (0, 0)⟩

/-- A lane reading of one part, without conduction. -/
def ls (cell : Nat) (x : Int) : LaneSample := ⟨cell, con x, quietIn, 0, 0, 0⟩

/-- An attention on an idle line: with a slave's presence or without, and the level at 80 us. -/
def att (present at80 : Bool) : WireAttention := ⟨true, (!present, true), (true, !present), at80⟩

/-- A reply of cells after an attention that finds a slave present. -/
def reply (cells : List (Bool × Bool)) : WireReply := ⟨3300, att true true, cells, att true true⟩

/-- A switch pair all of whose edges agree. -/
def pairOk (cell : Nat) : PairSeen := ⟨cell, 0, 0, 0, 0, true, true⟩

/-- The environment of a start that succeeds. -/
def okEnv : StartEnv := ⟨true, true, okRun, true, true, 0, [], []⟩

/-- Each check refuses an ill-formed operand. -/
theorem test_ill_formed :
    [Instr.regRead 0 0 (dsc 1 0 []), .regRead 0 0xFFFF (dsc 1 0 []), .regRead 0 1 [], .currentSamplesRx 0 63 ⟨0, 0, 0, 0, List.replicate 32 0⟩,
      .currentSamplesRx 0 62 ⟨0, 0, 0, 0, [0]⟩, .comparatorTripConfirm 0 0 true 1 0 false, .openWireTest 0 33 0 0, .wireSpuEnd 0 4,
      .engineCheckpoint 0 [16] [], .engineCheckpoint 0 [] [⟨0, ls 0 0, 0⟩], .engineCheckpointMissed 0 1 4, .chkRestart 2, .chkData 0 3 0,
      .inputFilterChange 0 4 true 0, .testPulseCycle 0 [true] [], .registerWrite 0 .hostPort 0x10000 4 0, .registerWrite 0 .hostPort 0 5 0,
      .aliasWrite 0 0x01FFFFFF 4 0, .linkUp 0 .north [], .burstRx 0 .north [1024], .eventRx 0 [0] .north, .bulkRx 0 1 0 (List.replicate 249 0),
      .currentFrameSend 0 0 [⟨curCon 0, quietIn⟩], .currentGridResult 0 ⟨[], quietIn⟩ ⟨curCon 0, quietIn⟩ [], .laneGridResult 0 .a [ls 1 0, ls 1 0] [],
      .laneGridResult 0 .a [⟨1, [], quietIn, 0, 0, 0⟩] [], .requestedInstant 0 0 [] [] ⟨[], []⟩, .reliefSlotStart 0 0 [⟨4, 0, 0, quietIn, quietIn, 0, 0, 0, 0⟩],
      .wireTransaction 0 0 (reply (List.replicate 273 (true, true))), .auxScan 0 [] 0 0, .tapUpdateIr 0 32 [], .tapUpdateIr 0 3 [true],
      .sramScrub 0 0x42 0 0 .scrubber, .excitationPhase 0 1 16 false 0, .impedanceEnd 0 1 [] [⟨1, 16, []⟩] [],
      .heartbeatRx 0 .north { hb63 with slots := [] }, .beaconRx 0 .north ⟨0, 0, 0, true, 0, 8⟩, .sweepTriggerRx 0 .north ⟨0, 1, 63, 63, false⟩,
      .requestRx 0 .north ⟨1, 3, [], 0⟩, .responseRx 0 1 ⟨1, 2, 0, 0, 0, []⟩, .enumRx 0 .north ⟨1, 1, 63, false, List.replicate 63 (0, 0)⟩,
      .readId 5 0, .read 0 0 0, .write 0 0 [] 0, .intTimeExpire 0 5, .bucketLeak 0 43 0, .outputOffTestEnd 0 .soa [],
      .repair 0 1 (dsc 0x71 0 []) [(0x42, 0)], .cmpGroupTest 0 0 [pairOk 33], .parityScan 0 ⟨[0x10000], [], []⟩, .parityScan 0 ⟨[], [], [0x10000]⟩,
      .closingComplete 0 { okRun with banks := [⟨0x42, [], false, false⟩] }, .closingComplete 0 { okRun with banks := [⟨0, [(0, 79)], false, false⟩] },
      .resetRelease { okEnv with taps := [(0, 0, 0)] }].all (fun c => !c.wf) = true := by decide +kernel

/-- And takes well-formed ones. -/
theorem test_well_formed :
    [Instr.regRead 0 1 (dsc 1 0 []), .currentSamplesRx 0 62 ⟨0, 0, 0, 0, List.replicate 32 0⟩, .comparatorTripConfirm 0 32 true 1 0 false,
      .wireSpuEnd 0 3, .engineCheckpoint 0 [15] [⟨0, ls 32 0, 0⟩], .chkData 1 4 0, .registerWrite 0 .hostPort 0xFFFC 4 0,
      .linkUp 0 .south (List.replicate 64 ⟨0, 0, 0, 0⟩), .heartbeatRx 0 .north hb63, .laneGridResult 0 .a [ls 1 0, ls 32 0] [],
      .auxScan 0 (List.replicate 8 (List.replicate 16 0xFFFF)) 0 0, .tapUpdateIr 0 3 (List.replicate 84 true), .closingComplete 0 okRun,
      .resetRelease okEnv, .vstkPowerOn].all Instr.wf = true := by decide +kernel

/-! ### Witnesses: the machine -/

/-- StepRunsFrontCommand, EveryCommandAnswers: a queue with a command, and the empty one. -/
theorem wit_queue : ({ st (dv true) with pending := [.hcsLowIdle] } : State).pending = .hcsLowIdle :: [] ∧
    (st (dv true)).pending = [] := ⟨rfl, rfl⟩

/-- StepKeepsHostWindow, StepKeepsRegisterMaps, StepKeepsOutputsOffUnlessAwake, StepKeepsCellCount: a lawful state whose step answers
a next state, with an output on. -/
theorem wit_steps :
    let s : State := { st { dv true with sf := { Safe.init with outA := { OutState.init with on := true } } } with
      pending := [.outputOff 5 true false] }
    s.hst.canonical = true ∧ s.dev.canonical = true ∧ s.dev.outputsAwake = true ∧ ncells s.dev ≤ 32 ∧ s.dev.pr.commits = [] ∧
    isNext (step s) = true := by decide +kernel

/-- A device that closes, since ring time 0. -/
def closing (p : PowerState) : Dev := { dv true with pw := { (dv true).pw with st := .closing, target := p } }

/-- RingTimePasses: a closing device at 2.0 ms, and one that does not close, in which nothing falls due. -/
theorem wit_time :
    (closing .sleep).pw.st = .closing ∧ msT 2 ≤ since (closing .sleep).pw.closeAt (tick 400000 (closing .sleep)).now ∧
    (dv true).pw.st ≠ .closing ∧ QuietTill 5 (dv true) := by
  refine ⟨by decide, by decide +kernel, by decide, trivial⟩

/-! ### Witnesses: safety -/

/-- A head whose permit for SOA holds. -/
def permitted : Dev :=
  let d := setReg R.safeInCfg 0x00640064 (setReg R.safeOutCfg 1 (dv true))
  { d with rg := { d.rg with enumDone := true } }

/-- OutputOnNeedsPermit: SOA's permit holds; and it does not before enumeration. No CAL_USER runs. -/
theorem wit_output_on :
    Permit (tick 5 permitted) .soa ∧ (tick 5 permitted).awake = true ∧ (tick 5 permitted).head = true ∧ Calm (tick 5 permitted) ∧
    permitted.ca.user = none ∧ (st permitted).hst.cmds = [] ∧
    ¬ Permit (tick 5 (dv true)) .soa ∧ Calm (tick 5 (dv true)) ∧ (dv true).sf.outA.on = false := by
  refine ⟨?_, rfl, rfl, ⟨rfl, rfl⟩, rfl, rfl, ?_, ⟨rfl, rfl⟩, rfl⟩
  · unfold Permit
    decide +kernel
  · intro h
    exact absurd h.2.2.2.2.1 (by decide +kernel)

/-- A head with SOA on. -/
def soaOn : Dev :=
  let d := setReg R.safeOutCfg 1 (dv true)
  { d with sf := { d.sf with outA := { OutState.init with on := true, rb := true } } }

/-- A head whose SOA is under test, since 2 s. -/
def soaTest : Dev := { soaOn with sf := { soaOn.sf with outA := { soaOn.sf.outA with test := true, testAt := 400000000 } } }

/-- OutputsSwitchOff, clause by clause: a head, a stack device, an off-test that may start in its slot at 2 s, one that ends with its first
sample below, and one with 27 that are not, below N and at N; one with 26 samples. -/
theorem wit_output_off :
    (dv true).running = true ∧ (dv true).head = true ∧ (dv false).running = true ∧ (dv false).head = false ∧
    (let d := tick 400000000 soaOn
     (outState d .soa).on = true ∧ (outState d .soa).test = false ∧ regBit d R.safeOutCfg (outIdx .soa) = true ∧
     msT 100 ≤ since (outState d .soa).onAt d.now ∧ d.now.toNat % msT 2000 = msT 1000 * outIdx .soa ∧ Calm d) ∧
    (let d := tick 400004000 soaTest
     (outState d .soa).test = true ∧ usT (10 + 10 * [1999].length) ≤ since (outState d .soa).testAt d.now ∧ ∃ v ∈ [1999], v < 2000) ∧
    (let d := tick 400056000 soaTest
     let e := setLevel 4 0 254 soaTest
     let mv := List.replicate 27 2000
     usT (10 + 10 * mv.length) ≤ since (outState d .soa).testAt d.now ∧ (∀ v ∈ mv, 2000 ≤ v) ∧ mv.length = 27 ∧
     usT (10 + 10 * 26) ≤ since (outState d .soa).testAt d.now ∧
     satNat 255 (level d 4 0 + 1) < bucketN d 4 ∧ bucketN e 4 ≤ satNat 255 (level e 4 0 + 1) ∧ (9, 0) ∉ d.sf.present ∧ Calm d) := by
  refine ⟨rfl, rfl, rfl, rfl, ?_, ?_, ?_⟩ <;> and_intros <;> decide +kernel

/-- OutputFaultsLatch: an output that is off for 1 ms, one that is on without a test for 2 ms, and no latch present; a watchdog without service
for 2 ms. -/
theorem wit_output_faults :
    let d := tick 200000 (dv true)
    let e := tick 400000 soaOn
    (outState d .sob).on = false ∧ (9, 1) ∉ d.sf.present ∧ usT 1000 ≤ since (outState d .sob).offAt d.now ∧ 2000 ≤ 2000 ∧ 1000 ≤ 1000 ∧
    (outState e .soa).on = true ∧ (outState e .soa).test = false ∧ (16, 0) ∉ e.sf.present ∧ usT 1000 ≤ since (outState e .soa).onAt e.now ∧
    (2 * 1000 < 2001 ∧ msT 2 ≤ since (outState e .soa).onAt e.now) ∧ (17, 0) ∉ e.sf.present ∧ msT 2 ≤ since e.sf.servAt e.now ∧
    e.head = true ∧ e.awake = true ∧ Calm e ∧ Calm d := by
  and_intros <;> decide +kernel

/-- InputFilterDemand: channels 0 and 3 of a head; with pair 0 enabled 300 unmasked low samples are a demand, 299 are not taken; both channels
high end it. -/
theorem wit_input_filter :
    let d := setReg R.safeInCfg 1 (dv true)
    d.awake = true ∧ d.head = true ∧ (0 < 4 ∧ 3 < 4) ∧ Calm (tick 700000 d) ∧
    300 ≤ samplesIn false 0 (tick 700000 d).now ∧ samplesIn false 0 (tick 598000 d).now < 300 ∧
    after (exec (.inputFilterChange 700000 0 true 0) (st d)) (fun s =>
      after (exec (.inputFilterChange 700000 1 true 0) s) (fun s => (pairIn s.dev 0).filtA && (pairIn s.dev 0).filtB)) = true := by
  and_intros <;> decide +kernel

/-- TestPulseChecks: a head at 150 us, at 10,150 us and between; a channel that read high before the pulse, one that read low, and a pulse in
which no check fails. -/
theorem wit_test_pulse :
    (dv true).awake = true ∧ (dv true).head = true ∧ Calm (tick 30000 (dv true)) ∧
    pulseAt (tick 30000 (dv true)).now = some false ∧ pulseAt (tick 2030000 (dv true)).now = some true ∧
    pulseAt (tick 30001 (dv true)).now = none ∧
    (∀ ch < 4, [true, false, false, false].getD ch false = true →
      [false, false, false, false].getD ch false ≠ decide ((ch % 2 = 1) = (false = true))) ∧
    ¬ (∀ ch < 4, [true, true, true, true].getD ch false = true →
      [true, true, true, true].getD ch false ≠ decide ((ch % 2 = 1) = (false = true))) := by
  and_intros <;> decide +kernel

/-- SafeResetArms: a running device, another key, and a window that has run out to the LSB. -/
theorem wit_safe_reset :
    let d := tick 4000000 { dv false with sf := { Safe.init with armed := true, armedTo := 4000000 } }
    d.running = true ∧ Calm d ∧ (0x5A5A0001 : Word) ≠ 0x5A5A0002 ∧ d.sf.armed = true ∧ d.sf.armedTo.toNat ≤ d.now.toNat := by
  and_intros <;> decide +kernel

/-- A head with a pair whose levels differ, one missed service and a lost position. -/
def unsafeHead : Dev :=
  { dv true with
    sf := { Safe.init with missed := 1, p0 := { PairState.init with filtA := true, disc := 65535 } }
    rg := { Ring.init with recs := [(1, ⟨4, 0, 0, true, 0, 0, false, 0⟩)] } }

set_option maxRecDepth 100000 in
/-- SafetyCycleTasks: a cycle before its time and at it; no service missed, one missed; a pair whose levels differ, a lost position, a silent
head; a release window closed and open with an armed latch of bit 16; a safety image that differs. -/
theorem wit_safety_cycle :
    let d := tick 4000000 unsafeHead
    let e := tick 4000000 { dv false with sf := { Safe.init with armed := true, armedTo := 4000000, causes := [(16, 0)], armedSet := [(16, 0)] } }
    passed (msT 1) d.sf.cycleAt (tick 199999 unsafeHead).now = false ∧ msT 1 ≤ since d.sf.cycleAt d.now ∧
    (dv true).sf.missed ≠ 1 ∧ d.sf.missed = 1 ∧ (17, 0) ∉ d.sf.present ∧ d.head = true ∧ d.awake = true ∧ Calm d ∧
    (pairIn d 0).filtA ≠ (pairIn d 0).filtB ∧ pairDisc d 0 ≤ (pairIn d 0).disc + 1 ∧ (11, 0) ∉ d.sf.present ∧ d.sf.armed = false ∧
    (∃ r ∈ d.rg.recs, r.1 ≠ 0 ∧ r.2.low = false ∧ hbTol d ≤ since r.2.advAt d.now) ∧ (13, 1) ∉ d.sf.present ∧
    (e.head = false ∧ e.awake = true ∧ Calm e ∧ hbTol e ≤ since e.sf.hbRx e.now ∧ (13, 0) ∉ e.sf.present ∧ e.sf.armed = true ∧
      e.now.toNat ≤ e.sf.armedTo.toNat ∧ e.sf.outA.on = false ∧ (16, 0) ∈ e.sf.armedSet) ∧
    (let f := setReg R.safeOutCfg 1 d
     (8, 0) ∉ f.sf.present ∧ BitVec.ofNat 32 (crc32c (wordsBytes (imageOffsets.map (reg f)))) ≠ reg f R.protScrcRef) := by
  and_intros <;> decide +kernel

/-! ### Witnesses: measurement and calibration -/

/-- A device of four cells. -/
def four (head : Bool) : Dev := setReg R.measCells 4 (dv head)

/-- ReleaseNeedsCondition has no hypothesis; one armed window in which a latch may go, and one in which it may not. -/
theorem wit_release :
    let d := { dv true with sf := { Safe.init with causes := [(1, 0)], armed := true, armedTo := 5, armedSet := [(1, 0)] } }
    mayRelease d (1, 0) = true ∧ mayRelease (setRegBit R.curStat 5 true d) (1, 0) = false := by decide +kernel

/-- LaneResultsWritten: cells 1 and 4 of four, with their readings on the other group's grid, at 100 ms and off the grid; an instant more than
20 us ago. -/
theorem wit_lane_grid :
    let d := tick 20000000 (four true)
    4 ≤ ncells (asOf 20000000 d) ∧ onGrid (groupP2 (asOf 20000000 d) .a) 20000000 = true ∧ comparesAt (asOf 20000000 d) .a = true ∧
    onGrid (groupP2 (asOf 20000001 d) .a) 20000001 = false ∧ usT 20 < since 19995999 d.now ∧
    d.running = true ∧ Calm d ∧ ([ls 1 32000000, ls 4 33000000].map LaneSample.cell).Nodup ∧ 4 ≤ ncells d ∧
    onGrid (groupP2 d .a) 20000000 = true ∧ since 20000000 d.now ≤ usT 20 ∧
    comparesAt d .a = true ∧
    isNext (exec (.laneGridResult 20000000 .a [ls 1 32000000, ls 4 33000000] [ls 1 32000000]) (st (four true))) = true := by
  and_intros <;> decide +kernel

/-- LaneValue: a stale result; both ends of the range; and neutral coefficients. -/
theorem wit_lane_value :
    (laneEval (four true) .a 300000000 (ls 1 0)).stale = false ∧
    (laneEval { four true with me := { Meas.init with dead := [0] } } .a 300000000 (ls 1 0)).stale = true ∧
    (laneEval (four true) .a 300000000 (ls 1 58000010)).value = 5800000 ∧
    (laneEval (four true) .a 300000000 (ls 1 (-23000000))).value = -2300000 ∧
    (∀ p ∈ (ls 1 33000000).parts, layersAt (four true) (laneIdx .a 1) (300000000 - p.age) = ⟨0, 0, 0, 0, 0⟩) ∧
    (laneEval (four true) .a 300000000 (ls 1 33000000)).stale = false ∧
    (ls 1 33000000).wOwn = 0 ∧ (ls 1 33000000).wHigh = 0 ∧ (ls 1 33000000).wLow = 0 ∧
    sumInt ((ls 1 33000000).parts.map RawPart.m1) = 655360 * 3300000 ∧
    sumInt ((ls 1 99000000).parts.map RawPart.m1) = 655360 * 9900000 := by decide +kernel

/-- ComparatorTrips: the lowest and the highest cell with just enough samples beyond and inside the reset thresholds; a cause that is present
and one that is not; a pair that failed, for which the stand-in acts. -/
theorem wit_comparator :
    let d := tick 5 { setReg R.cmpThr 0x006400FA (four true) with sf := { Safe.init with present := [(0, 4)] } }
    d.awake = true ∧ Calm d ∧ (1 ≤ 1 ∧ 4 ≤ ncells d ∧ 4 ≤ 32) ∧ deglitch d ≤ deglitch d ∧
    beyondThr d 1 true (threshold d 1 true + 1) = true ∧ beyondThr d 1 true (threshold d 1 true) = false ∧
    beyondThr d 4 false (threshold d 4 false - 1) = true ∧ insideThr d 1 true 0 = true ∧ insideThr d 1 true (threshold d 1 true + 1) = false ∧
    standsIn d 1 = false ∧ standsIn (setReg R.bistCmpFail 1 d) 1 = true ∧ (0, 1) ∉ d.sf.present ∧ (0, 4) ∈ d.sf.present := by
  and_intros <;> decide +kernel

/-- OpenWireMarksTap: the second tap of four in its slot and outside it, just beyond and at the limit, with its bucket at N. -/
theorem wit_open_wire :
    let d := tick 206250000 (setLevel 0 1 254 (four true))
    d.awake = true ∧ Calm d ∧ 2 ≤ ncells d ∧ ncells d ≤ 32 ∧ owSlot (owSettle d) 2 206250000 = true ∧
    owSlot (owSettle d) 2 206250001 = false ∧ 100000 < (-100001 : Int).natAbs ∧ (100000 : Int).natAbs ≤ 100000 ∧
    bucketN d 0 ≤ satNat 255 (level d 0 1 + 1) ∧ (6, 2) ∉ d.sf.present := by
  and_intros <;> decide +kernel

/-- A plan of full duty on cells 2 and 3, whose coefficients are known. -/
def balancing : Dev :=
  let d := setReg (R.measBcoef + 4) 0x00640064 (setReg (R.measBcoef + 8) 0x00640064 (four true))
  { d with ba := { d.ba with plan := some ⟨1, 0, 0, (0, 0, 0) :: (256, 0, 60) :: (256, 33000, 60) :: List.replicate 29 (0, 0, 0)⟩ } }

/-- A step test of cell 2. -/
def stepTest : Dev := { four true with ba := { Bal.init with test := some (2, 0) } }

/-- A plan of half duty on cell 2, which is in RUN; its first edge of a period is at tick 8. -/
def halfDuty : Dev :=
  let d := setReg (R.measBcoef + 4) 0x00640064 (four true)
  { d with ba := { d.ba with plan := some ⟨1, 0, 0, (0, 0, 0) :: (128, 0, 60) :: List.replicate 30 (0, 0, 0)⟩ } }

/-- CoefficientsEstimated: a step test of cell 2 after 128 ms, and an edge of cell 2 in RUN without an edge beside it; a time that is none;
estimates that agree and that do not. -/
theorem wit_coefficients :
    let d := tick 25600000 stepTest
    let e := tick 64000 halfDuty
    Calm d ∧ Calm e ∧ d.awake = true ∧ e.awake = true ∧ (1 < 2 ∧ 2 < ncells d ∧ 2 < ncells e ∧ ncells d ≤ 32) ∧ kget [] d.me.est 2 = [] ∧
    kget [] e.me.est 2 = [] ∧ extFet d = false ∧ extFet e = false ∧ d.ba.test = some (2, 0) ∧
    msT (128 + 8 * d.ba.voids) ≤ since 0 d.now ∧ isEdge e 2 64000 = true ∧ isEdge e 2 64001 = false ∧ nearEdge e 2 64000 = false ∧
    20 * ((100 : Int) - (50 + 50)).natAbs ≤ 100 + 200 ∧ ¬ 20 * ((100 : Int) - (0 + 0)).natAbs ≤ 100 + 200 := by
  and_intros <;> decide +kernel

/-- A head whose service window is open for a minute. -/
def window : Dev := { dv true with pr := { Prot.init with svcUntil := some 12000000000 } }

/-- An outcome of a relief: both checks at HO_LIMIT, the fit at its neutral values. -/
def relief (spare : Nat) : ReliefOutcome := ⟨spare, 0, 0, quietIn, quietIn, 0, 0, 0, 0⟩

/-- ReliefSlotRotates: the first slot at its turn, and the last; a spare that relieves a lane in use; a time off the turn; a step that is due. -/
theorem wit_relief :
    let d := tick 4000 (four true)
    d.awake = true ∧ Calm d ∧ d.ca.slotNext = 0 ∧ d.ca.slotDue.toNat ≤ d.now.toNat ∧ (∀ x ∈ d.ca.todo, d.now.toNat < x.due.toNat) ∧
    16 ≠ d.ca.slotNext ∧ d.now.toNat < (later d.ca.slotDue (usT 10080)).toNat ∧ d.ca.slotDue.toNat < 2 ^ 63 ∧
    (relief 0).spare < 4 ∧ regBit d R.calCtrl 0 = true ∧ laneCell (ownLane 0 0) ≤ ncells d ∧ d.ca.out = [] ∧ d.ca.wd = [] ∧
    (∀ i < 68, lasting d 13 i = false) ∧ (d.ca.relief.map Prod.fst).Nodup ∧
    (let e : Dev := { d with ca := { d.ca with todo := [⟨4000, .fuseEnd⟩] } }
     e.ca.todo = [⟨4000, .fuseEnd⟩] ∧ (4000 : Time).toNat ≤ (4000 : Time).toNat ∧
     (calStep ⟨4000, .fuseEnd⟩ { e with ca := { e.ca with todo := [] } }).ca.todo = []) ∧
    (-8388608 : Int) ≤ -8388608 ∧ (0 : Int).natAbs ≤ hoLimit d ∧ hoLimit d < (8388607 : Int).natAbs := by
  and_intros <;> decide +kernel

set_option maxRecDepth 100000 in
/-- CalRecordsReadAndStored: the sources, with and without an active set; a store in the four states of its refusals and one that begins, with
the check word of the working set. -/
theorem wit_calibration :
    let none' := { dv true with ca := { Cal.init with noSet := true } }
    let low := { window with pw := { window.pw with persist := true } }
    let busy := { window with ca := { Cal.init with user := some ⟨1, 1, 0, 0, 0, 0, 0, 0, false, ⟨0, 0, 0⟩, ⟨0, 0, 0⟩, (0, (0, 0))⟩ } }
    ([0, 1, 2].all fun w => okCalRead (dsc 0x50 0 [w])) = true ∧ dOp (dsc 0x50 0 [0]) = 0x50 ∧
    (activeSet (dv true)).isSome = true ∧ (dv true).ca.noSet = false ∧ none'.ca.noSet = true ∧
    dOp (dsc 0x51 0 [1]) = 0x51 ∧ okCalStore (dsc 0x51 0 [1, 7, 0, 0]) = true ∧ dWord (dsc 0x51 0 [1, 7, 0, 0]) 3 = 7 ∧ Calm (tick 5 window) ∧
    windowOpen (dv true) = false ∧
    windowOpen window = true ∧ windowOpen low = true ∧ low.pw.persist = true ∧ windowOpen busy = true ∧ busy.ca.user.isSome = true ∧
    worksetParity window = false ∧ window.pw.persist = false ∧ window.ca.user = none ∧ window.ca.store = none ∧ wsCrc window ≠ 7 ∧
    wsCrc window = dWord (dsc 0x51 0 [1, wsCrc window, 0, 0]) 3 := by
  and_intros <;> decide +kernel

/-- CalUserRuns: mode 1 with the channel off and on; a run that ends well after 5 s and one that does not, and one before 5 s. -/
theorem wit_cal_user :
    let on := setReg R.curCtrl 1 (dv true)
    let x : CalUser := ⟨1, 1, 0, 0, 0, 0, 0, 0, true, ⟨4000, 0, 0⟩, ⟨4000, 0, 0⟩, (0, (0, 0))⟩
    let d := tick 1000000000 { on with ca := { Cal.init with user := some x } }
    okCalUser (dsc 0x52 0 [1]) = true ∧ dOp (dsc 0x52 0 [1]) = 0x52 ∧ (calUserRefusal 1 0 (dv true)).isSome = true ∧
    let e := curSamples d.now.toNat [] d
    let e0 := corrFrom (userMeas x) e
    calUserRefusal 1 0 on = none ∧ d.ca.user.isSome = true ∧ e.ca.user = some x ∧ Calm d ∧ userDetail e x = 0 ∧
    userDetail e { x with bad := 1 } ≠ 0 ∧ 5 * lsbPerSec ≤ since x.start d.now ∧ since x.start 999999999 < 5 * lsbPerSec ∧
    (userRegs 1 0).1 ≠ (userRegs 1 0).2 ∧
    userNew e x (reg24 e0 (userRegs 1 0).1) (userPar e0 1 0).1 x.accA (uMean e0 (0 - 1) e.now.toNat []) = 0 ∧
    userNew e x (reg24 e0 (userRegs 1 0).2) (userPar e0 1 0).2 x.accB (uMean e0 (31 + 0) e.now.toNat []) = 0 ∧ d.cyc.sw = [] := by
  and_intros <;> decide +kernel

/-! ### Witnesses: balancing -/

/-- A plan table of a kind with cell 1 at full duty. -/
def planTable (kind : Byte) : List Byte :=
  leBytes 4 0x4E4C5042 ++ [1, 0, kind, 0, 7, 0, 0, 0] ++ (if kind = 1 then [60, 0] else [0, 0]) ++ [0, 0] ++ [0, 1, 16, 39, 60, 0, 0, 0] ++ zeros 248

/-- A host port that is on, with bytes in its window from address 0. -/
def holds (l : List Byte) : Hst := { Hst.init with on := true, hiz := false, win := msetList winDefault [] 0 1 l }

set_option maxRecDepth 100000 in
/-- BalPlansInstallAndStop: a table in the head's window, and one that a stack device still waits for; no cells; a table that fails; an awake
and a GAZEBO plan; each WHICH. -/
theorem wit_plans :
    let c := dsc 0x20 0 [0]
    okBalPlan c = true ∧ dOp c = 0x20 ∧ tableBytes 7 (dWord c 2).toNat 272 (tick 5 (four true), holds (planTable 0)) = some (planTable 0) ∧
    tableBytes 7 (dWord c 2).toNat 272 (tick 5 (four false), Hst.init) = none ∧ Calm (tick 5 (four true)) ∧
    ncells (dv true) = 0 ∧ ncells (four true) ≠ 0 ∧ planDetail 4 (zeros 272) ≠ 0 ∧ planDetail 4 (planTable 0) = 0 ∧
    planDetail 4 (planTable 1) = 0 ∧ tab8 (planTable 0) 6 ≠ 1 ∧ tab8 (planTable 1) 6 = 1 ∧
    ([0, 1, 2].all fun w => okBalStop (dsc 0x21 0 [w])) = true ∧ dOp (dsc 0x21 0 [0]) = 0x21 := by
  and_intros <;> decide +kernel

/-- BalanceCellEvents: an overcurrent of cell 2 in RUN just beyond 450 mA; a hold of 10 s and one that is shorter; a spent limit; a switch
without an estimate for 10 s, a period in which a gap fits. -/
theorem wit_balance_events :
    let d := tick 2000000000 balancing
    let spent := { balancing with ba := { balancing.ba with cells := [(2, { BalCell.init with ran := 720000000000 })] } }
    let held := { balancing with ba := { balancing.ba with cells := [(2, { BalCell.init with hold := some 0 })] } }
    d.awake = true ∧ Calm d ∧ extFet d = false ∧ 450 < 451 ∧ cellState d 2 = .run ∧ conducts d 2 = true ∧ 2 ≤ ncells d ∧
    (balCell (tick 2000000000 held) 2).hold = some 0 ∧ 10 * lsbPerSec ≤ since 0 (tick 2000000000 held).now ∧
    since 0 (tick 1999999999 held).now < 10 * lsbPerSec ∧
    counting spent 2 = true ∧ tlimit spent 2 ≤ (balCell spent 2).ran ∧ cellState d 1 ≠ .run ∧
    dutyEff d 2 = 256 ∧ testsPending d = false ∧ 10 * lsbPerSec ≤ since (kget 0 d.me.estAt 2) d.now ∧ gapEdges d 2 = [] ∧
    (∃ g < 207, gapFits d 2 ((d.now.toNat / pwmPeriod + 1) * pwmPeriod) g = true) := by
  and_intros <;> decide +kernel

/-- BalanceSupervision: a check at 10 s and off it; a good result at TARGET and one above it of a checked cell, a stale one; the manager at a
multiple of 100 ms. -/
theorem wit_balance_supervision :
    let d := tick 2000000000 balancing
    d.awake = true ∧ Calm d ∧ ([ls 3 33000000].map LaneSample.cell).Nodup ∧ (1 ≤ 3 ∧ 3 ≤ ncells d) ∧ d.now.toNat % checkEvery = 0 ∧
    2000000001 % checkEvery ≠ 0 ∧ checked d 3 = true ∧
    (laneEval d .a d.now (ls 3 33000000)).value ≤ 100 * ((planEntry d 3).2.1 : Int) ∧
    100 * ((planEntry d 3).2.1 : Int) < (laneEval d .a d.now (ls 3 33000010)).value ∧
    (laneEval d .a d.now (ls 3 33000000)).stale = false ∧ (laneEval d .a d.now { ls 3 33000000 with input := ⟨0, 5800001⟩ }).ovr = true ∧
    extFet d = false ∧ d.now.toNat % msT 100 = 0 ∧ since 2000000000 d.now < msT 1 ∧ kOf false 256000000 (64 * 2) = 256 := by
  and_intros <;> decide +kernel

/-- The manager's ambient temperature as the registers at reset give it lies in its field. -/
theorem wit_ambient :
    let d := tick 2000000000 (setReg R.auxTdie 0 balancing)
    (-32768 ≤ (ambient d).getD (ambientEst (reg d R.balTherm) (tDie d) (dissipation d []))) ∧
    (ambient d).getD (ambientEst (reg d R.balTherm) (tDie d) (dissipation d [])) < 32768 := by decide +kernel

/-! ### Witnesses: current, auxiliary inputs, wire -/

/-- A head whose current channel is on and sends frames. -/
def curHead : Dev := { setReg R.curCtrl 3 (dv true) with rg := { Ring.init with pos := 0 } }

/-- CurrentGridAccumulates: the channel off and on, a grid instant and none, and one more than 20 us ago; an input at the end of the stable range
and beyond it; a corrected sample at the end of the scale and past it; a result that is not stale. -/
theorem wit_current_grid :
    let d := tick 20000000 curHead
    let o := asOf 20000000 d
    d.running = true ∧ Calm d ∧ curOn d = true ∧ curOn o = true ∧ onGrid (curP2 (regFld o R.curCtrl 6 4)) 20000000 = true ∧
    since 20000000 d.now ≤ usT 20 ∧ usT 20 < since 19995999 d.now ∧ curOn (tick 20000000 (dv true)) = false ∧
    onGrid (curP2 (regFld (asOf 20000001 d) R.curCtrl 6 4)) 20000001 = false ∧
    curUnstable ⟨-200000000, 200000000⟩ = false ∧ curUnstable ⟨0, 200000001⟩ = true ∧
    (curEval d 20000000 false ⟨curCon 167772140, quietIn⟩).ovr = false ∧ (curEval d 20000000 false ⟨curCon 167772160, quietIn⟩).ovr = true ∧
    curStale (setReg R.curCtrl 1 d).io.cu.since (curW d) 20000000 = false ∧
    after (exec (.currentGridResult 20000000 ⟨curCon 0, quietIn⟩ ⟨curCon 0, quietIn⟩ [⟨20, 0, quietIn, quietIn⟩, ⟨40, 0, quietIn, quietIn⟩]) (st curHead))
      (fun s => decide (reg64 s.dev R.curQaccLo R.curQaccHi * qUnit + s.dev.io.cu.qfrac = ([20, 40].map (fun x => (addCharge (0, false)
        (curCorrect d false 20000000 x)).1.toNat)).sum)) = true := by
  and_intros <;> decide +kernel

/-- CurrentLimitTrips: the channel off and on; just enough samples and too few, beyond the limit and inside it. -/
theorem wit_current :
    let d := tick 20000000 (setReg R.curLim 0x00010001 curHead)
    let far := List.replicate (curDeglitch d) ((8000000 : Int), (0 : Int))
    curOn (dv true) = false ∧ curOn d = true ∧ d.running = true ∧ Calm d ∧ 0 < curDeglitch d ∧
    limitRun 20000000 [] d = none ∧ (limitRun 20000000 far d).isSome = true ∧
    (∀ x ∈ (limitRun 20000000 far d).getD [], 0 < beyondLimit true d x.1) ∧
    (∃ x ∈ (limitRun 20000000 far d).getD [], beyondLimit true d x.2 ≤ 0) ∧
    (∀ x ∈ (limitRun 20000000 far d).getD [], beyondLimit false d x.1 ≤ -(regFld d R.curLimCfg 15 12 * 10 ^ 13 : Int)) ∧
    (1, 0) ∉ d.sf.present := by
  and_intros <;> decide +kernel

/-- A stack device at position 2 that takes the frames of position 0, the last of which was number 65,535. -/
def curTaker : Dev :=
  setReg R.curSrc 0 { dv false with rg := { Ring.init with pos := 2 }, io := { Inputs.init with cu := { Cur.init with seqRx := some 65535 } } }

/-- CurrentFramesCast: a head whose frame is due, and one whose frame is not; a stack device that takes frames of position 0, with a repeat,
the next number and a gap. -/
theorem wit_current_frames :
    let t := frameInstant (bcIdx curHead) 0 31
    let d := tick t curHead
    let e := tick 5 curTaker
    d.running = true ∧ Calm d ∧ curOn d = true ∧ regBit d R.curCtrl 1 = true ∧ frameDue d 0 = true ∧ frameDue d 1 = false ∧
    (List.replicate 32 (⟨curCon 0, quietIn⟩ : CurSample)).length = 32 ∧ d.rg.pos ≤ 62 ∧ (dropOwnSamples d.ln d.rg.pos).queue.length < 32 ∧
    e.running = true ∧ Calm e ∧ e.head = false ∧ e.rg.pos ≤ 62 ∧ (0 : Nat) ≠ e.rg.pos ∧
    regFld e R.curSrc 5 0 = 0 ∧ e.en.imp = none ∧ e.en.est = none ∧ e.io.cu.seqRx = some (65535 % 65536) ∧
    missedFrames 65535 0 = 0 ∧ missedFrames 65535 2 + regFld e R.curRxStat 15 0 < 65536 := by
  and_intros <;> decide +kernel

/-- AuxScanReads: a scan that is due and one that is not; a ratio channel and an off channel at the two bounds of their codes, a guarded NTC
channel that is short for CONFIRM scans. -/
theorem wit_aux :
    let e := { setReg (R.auxTlim + 16) 0 (setReg R.auxCh 0x0302 (dv true)) with io := { Inputs.init with aux := [(4, ⟨254, 254, 0⟩)] } }
    let d := tick (BitVec.ofNat 64 (scanLen e)) e
    Calm d ∧ scanDue d d.now.toNat = true ∧ scanDue (tick 5 e) 5 = false ∧ (auxMode d 1 = 0 ∧ auxMode d 0 = 2 ∧ auxMode d 4 = 3) ∧
    meanCode (List.replicate 16 328) = 328 ∧ meanCode (List.replicate 16 65208) = 65208 ∧
    (auxLim d 4 ≠ (0x7FFF, -0x8000) ∧ auxConfirm d ≤ (auxChan d 4).fault + 1 ∧ regBit d R.auxStat 20 = false ∧ (2, 4) ∉ d.sf.present) ∧
    (ntcTemp (regFld d R.auxNtcPull 15 0) (regFld d R.auxNtcCfg 15 0) (regFld d R.auxNtcCfg 31 16) 328).isSome = true ∧
    -32768 ≤ (0 : Int) - signed 16 (regFld d R.calTdieOff 15 0) ∧ (0 : Int) - signed 16 (regFld d R.calTdieOff 15 0) < 32768 := by
  and_intros <;> decide +kernel

/-- Cells of bytes, least significant bit first, as a slave sends them (R149). -/
def wireCells (l : List Byte) : List (Bool × Bool) := l.flatMap (fun b => (List.range 8).map (fun i => let v := b.getLsbD i; (!v, v)))

/-- A whole reply: status, data and CRC. -/
def wireReply (status : Byte) (data : List Byte) : WireReply :=
  reply (wireCells (status :: data ++ [BitVec.ofNat 8 (crc8w (status :: data))]))

/-- A port of the wire: its switch on, in a state, with an identity and a queue. -/
def wired (s : Nat) (q : List (Nat × Desc)) : Dev :=
  let d := setReg R.auxWireCfg 0xFF (dv true)
  { d with io := { d.io with w3 := { WirePort.init with st := s, ident := zeros 8, queue := q } } }

/-- WireBusRuns: a search that is due and one that is not; replies without supply, shorted, without presence, broken, busy, and with the held
identity and another; transfers that are denied, find four waiting, and join; ones that meet each end; strong power. -/
theorem wit_wire :
    let c := dsc 0x60 0 [3]
    let d := tick 5 (wired 2 [])
    let e := tick 5 (wired 2 [(7, c)])
    let held := { wired 2 [] with io := { (wired 2 []).io with w3 := { (wired 2 []).io.w3 with spuOn := true, held := some (7, 4, 0, []) } } }
    Calm d ∧ searchDue 3 d = true ∧ searchDue 0 (tick 5 (dv true)) = false ∧
    wireFed { reply [] with mv := 2799 } = false ∧ wireFed (reply []) = true ∧
    lineShorted (att true false) = true ∧ lineShorted (reply []).att = false ∧ presence (reply []).att = true ∧
    presence (att false true) = false ∧ readReply (reply []).cells 8 = none ∧ brokenOff (reply []).cells 8 = true ∧
    (let x := reply (wireCells (1 :: zeros 8 ++ [BitVec.ofNat 8 (crc8w (1 :: zeros 8)) + 1]))
     readReply x.cells 8 = none ∧ brokenOff x.cells 8 = false) ∧
    readReply (wireReply 9 []).cells 8 = some (9, []) ∧ readReply (wireReply 1 (zeros 8)).cells 8 = some (1, zeros 8) ∧
    (wirePort d 3).ident = padTo 8 (zeros 8) ∧ (wirePort d 3).ident ≠ padTo 8 [1, 0, 0, 0, 0, 0, 0, 0] ∧
    (wirePort (wired 1 []) 3).st ≠ 2 ∧ (wirePort (wired 1 []) 3).cand ≠ some (padTo 8 []) ∧
    dOp c = 0x60 ∧ okWireXfer c = true ∧ dFld c 2 1 0 = 3 ∧ xferDenied c (dv true) = true ∧ xferDenied c d = false ∧
    4 ≤ (wirePort (wired 2 (List.replicate 4 (7, c))) 3).queue.length ∧ (wirePort d 3).queue.length < 4 ∧
    (wirePort e 3).queue = (7, c) :: [] ∧ (wirePort e 3).spuOn = false ∧ readReply (wireReply 4 []).cells 0 = some (4, []) ∧
    spuAllowed e 3 = true ∧ (wirePort held 3).spuOn = true ∧ (wirePort held 3).held = some (7, 4, 0, []) := by
  and_intros <;> decide +kernel

/-! ### Witnesses: engines -/

/-- A head of four cells whose current source is itself and whose tracking is on. -/
def engines : Dev := setReg R.curSrc 0 (setReg R.engCtrl 3 { four true with rg := { Ring.init with pos := 0 } })

/-- IMPEDANCE of one point of 100 Hz in 10 s, passive; with START 0 and with one. -/
def impD (start : Word) : Desc := dsc 0x30 0 [0x100, 0, 10, start, 0, 0x42C80000, 0x42C80000]

/-- IMPEDANCE of one active point of 100 Hz in 10 s. -/
def impA : Desc := dsc 0x30 0 [0x101, 0, 10, 0, 0, 0x42C80000, 0x42C80000]

/-- A job of the four cells, for the point of 100 Hz. -/
def jobOf (c : Desc) (begun : Bool) : ImpJob := ⟨1, c, [0x42C80000], 15, 0, begun, 0, 0, [], [], [], none, [], [], [], 0, false, true, 0⟩

/-- A head with a job. -/
def busyOf (j : ImpJob) : Dev := { engines with en := { Eng.init with imp := some j } }

/-- EnginesFailAndMove: a checkpoint at 100 ms and a time between; engine 0 that serves cells and has had no checkpoint for 300 ms, one that
fails its test; a free engine for cell 1; a cell whose replay runs, and one whose does not. -/
theorem wit_engines :
    let e := { four true with en := { Eng.init with rebal := [4] } }
    let d := tick 60000000 e
    d.now.toNat % msT 100 = 0 ∧ (tick 5 e).now.toNat % msT 100 ≠ 0 ∧ Calm d ∧ d.awake = true ∧ engineFailed d 0 = false ∧ d.en.failed < 65536 ∧
    (∃ k < 16, servedBy d k ≠ [] ∧ msT 300 ≤ since (kget d.ca.laneAt d.en.wrote k) d.now) ∧
    (∃ k < 16, servedBy d k = []) ∧ (freeEngine d).isSome = true ∧ 4 ∈ d.en.rebal ∧ 3 ∉ d.en.rebal ∧ engineFailed d (engineOf d 4) = false ∧
    regBit (setReg R.engCtrl 0 d) R.engCtrl 1 = false := by
  and_intros <;> decide +kernel

/-- EngineJobsAccepted: jobs that are denied, find the engines busy, and begin; a list that BULK still brings, and one in the head's window. -/
theorem wit_jobs :
    let busy := { busyOf (jobOf (impD 0) false) with en := { (busyOf (jobOf (impD 0) false)).en with est := some ⟨2, [], 15, 0, [], 0, 0⟩ } }
    let d := tick 5 engines
    let list := dsc 0x30 0 [0x104, 0, 10, 0, 0, 64]
    dOp (impD 0) = 0x30 ∧ okImpedance (impD 0) = true ∧ okImpedance (impD 1) = true ∧ okImpedance list = true ∧ impList list = true ∧
    tableBytes 7 (dWord list 7).toNat (4 * impNpts list) (tick 5 (four false), Hst.init) = none ∧
    (tableBytes 7 (dWord list 7).toNat (4 * impNpts list) (d, Hst.init)).isSome = true ∧ impList (impD 0) = false ∧ Calm d ∧
    impDenied (impD 0) (effMask (dv true) 0) (dv true) = true ∧
    impDenied (impD 0) (effMask d 0) d = false ∧ busy.en.imp.isSome = true ∧ d.en.imp = none ∧
    impStartArg (impD 0) = 0 ∧ impStartArg (impD 1) ≠ 0 ∧ d.now.toNat + frameLen d + msT 2 < 2 ^ 64 ∧ impStartArg (impD 1) + frameLen d < 2 ^ 64 ∧
    dOp (dsc 0x31 0 [1]) = 0x31 ∧ okEstimate (dsc 0x31 0 [1]) = true ∧ estDenied (dsc 0x31 0 [1]) 0 d = true ∧
    estDenied (dsc 0x31 0 [1]) 15 d = false ∧ busy.en.est.isSome = true ∧ d.en.est = none ∧
    (∀ n ∈ maskCells (effMask d (dWord (dsc 0x31 0 [1]) 3)), loadRuns (modelSlot d n) (d, Hst.init) = false) := by
  and_intros <;> decide +kernel

/-- EngineJobsAccepted, ModelLoadChecks, EngineJobsRun: in a load shed, with jobs that began before it. -/
theorem wit_shed :
    let d := tick 5 { busyOf (jobOf (impD 0) true) with pw := { engines.pw with persist := true } }
    d.awake = true ∧ Calm d ∧ d.pw.persist = true ∧ d.en.imp = some (jobOf (impD 0) true) ∧ (engineRun [] d).en.imp.isSome = true ∧
    okImpedance (impD 0) = true ∧ impList (impD 0) = false ∧ okEstimate (dsc 0x31 0 [1]) = true := by
  and_intros <;> decide +kernel

/-- EngineJobsRun: an active job with and without cells that may be excited, a passive one; a phase at its time, and at another; an end after
10 s, before it, and without frames after 100 ms; cells whose switches fit in one sub-phase, and cells that do not. -/
theorem wit_job_runs :
    let d := tick 5 (busyOf (jobOf impA false))
    let may := setReg (R.measBcoef) 0x00640064 (setReg (resOff .a 1) (LaneResult.word ⟨3300000, false, false, false, false, 0, false, false, false⟩) d)
    let j := jobOf impA true
    let e := tick 2000000000 (busyOf j)
    let hot := { d with ba := { d.ba with cells := [(1, { BalCell.init with ion := some 400, ron := some 40000 }),
      (3, { BalCell.init with ion := some 400, ron := some 40000 })] } }
    d.awake = true ∧ Calm d ∧ d.en.imp = some (jobOf impA false) ∧ (0 : Time).toNat ≤ d.now.toNat ∧ d.pw.persist = false ∧
    impExc impA = 1 ∧ impExc (impD 0) = 0 ∧ (∀ n ∈ maskCells 15, eligible d n = false) ∧ (∃ n ∈ maskCells 15, eligible may n = true) ∧
    activeOrder j = [0] ∧ subPhases may (halfCells j true) = [[1, 3]] ∧ halfCells j true = [1, 3] ∧ (phaseTimes j 0 true 0 1).1 = 0 ∧
    (tick 0 (busyOf j)).now.toNat = 0 ∧ (phaseTimes j 0 false 0 1).1 = 1000000000 ∧ subPhases hot [1, 3] = [[1], [3]] ∧
    (let j2 := { j with half := some ((0, true), [[1], [3]]) }
     j2.half.map Prod.fst = some (0, true) ∧ j.half.map Prod.fst ≠ some (0, true) ∧
     (tick (BitVec.ofNat 64 (phaseTimes j2 0 true 1 2).1) (busyOf j2)).now.toNat = (phaseTimes j2 0 true 1 2).1) ∧
    phaseFits hot [1, 3] = false ∧
    Calm e ∧ (engineRun [] e).en.imp = some j ∧ impSpan j.d + j.late ≤ since j.startAt e.now ∧
    since j.startAt (tick 1999999999 (busyOf j)).now < impSpan j.d + j.late ∧ msT 100 ≤ since j.startAt e.now := by
  and_intros <;> decide +kernel

/-- EngineJobsRun: estimates with and without CHAR that end after 30 s, one whose precondition fails; a load shed. -/
theorem wit_estimate_ends :
    let plain : EstJob := ⟨2, dsc 0x31 0 [1], 15, 0, [], 0, 0⟩
    let temp : EstJob := ⟨2, dsc 0x31 0 [8], 15, 0, [], 0, 0⟩
    let chr : EstJob := ⟨2, dsc 0x31 0 [0x12, 15], 15, 0, [], 0, 0⟩
    let d := tick 6000000000 { engines with en := { Eng.init with est := some temp } }
    Calm d ∧ d.en.est = some temp ∧ d.pw.persist = false ∧ estMeasures temp.d = true ∧ tempS temp.d * lsbPerSec + temp.late ≤ since temp.startAt d.now ∧
    since temp.startAt (tick 5999999999 { engines with en := { Eng.init with est := some temp } }).now < tempS temp.d * lsbPerSec + temp.late ∧
    bit (dWord plain.d 2) 4 = false ∧ bit (dWord chr.d 2) 4 = true ∧ (tick 5 { d with pw := { d.pw with persist := true } }).pw.persist = true ∧ charDetail d { chr with bad := 1 } [] ≠ 0 := by
  and_intros <;> decide +kernel

/-- A model table of two points, for a rest of 60 s. -/
def modelTable : List Byte :=
  let body := leBytes 4 0x4C444D58 ++ [1, 0, 2, 1, 2, 0, 0, 0] ++ leBytes 4 120 ++ zeros 16 ++ leBytes 4 0x42C80000 ++ leBytes 4 0x3F800000 ++
    leBytes 4 0x42C80000 ++ leBytes 4 0x3F800000 ++ leBytes 4 60 ++ leBytes 4 0x3B800000 ++ leBytes 4 0x3F800000 ++ zeros 4 ++
    (leBytes 4 0 ++ leBytes 4 0x42C80000) ++ leBytes 4 0x41C80000 ++ (leBytes 4 0x40400000 ++ leBytes 4 0x40800000) ++
    (leBytes 4 0x40400000 ++ leBytes 4 0x40800000) ++ (leBytes 4 0x3F800000 ++ leBytes 4 0x3F800000) ++
    (leBytes 4 0 ++ leBytes 4 0 ++ leBytes 4 0x41C80000 ++ leBytes 4 0x3F800000)
  body ++ leBytes 4 (crc32 body)

/-- The head with the model in every slot and an NTC at 25 degrees. -/
def modelled : Dev :=
  let d := setReg R.auxCh 0x0003 (setReg R.auxRes (packW [(32768, 0), (1600, 16)]) engines)
  { d with en := { Eng.init with models := [(0, modelTable), (1, modelTable), (2, modelTable), (3, modelTable)] } }

set_option maxRecDepth 100000 in
/-- CHAR has no precondition that fails where the NTC reads and each cell's spectra are clean. -/
theorem wit_char :
    charDetail modelled ⟨2, dsc 0x31 0 [0x12, 15], 1, 0, [], 0, 0⟩ 
      (charBands modelled [] [⟨1, 0, [⟨100000, 40000, 40000000000, 0, (40000000, 0), (0, 0), (0, 0)⟩]⟩]) = 0 := by
  decide +kernel

set_option maxRecDepth 100000 in
/-- ModelLoadChecks: a table in the head's window, and one that a stack device waits for; one that passes, one that fails; a slot in use by an
ESTIMATE, and by trackers. -/
theorem wit_model :
    let c := dsc 0x32 0 [1, 0, 120]
    let busy := { engines with en := { Eng.init with est := some ⟨2, [], 15, 0, [], 0, 0⟩ } }
    dOp c = 0x32 ∧ okModelLoad c = true ∧ tableBytes 7 (mlOff c) (mlLen c) (tick 5 engines, holds modelTable) = some modelTable ∧
    tableBytes 7 (mlOff c) (mlLen c) (tick 5 (four false), Hst.init) = none ∧ Calm (tick 5 engines) ∧
    slotBusy engines (mlSlot c) = false ∧
    ([0, 1, 2, 3].any fun k => slotBusy busy k) = true ∧ modelDetail (mlLen c) modelTable = 0 ∧ modelDetail (mlLen c) (zeros 120) ≠ 0 ∧
    slotTracked engines (mlSlot c) = false ∧ ([0, 1, 2, 3].any fun k => slotTracked modelled k) = true := by
  and_intros <;> decide +kernel

/-- A tracker of cell 4 that rests since 0, with ten seconds of 3.5 V. -/
def resting : Dev :=
  { modelled with en := { modelled.en with track := [(4, some { Track.init with restFrom := some 0, secs := List.replicate 10 (3500000, 1) })] } }

set_option maxRecDepth 100000 in
/-- TrackersUpdate: the boundary due and not due; a tracked cell that has rested for REST_S with a voltage that its branch gives; tracking off
and on; a model that waits; a save that is due and one that is not, with the supply well and warned of. -/
theorem wit_trackers :
    let d := tick 12000000000 resting
    let y := trackOf (engineRun [] d) 4
    Calm d ∧ trackDue d = true ∧ trackDue { d with en := { d.en with trackAt := some 11999999999 } } = false ∧ tracked d 4 = true ∧
    tracked d 5 = false ∧ y.restFrom = some 0 ∧ ({ y with secs := lastN 10 (y.secs ++ [y.acc]) }.restVolts).isSome = true ∧ ntcTemps d ≠ [] ∧
    tab32 (cellModel d 4) 0x30 * lsbPerSec ≤ since 0 d.now ∧ (ocvSoc (cellModel d 4) y.charging (meanNtc d).1 (7 / 2)).isSome = true ∧
    regBit d R.engCtrl 0 = true ∧ regBit (dv true) R.engCtrl 0 = false ∧ d.en.newModels = [] ∧
    { d.en with newModels := [(2, modelTable)] }.newModels = [(2, modelTable)] ∧
    d.en.savedAt = none ∧ since 0 d.now < 600 * lsbPerSec ∧ d.pw.warn = false := by
  and_intros <;> decide +kernel

/-! ### Witnesses: link -/

/-- A head or a stack device whose north port is in a state. -/
def northIs (head : Bool) (x : LinkPort) : Dev := { dv head with ln := x }

/-- A frame of a type for a position, from position 3. -/
def frm (typ dest : Nat) (pay : List Byte) : Frame := ⟨dest, false, 3, typ, 0, 0, pay, false, 0⟩

/-- The code groups of characters, sent from negative disparity. -/
def sentGroups (l : List Sym) : List Nat := (encodeSyms false l).1

/-- A burst of link state 0 that ends with TURN, with an answer. -/
def answering (ans : Option (Bool × Nat × Nat)) : List Nat := sentGroups (burstSyms ⟨0, ans, none, false, false, false, false⟩)

/-- Frame bytes between SOF and a last character, after a link state. -/
def framed (b : List Byte) (fin : Sym) : List Nat := sentGroups ([.ctl .sync, .data 0, .ctl .sof] ++ b.map .data ++ [fin])

/-- FrameBytesReadBack: every field and the payload at its largest; a burst with the frame; an ACK's and a NAK's fields. -/
theorem wit_frame_bytes :
    let f : Frame := ⟨63, true, 62, 255, 255, 15, List.replicate 256 0, false, 0⟩
    let b : Burst := ⟨0, some (true, 62, 15 + 16 * (15 - 15)), some (frameBytes .north 15 f), false, false, false, false⟩
    15 < 16 ∧ f.dest < 64 ∧ f.src ≤ 62 ∧ f.typ < 256 ∧ f.seq < 256 ∧ f.stat < 16 ∧ f.pay.length ≤ 256 ∧
    b.frame = some (frameBytes .north 15 f) ∧ b.ls < 256 ∧ b.ans = some (true, 62, 15 + 16 * (15 - 15)) ∧
    { b with ans := some (false, 0x3F, 15 + 16 * 15) }.ans = some (false, 63, 15 + 16 * 15) := by
  and_intros <;> first | decide +kernel | rfl

/-- HopsTrainAndFall: a port that trains at the first and at the last rate of a cycle, one whose third cycle fails, one that is broken, one that
is UP, one in bypass; each moment and one before it; characters that lock, that do not, that pass the line and that violate; a hop that has had its
4,096 characters, with cell trips that waited; RETRAIN of both ports and of none. -/
theorem wit_hops :
    let x := { LinkPort.init with st := .training, toneDue := true }
    let d := tick 200000 (northIs true x)
    let full := tick 2000000 { northIs true { x with locked := true, rxN := 4096, txN := 4096 } with pw := { (dv true).pw with tripWake := [(1, true)] } }
    let lock := sentGroups (List.replicate 16 (.ctl .sync))
    let turn := sentGroups (List.replicate 15 (.ctl .sync) ++ [.ctl .turn])
    let last := northIs false { LinkPort.init with st := .training, trial := 2, cycles := 2 }
    let up := tick 2000000000 (upDev (dv true))
    let broken := tick 20000000 (northIs true { LinkPort.init with st := .broken })
    let south := tick 20000 { dv true with ls := { LinkPort.init with st := .training } }
    Calm d ∧ d.awake = true ∧ training (port d .north) = true ∧ checkFailed .north [] d = true ∧
    checkFailed .north [] (tick 199999 (northIs true { LinkPort.init with st := .training })) = false ∧
    locks (decodeGroups false []).1 = false ∧ locks (decodeGroups false lock).1 = true ∧ badCount (decodeGroups false lock).1 = 0 ∧
    (decodeGroups false lock).1.getLast? ≠ some (.ctl .turn) ∧ (decodeGroups false turn).1.getLast? = some (.ctl .turn) ∧
    locks (decodeGroups false turn).1 = true ∧ 0 < badCount (decodeGroups false [0]).1 ∧ (port full .north).locked = true ∧
    checkFailed .north [0] full = true ∧ 4096 ≤ (port full .north).rxN ∧ 4096 ≤ (port full .north).txN ∧
    passed (checkTime (port full .north).trial) (port full .north).trainAt full.now = true ∧ (1, true) ∈ full.pw.tripWake ∧
    (0, 1) ∉ full.sf.present ∧ (port d .north).locked = false ∧ (port d .north).rxN < 4096 ∧
    checkFailed .north [0] d = true ∧ (port d .north).trial < 2 ∧ ¬ (port last .north).trial < 2 ∧ ¬ (port last .north).cycles < 2 ∧
    training (port south .south) = true ∧ passed (usT 100) (port south .south).listenAt south.now = true ∧
    (List.replicate 64 (⟨0, 0, 0, 0⟩ : DlyStamps)).length = 64 ∧
    (port d .north).toneDue = true ∧ d.pw.tripWake = [] ∧ toneOn d .north = false ∧
    (port broken .north).st = .broken ∧ passed (msT 100) (port broken .north).trainAt broken.now = true ∧ (port d .south).st = .bypass ∧
    (port up .north).st = .up ∧ passed (msT 10000) (port up .north).dlyAt up.now = true ∧ silent (port up .north) up.now = true ∧
    silent (port up .north) 5 = false ∧ up.running = true ∧ bit (3 : Word) (portIdx .south) = true ∧ bit (0 : Word) (portIdx .south) = false := by
  and_intros <;> decide +kernel

/-- BurstsAlternate: no frame outstanding; one that is acknowledged, answered busy, and lost a third time and a fourth, with its bucket at N;
characters without TURN and with a violation; a line that has been silent for 2.0 us, and one that the tone left then. -/
theorem wit_bursts :
    let f := frm 0x10 2 (zeros 4)
    let out (r : Nat) := tick 5 (setLevel 31 0 (bucketN (dv true) 31 - 1) (northIs true { LinkPort.init with st := .up, out := some f, retries := r }))
    let own := tick 400 (northIs true { LinkPort.init with st := .up })
    let ack := (decodeGroups false (answering (some (true, 3, 0 + 16 * 15)))).1
    let nak := (decodeGroups false (answering (some (false, 3, 0 + 16 * 1)))).1
    own.running = true ∧ Calm own ∧ (port own .north).st = .up ∧ (port own .north).out = none ∧ (port (out 0) .north).out = some f ∧
    (port (out 0) .north).cut = false ∧ (port (out 0) .north).rxBad = false ∧
    badCount ack = 0 ∧ ack.getLast? = some (.ctl .turn) ∧ badCount (decodeGroups false [0]).1 = 1 ∧
    (decodeGroups false (sentGroups [.ctl .sync])).1.getLast? ≠ some (.ctl .turn) ∧ lsFits own .north 0 = true ∧
    (readHead ack).bind Prod.snd = some ⟨none, f.src, 0⟩ ∧ (readHead nak).bind Prod.snd = some ⟨some 1, f.src, 0⟩ ∧
    readHead (decodeGroups false (answering none)).1 = some (0, none) ∧
    (port (out 2) .north).retries < 3 ∧ 3 ≤ (port (out 3) .north).retries ∧ lasting (out 3) 31 0 = false ∧
    bucketN (out 3) 31 ≤ level (out 3) 31 0 + 1 ∧ toneOn own .north = false ∧
    (training (tick 400 (northIs true { LinkPort.init with st := .training })).ln = true ∧
      toneOn (tick 400 (northIs true { LinkPort.init with st := .training })) .north = false) ∧
    (passed (usT 2) own.ln.lineAt own.now && decide (own.ln.ownTo.toNat + usT 2 ≤ own.now.toNat)) = true ∧
    (passed (usT 2) 0 own.now = true ∧ { own.ln with quietAt := some 0 }.quietAt = some 0) := by
  and_intros <;> decide +kernel

/-- FramesTaken: a good frame for this position, one for another and a LINK_TEST; one with a bad header, one with a bad CRC, one with a
violation; one that ends with ABORT, and with another character; a repeated ALIVE and a new one; a full receive buffer; a hop whose bucket of
errors is just below N. -/
theorem wit_frames :
    let here := frameBytes .south 5 (frm 0x02 2 (zeros 12))
    let far := frameBytes .south 5 (frm 0x02 9 (zeros 12))
    let bad := frameBytes .south 5 (frm 0x01 2 (zeros 3))
    let test := frameBytes .south 5 { frm 0x10 2 (zeros 4) with loc := true }
    let x := { LinkPort.init with st := .up, lastAlive := some 5 }
    let d := tick 5 { upDev (dv false) with rg := { Ring.init with pos := 2 } }
    let c := splitFrame (decodeGroups false (framed here (.ctl .eof))).1
    d.running = true ∧ Calm d ∧ (port d .north).st = .up ∧ .ctl .sof ∈ (decodeGroups false (framed here (.ctl .eof))).1 ∧
    badCount (decodeGroups false (framed here (.ctl .eof))).1 = 0 ∧ c.fin = .eof ∧ c.body.filterMap id = here ∧
    (splitFrame (decodeGroups false (framed here (.ctl .abort))).1).fin = .abort ∧
    (splitFrame (decodeGroups false (framed here (.ctl .fault))).1).fin = .tone ∧
    (let e := { d with ls := { d.ls with sent := some ⟨0, none, none, false, false, false, false⟩, ownTo := 5000 } }
     cutThrough e .north .south (headerAt e.now 0 0) = true ∧ cutThrough d .north .south (headerAt d.now 0 0) = false ∧
     headerOk far = true ∧ (port d .north).lastAlive ≠ some 5) ∧
    (splitFrame (decodeGroups false (framed here (.ctl .turn))).1).fin = .other ∧ badCount (decodeGroups false (framed here .bad)).1 = 1 ∧
    none ∈ (splitFrame (decodeGroups false (framed here .bad)).1).body ∧
    frameCause here = 0 ∧ frameCause (here.set 7 0) = 2 ∧ frameCause (here.set 8 1) = 1 ∧
    x.lastAlive = some ((here.getD 4 0).toNat % 16) ∧
    LinkPort.init.lastAlive ≠ some ((here.getD 4 0).toNat % 16) ∧ d.rg.pos ≤ 62 ∧ (frameOf here).dest = d.rg.pos ∧
    (frameOf far).src ≠ 2 ∧ (frameOf far).dest ≠ 2 ∧ (frameOf far).dest ≠ 0x3F ∧ (frameOf far).typ ∉ [0x03, 0x04, 0x07, 0x09, 0x0A] ∧
    (frameOf here).loc = false ∧ (port d .south).queue.length < 32 ∧ (port d .north).rxBuf.length < 4 ∧
    payloadOk (frameOf bad) = false ∧ (frameOf test).loc = true ∧ (frameOf test).typ = 0x10 ∧
    payloadOk (frameOf test) = true ∧ lasting d 30 0 = false ∧ bucketN d 30 ≤ level (setLevel 30 0 254 d) 30 0 + 1 ∧
    level d 30 0 + 1 < bucketN d 30 := by
  and_intros <;> decide +kernel

/-- ToneAndWakeStream: bursts left 1 ms after the last, and a burst driven for 20 us; a tone of 2.0 us at the north port, ignored while this
device drives; the other port's tone 1 us before; a stack device with a request for the wake stream, which ends. -/
theorem wit_tone :
    let e := { dv false with
      ln := { LinkPort.init with rxTone := true, rxAt := 1000, toneLeft := 9 }
      ex := { Exec.init with cmds := [⟨7, [], 0⟩] } }
    let d := tick 1400 e
    let drive := tick 4000 { e with ln := { e.ln with toneTx := true } }
    let wake := tick 400000 { e with ls := { LinkPort.init with wakeTx := true } }
    d.running = true ∧ Calm d ∧ (port d .north).toneTx = false ∧ 0 < (port d .north).toneLeft ∧
    passed (msT 1) (port d .north).toneFrom (tick 200000 e).now = true ∧ (port d .south).toneLeft = 0 ∧
    (port drive .north).toneTx = true ∧ passed (usT 20) (port drive .north).toneFrom drive.now = true ∧ (port drive .south).toneTx = false ∧
    (port d .north).rxTone = true ∧ (port d .north).rxOk = false ∧ usT 2 ≤ since (port d .north).rxAt d.now ∧ toneIgnored d .north = false ∧
    toneIgnored drive .north = true ∧ (3, 0) ∉ d.sf.present ∧ d.tn.hold = false ∧ d.tn.fwd = none ∧
    ((port (tick 1200 e) (otherPort .south)).rxTone && decide (since (port (tick 1200 e) (otherPort .south)).rxAt (tick 1200 e).now ≤ usT 1)) = true ∧
    (port d .south).rxTone = false ∧ wakeOver wake .south = true ∧ wakeOver (tick 399999 { e with ls := { LinkPort.init with wakeTx := true } }) .south = false ∧
    wake.head = false ∧ wake.ls.wakeTx = true ∧ (∀ c ∈ wake.ex.cmds, c.d = []) := by
  and_intros <;> decide +kernel

/-! ### Witnesses: ring -/

/-- A head with both hops UP. -/
def headUp : Dev := upDev (dv true)

/-- A stack device at position 2 with both hops UP. -/
def devUp : Dev := { upDev (dv false) with rg := { Ring.init with pos := 2 } }

/-- EnumerationAssigns: a head that is busy, has no hop and has both; NEXT at 1, 62, 0 and 63; a route; another OP; the frame that returns. -/
theorem wit_enumeration :
    let d := tick 5 headUp
    let busy := { headUp with rg := { Ring.init with enumH := some 4 } }
    let pass := { headUp with rg := { Ring.init with enumH := some 4, enumPass := 1 } }
    let e := unbuffer .south 0x09 (tick 5 devUp)
    d.awake = true ∧ d.head = true ∧ Calm d ∧ dOp (dsc 0x80 0 []) = 0x80 ∧ zeroFrom (dsc 0x80 0 []) 2 = true ∧ busy.rg.enumH ≠ none ∧
    (d.sw.collect = [] ∧ d.rg.enumH = none ∧ stackCommand Hst.init = false) ∧ ((dv true).ln.st ≠ .up ∧ (dv true).ls.st ≠ .up) ∧
    d.ln.st = .up ∧ d.ln.queue.length < 32 ∧ e.running = true ∧ e.head = false ∧ Calm e ∧
    (1 ≤ (⟨1, 1, 0, false, []⟩ : EnumMsg).next ∧ (⟨2, 62, 0, false, []⟩ : EnumMsg).next ≤ 62) ∧
    ((⟨1, 0, 0, false, []⟩ : EnumMsg).next = 0 ∧ 62 < (⟨1, 63, 62, false, []⟩ : EnumMsg).next) ∧
    (⟨0x10, 3, 0, false, []⟩ : EnumMsg).next ≠ 0x3F ∧ (⟨3, 1, 0, false, []⟩ : EnumMsg).op ∉ [1, 2, 0x10] ∧ pass.rg.enumPass = 1 := by
  and_intros <;> decide +kernel

/-- A beacon of a time, a correction and a number, 3 hops away. -/
def beaconAt (t0 corr num : Nat) : Beacon := ⟨BitVec.ofNat 64 t0, corr, 3, true, num, 0⟩

/-- BeaconsCarryTime: the head at 1 ms and past it; a copy that is used and one that is not; errors of 10 ns, 1 us and just beyond, of minus 1 s
and just beyond; a timebase 3 ms and 53 ms old. -/
theorem wit_beacons :
    let b := { devUp with tb := { Timebase.init with num := some 7, hops := 3, st := .locked } }
    let d (t : Time) := unbuffer .north 0x07 (tick t b)
    let err (t : Time) (x : Beacon) := beaconError (d t) t .north x
    Calm (d 1000) ∧ headUp.head = true ∧ (tick 200000 headUp).now.toNat % msT 1 = 0 ∧ (port headUp .north).queue.length < 32 ∧
    (d 1000).running = true ∧ (d 1000).head = false ∧
    useCopy (d 1000) .north (beaconAt 1000 0 8) = true ∧ useCopy (d 1000) .north (beaconAt 1000 0 7) = true ∧
    useCopy (d 1000) .south (beaconAt 1000 0 7) = false ∧
    err 1000 (beaconAt 1000 80 8) = 80 ∧ err 1000 (beaconAt 998 0 8) = -80 ∧ err 1000 (beaconAt 1200 0 8) = 8000 ∧
    err 1000 (beaconAt 1200 1 8) = 8001 ∧ err 1000 (beaconAt 799 39 8) = -8001 ∧ err 200001000 (beaconAt 1000 0 8) = -8000000000 ∧
    err 200001001 (beaconAt 1000 0 8) < -8000000000 ∧ beaconTime (d 200001001) .north (beaconAt 1000 0 8) / 40 < 2 ^ 64 ∧
    (d 600000).tb.st = .locked ∧ msT 3 ≤ since b.tb.rxAt (d 600000).now ∧ since b.tb.rxAt (d 599999).now < msT 3 ∧
    msT 53 ≤ since b.tb.rxAt (d 10600000).now := by
  and_intros <;> decide +kernel

/-- HeartbeatsSupervise: a head 0.5 ms past a millisecond, without an enumeration, in its last and in its second pass; a heartbeat 5 ms ago;
no heartbeat open, and one whose 5 ms are over, in which position 1 was seen; positions 1 and 62 whose counters moved; a stack device with a position and one without. -/
theorem wit_heartbeats :
    let d := tick 1100000 headUp
    let last := { headUp with rg := { Ring.init with enumH := some 4, enumPass := 3 } }
    let second := { headUp with rg := { Ring.init with enumH := some 4, enumPass := 2, enumAt := 0 } }
    let hb : Heartbeat := ⟨9, false, false, (0, 0) :: (1, 0) :: List.replicate 60 (0, 0) ++ [(15, 0)]⟩
    let e := unbuffer .north 0x0A (tick 5 devUp)
    let bare := upDev (dv false)
    Calm d ∧ d.now.toNat % msT 1 = usT 500 ∧ (tick 5 headUp).now.toNat % msT 1 ≠ usT 500 ∧ headUp.rg.enumH = none ∧
    (headUp.ln.st = .up ∧ headUp.ln.queue.length < 32) ∧ (last.rg.enumH = some 4 ∧ last.rg.enumPass = 3) ∧
    (second.rg.enumH = some 4 ∧ second.rg.enumPass = 2 ∧ msT 5 ≤ since second.rg.enumAt (tick 1100000 second).now) ∧
    headUp.rg.hbOpen = [] ∧ ({ headUp with rg := { Ring.init with hbOpen := [⟨4, 0, [1]⟩] } } : Dev).rg.hbOpen = [⟨4, 0, [1]⟩] ∧ passed (msT 5) 0 d.now = true ∧
    cutThrough (tick 5 { devUp with ls := { devUp.ls with sent := some ⟨0, none, none, false, false, false, false⟩, ownTo := 5000 } }) .north .south 0 = true ∧
    cutThrough e .north .south 0 = false ∧
    msT 5 ≤ since headUp.rg.hbBack d.now ∧ headUp.rg.brk = false ∧
    slotSeen d hb 1 = true ∧ slotSeen d hb 62 = true ∧ slotSeen d hb 2 = false ∧
    (e.running = true ∧ Calm e ∧ e.rg.pos ≤ 62 ∧ e.rg.hbLast ≠ some 9 ∧ (port e .south).queue.length < 24 ∧ (port e .south).st = .up ∧
      (hbSlot hb 0).1.getLsbD 6 = e.pr.svcHead) ∧ 62 < bare.rg.pos ∧ (port (dv false) .south).st ≠ .up := by
  and_intros <;> decide +kernel

/-- RingCastles: a break that has lasted CASTLE_MS and one that has not, whose castling point is new; a first pass that does not return; a castled
ring whose ports have been up for 1 s. -/
theorem wit_castle :
    let brk := { headUp with rg := { Ring.init with brk := true, lo := 2, b := 0x3F } }
    let pass := { headUp with rg := { Ring.init with enumH := some 4, enumPass := 1, inN := [1, 2] } }
    let back := { headUp with rg := { Ring.init with castled := true, b := 2, upAt := some 0 } }
    let d := tick 200000000 brk
    d.awake = true ∧ d.head = true ∧ Calm d ∧ d.rg.brk = true ∧ passed (msT (regFld d R.ringCfg 7 0)) d.rg.brkAt d.now = true ∧
    passed (msT (regFld brk R.ringCfg 7 0)) brk.rg.brkAt 0 = false ∧ (d.rg.castled = false ∨ d.rg.b ≠ d.rg.lo) ∧
    (pass.rg.enumH = some 4 ∧ pass.rg.enumPass = 1 ∧ passed (msT 20) pass.rg.enumAt (tick 4000000 pass).now = true) ∧
    (back.rg.castled = true ∧ back.sw.collect = [] ∧ allUp back = true ∧ back.rg.upAt = some 0 ∧
      passed (msT 1000) 0 (tick 200000000 back).now = true) ∧ (port back .north).queue.length < 32 := by
  and_intros <;> decide +kernel

/-- A sweep's held frames. -/
def heldSweep : SweepHeld := ⟨7, 1000, zeros 256, zeros 64⟩

/-- SweepsSample: two sweeps that collect and none; a request at a time; a trigger for this position, before and after it, and again; a
requested instant; the SYNC input; a sweep held for 100 ms, and one that collects. -/
theorem wit_sweeps :
    let c := dsc 0x10 0 [1000, 0, 1, 0]
    let two := { headUp with sw := { Sweeps.init with collect := [⟨1, 0, [], false⟩, ⟨2, 0, [], false⟩] } }
    let one := { headUp with sw := { Sweeps.init with collect := [⟨1, 1000, [], false⟩] } }
    let e := { devUp with sw := { Sweeps.init with wanted := [⟨1000, some 7, 0, 0, false⟩], held := [heldSweep] } }
    let d := unbuffer .north 0x04 (tick 1000 e)
    dOp c = 0x10 ∧ okSweep c = true ∧ swStart c ≠ 0 ∧ swStart (dsc 0x10 0 [0, 0, 1, 0]) = 0 ∧ Calm (tick 5 headUp) ∧ Calm d ∧
    2 ≤ two.sw.collect.length ∧ headUp.sw.collect.length < 2 ∧ (∃ p ∈ sweepPositions headUp c, missingAtStart headUp p = 0) ∧
    0 ∈ sweepPositions headUp c ∧ (∀ p ∈ sweepPositions headUp (dsc 0x10 0 [0, 0, 2, 0]), missingAtStart headUp p ≠ 0) ∧
    d.awake = true ∧ d.head = false ∧ d.rg.pos ≠ 0x3F ∧
    (2 < (⟨0, 7, 3, 62, false⟩ : Trigger).first ∧ (⟨0, 7, 1, 1, false⟩ : Trigger).last < 2) ∧
    ((⟨0, 8, 2, 2, false⟩ : Trigger).first ≤ d.rg.pos ∧ d.rg.pos ≤ (⟨0, 8, 2, 2, false⟩ : Trigger).last) ∧
    (∀ w ∈ d.sw.wanted, w.h ≠ some 8) ∧ (∃ w ∈ d.sw.wanted, w.h = some 7) ∧ (∀ x ∈ d.sw.held, x.h ≠ 8 ∨ holdTime x.T ≤ d.now.toNat) ∧ d.sw.held.find? (fun x => x.h == 7 && decide (d.now.toNat < holdTime x.T)) = some heldSweep ∧
    (port d (dataPort d)).queue.length < 31 ∧
    d.sw.wanted.filter (fun w => decide (w.T = 1000) && servedAt 1000 w) = [⟨1000, some 7, 0, 0, false⟩] ∧ since 1000 d.now ≤ usT 20 ∧
    syncMode (setReg R.ringCfg 0x02000000 (dv true)) = 2 ∧
    one.sw.collect = [⟨1, 1000, [], false⟩] ∧ holdTime 1000 ≤ (tick 20001000 one).now.toNat ∧ (tick 20000999 one).now.toNat < holdTime 1000 := by
  and_intros <;> decide +kernel

/-! ### Witnesses: streams, commands, host port -/

/-- STREAM_START of a source and a decimation into the buffer at 0. -/
def streamD (src decim : Nat) (size : Word) : Desc := dsc 0x11 0 [BitVec.ofNat 32 (src + 65536 * decim), 0, size]

/-- StreamsRun: a stream that fits and one that does not, at a stack device and at the head; STREAM_STOP of one that runs and one that does not;
a record of a full source at its instant and off it; a frame 10 ms old; a frame of one record at the head. -/
theorem wit_streams :
    let x : StreamSrc := ⟨7, 4, 1, 8, 65535, 65534, 0, [zeros 8], false, true, 65535⟩
    let sent := { devUp with ex := { Exec.init with streams := [{ x with buf := [] }] }
                             ln := { devUp.ln with queue := [{ frm 0x0C 0 [] with src := 2 }, { frm 0x0C 0 [] with src := 2 }] } }
    let d := tick 20000000 { devUp with ex := { Exec.init with streams := [x] } }
    let e : StreamSlot := ⟨0, 7, 0, 0, 1024, 8, 1000, 65535, 1, 1, 0, none⟩
    let hst := { Hst.init with streams := [e], on := true }
    let f : StreamFrame := ⟨7, 65535, 0, 0, [zeros 8]⟩
    dOp (streamD 4 65535 1024) = 0x11 ∧ okStreamStart (streamD 4 65535 1024) = true ∧ dTarget (streamD 4 65535 1024) = 0 ∧
    streamUnfit (streamLen 4 0) 1024 = false ∧ streamUnfit (streamLen 3 32) 1024 = true ∧
    (match streamAdmit 7 (streamD 4 65535 1024) (dv true) Hst.init with | .inl _ => true | .inr _ => false) = true ∧
    (match streamAdmit 7 (streamD 3 65535 1024) (setReg R.measCells 32 (dv true)) Hst.init with | .inl _ => false | .inr _ => true) = true ∧
    dOp (dsc 0x12 0 [7]) = 0x12 ∧ okStreamStop (dsc 0x12 0 [7]) = true ∧ dFld (dsc 0x12 0 [7]) 2 15 0 ≠ 8 ∧ findSource (dv false) 7 = none ∧
    findSource d (dFld (dsc 0x12 0 [7]) 2 15 0) = some x ∧ (port d (headPort d)).queue.length < 31 ∧ e.stop = none ∧ d.awake = true ∧ d.head = false ∧
    since x.t0 (tick 5 devUp).now < msT 10 ∧
    Calm d ∧ findSource d 7 = some x ∧ onGrid (x.decim * groupP2 d .a) d.now = true ∧ onGrid (x.decim * groupP2 d .a) 20000001 = false ∧
    (findSource sent 7).isSome = true ∧ 2 ≤ unsentStream sent ∧ x.started = true ∧
    hst.streams.find? (fun s => s.h == 7) = some e ∧ streamSlot hst e.k = some e ∧ e.wr + 16 + e.s ≤ e.size ∧
    x.buf ≠ [] ∧ msT 10 ≤ since x.t0 d.now ∧ headUp.head = true ∧ hst.on = true ∧ f.records ≠ [] ∧
    hst.streams.find? (fun x => x.h == f.h && x.pos == f.pos) = some e := by
  and_intros <;> decide +kernel

/-- RequestsHeld: a command, a repeat and a wake REQUEST; seven commands held, and eight; a chunk of a held command and of another. -/
theorem wit_requests :
    let held (n : Nat) := unbuffer .north 0x01 (tick 5 { devUp with ex := { Exec.init with cmds := (List.range n).map (fun i => ⟨i, dsc 0xF0 2 [], 0⟩) } })
    let done := { devUp with ex := { Exec.init with results := [⟨9, 0, [], 0⟩] } }
    let r : Request := ⟨9, 0, dsc 0xF0 2 [], 0⟩
    (held 7).awake = true ∧ (held 7).head = false ∧ Calm (held 7) ∧ (held 7).rg.pos ≤ 62 ∧ 62 < (dv false).rg.pos ∧
    r.kind = 0 ∧ { r with kind := 1 }.kind = 1 ∧ { r with kind := 2 }.kind = 2 ∧
    holdsCmd (held 7) 9 = false ∧ (∀ x ∈ (held 7).ex.results, x.h ≠ 9) ∧ (held 7).ex.cmds.length < 8 ∧ 8 ≤ (held 8).ex.cmds.length ∧
    (port (held 7) (headPort (held 7))).queue.length < 32 ∧ holdsCmd (held 8) 7 = true ∧ (∃ x ∈ done.ex.results, x.h = 9) ∧
    holdsCmd (held 8) 8 = false ∧ (held 8).mm.install = none := by
  and_intros <;> decide +kernel

/-- A head whose ring has positions 0 to 2, position 2 asleep. -/
def ringHead : Dev :=
  { headUp with rg := { Ring.init with
      pos := 0, n := 2, recs := [(1, ⟨4, 0, 0, true, 0, 0, false, 0⟩), (2, ⟨4, 0, 0, true, 0, 0, true, 0⟩)] } }

/-- A host port that is on, with one command outstanding. -/
def hostWith (c : HeadCmd) : Hst := { Hst.init with on := true, cmds := [c] }

/-- A command to a target. -/
def cmdTo (target : Nat) : HeadCmd := ⟨7, 0, dsc 0x01 target [0, 1], 0, false, [], [], [], 0, false, [], 0, 0⟩

/-- HeadRunsCommands: commands to the head, to a position that is there, asleep, not there and out of reach; one that has no accept for
the time of RING_CFG; an accept and a final RESPONSE; an event that is not an order to the head; RING_STATUS and ECHO. -/
theorem wit_head :
    let c := cmdTo
    let d := tick 5 ringHead
    let broken := { d with rg := { d.rg with brk := true, lo := 0, hi := 3 } }
    let acc : Response := ⟨7, 0, 1, 0, 0, []⟩
    let fin : Response := ⟨7, 1, 0, 244, 0, zeros 244⟩
    Calm d ∧ d.outputsOff = true ∧ findCmd (hostWith (c 1)) 7 = some (c 1) ∧ isWaiting (hostWith (c 1)) (c 1) = false ∧ (c 1).sent = false ∧
    heldBack d (hostWith (c 1)) (c 1) = false ∧ tableBad (c 1).d d = [] ∧
    tableBad (dsc 0x20 1 [0]) { d with mm := { d.mm with bad := [(0x20, 0)] } } ≠ [] ∧ dTarget (c 0).d = 0 ∧
    (0 < dTarget (c 1).d ∧ dTarget (c 62).d < 0x3F) ∧ enumerated d 62 = false ∧
    (enumerated d 2 = true ∧ (posRec d 2).low = true ∧ isWake (c 2).d = false) ∧
    (enumerated broken 1 = true ∧ (posRec broken 1).low = false ∧ reachable broken 1 = false ∧ reachable d 1 = true) ∧
    (dOp (c 1).d ≠ 0x11 ∧ tableOf (c 1).d = none ∧ (∀ k ∈ (hostWith (c 1)).cmds, k.bulk = [])) ∧
    passed (reqTimeout d) 0 (tick (BitVec.ofNat 64 (reqTimeout d)) ringHead).now = true ∧ passed (reqTimeout d) 0 1 = false ∧
    [((7 : Nat), (0 : Time))].find? (fun e => e.1 == 7) = some (7, 0) ∧ acc.kind = 0 ∧
    (fin.kind ≠ 0 ∧ fin.off = 0 ∧ fin.total = fin.data.length ∧ fin.total ≤ 244) ∧ (∀ k ∈ (hostWith (c 1)).cmds, dOp k.d ≠ 0x90) ∧
    ((zeros 32).length = 32 ∧ (eventOf (zeros 32)).code ∉ [0x0001, 0x1003, 0x1206, 0x1401, 0x1601]) ∧
    (dOp (dsc 0x81 0 []) = 0x81 ∧ zeroFrom (dsc 0x81 0 []) 2 = true ∧ dOp (dsc 0xF0 0 [1]) = 0xF0) := by
  and_intros <;> decide +kernel

/-- PortTransfers: both ends of the window and of the registers, an address between the regions, an odd one in octal mode; the port in octal
mode and not, with a good second opcode byte and a bad one. -/
theorem wit_port :
    let octal := { Hst.init with on := true, octal := true }
    headUp.awake = true ∧ headUp.head = true ∧ Settled (st headUp) ∧ Calm (tick 5 headUp) ∧ octalOdd octal 0x3FFFE 2 = false ∧
    (0x3FFFE + 2 ≤ winSize ∧ 0 < winSize) ∧
    octalOdd octal 1 2 = true ∧ octalOdd octal 0x40000 2 = false ∧ regionOf 0x40000 = none ∧ regionOf 0x3FFFF ≠ none ∧
    windowBad headUp 0 4 = [] ∧ (0xFFFC % 4 = 0 ∧ 0xFFFC < 0x10000) ∧ regionOf 0x110000 = none ∧ octal.octal = true ∧
    (0xF3 : Byte) = ~~~0x0C ∧ (0x06 : Byte) ∉ portOpcodes ∧
    devByte 5 { octal with devAt := 5, devWrote := [(16, 32)] } 47 = true ∧ devByte 5 octal 47 = false ∧ (0x0C : Byte) ≠ ~~~0x0C := by
  and_intros <;> decide +kernel

/-- Pair 0 with rings of four entries at 0, 256 and 512, results at 1,024. -/
def ringed : Dev :=
  setReg (pairOff R.hostSqCfg 0) 0x00040000 (setReg (pairOff R.hostCqCfg 0) 0x00040010 (setReg (pairOff R.hostResCfg 0) 0x00040010
    (setReg R.hostEqCfg 0x00040010 headUp)))

/-- The host port of `ringed`, its rings running. -/
def ringHost (q : Pair) : Hst :=
  { Hst.init with on := true, pairs := q :: Hst.init.pairs.tail, eq := { EvtRing.init with run := true } }

/-- A pair with a submission that wraps and a completion that the host has not passed. -/
def pairOne : Pair := { Pair.init with run := true, sqHead := 3, written := [⟨0, 0, 0⟩], cqTail := 1 }

/-- A host port with a descriptor at index 3 of its submission ring. -/
def submits (c : Desc) : Hst := { ringHost pairOne with win := msetList winDefault [] 192 1 (descBytes c) }

/-- RingsServed: the first and the last index of a ring, an index beyond it; a submission that wraps; completions the host passes and has not
yet; an event head that passes one entry; commands before and at their deadline; a QUIET command, and a result that finds its place. -/
theorem wit_rings :
    let d := tick 5 ringed
    let good := submits (dsc 0xF0 0 [])
    let bad := submits (dsc 0x7F 0 [])
    let full := { good with pairs := { pairOne with written := List.replicate 3 ⟨0, 0, 0⟩ } :: good.pairs.tail }
    let ev := { good.eq with tail := 1, unserved := [(0, false)] }
    let c : HeadCmd := { cmdTo 0 with d := dsc 0xF0 0 [], sent := true }
    let com : HeadCmd := { cmdTo 0 with d := dsc 0x04 0x3F [1], sent := true }
    Calm d ∧ 0 < Hst.init.pairs.length ∧ ringSize d (pairOff R.hostSqCfg 0) = 4 ∧ doorIndex 0 = nextIdx 4 pairOne.sqHead ∧ 4 ≤ doorIndex 4 ∧
    ringBase d (pairOff R.hostSqCfg 0) 64 + 64 * pairOne.sqHead = 192 ∧ (pair good 0).run = true ∧ (pair Hst.init 0).run = false ∧
    malformed (readDesc good 192) 0 d good = 0 ∧ headFull 0 d good = 0 ∧
    malformed (readDesc bad 192) 0 d bad ≠ 0 ∧ headFull 0 d full ≠ 0 ∧
    (ringDist 4 pairOne.cqHead (doorIndex 1) ≤ ringDist 4 pairOne.cqHead pairOne.cqTail ∧ pairOne.waiting = []) ∧
    ringDist 4 pairOne.cqHead pairOne.cqTail < ringDist 4 pairOne.cqHead (doorIndex 2) ∧ ringSize d R.hostEqCfg = 4 ∧
    (ev.run = true ∧ doorIndex 1 < 4 ∧ ringDist 4 ev.head (doorIndex 1) ≤ ringDist 4 ev.head ev.tail) ∧
    ringDist 4 ev.head ev.tail < ringDist 4 ev.head (doorIndex 2) ∧
    (findCmd (hostWith c) 7 = some c ∧ isWaiting (hostWith c) c = false) ∧
    deadline c.d * lsbPerSec ≤ c.age (tick (BitVec.ofNat 64 (deadline c.d * lsbPerSec)) ringed).now ∧
    c.age d.now < deadline c.d * lsbPerSec ∧
    (dTarget com.d = 0x3F ∧ dOp com.d = 0x04 ∧ com.applyAt + reqTimeout d ≤ (tick (BitVec.ofNat 64 (reqTimeout d)) ringed).now.toNat ∧
      d.now.toNat < com.applyAt + reqTimeout d) ∧ (dQuiet c.d && decide (0 = 0)) = false ∧
    (dQuiet (c.d.set 0 0x800000F0) && decide (0 = 0)) = dQuiet (c.d.set 0 0x800000F0) ∧
    (placeResult (pair good 0) (resLen d 0) 0).isSome = true := by
  and_intros <;> decide +kernel

/-- BucketsAndCheckUnits: a level of 255, one just below N; a leak of a lasting bucket at N; an event ring with room and without; a check unit
in each state of its alive counter; both masks of CHK_CFG. -/
theorem wit_buckets :
    let d := tick 5 (setLevel 3 0 255 (dv true))
    let x := ringHost Pair.init
    let full := { x with eq := { x.eq with unserved := List.replicate 3 (0, false) } }
    let u : ChkUnit := { (chkUnit (dv true) 1) with synced := true, exp := 5, last := 4 }
    Calm d ∧ Settled (st (dv true)) ∧ d.ev.count < 65536 ∧ level d 3 0 = 255 ∧
    (lasting (dv true) 0 0 = false ∧ bucketN (dv true) 0 ≤ level (setLevel 0 0 254 (dv true)) 0 0 + 1) ∧
    (42 < 43 ∧ 0 < bucketCount 42) ∧ lasting (setLevel 0 0 (bucketN (dv true) 0) (dv true)) 0 0 = true ∧ (bucketFault 0 0).isSome = true ∧
    x.eq.run = true ∧ x.eq.unserved.length < eqRoom ringed ∧ eqRoom ringed ≤ full.eq.unserved.length ∧
    (u.synced = true ∧ fld (5 : Word) 15 0 = u.exp ∧ fld (4 : Word) 15 0 = u.last ∧ fld (4 : Word) 15 0 ≠ u.exp) ∧
    (fld (9 : Word) 15 0 ≠ u.exp ∧ fld (9 : Word) 15 0 ≠ u.last) ∧ (chkUnit (dv true) 1).synced = false ∧
    regBit (dv true) (chkOff R.chkCfg 0) 16 = false := by
  and_intros <;> decide +kernel

/-! ### Witnesses: registers and commits -/

/-- A property of the row of a register. -/
def rowIs (off : Nat) (p : RegRow → Bool) : Bool :=
  match regInfo off with
  | some r => p r
  | none => false

/-- A device with a posted write to each other domain in flight. -/
def posting : Dev := { dv true with pr := { Prot.init with xM := some ⟨0x1000, 0xFF, 5⟩, xA := some ⟨0x0050, 0xFF, 5⟩ } }

/-- A device that has counted a frame dropped in the present cycle. -/
def dvBumped : Dev := bump R.ringCnt 15 0 1 (tick 5 (dv true))

/-- R10: 0, an increment and, in the same cycle, an alias write that sets bit 4 leave 0x11, whichever comes first. -/
theorem test_same_cycle_sum :
    after (exec (.aliasWrite 5 (0x02000000 + 0x20 * R.ringCnt + 16) 4 1) { st (dv true) with dev := dvBumped })
      (fun s => decide (fld (reg s.dev R.ringCnt) 15 0 = 0x11)) = true := by decide +kernel

/-- RegistersTakeWrites: a shadowed register of each domain, a status, a direct, a trigger, a read-only and a dangerous register; sizes that
are and are not aligned; a domain that is busy; the masters with the window open and closed; an alias bit; a bump of the same clock cycle. -/
theorem wit_registers :
    let d := tick 5 (dv true)
    Calm d ∧ rowIs R.ringCfg (fun r => decide (r.priv = .any) && r.shadowed) = true ∧ onMdie R.ringCfg = false ∧ onAon R.ringCfg = false ∧
    rowIs R.measCtrl (fun r => decide (r.priv = .any) && r.shadowed) = true ∧ onMdie R.measCtrl = true ∧ onAon R.measCtrl = false ∧
    rowIs R.sysWakeTimer (fun r => decide (r.priv = .any) && r.shadowed) = true ∧ onAon R.sysWakeTimer = true ∧
    rowIs R.protErrCnt (fun r => decide (r.priv = .any ∧ r.cls = .status)) = true ∧
    rowIs R.chkPoly (fun r => decide (r.priv = .any ∧ r.cls = .direct)) = true ∧
    rowIs R.protCommit (fun r => decide (r.priv = .any ∧ r.cls = .trigger)) = true ∧
    rowIs R.sysSupply (fun r => decide (r.priv = .read)) = true ∧ rowIs R.measCells (fun r => decide (r.priv = .dangerous)) = true ∧
    regInfo 0xFFFC = none ∧ aligned 3 1 = true ∧ aligned 2 2 = true ∧ aligned 1 2 = false ∧ aligned 2 4 = false ∧
    domainBusy posting 0x1000 = true ∧ domainBusy posting 0x0050 = true ∧ domainBusy posting R.ringCfg = false ∧ hostIgnored d 0x5000 = false ∧
    dangerousOk .executor d = false ∧ dangerousOk .executor window = true ∧ dangerousOk .hostPort window = true ∧
    hostOn (headUp, { Hst.init with on := true }) = true ∧ kget 0 d.cyc.hw R.ringCfg = 0 ∧ d.cyc.sums = [] ∧
    (dvBumped.cyc.sums = [(sumKey R.ringCnt 15 0, (0, 1))] ∧ fld (laneMask 0 4) 15 0 ≠ 0) := by
  and_intros <;> decide +kernel

/-- RegistersTakeWrites: the alias region, a posted write that lands, and the three opcodes at the ends of their ranges. -/
theorem wit_register_commands :
    (inAlias 0x02090000 = true ∧ aliasBit 0x02090000 = (R.ringCfg, 0) ∧ rowIs R.ringCfg (fun r => bit r.writable 0) = true) ∧
    (posting.pr.xA = some ⟨0x0050, 0xFF, 5⟩ ∧ posting.pr.commits = [] ∧ posting.pr.revert = none ∧ (dv true).pr.xA = none) ∧
    (dOp (dsc 0x01 0 [0xFFFC, 64]) = 0x01 ∧ okRegRead (dsc 0x01 0 [0xFFFC, 1]) = true) ∧
    (dOp (dsc 0x02 0 [0x4800, 1, 7]) = 0x02 ∧ okRegWrite (dsc 0x02 0 [0x4800, 1, 7]) = true ∧ okRegWrite (dsc 0x02 0 [0x1000, 12]) = true) ∧
    (dangerousIn 0x1000 12 ≠ [] ∧ windowOpen (dv true) = false ∧ dangerousIn 0x1004 1 ≠ []) ∧
    (dOp (dsc 0x03 0 [0x4800, 1, 1]) = 0x03 ∧ okRegModify (dsc 0x03 0 [0x4800, 1, 1]) = true) := by
  and_intros <;> decide +kernel

/-- A commit of a mask that waits for 20 us, with its snapshot. -/
def commitOf (mask : Nat) (d : Dev) : PendCommit := ⟨4000, mask, .register, false, false, 0, false, false, some ⟨snapshot d mask, snapFaults mask (snapshot d mask) (d, Hst.init)⟩⟩

set_option maxRecDepth 100000 in
/-- CommitsApply: masks with the least and the greatest group; a COMMIT of this device at once, at a time to come and at one that has passed; a
broadcast one of the head; a COMMIT frame seen, a new one, a late one, and one at a device without a position; a commit that is due and breaks
no rule, one that breaks one, and one that is not due. -/
theorem wit_commits :
    let good := { dv true with pr := { Prot.init with commits := [commitOf 1 (dv true)] } }
    let wrong := setShadow R.measCells 33 (dv true)
    let bad := { wrong with pr := { Prot.init with commits := [commitOf 4 wrong] } }
    let timed := dsc 0x04 0 [0x101, 1000, 0]
    let d := unbufferAny 0x08 (tick 4000 devUp)
    fld (0x01 : Word) 7 0 ≠ 0 ∧ fld (0x80 : Word) 7 0 ≠ 0 ∧ (dv true).pr.xM = none ∧ (dv true).pr.xA = none ∧ Calm (tick 5 (dv true)) ∧ Calm d ∧
    (dOp timed = 0x04 ∧ okCommit timed = true ∧ cmTimed timed = true ∧
      (tick 1000 (dv true)).now.toNat ≤ cmTime timed ∧ cmTime timed < (tick 1001 (dv true)).now.toNat) ∧
    (broken (tick 1001 (dv true), Hst.init) (cmMask timed) (lookIn (tick 1001 (dv true)) (snapshot (tick 1001 (dv true)) (cmMask timed))) = [] ∧
      (cmMask timed).testBit 0 = true) ∧
    (okCommit (dsc 0x04 0 [1]) = true ∧ cmTimed (dsc 0x04 0 [1]) = false ∧ dTarget (dsc 0x04 0 [1]) ≠ 0x3F) ∧
    (okCommit (dsc 0x04 0x3F [1]) = true ∧ dTarget (dsc 0x04 0x3F [1]) = 0x3F) ∧
    (d.running = true ∧ d.head = false ∧ d.rg.pos ≤ 62 ∧ 62 < (dv false).rg.pos ∧ (7, 4000) ∈ [((7 : Nat), (4000 : Time))] ∧
      (8, 4000) ∉ d.pr.seen ∧ d.now.toNat ≤ (4000 : Time).toNat ∧ (3999 : Time).toNat < d.now.toNat) ∧
    broken (d, Hst.init) 1 (lookIn d ((snapshot d 1).map (fun e => (e.1, shadowBefore d e.1)))) = [] ∧
    (commitReady (tick 4000 good) (commitOf 1 (dv true)) = true ∧ commitReady (tick 3999 good) (commitOf 1 (dv true)) = false) ∧
    good.pr.commits.filter (commitReady (tick 4000 good)) = [commitOf 1 (dv true)] ∧
    (broken (tick 4000 good, Hst.init) 1 (lookIn good (snapshot good 1)) = [] ∧ (1 : Nat).testBit 0 = true) ∧
    ((commitOf 4 wrong).snap.map Snap.bad).getD [] ≠ [] ∧ bad.pr.commits.filter (commitReady (tick 4000 bad)) = [commitOf 4 wrong] := by
  and_intros <;> decide +kernel

/-- ProtectionKept: a register with parity, a scan 1 ms after the last; 1,999 and 2,000 samples of SVC_N, and its release; a window that has run
out to the LSB and one that is closed by a write; a head that has been silent for 10 ms; a store that is refused and one that begins. -/
theorem wit_protection :
    let d := tick 2000000 (dv true)
    let spent := { dv true with pr := { Prot.init with svcSpent := true } }
    let low := { dv true with pr := { Prot.init with svcFrom := some 0 } }
    let through := { dv false with pr := { Prot.init with svcHead := true } }
    let pending := { dv true with pr := { Prot.init with scrcBad := true } }
    Calm d ∧ d.awake = true ∧ hasParity R.ringCfg = true ∧ d.pr.parBad = [] ∧ passed (msT 1) d.pr.parAt d.now = true ∧
    passed (msT 1) (dv true).pr.parAt 199999 = false ∧ svcHeld (tick 399800000 low) = true ∧ svcHeld low = false ∧
    spent.pr.svcSpent = true ∧ d.pr.svcSpent = false ∧
    window.pr.svcUntil = some 12000000000 ∧ (12000000000 : Time).toNat ≤ (tick 12000000000 window).now.toNat ∧ window.sf.extest = false ∧
    window.pr.svcHead = false ∧ through.pr.svcHead = true ∧ msT 10 ≤ since through.sf.hbRx (tick 2000000 through).now ∧
    since through.sf.hbRx (tick 1999999 through).now < msT 10 ∧ dangerousOk .executor window = true ∧ dangerousOk .belvedere (dv true) = true ∧
    cfgRefused pending = true ∧ cfgRefused (dv true) = false := by
  and_intros <;> decide +kernel

/-- A configuration store at a step. -/
def storingAt (step : Nat) : Dev :=
  { dv true with pr := { Prot.init with storing := some ⟨0, ⟨1, 0, 0, 0, []⟩, step, 0⟩ } }

/-- ProtectionKept: each step of a configuration store, at its time and before it. -/
theorem wit_config_store :
    ([2, 3, 5, 7, 13, 15, 24, 26].all fun k => let d := tick 2000000000 (storingAt k)
      d.running && d.ev.out.isEmpty && d.ex.done.isEmpty && decide (d.pr.storing = some ⟨0, ⟨1, 0, 0, 0, []⟩, k, 0⟩) && !d.pw.warn &&
      passed (nvmSpan .cfgStore d).2 (nvmSpan .cfgStore d).1 d.now && !passed (nvmSpan .cfgStore (storingAt k)).2 (nvmSpan .cfgStore (storingAt k)).1 0) = true := by
  decide +kernel

/-! ### Witnesses: memories, self-test, power -/

/-- A device with a lifetime, in seconds. -/
def aged (n : Nat) : Dev := { dv true with mm := { (dv true).mm with life := n } }

/-- Changed bits of a word read. -/
def flips (n : Nat) : BitVec 79 := BitVec.ofNat 79 (2 ^ n - 1)

/-- A firmware header that passes for the factory's device. -/
def fwJob (step : Nat) : Install := ⟨7, true, 4096, 0, 0, 2, [], step, 0⟩

/-- MemoriesAndHistory: the memories at the ends of the range, errors of one and three bits; a sweep that is due, runs and is not; a warning; a
refresh in its third and its fourth operation; a firmware job that erases and one whose marker is programmed; a mark. -/
theorem wit_memories :
    let sweep := tick 20000000 { dv true with mm := { (dv true).mm with sweepOn := true, sweepAt := 4095 } }
    let warn := { sweep with pw := { sweep.pw with warn := true } }
    let job (k : Nat) := tick 2000000000 { dv true with mm := { (dv true).mm with install := some (fwJob k), refresh := some (512, 4), marks := [⟨7, 5, 2, [], [], 0⟩] } }
    memIndex 0x20 = true ∧ memIndex 0x3F = true ∧ memIndex 0x42 = false ∧ errCount (flips 1) = 1 ∧ errCount (flips 3) = 3 ∧ Calm sweep ∧
    ((aged sweepEvery).mm.sweepOn = false ∧ (aged sweepEvery).mm.sweepStart + sweepEvery ≤ (aged sweepEvery).mm.life) ∧
    (aged (sweepEvery - 1)).mm.life < (aged (sweepEvery - 1)).mm.sweepStart + sweepEvery ∧
    (sweep.mm.sweepOn = true ∧ sweep.pw.warn = false ∧ sweep.pw.persist = false ∧ sweep.mm.refresh = none ∧
      passed (msT 100) sweep.mm.sweepLast sweep.now = true) ∧ warn.pw.warn = true ∧
    ((job 2).mm.refresh = some (512, 4) ∧ (job 2).mm.install = some (fwJob 2) ∧ (fwJob 2).step = 2 ∧ (job 5).mm.install = some (fwJob 5)) ∧
    (passed (nvmSpan .refresh (job 2)).2 (nvmSpan .refresh (job 2)).1 (job 2).now && passed (nvmSpan .fwErase (job 2)).2 (nvmSpan .fwErase (job 2)).1 (job 2).now &&
      passed (nvmSpan .fwMarker (job 5)).2 (nvmSpan .fwMarker (job 5)).1 (job 5).now && passed (nvmSpan .histMark (job 2)).2 (nvmSpan .histMark (job 2)).1 (job 2).now) = true ∧
    passed (nvmSpan .refresh (aged 5)).2 (nvmSpan .refresh (aged 5)).1 0 = false ∧ (job 2).mm.marks = ⟨7, 5, 2, [], [], 0⟩ :: [] := by
  and_intros <;> decide +kernel

set_option maxRecDepth 100000 in
/-- MemoriesAndHistory: a lifetime, a checkpoint and a summary at their ages and just before; marks; areas; FW_UPDATE refused, with a header
that fails and one that passes. -/
theorem wit_history :
    let denied := { window with pw := { window.pw with persist := true } }
    let hdr := winRead (holds []) 0 256
    ((aged 3600).mm.lifeRec + 3600 ≤ (aged 3600).mm.life ∧ (aged 3599).mm.life < (aged 3599).mm.lifeRec + 3600) ∧
    ((aged 21600).mm.checkLife + 21600 ≤ (aged 21600).mm.life ∧ (aged 21599).mm.life < (aged 21599).mm.checkLife + 21600) ∧
    ((aged 90000).mm.sumClose + 90000 ≤ (aged 90000).mm.life ∧ (aged 89999).mm.life < (aged 89999).mm.sumClose + 90000) ∧
    (dOp (dsc 0x41 0 [2, 5]) = 0x41 ∧ okHistMark (dsc 0x41 0 [2, 5]) = true) ∧
    ([dsc 0x40 0 [0, 0, 1], dsc 0x40 0 [1, 0, 1], dsc 0x40 0 [2, 0, 1], dsc 0x40 0 [3, 0, 1], dsc 0x40 0 [0, 0xFFFFFFFF, 1]].all fun c =>
      decide (dOp c = 0x40) && okHistRead c) = true ∧
    (hrArea (dsc 0x40 0 [0, 0, 1]) = 0 ∧ hrArea (dsc 0x40 0 [1, 0, 1]) = 1 ∧ (dWord (dsc 0x40 0 [0, 0, 1]) 3).toNat ≠ 0xFFFFFFFF ∧
      (dWord (dsc 0x40 0 [0, 0xFFFFFFFF, 1]) 3).toNat = 0xFFFFFFFF) ∧
    (dOp (dsc 0xA0 0 [0, 4096]) = 0xA0 ∧ okFwUpdate (dsc 0xA0 0 [0, 4096]) = true) ∧ windowOpen (dv true) = false ∧
    (fwRefusal denied).isSome = true ∧ fwRefusal window = none ∧ fwDetail window 4096 hdr ≠ 0 := by
  and_intros <;> decide +kernel

/-- SelfTestsMark: a lane test that waits while one that finds a failure ends, and while one that finds none does. -/
theorem wit_lane_waits :
    let d (ok : Bool) : Dev := { four true with bi := { Bist.init with stA := ⟨2, some ⟨1, none, ok, true⟩, some ⟨3, some 7, true, true⟩⟩ } }
    (stages (d false) .a).on = some ⟨1, none, false, true⟩ ∧ (stages (d false) .a).queue = some ⟨3, some 7, true, true⟩ ∧ (d false).head = true ∧
    (laneFailed (stageEnd .a (d false)) .a = true ∨ spareStageFailed (stageEnd .a (d false)) .a = true) ∧
    laneFailed (stageEnd .a (d true)) .a = false ∧ spareStageFailed (stageEnd .a (d true)) .a = false := by
  and_intros <;> decide +kernel

/-- SelfTestsMark: a lane stage test in its turn and out of it; a comparator group in its slot; the ends of the tests, with no stage failed and
with one; every SELFTEST type. -/
theorem wit_self_tests :
    let d := tick 5 (four true)
    let failed := setReg (laneFailOff .a) 2 d
    let ran (x : StageTest) : Dev := { d with bi := { d.bi with stA := ⟨2, some x, none⟩ } }
    let moving := setReg R.engAssign0 0 (setReg R.engAssign1 0 (setReg R.engAssign2 0 (setReg R.engAssign3 0
      { d with en := { Eng.init with rebal := [1] } })))
    Calm d ∧ d.awake = true ∧
    (1 ≤ ncells d ∧ 1 = stageNext d .a ∧ spareStageFailed d .a = false ∧ laneFailed d .a = false ∧ relieved d (laneIdx .a 1) = false ∧
      (stages d .a).on = none ∧ (stages d .a).queue = none) ∧ laneFailed failed .a = true ∧
    (∃ t < 4, groupCells d t ≠ []) ∧ groupCells d 3 = [] ∧
    (∀ x : StageTest, x ∈ [⟨1, none, true, false⟩, ⟨4, some 7, false, true⟩] → (stages (ran x) .a).on = some x ∧ 1 ≤ x.cell ∧ x.cell ≤ 32) ∧
    d.bi.cmpQueue = none ∧ d.bi.cmpJob = false ∧ d.ca.cmpFrom = none ∧ (∃ n ∈ groupCells d 0, pairSkipped (setReg (resOff .a 1) 0 d) n = false) ∧
    (∀ n ∈ groupCells d 0, pairSkipped d n = true) ∧ cmpSlot d 0 180000000 = true ∧ cmpSlot d 0 179999999 = false ∧
    ([dsc 0x70 0 [0], dsc 0x70 0 [0x301], dsc 0x70 0 [0x2401], dsc 0x70 0 [0x302], dsc 0x70 0 [0x103], dsc 0x70 0 [0xF03]].all fun c =>
      decide (dOp c = 0x70) && okSelftest c) = true ∧ stageAsked d = false ∧
    ({ d with bi := { d.bi with recs := [zeros 64] } }.bi.recs.getLast?) = some (zeros 64) ∧
    (stIndex (dsc 0x70 0 [0x301]) % 32 + 1 ≤ ncells d ∧ ncells d < stIndex (dsc 0x70 0 [0x2401]) % 32 + 1) ∧
    (groupCells d (stIndex (dsc 0x70 0 [0x302])) = [] ∧ stType (dsc 0x70 0 [0x302]) = 2) ∧
    (servedBy d 0 ≠ [] ∧ servedBy moving (stIndex (dsc 0x70 0 [0x103])) = [] ∧ moving.en.rebal ≠ [] ∧ moving.pw.persist = false ∧
      d.bi.engTest = none) := by
  and_intros <;> decide +kernel

/-- SelfTestsMark: REPAIR with the window open and closed, one that waits for its record; instructions that take the pins and that do not. -/
theorem wit_repair :
    let job := tick 2000000000 { window with bi := { Bist.init with recDue := true, job := some ⟨7, 0, []⟩ } }
    let taken := { upDev (four true) with bi := { Bist.init with ir := 3 } }
    (dOp (dsc 0x71 0 [0xFF]) = 0x71 ∧ okRepair (dsc 0x71 0 [0xFF]) = true ∧ repairRefusal window = none ∧ windowOpen (dv true) = false) ∧
    ((0 : Nat) < 66 ∧ (5 : Nat) < 6) ∧ Calm job ∧
    (job.pw.warn = false ∧ passed (nvmSpan .repairRecord job).2 (nvmSpan .repairRecord job).1 job.now = true ∧ job.bi.recDue = true ∧
      job.bi.job = some ⟨7, 0, []⟩) ∧
    (holdsPins 3 = true ∧ holdsPins 6 = true ∧ holdsPins 2 = false ∧ holdsPins 0x1F = false ∧ holdsPins taken.bi.ir = true ∧
      holdsPins (four true).bi.ir = false) ∧ Calm (tick 5 taken) ∧ (port (upDev (four true)) .north).st = .up := by
  and_intros <;> decide +kernel

/-- A start that has left reset. -/
def leaving : Dev := { Dev.init with pw := { Power.init with held := false } }

/-- ResetsAndStarts: a device that runs and one that starts; each cause just beyond its limit and within it; the software reset at 10 ms; a start
that is held and one that has left reset. -/
theorem wit_resets :
    let soft := tick 2000000 { dv true with pw := { (dv true).pw with swReset := some 0 } }
    let gz := { dv true with pw := { (dv true).pw with st := .shutdown } }
    Settled State.reset ∧ Calm soft ∧ (dv true).running = true ∧ resettable 2 (dv true) = true ∧ resettable 7 Dev.init = true ∧
    (5 < 6 ∧ 1000 ≤ 1000 ∧ (140 : Int) < 141) ∧ (dv true).pw.st ≠ .off ∧ gz.pw.st = .shutdown ∧
    soft.pw.swReset = some 0 ∧ passed (msT 10) 0 soft.now = true ∧ passed (msT 10) 0 1999999 = false ∧
    (dv true).awake = true ∧ (Dev.init.pw.st = .starting ∧ Dev.init.pw.held = true ∧ Dev.init.pw.aborted = false ∧ okEnv.ended = true) ∧
    (dangerousOk .executor window = true ∧ dangerousOk .executor (dv true) = false) ∧ (dv true).pw.st ≠ .starting ∧
    (leaving.pw.st = .starting ∧ leaving.pw.held = false ∧ leaving.sf.extest = false ∧ Settled (st leaving)) := by
  and_intros <;> decide +kernel

/-- A device in a low-power state, with its wake sources. -/
def asleep (p : PowerState) (wake : Word) : Dev := setReg R.sysWakeCfg wake { dv true with pw := { (dv true).pw with st := p } }

/-- A device in STANDBY with its supply warned of since 0. -/
def warned : Dev := { dv true with pw := { (dv true).pw with warn := true } }

/-- PowerStatesMove, awake: a warning that is new, 10 ms old, and cleared for 100 ms; an idle device after 10 ms and before; POWER to each state,
denied and not; the head's own low-power broadcast. -/
theorem wit_power_awake :
    let d := tick 2000000 warned
    let dip := tick 20001000 { dv true with pw := { (dv true).pw with persist := true, dip := some (0, 1000) } }
    let store := { dv true with bi := { Bist.init with job := some ⟨7, 0, []⟩ } }
    let active := { dv true with pw := { (dv true).pw with st := .active } }
    let c : HeadCmd := ⟨7, 0, dsc 0x90 0x3F [1], 0, true, [], [(0, 0)], [], 0, false, [], 0, 0⟩
    d.awake = true ∧ Calm d ∧ (dv true).pw.warn = false ∧ d.pw.warn = true ∧ d.pw.persist = false ∧ d.mm.due = NvDue.none ∧ d.bi.pendRec = none ∧
    quiet d 6 = false ∧ d.mm.summ.recs < recordBudget ∧
    msT 10 ≤ since d.pw.warnAt d.now ∧ since warned.pw.warnAt (tick 1999999 warned).now < msT 10 ∧
    (dip.pw.warn = false ∧ dip.pw.persist = true ∧ dip.pw.dip = some (0, 1000) ∧ msT 100 ≤ since 1000 dip.now) ∧
    (active.pw.st = .active ∧ active.pw.floorActive = false ∧ active.en.imp = none ∧ active.en.est = none ∧
      msT 10 ≤ since active.pw.workAt (tick 2000000 active).now) ∧
    ([1, 2, 3, 4, 5].all fun n => decide (dOp (dsc 0x90 0 [n]) = 0x90) && okPower (dsc 0x90 0 [n])) = true ∧ (dv true).ca.user = none ∧
    (4 ≤ pwState (dsc 0x90 0 [4]) ∧ pwState (dsc 0x90 0 [3]) ≤ 3) ∧ lowDenied (lowState 3) (dv true) = true ∧ lowDenied (lowState 1) store = true ∧
    lowDenied (lowState 1) (dv true) = false ∧ dTarget (dsc 0x90 0 [1]) ≠ 0x3F ∧
    (lowPower c.d = true ∧ dTarget c.d = 0x3F ∧ answerOf c 0 = some 0x00 ∧ isWaiting (hostWith c) c = false ∧
      msT 1 ≤ since c.since (tick 200000 (dv true)).now) ∧ (¬ 1000 < 1000 ∧ 1000 < 1001) := by
  and_intros <;> decide +kernel

/-- A Gazebo run of four cells, whose first cycle is due. -/
def gzRunning : Gazebo := ⟨⟨1, 0, 60, (256, 25000, 9) :: List.replicate 31 (0, 0, 0)⟩, 1, 0x73691808, false, 0, 0, [], 256, false, true⟩

/-- A reading of cells of 3.3 V at a temperature, in units of 1/64 degree. -/
def gzRead (amb : Int) : GazeboReading :=
  ⟨List.replicate 32 ⟨0, 65536, 65536 * 33000000, 0⟩, amb, amb, false, List.replicate 32 0, List.replicate 32 0⟩

/-- PowerStatesMove, closing and asleep: a closing of 64.5 ms, one that is aborted, a WAKE pin at 2.1 ms; each wake source enabled and not;
comparator samples inside and outside the thresholds, 100 ms after the last and before; the seal tested for the first time, in its period and after
it; a GAZEBO cycle that ends, one that goes on, and one before its time. -/
theorem wit_power_asleep :
    let d := tick 12900000 (closing .sleep)
    let seen := setReg R.measCells 4 (setReg R.cmpThr 0x006400FA { asleep .sleep 15 with pw := { (asleep .sleep 15).pw with tripSeen := [(1, true)] } })
    let gz := setReg R.measCells 4 { asleep .gazebo 8 with ba := { Bal.init with gz := some gzRunning } }
    (d.pw.st = .closing ∧ Calm d ∧ d.pw.aborted = false ∧ d.pw.target.low = true ∧ d.pw.warn = false ∧ usT 64500 ≤ since d.pw.closeAt d.now) ∧
    msT 2 ≤ since (closing .sleep).pw.closeAt (tick 400000 (closing .sleep)).now ∧
    (wakeEn d 0 = true ∧ wakeEn (setReg R.sysWakeCfg 0 d) 0 = false ∧ usT 2100 ≤ since d.pw.closeAt (tick 420000 d).now) ∧
    ([PowerState.shutdown, .sleep, .gazebo].all fun p => p.low) = true ∧ Settled (st (asleep .sleep 15)) ∧
    (let e := elapse 3600000 (asleep .sleep 15)
     wakeEn e 0 = true ∧ wakeEn e 1 = true ∧ wakeEn e 2 = true ∧ sleeping e = true ∧ 1000 * regFld e R.sysWakeTimer 16 0 ≤ e.pw.entryMs) ∧
    (wakeEn (asleep .sleep 0) 0 = false ∧ wakeEn (asleep .sleep 0) 1 = false ∧ wakeEn (asleep .sleep 0) 2 = false) ∧
    sleeping (asleep .gazebo 15) = true ∧ (asleep .sleep 15).pr.sealOpen = false ∧
    (asleep .sleep 15).pr.sealLast = none ∧ sealDue (elapse 3600000 (asleep .sleep 15)) = true ∧ 5 < 0 + msT 98 ∧ 0 + msT 98 ≤ (tick 20000000 warned).now.toNat ∧
    (elapse 99 (asleep .sleep 15)).pw.entryMs < (asleep .sleep 15).pw.cmpMs + 100 ∧
    (asleep .sleep 15).pw.cmpMs + 100 ≤ (elapse 100 (asleep .sleep 15)).pw.entryMs ∧
    (outside seen [5001, 3300, 3300, 3300] = [(1, true)] ∧ outside seen [5000, 3300, 3300, 3300] = [] ∧ outside seen [1999] = [(1, false)] ∧
      seen.pw.tripSeen ≠ []) ∧
    (gzCycle [] 4 1500 0 1000 (gzRead 1600) gzRunning).2.1 = 0 ∧ (gzCycle [] 4 1500 0 (60 * 3600000) (gzRead 1600) gzRunning).2.1 = 3 ∧
    (gz.pw.st = .gazebo ∧ gz.ba.gz = some gzRunning ∧ gzRunning.first = true ∧ wakeEn gz 3 = true ∧ wakeEn (asleep .gazebo 0) 3 = false ∧
      (elapse 9999 gz).pw.entryMs < gzRunning.ms + 10000) := by
  and_intros <;> decide +kernel

end Sys2Proof.Tests
end

section
/-! SUPPORT. Online tests that end as ring time reaches a command (files 02, 10, 12 and 14): the SELFTEST that such a test completes ends before the
command acts, and two statements do not shut that out. -/

namespace Sys2Proof.Machine

/-! ### Lengths of byte lists -/

theorem leBytes_length (n v : Nat) : (leBytes n v).length = n := by
  induction n generalizing v with
  | zero => rfl
  | succ n ih => simp [leBytes, ih]

/-- Four bytes each. -/
theorem wordsBytes_length (l : List Word) : (wordsBytes l).length = 4 * l.length := by
  induction l with
  | nil => rfl
  | cons w r ih => simp [wordsBytes, wordBytes, leBytes_length, ih, Nat.mul_add, Nat.add_comm]

/-! ### A handle that is no longer in progress (R251) -/

/-- A stack device ends no command whose handle it does not hold. -/
theorem finish_unheld {h : Nat} {d : Dev} (status : Nat) (res : List Byte) (hs : d.head = false) (hc : ∀ k ∈ d.ex.cmds, k.h ≠ h) :
    finish h status res d = d := by
  have hn : d.ex.cmds.any (fun k => k.h == h) = false := by simpa using hc
  simp [finish, hs, hn]

/-- REG_READ in a stack device whose handle has ended by its ring time: only ring time passes. -/
theorem regRead_unheld {t : Time} {h : Nat} {s : State} (c : Desc) (hr : s.dev.running = true) (hs : s.dev.head = false)
    (calm : Calm (tick t s.dev)) (hc : ∀ k ∈ (tick t s.dev).ex.cmds, k.h ≠ h) :
    exec (.regRead t h c) s = .next { s with dev := tick t s.dev } := by
  have hop : regReadOp h c (tick t s.dev, s.hst) = (tick t s.dev, s.hst) := by
    simp only [regReadOp, finish_unheld _ _ ((tick_head t s.dev).trans hs) hc]
  have hq : settle (tick t s.dev, s.hst) = (tick t s.dev, s.hst) := settle_quiet _ calm.1 calm.2
  change actOpH 0x01 okRegRead t c (regReadOp h c) s = _
  simp only [actOpH, actH, hr, if_true, hop, ite_self, hq]

/-- A stack device in STANDBY that holds handle 7, a SELFTEST of comparator group 0 whose test begins at ring time 0 (R394, R396). -/
def groupTested : State :=
  ⟨cmpBegin 0 (some 7) [] { Dev.init with
    pw := { Power.init with st := .standby, held := false }
    ex := { Exec.init with cmds := [⟨7, 0x70 :: 0 :: 2 :: List.replicate 13 0, 0⟩] } }, Hst.init, []⟩

/-- The ring time at which that test ends, 15 ms on (Table BIST-5). -/
def groupTestEnd : Time := BitVec.ofNat 64 cmpTestLen

/-- At its end the test ends the SELFTEST: the handle is no longer held, and its result is DONE with the test's four bytes. -/
theorem groupTested_ended :
    Calm (tick groupTestEnd groupTested.dev) ∧ (tick groupTestEnd groupTested.dev).ex.cmds = [] ∧
    (tick groupTestEnd groupTested.dev).ex.results = [⟨7, 0x00, [0, 0, 0, 0], groupTestEnd⟩] := by
  refine ⟨⟨?_, ?_⟩, ?_, ?_⟩ <;> decide +kernel

/-- With that result alone held, only a command that ends as the SELFTEST did counts as finished under its handle. -/
theorem groupTested_finished {u : State} {status : Nat} {res : List Byte}
    (hf : Finished groupTested u 7 status res) (hu : u.dev.ex.results = [⟨7, 0x00, [0, 0, 0, 0], groupTestEnd⟩]) :
    status = 0x00 ∧ res = [0, 0, 0, 0] := by
  obtain ⟨-, hheld⟩ := hf
  obtain ⟨hmem, -⟩ := hheld ⟨_, List.mem_singleton_self _, rfl⟩
  rw [hu, List.mem_singleton] at hmem
  exact ⟨congrArg HeldResult.status hmem, congrArg HeldResult.res hmem⟩

/-- REG_READ of two words from 0xFFF8. -/
def readTwoWords : Desc := 0x01 :: 0 :: 0xFFF8 :: 2 :: List.replicate 12 0

/-- Refutes O54 in its clause on REG_READ: `Finished` asks for a result under a handle that was held before ring time passed, while the command
acts after it. Where the SELFTEST of that handle ends at the same ring time, the result held is the SELFTEST's four bytes, not the eight of the
two words. -/
theorem not_registersTakeWrites : ¬ Obligations.RegistersTakeWrites := by
  unfold Obligations.RegistersTakeWrites
  rintro ⟨-, hops⟩
  obtain ⟨calm, hcmds, hres⟩ := groupTested_ended
  obtain ⟨hread, -, -⟩ := hops groupTested groupTestEnd 7 readTwoWords 0xFFF8 _ rfl rfl calm rfl
  obtain ⟨u, hu, hfin, -⟩ := hread rfl rfl
  rw [regRead_unheld readTwoWords rfl rfl calm (by simp [hcmds])] at hu
  obtain rfl := Host.Outcome.next.inj hu
  obtain ⟨-, hwords⟩ := groupTested_finished hfin hres
  have hlen := congrArg List.length hwords
  simp only [wordsBytes_length, List.length_map] at hlen
  exact absurd hlen (by decide)

/-! ### A completion between the release of reset and READY -/

/-- Posting events leaves the outstanding commands of the head. -/
theorem HostEvents.cmds_eq {a b : Hst} (h : HostEvents a b) : b.cmds = a.cmds := by rw [h]

/-- A head that has left reset at ring time 0 with a comparator group test of handle 7 under way, and that command, a QUIET SELFTEST,
outstanding at its host port. -/
def startTested : State :=
  ⟨cmpBegin 0 (some 7) [] { Dev.init with pw := { Power.init with held := false, mode := true } },
    { Hst.init with cmds := [⟨7, 0, 0x20070 :: 0 :: 2 :: List.replicate 13 0, 0, true, [], [], [], 0, false, [], 0, 0⟩] }, []⟩

/-- The test ends before READY, so that the end of START_COMPLETE completes its command. -/
theorem startTested_completed : (settle (ready (startTested.dev, startTested.hst))).2.cmds = [] := by decide +kernel

/-- Refutes O59 in its last clause: its premise does not shut out an online test that ends between the release of reset and READY, and the
completion of that test's command changes more of the host port than events do. -/
theorem not_resetsAndStarts : ¬ Obligations.ResetsAndStarts := by
  unfold Obligations.ResetsAndStarts
  rintro ⟨-, -, -, -, -, hstart⟩
  obtain ⟨-, hready⟩ := hstart startTested ⟨rfl, rfl⟩
  obtain ⟨u, hu, -, hev, -⟩ := hready rfl rfl
  obtain rfl := Host.Outcome.next.inj hu
  have hcmds := hev.cmds_eq
  rw [startTested_completed] at hcmds
  cases hcmds

end Sys2Proof.Machine
end

section
/-! SUPPORT. POWER to STANDBY in a stack device at the ring time at which an online test completes the command of its handle (files 02 and 14). -/

namespace Sys2Proof.Machine

/-- Without a CAL_USER, POWER has none to abort (R127). -/
theorem userAbort_none {d : Dev} (h : d.ca.user = none) : userAbort d = d := by simp only [userAbort, h]

/-- POWER to STANDBY in a stack device that does not hold its handle lowers the floor and ends no command (R51, R251). -/
theorem power_standby_unheld {h : Nat} {c : Desc} {b : Both} (hc : pwState c = 4) (hu : b.1.ca.user = none) (hs : b.1.head = false)
    (hn : ∀ k ∈ b.1.ex.cmds, k.h ≠ h) : power h c b = (withPw (fun p => { p with floorActive := false }) b.1, b.2) := by
  have hf := finish_unheld (h := h) St.done [] (d := withPw (fun p => { p with floorActive := false }) b.1) hs hn
  simp only [power, userAbort_none hu, hc, if_true, hf]

/-- The same as a step, where ring time leaves nothing to post. -/
theorem exec_power_standby_unheld {t : Time} {h : Nat} {c : Desc} {s : State} {d : Dev} (hd : d = tick t s.dev) (hr : s.dev.running = true)
    (ha : d.awake = true) (calm : Calm d) (hop : dOp c = 0x90) (hok : okPower c = true) (hc : pwState c = 4) (hu : d.ca.user = none)
    (hs : d.head = false) (hn : ∀ k ∈ d.ex.cmds, k.h ≠ h) :
    exec (.power t h c) s = .next { s with dev := withPw (fun p => { p with floorActive := false }) d } := by
  subst hd
  change actOpH 0x90 okPower t c (power h c) s = _
  simp only [actOpH, actH, hr, ha, hop, hok, decide_true, Bool.and_self, if_true,
    power_standby_unheld (b := (tick t s.dev, s.hst)) hc hu hs hn]
  rw [settle_quiet _ calm.1 calm.2]

/-- POWER to STANDBY. -/
def powerStandby : Desc := 0x90 :: 0 :: 4 :: List.replicate 13 0

/-- Refutes O60 in its clause on POWER to STANDBY or ACTIVE: `Finished` asks for POWER's result, without bytes, under a handle that was held before
ring time passed. Where the SELFTEST of that handle ends at the same ring time, the result held is the SELFTEST's four bytes. -/
theorem not_powerStatesMove : ¬ Obligations.PowerStatesMove := by
  unfold Obligations.PowerStatesMove
  rintro ⟨hawake, -⟩
  obtain ⟨calm, hcmds, hres⟩ := groupTested_ended
  have awake : (tick groupTestEnd groupTested.dev).awake = true := by decide +kernel
  have noUser : (tick groupTestEnd groupTested.dev).ca.user = none := by decide +kernel
  obtain ⟨-, -, -, -, -, -, -, -, -, -, hpower, -⟩ := hawake groupTested groupTestEnd _ rfl awake calm
  obtain ⟨u, hu, hfloor, -⟩ := hpower 7 powerStandby rfl rfl
  obtain ⟨hfin, -⟩ := hfloor noUser (by decide)
  rw [exec_power_standby_unheld rfl rfl awake calm rfl rfl rfl noUser (tick_head _ _) (by simp [hcmds])] at hu
  obtain rfl := Host.Outcome.next.inj hu
  obtain ⟨-, hbytes⟩ := groupTested_finished hfin hres
  exact absurd hbytes (by decide)

end Sys2Proof.Machine
end

section
/-! SUPPORT. The state after reset; engine jobs, the saved tracker state and FW_UPDATE (files 02, 06 and 13): statements that a completion at the
command's own ring time, or a ring time since restarted, refutes. -/

namespace Sys2Proof.Machine

/-! ### Reset (R46, R409, R410) -/

/-- Settles O6: the maps of the reset state list no entry, so that each register reads its reset value, and the rest is what the reset
state holds by definition. -/
theorem resetState : Obligations.ResetState :=
  ⟨fun _ => ⟨rfl, rfl⟩, rfl, rfl, ⟨rfl, rfl⟩, rfl, rfl, rfl⟩

/-! ### A handle whose SELFTEST ends at the command's ring time (R251, R396) -/

/-- A command that ends at a stack device which held its handle leaves its result there. -/
theorem Finished.mem_results {s u : State} {h status : Nat} {res : List Byte} (hf : Finished s u h status res)
    (hs : s.dev.head = false) (hc : ∃ c ∈ s.dev.ex.cmds, c.h = h) : ⟨h, status, res, u.dev.now⟩ ∈ u.dev.ex.results := by
  rw [Finished, if_neg (by simp [hs])] at hf
  exact (hf.2 hc).1

/-- The result that the SELFTEST of `groupTested` leaves. -/
def groupTestResults : List HeldResult := [⟨7, 0x00, [0, 0, 0, 0], groupTestEnd⟩]

/-- Where a stack device that held handle 7 holds the SELFTEST's result alone, no command of that handle has ended with another status. -/
theorem not_finished_of_groupTestResults {s u : State} {status : Nat} {res : List Byte} (hs : s.dev.head = false)
    (hc : ∃ c ∈ s.dev.ex.cmds, c.h = 7) (hu : u.dev.ex.results = groupTestResults) (hst : status ≠ 0x00) :
    ¬ Finished s u 7 status res := by
  intro hf
  have hmem := hf.mem_results hs hc
  rw [hu, groupTestResults, List.mem_singleton] at hmem
  exact hst (congrArg HeldResult.status hmem)

/-! ### Engine jobs (R173, R181, R190) -/

/-- ESTIMATE of the state of charge of every configured cell. -/
def estimateSoc : Desc := 0x31 :: 0 :: 1 :: List.replicate 13 0

/-- Under handle 7 it ends nothing in `groupTested`: the SELFTEST has ended there before it. -/
theorem groupTested_estimate {u : State} (hu : exec (.estimate groupTestEnd 7 estimateSoc) groupTested = .next u) :
    u.dev.ex.results = groupTestResults := by
  obtain rfl := Host.Outcome.next.inj hu
  decide +kernel

/-- Refutes O33 in its clause on an ESTIMATE that is denied: `Finished` asks for DENIED_STATE under a handle that was held before ring time
passed. Where the SELFTEST of that handle ends at the same ring time, the result held is the SELFTEST's. -/
theorem not_engineJobsAccepted : ¬ Obligations.EngineJobsAccepted := by
  unfold Obligations.EngineJobsAccepted
  intro h
  obtain ⟨calm, -, -⟩ := groupTested_ended
  obtain ⟨-, -, hestimate⟩ := h groupTested groupTestEnd 7 estimateSoc _ rfl (by decide +kernel) calm
  obtain ⟨u, hu, hdenied, -⟩ := hestimate rfl (by decide) (by decide +kernel)
  obtain ⟨hfin, -⟩ := hdenied (by decide +kernel)
  exact not_finished_of_groupTestResults rfl ⟨_, List.mem_singleton_self _, rfl⟩ (groupTested_estimate hu) (by decide) hfin

/-- An IMPEDANCE job of handle 7 that is to excite cell 1 at 1 Hz and has not begun. -/
def activeJob : ImpJob :=
  { h := 7, d := 0x30 :: 0 :: 0x101 :: 1 :: 100 :: 0 :: 0 :: 0x3F800000 :: 0x3F800000 :: List.replicate 7 0, points := [0x3F800000]
    mask := 1, startAt := 0, begun := false, idx := 0, lost0 := 0, recomp := [], noact := [], skipped := [], half := none
    thermal := [], runs := [], got := [], packMax := 0, fault := false, framed := false, late := 0 }

/-- `groupTested` with that job. -/
def jobTested : State :=
  { groupTested with dev := { groupTested.dev with en := { Eng.init with imp := some activeJob } } }

/-- The job, whose cell may not be excited, ends nothing there: the SELFTEST of its handle has ended before it. -/
theorem jobTested_impedanceStart {u : State} (hu : exec (.impedanceStart groupTestEnd 7) jobTested = .next u) :
    u.dev.ex.results = groupTestResults := by
  obtain rfl := Host.Outcome.next.inj hu
  decide +kernel

/-- Refutes O34 in its clause on an active job without a cell that may be excited: `Finished` asks for INPUT_NOT_READY under a handle that
was held before ring time passed. Where the SELFTEST of that handle ends at the same ring time, the result held is the SELFTEST's. -/
theorem not_engineJobsRun : ¬ Obligations.EngineJobsRun := by
  unfold Obligations.EngineJobsRun
  rintro ⟨⟨hstart, -⟩, -⟩
  have calm : Calm (tick groupTestEnd jobTested.dev) := by refine ⟨?_, ?_⟩ <;> decide +kernel
  obtain ⟨-, hbegin⟩ := hstart jobTested groupTestEnd activeJob _ rfl (by decide +kernel) calm (by decide +kernel) rfl
  obtain ⟨u, hu, hnone, -⟩ := hbegin (by decide +kernel) (by decide +kernel)
  obtain ⟨hfin, -⟩ := hnone (by decide) (by decide +kernel)
  exact not_finished_of_groupTestResults rfl ⟨_, List.mem_singleton_self _, rfl⟩ (jobTested_impedanceStart hu) (by decide) hfin

/-! ### FW_UPDATE (R383) -/

/-- FW_UPDATE of an image of 4,096 bytes. -/
def updateFirmware : Desc := 0xA0 :: 0 :: 0 :: 4096 :: List.replicate 12 0

/-- Under handle 7 it ends nothing in `groupTested`, as ESTIMATE does not. -/
theorem groupTested_fwUpdate {u : State} (hu : exec (.fwUpdate groupTestEnd 7 updateFirmware) groupTested = .next u) :
    u.dev.ex.results = groupTestResults := by
  obtain rfl := Host.Outcome.next.inj hu
  decide +kernel

/-- Refutes O57 in its clause on FW_UPDATE refused: `Finished` asks for DENIED_WINDOW under a handle that was held before ring time passed.
Where the SELFTEST of that handle ends at the same ring time, the result held is the SELFTEST's. -/
theorem not_memoriesAndHistory : ¬ Obligations.MemoriesAndHistory := by
  unfold Obligations.MemoriesAndHistory
  rintro ⟨-, -, h⟩
  obtain ⟨calm, -, -⟩ := groupTested_ended
  obtain ⟨-, -, hupdate⟩ := h groupTested groupTestEnd 7 updateFirmware _ rfl (by decide +kernel) calm
  obtain ⟨u, hu, hrefused, -⟩ := hupdate rfl (by decide)
  have hwindow : fwRefusal (tick groupTestEnd groupTested.dev) = some 0x11 := by decide +kernel
  obtain ⟨hfin, -⟩ := hrefused _ hwindow
  exact not_finished_of_groupTestResults rfl ⟨_, List.mem_singleton_self _, rfl⟩ (groupTested_fwUpdate hu) (by decide) hfin

/-! ### The saved tracker state (R182) -/

/-- A stack device in STANDBY at ring time 0 with its trackers on, whose tracker state was last saved at ring time 1: ring time has been
restarted since. -/
def savedAhead : State :=
  { State.reset with dev := { Dev.init with
      regs := [(R.engCtrl, 1)]
      pw := { Power.init with st := .standby, held := false }
      en := { Eng.init with savedAt := some 1 } } }

/-- TRACKER_STATE_SAVE saves there: a save that lies ahead counts as passed. -/
theorem savedAhead_saves {u : State} (hu : exec (.trackerStateSave 0) savedAhead = .next u) : u.dev.en.savedAt = some 0 := by
  obtain rfl := Host.Outcome.next.inj hu
  decide +kernel

/-- Refutes O36 in its clause on TRACKER_STATE_SAVE before 600 s have passed: it measures them by `since`, which is 0 where the last save lies
ahead of a ring time since restarted, while the model takes such a save as passed and saves again. -/
theorem not_trackersUpdate : ¬ Obligations.TrackersUpdate := by
  unfold Obligations.TrackersUpdate
  rintro ⟨-, hsave⟩
  obtain ⟨hidle, -⟩ := hsave savedAhead 0 _ rfl (by decide +kernel) (by refine ⟨?_, ?_⟩ <;> decide +kernel)
  have hu := hidle (.inr ⟨1, by decide +kernel, by decide +kernel⟩)
  exact absurd (savedAhead_saves hu) (by decide +kernel)

end Sys2Proof.Machine
end

section
/-! SUPPORT. A command whose table BULK has brought is still held when it acts, and MODEL_LOAD (files 02 and 06). -/

namespace Sys2Proof.Machine

/-! ### Operations that leave the commands of the device as they are (R251) -/

@[simp] theorem post_ex (code b10 : Nat) (data : List Byte) (d : Dev) : (post code b10 data d).ex = d.ex :=
  (frame_post ..).1 .ex (by decide)

@[simp] theorem occurAt_ex (t : Time) (s i code : Nat) (data : List Byte) (d : Dev) : (occurAt t s i code data d).ex = d.ex :=
  (frame_occurAt ..).1 .ex (by decide)

@[simp] theorem occur_ex (s i code : Nat) (data : List Byte) (d : Dev) : (occur s i code data d).ex = d.ex := occurAt_ex ..

@[simp] theorem countOnly_ex (s i : Nat) (d : Dev) : (countOnly s i d).ex = d.ex := (frame_countOnly ..).1 .ex (by decide)

@[simp] theorem occurFault_ex (s i code : Nat) (data : List Byte) (d : Dev) : (occurFault s i code data d).ex = d.ex :=
  (frame_occurFault ..).1 .ex (by decide)

@[simp] theorem setRegBit_ex (off i : Nat) (b : Bool) (d : Dev) : (setRegBit off i b d).ex = d.ex := rfl

@[simp] theorem withStages_ex (g : LaneGroup) (f : StageGroup → StageGroup) (d : Dev) : (withStages g f d).ex = d.ex := withBist_ex ..

@[simp] theorem retestEngine_ex (k : Nat) (d : Dev) : (retestEngine k d).ex = d.ex := withBist_ex ..

@[simp] theorem excludeEngine_ex (k : Nat) (bad : Bool) (d : Dev) : (excludeEngine k bad d).ex = d.ex := withBist_ex ..

/-- Either branch of a test. -/
theorem ite_ex {p : Prop} [Decidable p] {a b : Dev} {x : Exec} (ha : a.ex = x) (hb : b.ex = x) : (if p then a else b).ex = x := by
  split <;> assumption

/-- A loop leaves them where its body does. -/
theorem each_ex {α : Type} {f : α → Dev → Dev} (h : ∀ x d, (f x d).ex = d.ex) (l : List α) (d : Dev) : (each f l d).ex = d.ex :=
  each_fst (P := fun e => e.ex = d.ex) f (fun x e he => (h x e).trans he) l d rfl

@[simp] theorem fitS_ex (n : Nat) (z : Int) (d : Dev) : (fitS n z d).2.ex = d.ex := by
  unfold fitS
  split <;> rfl

@[simp] theorem setCorr_ex (off : Nat) (v : Word) (d : Dev) : (setCorr off v d).ex = d.ex := ite_ex rfl rfl

@[simp] theorem cmpBegin_ex (k : Nat) (h : Option Nat) (seen : List PairSeen) (d : Dev) : (cmpBegin k h seen d).ex = d.ex := rfl

@[simp] theorem withdraw_ex (d : Dev) : (withdraw d).ex = d.ex := by
  unfold withdraw
  exact each_ex (fun _ _ => by split <;> rfl) ..

@[simp] theorem handover_ex (t : Time) (spare lane dir : Nat) (step : Int) (d : Dev) : (handover t spare lane dir step d).ex = d.ex := by
  unfold handover
  have h := fitS_ex 24 step d
  generalize fitS 24 step d = r at h ⊢
  obtain ⟨v, e⟩ := r
  refine Eq.trans (ite_ex ?_ (setReg_ex ..)) h
  rw [withdraw_ex, countOnly_ex, occurAt_ex, setReg_ex]

@[simp] theorem bgJudge_ex (d : Dev) : (bgJudge d).ex = d.ex := ite_ex (ite_ex rfl rfl) (ite_ex (occurFault_ex ..) rfl)

@[simp] theorem bgTake_ex (e : Int) (d : Dev) : (bgTake e d).ex = d.ex := by simp [bgTake]

@[simp] theorem fitStep_ex (m a b : Nat) (o : ReliefOutcome) (d : Dev) : (fitStep m a b o d).ex = d.ex :=
  ite_ex rfl (ite_ex (bgTake_ex ..) (by simp))

@[simp] theorem applyStep_ex (m : Nat) (o : ReliefOutcome) (d : Dev) : (applyStep m o d).ex = d.ex :=
  ite_ex (ite_ex rfl (by simp)) rfl

@[simp] theorem stageFound_ex (g : LaneGroup) (x : StageTest) (d : Dev) : (stageFound g x d).ex = d.ex :=
  ite_ex rfl (ite_ex rfl ((post_ex ..).trans (ite_ex rfl rfl)))

@[simp] theorem testBank_ex (b : BankFails) (d : Dev) : (testBank b d).ex = d.ex := ite_ex rfl (post_ex ..)

@[simp] theorem moveCell_ex (n : Nat) (d : Dev) : (moveCell n d).ex = d.ex := by
  unfold moveCell
  split <;> rfl

@[simp] theorem engineFail_ex (k cause : Nat) (d : Dev) : (engineFail k cause d).ex = d.ex :=
  ite_ex (ite_ex ((each_ex moveCell_ex ..).trans (occur_ex ..)) (occur_ex ..)) rfl

@[simp] theorem fuseDone_ex (m i : Nat) (ok : Bool) (d : Dev) : (fuseDone m i ok d).ex = d.ex := ite_ex (post_ex ..) rfl

@[simp] theorem advance_ex (t : Time) (d : Dev) : (advance t d).ex = d.ex := (frame_advance t d).1 .ex (by decide)

/-! ### Commands that end take their tables with them (R251, R288) -/

/-- From device a to device b no table of BULK has come, and a command that is no longer held has none left. -/
structure TablesEnd (a b : Dev) : Prop where
  bulk : ∀ x ∈ b.ex.bulk, x ∈ a.ex.bulk
  held : ∀ h, (∃ c ∈ a.ex.cmds, c.h = h) → (∃ c ∈ b.ex.cmds, c.h = h) ∨ ∀ x ∈ b.ex.bulk, x.1 ≠ h

theorem TablesEnd.of_ex {a b : Dev} (h : b.ex = a.ex) : TablesEnd a b :=
  ⟨fun _ hx => h ▸ hx, fun _ hc => .inl (h ▸ hc)⟩

theorem TablesEnd.trans {a b c : Dev} (h : TablesEnd a b) (k : TablesEnd b c) : TablesEnd a c := by
  refine ⟨fun x hx => h.bulk x (k.bulk x hx), fun n hn => ?_⟩
  rcases h.held n hn with hb | hb
  · exact k.held n hb
  · exact .inr fun x hx => hb x (k.bulk x hx)

theorem tablesEnd_finish (h status : Nat) (res : List Byte) (d : Dev) : TablesEnd d (finish h status res d) := by
  unfold finish
  split
  · exact ⟨fun _ => id, fun _ => .inl⟩
  split
  · dsimp only
    have hex := fun e => (frame_sendFinal h status res e).1 .ex (by decide)
    refine TablesEnd.trans (b := { d with ex := { d.ex with
      cmds := d.ex.cmds.filter (fun c => c.h ≠ h)
      bulk := d.ex.bulk.filter (fun b => b.1 ≠ h)
      results := d.ex.results.filter (fun r => r.h ≠ h) ++ [⟨h, status, res, d.now⟩] } }) ?_ (.of_ex (hex _))
    refine ⟨fun _ hx => (List.mem_filter.mp hx).1, fun n ⟨c, hc, hn⟩ => ?_⟩
    by_cases he : n = h
    · subst he
      exact .inr fun x hx => by simpa using (List.mem_filter.mp hx).2
    · exact .inl ⟨c, List.mem_filter.mpr ⟨hc, by simpa [hn] using he⟩, hn⟩
  · exact .of_ex rfl

theorem TablesEnd.ite {p : Prop} [Decidable p] {a b c : Dev} (h : TablesEnd a b) (k : TablesEnd a c) :
    TablesEnd a (if p then b else c) := by split <;> assumption

theorem tablesEnd_cmpTestEnd (k : Nat) (r : CmpFound) (d : Dev) : TablesEnd d (cmpTestEnd k r d) := by
  have hposts : ∀ e : Dev, (each (fun n d => post 0x1C02 0 [2, BitVec.ofNat 8 k] (setRegBit R.bistCmpFail (n - 1) true d))
      (maskCells (r.ov ||| r.uv)) e).ex = e.ex := each_ex (fun _ _ => by simp) _
  have hnext : ∀ a e : Dev, TablesEnd a e → TablesEnd a (match e.bi.cmpQueue with
      | none => e
      | some (h, k2, seen) =>
        let e := withBist (fun t => { t with cmpQueue := none }) e
        if (groupCells e k2).all (pairSkipped e) then finish h St.inputNotReady [] e else cmpBegin k2 (some h) seen e) := by
    intro a e h
    split
    · exact h
    · refine h.trans (.ite (TablesEnd.trans ?_ (tablesEnd_finish ..)) ?_) <;> exact .of_ex rfl
  refine hnext _ _ ?_
  split
  · refine TablesEnd.trans ?_ (tablesEnd_finish ..)
    exact .of_ex (hposts _)
  · exact .of_ex (hposts _)

theorem tablesEnd_stageTry (g : LaneGroup) (d : Dev) : TablesEnd d (stageTry g d) := by
  unfold stageTry
  split
  · refine .ite ?_ (.ite (.of_ex rfl) (.of_ex rfl))
    dsimp only
    split
    · refine TablesEnd.trans ?_ (tablesEnd_finish ..)
      exact .of_ex rfl
    · exact .of_ex rfl
  · exact .of_ex rfl

theorem tablesEnd_stageEnd (g : LaneGroup) (d : Dev) : TablesEnd d (stageEnd g d) := by
  unfold stageEnd
  split
  · exact .of_ex rfl
  · refine TablesEnd.trans ?_ (tablesEnd_stageTry ..)
    split
    · refine TablesEnd.trans ?_ (tablesEnd_finish ..)
      exact .of_ex (by simp)
    · exact .of_ex (by simp)

theorem tablesEnd_engineTested (h k : Nat) (l : List BankFails) (d : Dev) : TablesEnd d (engineTested h k l d) := by
  unfold engineTested
  refine TablesEnd.trans (.of_ex ?_) (tablesEnd_finish ..)
  rw [excludeEngine_ex]
  split
  · rw [engineFail_ex, each_ex testBank_ex, retestEngine_ex, withBist_ex]
  · rw [each_ex testBank_ex, retestEngine_ex, withBist_ex]

theorem tablesEnd_calStep (x : CalDue) (d : Dev) : TablesEnd d (calStep x d) := by
  unfold calStep
  refine TablesEnd.trans (.of_ex (advance_ex x.due d)) ?_
  dsimp only
  split
  · split <;> exact .of_ex (by simp)
  · exact .of_ex (by simp)
  · exact .of_ex (by simp)
  · split <;> exact .of_ex (by simp)
  · exact tablesEnd_cmpTestEnd ..
  · exact tablesEnd_stageEnd ..
  · exact tablesEnd_stageTry ..
  · exact tablesEnd_engineTested ..
  · exact .of_ex (by simp)
  · exact .of_ex rfl

theorem tablesEnd_calRunN (t : Time) (n : Nat) (d : Dev) : TablesEnd d (calRunN t n d) := by
  induction n generalizing d with
  | zero => exact .of_ex rfl
  | succ n ih =>
    unfold calRunN
    split
    · exact .of_ex rfl
    · split
      · refine TablesEnd.trans (TablesEnd.trans ?_ (tablesEnd_calStep ..)) (ih _)
        exact .of_ex rfl
      · exact .of_ex rfl

/-- A command that ring time ends takes its table with it. -/
theorem tablesEnd_tick (t : Time) (d : Dev) : TablesEnd d (tick t d) :=
  ((tablesEnd_calRunN t _ d).trans (.of_ex (advance_ex ..))).trans
    (.of_ex (((frame_releasePorts _).1 .ex (by decide)).trans ((frame_runTo _).1 .ex (by decide))))

/-- Without a chunk of it no table is there. -/
theorem bulkBytes_none {d : Dev} {h : Nat} (len : Nat) (hn : ∀ x ∈ d.ex.bulk, x.1 ≠ h) : bulkBytes d h len = [] := by
  have hfind : ∀ i : Nat, d.ex.bulk.find? (fun x => x.1 == h && x.2.1 == 248 * i) = none := fun i => by
    rw [List.find?_eq_none]
    intro x hx
    simp [hn x hx]
  simp [bulkBytes, hfind]

/-- A command of a stack device whose table is there as it acts is held then, if it was before ring time passed. -/
theorem held_of_table {t : Time} {h off len : Nat} {d : Dev} {x : Hst} {tab : List Byte} (hs : d.head = false) (hl : len ≠ 0)
    (ht : tableBytes h off len (tick t d, x) = some tab) (hc : ∃ c ∈ d.ex.cmds, c.h = h) : ∃ c ∈ (tick t d).ex.cmds, c.h = h := by
  rcases (tablesEnd_tick t d).held h hc with hheld | hnone
  · exact hheld
  · rw [tableBytes, if_neg (by simp [hs]), bulkBytes_none len hnone] at ht
    simp [Ne.symm hl] at ht

/-! ### The end of a command that posts no event (R251, R289) -/

/-- Without an event to post, the end of a command takes its completions away and leaves the rest of the device. -/
theorem settle_dev {b : Both} (h : b.1.ev.out = []) : (settle b).1 = { b.1 with ex := { b.1.ex with done := [] } } := by
  obtain ⟨d, x⟩ := b
  simp only at h
  simp only [settle, h, each]
  rw [show ({ d.ev with out := [] } : Events) = d.ev by rw [← h]]

/-- Where nothing is left to post, the end of a command does nothing. -/
theorem settle_calm {d : Dev} {x : Hst} (calm : Calm d) : settle (d, x) = (d, x) := settle_quiet (d, x) calm.1 calm.2

theorem frame_settle_ex {b : Both} (h : b.1.ev.out = []) : ChangesOnly [.ex] [] b.1 (settle b).1 := by
  rw [settle_dev h]
  refine ⟨fun q hq => ?_, fun _ _ => rfl⟩
  cases q <;> simp_all [Part.same]

/-- An opcode command awake, for a descriptor that it takes. -/
theorem actOpH_next {op : Nat} {ok : Desc → Bool} {t : Time} {c : Desc} (f : Both → Both) {s : State} (ha : (tick t s.dev).awake = true)
    (hop : dOp c = op) (hok : ok c = true) : actOpH op ok t c f s = .next { s with
      dev := (settle (f (tick t s.dev, s.hst))).1
      hst := (settle (f (tick t s.dev, s.hst))).2 } := by
  have hr : s.dev.running = true := by simpa using running_of_awake ha
  simp only [actOpH, actH, hr, ha, hop, hok, decide_true, Bool.and_self, if_true]

/-- The state after a command that ended device e's command h. -/
def endedState (s : State) (h status : Nat) (res : List Byte) (e : Dev) : State :=
  { s with dev := (settle (finish h status res e, s.hst)).1, hst := (settle (finish h status res e, s.hst)).2 }

theorem finish_out (h status : Nat) (res : List Byte) (e : Dev) : (finish h status res e).ev = e.ev :=
  (frame_finish h status res e).1 .ev (by decide)

theorem frame_endedState {s : State} {h status : Nat} {res : List Byte} {e : Dev} (he : e.ev.out = []) :
    ChangesOnly [.ex, .queues, .cyc] [R.ringCnt] e (endedState s h status res e).dev :=
  (frame_finish h status res e).trans ((frame_settle_ex (by rw [finish_out, he])).mono)

/-- In the head the completion is posted. -/
theorem finished_endedState_head {s : State} {h status : Nat} {res : List Byte} {e : Dev} (calm : Calm e) (hs : s.dev.head = true)
    (hh : e.head = true) : Finished s (endedState s h status res e) h status res := by
  obtain ⟨hev, hdone⟩ := calm
  rw [Finished, if_pos hs]
  refine ⟨s.hst, .refl _, ?_⟩
  simp only [endedState, finish, hh, if_true, settle, hev, hdone, each, List.nil_append]

/-- In a stack device that holds the handle, the result is held. -/
theorem finished_endedState_stack {s : State} {h status : Nat} {res : List Byte} {e : Dev} (calm : Calm e) (hs : s.dev.head = false)
    (hh : e.head = false) (hheld : (∃ c ∈ s.dev.ex.cmds, c.h = h) → ∃ c ∈ e.ex.cmds, c.h = h) :
    Finished s (endedState s h status res e) h status res := by
  obtain ⟨hev, hdone⟩ := calm
  have hfin : (finish h status res e).ex.done = [] := by
    simp only [finish, hh, Bool.false_eq_true, if_false]
    split
    · rw [(frame_sendFinal ..).1 .ex (by decide)]
      exact hdone
    · exact hdone
  have hq := settle_quiet (finish h status res e, s.hst) (by rw [finish_out, hev]) hfin
  rw [Finished, if_neg (by simp [hs]), endedState, hq]
  refine ⟨rfl, fun hc => ?_⟩
  have hany : e.ex.cmds.any (fun k => k.h == h) = true := by simpa using hheld hc
  simp only [finish, hh, Bool.false_eq_true, if_false, hany, if_true]
  rw [(frame_sendFinal ..).1 .ex (by decide), (frame_sendFinal ..).1 .now (by decide)]
  simp

/-! ### MODEL_LOAD (R191 to R193) -/

/-- A slot with a running ESTIMATE refuses the table. -/
theorem loadModel_busy {h : Nat} {c : Desc} {tab : List Byte} {d : Dev} (hp : d.pw.persist = false) (hb : slotBusy d (mlSlot c) = true) :
    loadModel h c tab d = finish h 0x31 [] d := by
  simp only [loadModel, hp, hb, Bool.false_eq_true, if_false, if_true]

/-- The result of MODEL_LOAD: slot, detail code, and the table's CRC. -/
def loadResult (c : Desc) (detail : Nat) (tab : List Byte) : List Byte :=
  [BitVec.ofNat 8 (mlSlot c), BitVec.ofNat 8 detail, 0, 0] ++ leBytes 4 (tab32 tab (mlLen c - 4))

/-- A table that fails a check is not loaded. -/
theorem loadModel_failed {h : Nat} {c : Desc} {tab : List Byte} {d : Dev} (hp : d.pw.persist = false) (hb : slotBusy d (mlSlot c) = false)
    (hk : modelDetail (mlLen c) tab ≠ 0) :
    loadModel h c tab d = finish h 0x40 (loadResult c (modelDetail (mlLen c) tab) tab) d := by
  simp only [loadModel, loadResult, hp, hb, Bool.false_eq_true, if_false, if_pos hk]

/-- The device with the table of a slot in its place, or waiting for the tracker boundary where trackers use the slot. -/
def takeTable (slot : Nat) (tab : List Byte) (d : Dev) : Dev :=
  if slotTracked d slot then withEng (fun e => { e with newModels := e.newModels.filter (fun m => m.1 ≠ slot) ++ [(slot, tab)] }) d
  else withEng (fun e => { e with models := kset [] e.models slot tab }) d

/-- A good table is loaded. -/
theorem loadModel_loaded {h : Nat} {c : Desc} {tab : List Byte} {d : Dev} (hp : d.pw.persist = false) (hb : slotBusy d (mlSlot c) = false)
    (hk : modelDetail (mlLen c) tab = 0) : loadModel h c tab d = finish h 0x00 (loadResult c 0 tab) (takeTable (mlSlot c) tab d) := by
  simp only [loadModel, loadResult, takeTable, hp, hb, hk, Bool.false_eq_true, if_false, ne_eq, not_true_eq_false]

theorem frame_withEng (f : Eng → Eng) (d : Dev) : ChangesOnly [.en] [] d (withEng f d) := by
  refine ⟨fun q hq => ?_, fun _ _ => rfl⟩
  cases q <;> simp_all [Part.same]

theorem frame_takeTable (slot : Nat) (tab : List Byte) (d : Dev) : ChangesOnly [.en] [] d (takeTable slot tab d) :=
  .ite (frame_withEng ..) (frame_withEng ..)

/-- A slot that no tracker uses holds the table at once, and no other slot changes. -/
theorem model_takeTable {slot : Nat} {tab : List Byte} {d : Dev} (ht : slotTracked d slot = false) (k : Nat) :
    model (takeTable slot tab d) k = if k = slot then tab else model d k := by
  simp [takeTable, ht, model, kget, kset, mget_mset]

/-- Models depend on the engines' fields alone. -/
theorem model_congr {a b : Dev} (h : b.en = a.en) (k : Nat) : model b k = model a k := by rw [model, h, model]

/-- MODEL_LOAD once its table is there. -/
theorem exec_modelLoad {t : Time} {h : Nat} {c : Desc} {s : State} {tab : List Byte} (ha : (tick t s.dev).awake = true)
    (hop : dOp c = 0x32) (hok : okModelLoad c = true) (ht : tableBytes h (mlOff c) (mlLen c) (tick t s.dev, s.hst) = some tab) :
    exec (.modelLoad t h c) s = .next { s with
      dev := (settle (loadModel h c tab (tick t s.dev), s.hst)).1
      hst := (settle (loadModel h c tab (tick t s.dev), s.hst)).2 } := by
  change execModelLoad t h c s = _
  rw [execModelLoad, actOpH_next _ ha hop hok]
  simp only [ht]

/-- The descriptor of a MODEL_LOAD that is not malformed has a table. -/
theorem mlLen_pos {c : Desc} (hok : okModelLoad c = true) : mlLen c ≠ 0 := by
  simp only [okModelLoad, Bool.and_eq_true, decide_eq_true_eq] at hok
  omega

section
variable {s : State} {t : Time} {h : Nat} {c : Desc} {tab : List Byte}
variable (hok : okModelLoad c = true) (ht : tableBytes h (mlOff c) (mlLen c) (tick t s.dev, s.hst) = some tab)
include hok ht

/-- MODEL_LOAD ends with its status and result, whatever it made of the engines' fields. -/
theorem finished_modelLoad {status : Nat} {res : List Byte} {e : Dev} (calm : Calm (tick t s.dev))
    (he : ChangesOnly [.en] [] (tick t s.dev) e) : Finished s (endedState s h status res e) h status res := by
  have hev : e.ev = (tick t s.dev).ev := he.1 .ev (by decide)
  have hex : e.ex = (tick t s.dev).ex := he.1 .ex (by decide)
  have hpw : e.pw = (tick t s.dev).pw := he.1 .pw (by decide)
  have hh : e.head = s.dev.head := by rw [Dev.head, hpw, ← Dev.head, tick_head]
  have hcalm : Calm e := by rwa [Calm, hev, hex]
  cases hs : s.dev.head
  · refine finished_endedState_stack hcalm hs (hh.trans hs) fun hc => ?_
    rw [hex]
    exact held_of_table hs (mlLen_pos hok) ht hc
  · exact finished_endedState_head hcalm hs (hh.trans hs)

end

/-- Settles O35: each branch of MODEL_LOAD ends by `finish`, whose completion finds the handle still held, since the table that BULK brought for
it would otherwise be gone. -/
theorem modelLoadChecks : Obligations.ModelLoadChecks := by
  unfold Obligations.ModelLoadChecks
  rintro s t h c d rfl ha calm hop hok
  refine ⟨fun ht => ?_, fun tab ht hp => ?_, fun tab ht hp => ?_⟩
  · change execModelLoad t h c s = _
    rw [execModelLoad, actOpH_next _ ha hop hok]
    simp only [ht, settle_calm calm]
  · rw [exec_modelLoad ha hop hok ht]
    simp only [loadModel, hp, if_true]
    rw [settle_quiet _ calm.1 calm.2]
    rfl
  · rw [exec_modelLoad ha hop hok ht]
    refine ⟨_, rfl, ?_⟩
    have hsame := ChangesOnly.refl [.en] [] (tick t s.dev)
    cases hb : slotBusy (tick t s.dev) (mlSlot c)
    · by_cases hk : modelDetail (mlLen c) tab = 0
      · rw [loadModel_loaded hp hb hk]
        have htake := frame_takeTable (mlSlot c) tab (tick t s.dev)
        have hend := frame_endedState (s := s) (h := h) (status := 0x00) (res := loadResult c 0 tab)
          (e := takeTable (mlSlot c) tab (tick t s.dev)) (by rw [htake.1 .ev (by decide), calm.1])
        have hen := hend.1 .en (by decide)
        refine ⟨by simp, fun _ hk' => absurd hk hk', fun _ _ => ⟨?_, fun hu => ?_, fun hu => ?_⟩, (htake.mono).trans (hend.mono)⟩
        · exact finished_modelLoad hok ht calm htake
        · refine ⟨?_, fun k hk => ?_⟩
          · exact (model_congr hen _).trans ((model_takeTable hu _).trans (if_pos rfl))
          · exact (model_congr hen _).trans ((model_takeTable hu _).trans (if_neg hk))
        · change (endedState s h 0x00 (loadResult c 0 tab) _).dev.en.models = _ ∧ _ ∈ (endedState s h 0x00 (loadResult c 0 tab) _).dev.en.newModels
          rw [show _ = _ from hen]
          simp [takeTable, hu]
      · rw [loadModel_failed hp hb hk]
        have hend := frame_endedState (s := s) (h := h) (status := 0x40) (res := loadResult c (modelDetail (mlLen c) tab) tab) calm.1
        exact ⟨by simp, fun _ _ => ⟨hend.1 .en (by decide), finished_modelLoad hok ht calm hsame⟩, fun _ hk' => absurd hk' hk, hend.mono⟩
    · rw [loadModel_busy hp hb]
      have hend := frame_endedState (s := s) (h := h) (status := 0x31) (res := []) calm.1
      exact ⟨fun _ => ⟨finished_modelLoad hok ht calm hsame, hend.1 .en (by decide)⟩, by simp, by simp, hend.mono⟩

end Sys2Proof.Machine
end

section
/-! SUPPORT. What the link operations change: queues, buckets, bursts, a rate that fails, a hop that goes down (file 08). -/

namespace Sys2Proof.Machine

/-! ### Ports -/

theorem ChangesOnly.still {ps : List Part} {rs : List Nat} {a b : Dev} (h : ChangesOnly ps rs a b) (p : Port)
    (hp : portPart p ∉ ps := by decide) : (port b p).still = (port a p).still := by
  cases p
  · exact h.1 .north hp
  · exact h.1 .south hp

theorem frame_setPort (p : Port) (x : LinkPort) (d : Dev) : ChangesOnly [portPart p, .queues] [] d (setPort p x d) := by
  refine ⟨fun q hq => ?_, fun _ _ => by cases p <;> rfl⟩
  cases p <;> cases q <;> simp_all [Part.same, portPart, setPort]

/-- A change of a port that leaves its queue. -/
theorem frame_setPort_queue {p : Port} {x : LinkPort} {d : Dev} (h : x.queue = (port d p).queue) :
    ChangesOnly [portPart p] [] d (setPort p x d) := by
  refine ⟨fun q hq => ?_, fun _ _ => by cases p <;> rfl⟩
  cases p <;> cases q <;> simp_all [Part.same, portPart, setPort, port]

theorem frame_withRing (f : Ring → Ring) (d : Dev) : ChangesOnly [.rg] [] d (withRing f d) := by
  refine ⟨fun q hq => ?_, fun _ _ => rfl⟩
  cases q <;> simp_all [Part.same]

theorem frame_freeWord (d : Dev) : ChangesOnly [.free] [] d (freeWord d).2 := by
  refine ⟨fun q hq => ?_, fun _ _ => rfl⟩
  cases q <;> simp_all [Part.same, freeWord]

theorem eq_otherPort {p q : Port} (h : q ≠ p) : q = otherPort p := by cases p <;> cases q <;> simp_all [otherPort]

/-! ### Queues -/

/-- From device a to device b frames have only joined the ends of the queues. -/
structure QueuesGrow (a b : Dev) : Prop where
  joined : ∀ p, ∃ l, (port b p).queue = (port a p).queue ++ l

theorem QueuesGrow.of_same {a b : Dev} (hn : b.ln.queue = a.ln.queue) (hs : b.ls.queue = a.ls.queue) : QueuesGrow a b := by
  refine ⟨fun p => ⟨[], ?_⟩⟩
  rw [List.append_nil]
  cases p
  · exact hn
  · exact hs

theorem QueuesGrow.refl (a : Dev) : QueuesGrow a a := .of_same rfl rfl

theorem QueuesGrow.trans {a b c : Dev} (h : QueuesGrow a b) (k : QueuesGrow b c) : QueuesGrow a c := by
  refine ⟨fun p => ?_⟩
  obtain ⟨l, hl⟩ := h.joined p
  obtain ⟨m, hm⟩ := k.joined p
  exact ⟨l ++ m, by rw [hm, hl, List.append_assoc]⟩

theorem QueuesGrow.ite {p : Prop} [Decidable p] {a b c : Dev} (h : QueuesGrow a b) (k : QueuesGrow a c) :
    QueuesGrow a (if p then b else c) := by split <;> assumption

theorem ChangesOnly.queuesGrow {ps : List Part} {rs : List Nat} {a b : Dev} (h : ChangesOnly ps rs a b)
    (hq : .queues ∉ ps := by decide) : QueuesGrow a b := by
  obtain ⟨hn, hs⟩ := h.1 .queues hq
  exact .of_same hn hs

theorem queuesGrow_enqueue (p : Port) (f : Frame) (d : Dev) : QueuesGrow d (enqueue p f d) := by
  refine .ite ⟨fun q => ?_⟩ (frame_bump ..).queuesGrow
  by_cases h : q = p
  · subst h
    exact ⟨[f], by rw [port_setPort]⟩
  · refine ⟨[], ?_⟩
    rw [eq_otherPort h, port_setPort_other, List.append_nil]

theorem queuesGrow_enqueueTurning (p : Port) (f : Frame) (d : Dev) : QueuesGrow d (enqueueTurning p f d) :=
  .ite (queuesGrow_enqueue ..) (.ite (queuesGrow_enqueue ..) (.ite (queuesGrow_enqueue ..) (frame_bump ..).queuesGrow))

theorem queuesGrow_sendEvent (e : EvRec) (d : Dev) : QueuesGrow d (sendEvent e d) :=
  .ite (.of_same rfl rfl) (.ite (queuesGrow_enqueueTurning ..) (.refl _))

theorem queuesGrow_postAt (t : Time) (code b10 src lv : Nat) (last record : Bool) (data : List Byte) (d : Dev) :
    QueuesGrow d (postAt t code b10 src lv last record data d) := by
  unfold postAt
  refine QueuesGrow.trans ?_ (queuesGrow_sendEvent ..)
  refine .ite ?_ (.ite ?_ ?_)
  · refine QueuesGrow.trans ?_ (frame_logRec ..).queuesGrow
    exact .of_same rfl rfl
  all_goals exact .of_same rfl rfl

theorem queuesGrow_occur (s i code : Nat) (data : List Byte) (d : Dev) : QueuesGrow d (occur s i code data d) := by
  have hcount : QueuesGrow d (countOcc s (setLevel s i (satNat 255 (level d s i + 1)) d)) :=
    ((frame_setLevel ..).queuesGrow).trans (frame_countOcc ..).queuesGrow
  refine .ite (.trans (.ite hcount ?_) (queuesGrow_postAt ..)) (.ite hcount ?_) <;> exact hcount.trans (queuesGrow_postAt ..)

/-! ### Buckets -/

/-- The levels that an occurrence leaves. -/
theorem lvl_occur (s i code : Nat) (data : List Byte) (d : Dev) :
    (occur s i code data d).ev.lvl = kset 0 d.ev.lvl (bucketBase s + i) (satNat 255 (level d s i + 1)) := by
  unfold occur occurAt
  dsimp only
  split <;> split <;> simp [postTurn, countOcc, lvl_setLevel]

/-- An occurrence leaves the level of another bucket. -/
theorem level_occur_ne {s i s' j : Nat} (code : Nat) (data : List Byte) (d : Dev) (h : bucketBase s' + j ≠ bucketBase s + i) :
    level (occur s i code data d) s' j = level d s' j := by
  simp [level, lvl_occur, kget, kset, mget_mset_ne _ _ _ h]

/-! ### The end of a command that posts events -/

/-- From device a to device b events have been posted and frames have joined the queues. -/
structure PostsOnly (a b : Dev) : Prop where
  frame : ChangesOnly [.queues, .cyc, .ev] evRegs a b
  lvl : b.ev.lvl = a.ev.lvl
  queues : QueuesGrow a b

theorem PostsOnly.trans {a b c : Dev} (h : PostsOnly a b) (k : PostsOnly b c) : PostsOnly a c :=
  ⟨h.frame.trans k.frame, k.lvl.trans h.lvl, h.queues.trans k.queues⟩

theorem PostsOnly.level {a b : Dev} (h : PostsOnly a b) (s i : Nat) : level b s i = level a s i := level_congr h.lvl s i

/-- Without a completion the end of a command posts events. -/
theorem posted_settle {b : Both} (h : b.1.ex.done = []) : PostsOnly b.1 (settle b).1 := by
  have hex : (settle b).1.ex = b.1.ex := by rw [settle_ex, ← h]
  have hframe : ChangesOnly [.cyc, .ev] [R.hostEvtLost] b.1 (settle b).1 := by
    refine ⟨fun q hq => ?_, (frame_settle b).2⟩
    by_cases he : q = .ex
    · subst he
      exact hex
    · exact (frame_settle b).1 q (by simp_all)
  exact ⟨hframe.mono, by rw [settle_ev], hframe.queuesGrow⟩

/-- A command awake with effect f, without a completion. -/
theorem actAwake_posted {t : Time} {s : State} {d : Dev} (f : Dev → Dev) (hd : d = tick t s.dev) (ha : d.awake = true)
    (hx : (f d).ex.done = []) : ∃ u, actAwake t f s = .next u ∧ PostsOnly (f d) u.dev ∧ HostEvents s.hst u.hst := by
  subst hd
  exact ⟨_, actAwake_next t f s (by simpa using ha), posted_settle (b := (f (tick t s.dev), s.hst)) hx, settle_host (f (tick t s.dev), s.hst) hx⟩

/-- A command awake with an effect that posts nothing. -/
theorem actAwake_calm {t : Time} {s : State} {d : Dev} (f : Dev → Dev) (hd : d = tick t s.dev) (ha : d.awake = true)
    (calm : Calm (f d)) : actAwake t f s = .next { s with dev := f d } := by
  subst hd
  exact actAwake_quiet t f s (by simpa using ha) calm.1 calm.2

/-- A command awake that leaves the device as it is but for ring time. -/
theorem actAwake_idle {t : Time} {s : State} {d : Dev} (f : Dev → Dev) (hd : d = tick t s.dev) (ha : d.awake = true) (calm : Calm d)
    (hf : f d = d) : actAwake t f s = .next { s with dev := d } := by
  have h := actAwake_calm (s := s) f hd ha (by rwa [hf])
  rwa [hf] at h

/-- A part of the state that leaves nothing to post keeps it so where neither events nor commands change. -/
theorem ChangesOnly.calm {ps : List Part} {rs : List Nat} {a b : Dev} (h : ChangesOnly ps rs a b) (calm : Calm a)
    (hv : .ev ∉ ps := by decide) (hx : .ex ∉ ps := by decide) : Calm b := by
  have hev : b.ev = a.ev := h.1 .ev hv
  have hex : b.ex = a.ex := h.1 .ex hx
  rwa [Calm, hev, hex]

/-! ### Rates (R236) -/

theorem rateLimit_congr {ps : List Part} {rs : List Nat} {a b : Dev} (h : ChangesOnly ps rs a b) (p : Port)
    (hr : R.linkCtrl ∉ rs := by decide) : rateLimit b p = rateLimit a p := by
  cases p <;> simp only [rateLimit, regFld, h.2 _ hr]

/-- A failed rate changes its port and posts. -/
theorem frame_rateFailed (p : Port) (d : Dev) : ChangesOnly (portPart p :: evParts) [R.ringCnt] d (rateFailed p d) := by
  have hport : ∀ x : LinkPort, ChangesOnly (portPart p :: evParts) [R.ringCnt] d (setPort p x d) := fun x =>
    (frame_setPort p x d).mono (by cases p <;> decide)
  have hoccur : ∀ e, ChangesOnly (portPart p :: evParts) [R.ringCnt] e (occur 33 (portIdx p) 0x1004 [] e) := fun _ =>
    (frame_occur ..).mono (by cases p <;> decide)
  exact .ite (hport _) (.ite (hport _) ((hport _).trans (hoccur _)))

theorem rateFailed_spec (p : Port) (d : Dev) : RateFailed d (rateFailed p d) p := by
  have hlevel : ∀ x : LinkPort, level (setPort p x d) 33 (portIdx p) = level d 33 (portIdx p) := fun x =>
    level_congr (by rw [setPort_ev]) _ _
  unfold RateFailed rateFailed nextRate
  dsimp only
  split
  · next h => exact ⟨by rw [port_setPort], by rw [hlevel, if_pos (.inl h)]⟩
  · next h =>
    split
    · next k => exact ⟨by rw [port_setPort], by rw [hlevel, if_pos (.inr k)]⟩
    · next k =>
      refine ⟨?_, ?_⟩
      · rw [(frame_occur ..).still p (by cases p <;> decide), port_setPort]
      · rw [level_occur, hlevel, if_neg (not_or.mpr ⟨h, k⟩)]

theorem RateFailed.posted {a b c : Dev} {p : Port} (h : RateFailed a b p) (k : PostsOnly b c) : RateFailed a c p := by
  obtain ⟨hport, hlevel⟩ := h
  exact ⟨(k.frame.still p (by cases p <;> decide)).trans hport, (k.level ..).trans hlevel⟩

end Sys2Proof.Machine
end

section
/-! SUPPORT. A hop that goes down, and RETRAIN (file 08). -/

namespace Sys2Proof.Machine

/-! ### Bounds of a break (R268) -/

/-- The head's record of a bound. -/
def noteBound (low : Bool) (k : Nat) (r : Ring) : Ring := if low then { r with lo := k, loEv := true } else { r with hi := k, hiEv := true }

theorem bound_eq (low : Bool) (k : Nat) (d : Dev) : bound low k d = if d.head then recognise (withRing (noteBound low k) d) else d := rfl

theorem frame_placeBreak (d : Dev) : ChangesOnly [.rg] [] d (placeBreak d) := frame_withRing ..

theorem frame_recognise (d : Dev) : ChangesOnly (.rg :: evParts) [R.ringCnt] d (recognise d) := by
  refine .ite (ChangesOnly.trans ?_ ((frame_occur ..).mono)) (.refl ..)
  exact ((frame_withRing ..).trans (frame_placeBreak ..)).mono

theorem frame_bound (low : Bool) (k : Nat) (d : Dev) : ChangesOnly (.rg :: evParts) [R.ringCnt] d (bound low k d) := by
  rw [bound_eq]
  exact .ite (((frame_withRing ..).mono).trans (frame_recognise ..)) (.refl ..)

theorem queuesGrow_recognise (d : Dev) : QueuesGrow d (recognise d) := by
  refine .ite (QueuesGrow.trans ?_ (queuesGrow_occur ..)) (.refl _)
  exact .of_same rfl rfl

theorem queuesGrow_bound (low : Bool) (k : Nat) (d : Dev) : QueuesGrow d (bound low k d) := by
  rw [bound_eq]
  refine .ite (QueuesGrow.trans ?_ (queuesGrow_recognise ..)) (.refl _)
  exact .of_same rfl rfl

/-- A break leaves the bucket of hops that go down. -/
theorem level_recognise (p : Port) (d : Dev) : level (recognise d) 32 (portIdx p) = level d 32 (portIdx p) := by
  unfold recognise
  split
  · rw [level_occur_ne _ _ _ (by cases p <;> decide)]
    rfl
  · rfl

theorem level_bound (low : Bool) (k : Nat) (p : Port) (d : Dev) : level (bound low k d) 32 (portIdx p) = level d 32 (portIdx p) := by
  rw [bound_eq]
  split
  · rw [level_recognise]
    rfl
  · rfl

theorem occur_rg (s i code : Nat) (data : List Byte) (d : Dev) : (occur s i code data d).rg = d.rg := (frame_occur ..).1 .rg (by decide)

/-- Where no break stands, the head recognises one at the bounds that it has. -/
theorem recognise_rg {d : Dev} (hh : d.head = true) : (recognise d).rg.brk = true ∧
    (d.rg.loEv = true → (recognise d).rg.lo = d.rg.lo) ∧ (d.rg.hiEv = true → (recognise d).rg.hi = d.rg.hi) ∧ (recognise d).rg.n = d.rg.n := by
  unfold recognise
  cases hb : d.rg.brk <;> simp_all [occur_rg, placeBreak]

/-- Where one stands, it changes nothing. -/
theorem recognise_of_brk {d : Dev} (hb : d.rg.brk = true) : recognise d = d := by simp [recognise, hb]

/-- The bound that a hop of port p gives the head. -/
def hopBound (p : Port) (d : Dev) : Dev :=
  match p with
  | .north => bound true 0 d
  | .south => bound false (d.rg.n + 1) d

theorem frame_hopBound (p : Port) (d : Dev) : ChangesOnly (.rg :: evParts) [R.ringCnt] d (hopBound p d) := by
  cases p <;> exact frame_bound ..

theorem queuesGrow_hopBound (p : Port) (d : Dev) : QueuesGrow d (hopBound p d) := by
  cases p <;> exact queuesGrow_bound ..

theorem level_hopBound (p q : Port) (d : Dev) : level (hopBound p d) 32 (portIdx q) = level d 32 (portIdx q) := by
  cases p <;> exact level_bound ..

/-- The bound of a break that the head takes from its own hop. -/
def OwnBound (p : Port) (n : Nat) (r : Ring) : Prop :=
  r.brk = true ∧ (match p with
    | .north => r.lo = 0
    | .south => r.hi = n + 1)

theorem hopBound_rg {p : Port} {d : Dev} (hh : d.head = true) : OwnBound p d.rg.n (hopBound p d).rg := by
  cases p
  · obtain ⟨hb, hlo, -, -⟩ := recognise_rg (d := withRing (noteBound true 0) d) hh
    rw [hopBound, bound_eq, if_pos hh]
    exact ⟨hb, hlo rfl⟩
  · obtain ⟨hb, -, hhi, -⟩ := recognise_rg (d := withRing (noteBound false (d.rg.n + 1)) d) hh
    rw [hopBound, bound_eq, if_pos hh]
    exact ⟨hb, hhi rfl⟩

theorem hopBound_n (p : Port) (d : Dev) : (hopBound p d).rg.n = d.rg.n := by
  by_cases hh : d.head = true
  · cases p
    · obtain ⟨-, -, -, hn⟩ := recognise_rg (d := withRing (noteBound true 0) d) hh
      rw [hopBound, bound_eq, if_pos hh, hn]
      rfl
    · obtain ⟨-, -, -, hn⟩ := recognise_rg (d := withRing (noteBound false (d.rg.n + 1)) d) hh
      rw [hopBound, bound_eq, if_pos hh, hn]
      rfl
  · cases p <;> rw [hopBound, bound_eq, if_neg hh]

/-- A standing break keeps its north bound as the south hop goes down. -/
theorem hopBound_south_lo {d : Dev} (hb : d.rg.brk = true) :
    (hopBound .south d).rg.brk = true ∧ (hopBound .south d).rg.lo = d.rg.lo := by
  rw [hopBound, bound_eq]
  split
  · rw [recognise_of_brk (by exact hb)]
    exact ⟨hb, rfl⟩
  · exact ⟨hb, rfl⟩

/-! ### A hop that goes down (R236, R237) -/

/-- A port that begins to train at a rate (R236). -/
def LinkPort.begun (rate : Nat) (now : Time) (x : LinkPort) : LinkPort :=
  { x with
    st := .training, trial := rate, cycles := 0, tries := 0, locked := false, rxN := 0, txN := 0, ownTo := 0, sent := none, ackDue := none
    wakeTx := false, wakeRx := false, rxHead := none, rxBad := false, cut := false, again := false, quietAt := none, trainAt := now
    listenAt := now }

theorem beginTraining_eq (p : Port) (d : Dev) : beginTraining p d = setPort p ((port d p).begun (startRate d p) d.now) d := rfl

/-- The frames that wait on a port, the outstanding one first. -/
def LinkPort.waiting (x : LinkPort) : List Frame :=
  match x.out with
  | some f => f :: x.queue
  | none => x.queue

theorem LinkPort.waiting_eq (x : LinkPort) : x.waiting = x.out.toList ++ x.queue := by
  unfold LinkPort.waiting
  cases x.out <;> rfl

/-- A port whose hop has gone down, before it trains: the frames that waited are held. -/
def LinkPort.fallen (cap : Nat) (x : LinkPort) : LinkPort :=
  { x with queue := x.waiting, out := none, retries := 0, dly := [], cap := cap }

/-- A hop has gone down, before it is counted. -/
def hopFallen (p : Port) (cap : Nat) (d : Dev) : Dev :=
  withRing (fun r => { r with upAt := none }) (beginTraining p (setPort p ((port d p).fallen cap) d))

theorem hopDown_eq (p : Port) (cause cap : Nat) (d : Dev) :
    hopDown p cause cap d = hopBound p (occur 32 (portIdx p) 0x1003 [BitVec.ofNat 8 cause] (hopFallen p cap d)) := by
  unfold hopDown hopFallen LinkPort.fallen LinkPort.waiting hopBound
  cases p <;> rfl

/-- It trains at the fastest rate allowed. -/
theorem port_hopFallen (p : Port) (d : Dev) :
    port (hopFallen p 0 d) p = ((port d p).fallen 0).begun (rateLimit d p) d.now := by
  cases p <;> simp [hopFallen, beginTraining_eq, startRate, port, setPort, withRing, rateLimit, regFld, reg, LinkPort.fallen]

theorem frame_hopFallen (p : Port) (cap : Nat) (d : Dev) : ChangesOnly [portPart p, .queues, .rg] [] d (hopFallen p cap d) := by
  have hset : ∀ x e, ChangesOnly [portPart p, .queues, .rg] [] e (setPort p x e) := fun x e =>
    (frame_setPort p x e).mono (by cases p <;> decide)
  have hring : ∀ f e, ChangesOnly [portPart p, .queues, .rg] [] e (withRing f e) := fun f e =>
    (frame_withRing f e).mono (by cases p <;> decide)
  rw [hopFallen, beginTraining_eq]
  exact ((hset _ _).trans (hset _ _)).trans (hring _ _)

theorem hopFallen_ev (p : Port) (cap : Nat) (d : Dev) : (hopFallen p cap d).ev = d.ev :=
  (frame_hopFallen p cap d).1 .ev (by cases p <;> decide)

theorem frame_hopDown (p : Port) (cause cap : Nat) (d : Dev) :
    ChangesOnly (portPart p :: .rg :: evParts) [R.ringCnt] d (hopDown p cause cap d) := by
  rw [hopDown_eq]
  have hfall := (frame_hopFallen p cap d).mono (qs := portPart p :: .rg :: evParts) (us := [R.ringCnt]) (by cases p <;> decide)
  have hoccur : ∀ e, ChangesOnly (portPart p :: .rg :: evParts) [R.ringCnt] e (occur 32 (portIdx p) 0x1003 [BitVec.ofNat 8 cause] e) :=
    fun _ => (frame_occur ..).mono (by cases p <;> decide)
  have hbound : ∀ e, ChangesOnly (portPart p :: .rg :: evParts) [R.ringCnt] e (hopBound p e) :=
    fun e => (frame_hopBound p e).mono (by cases p <;> decide)
  exact (hfall.trans (hoccur _)).trans (hbound _)

/-- What is counted and posted of a hop that goes down leaves its port but for the queue. -/
theorem still_hopDown (p : Port) (cause cap : Nat) (d : Dev) :
    (port (hopDown p cause cap d) p).still = (port (hopFallen p cap d) p).still := by
  rw [hopDown_eq, (frame_hopBound ..).still p (by cases p <;> decide), (frame_occur ..).still p (by cases p <;> decide)]

theorem queuesGrow_hopDown (p : Port) (cause cap : Nat) (d : Dev) : QueuesGrow (hopFallen p cap d) (hopDown p cause cap d) := by
  rw [hopDown_eq]
  exact (queuesGrow_occur ..).trans (queuesGrow_hopBound ..)

theorem level_hopDown (p : Port) (cause cap : Nat) (d : Dev) :
    level (hopDown p cause cap d) 32 (portIdx p) = satNat 255 (level d 32 (portIdx p) + 1) := by
  rw [hopDown_eq, level_hopBound, level_occur, level_congr (congrArg Events.lvl (hopFallen_ev ..))]

theorem level_hopDown_other (p : Port) (cause cap : Nat) (d : Dev) :
    level (hopDown p cause cap d) 32 (portIdx (otherPort p)) = level d 32 (portIdx (otherPort p)) := by
  rw [hopDown_eq, level_hopBound, level_occur_ne _ _ _ (by cases p <;> decide),
    level_congr (congrArg Events.lvl (hopFallen_ev ..))]

theorem hopFallen_n (p : Port) (cap : Nat) (d : Dev) : (hopFallen p cap d).rg.n = d.rg.n := by simp [hopFallen, beginTraining_eq]

theorem hopDown_n (p : Port) (cause cap : Nat) (d : Dev) : (hopDown p cause cap d).rg.n = d.rg.n := by
  rw [hopDown_eq, hopBound_n, occur_rg, hopFallen_n]

theorem head_congr {ps : List Part} {rs : List Nat} {a b : Dev} (h : ChangesOnly ps rs a b) (hp : .pw ∉ ps := by decide) :
    b.head = a.head := by
  have hpw : b.pw = a.pw := h.1 .pw hp
  rw [Dev.head, hpw, ← Dev.head]

theorem wentDown_hopDown (p : Port) (cause : Nat) (d : Dev) : WentDown d (hopDown p cause 0 d) p := by
  have hstill := still_hopDown p cause 0 d
  rw [port_hopFallen] at hstill
  have hfield : ∀ {α : Type} (f : LinkPort → α), (∀ x : LinkPort, f x.still = f x) →
      f (port (hopDown p cause 0 d) p) = f (((port d p).fallen 0).begun (rateLimit d p) d.now) := fun f hf => by
    rw [← hf, hstill, hf]
  refine ⟨hfield LinkPort.st fun _ => rfl, hfield LinkPort.trial fun _ => rfl, hfield LinkPort.cycles fun _ => rfl, ?_,
    hfield LinkPort.out fun _ => rfl, hfield LinkPort.retries fun _ => rfl, hfield LinkPort.dly fun _ => rfl, ?_,
    level_hopDown p cause 0 d, fun hh => ?_⟩
  · rw [LinkPort.owns, hfield LinkPort.ownTo fun _ => rfl]
    simp [LinkPort.begun]
  · obtain ⟨l, hl⟩ := (queuesGrow_hopDown p cause 0 d).joined p
    rw [port_hopFallen] at hl
    exact ⟨l, hl.trans (congrArg (· ++ l) (LinkPort.waiting_eq _))⟩
  · have hfallen : (occur 32 (portIdx p) 0x1003 [BitVec.ofNat 8 cause] (hopFallen p 0 d)).head = true := by
      rw [head_congr (frame_occur ..), head_congr (frame_hopFallen ..) (by cases p <;> decide), hh]
    have hown := hopBound_rg (p := p) hfallen
    rw [occur_rg, hopFallen_n] at hown
    rw [hopDown_eq]
    exact hown

theorem WentDown.posted {a b c : Dev} {p : Port} (h : WentDown a b p) (k : PostsOnly b c) : WentDown a c p := by
  obtain ⟨hst, htrial, hcycles, howns, hout, hretries, hdly, ⟨l, hl⟩, hlevel, hbrk⟩ := h
  have hstill := k.frame.still p (by cases p <;> decide)
  have hnow : c.now = b.now := k.frame.1 .now (by decide)
  have hrg : c.rg = b.rg := k.frame.1 .rg (by decide)
  obtain ⟨m, hm⟩ := k.queues.joined p
  have hfield : ∀ {α : Type} (f : LinkPort → α), (∀ x : LinkPort, f x.still = f x) → f (port c p) = f (port b p) := fun f hf => by
    rw [← hf, hstill, hf]
  refine ⟨?_, ?_, ?_, ?_, ?_, ?_, ?_, ⟨l ++ m, by rw [hm, hl, List.append_assoc]⟩, (k.level ..).trans hlevel, by rwa [hrg]⟩
  · rw [hfield LinkPort.st fun _ => rfl, hst]
  · rw [hfield LinkPort.trial fun _ => rfl, htrial]
  · rw [hfield LinkPort.cycles fun _ => rfl, hcycles]
  · rw [LinkPort.owns, hfield LinkPort.ownTo fun _ => rfl, hnow, ← LinkPort.owns, howns]
  · rw [hfield LinkPort.out fun _ => rfl, hout]
  · rw [hfield LinkPort.retries fun _ => rfl, hretries]
  · rw [hfield LinkPort.dly fun _ => rfl, hdly]

/-! ### RETRAIN (R237) -/

/-- From device a to device b something has happened at the other port than q. -/
structure Aside (q : Port) (a b : Dev) : Prop where
  frame : ChangesOnly (portPart (otherPort q) :: .rg :: evParts) [R.ringCnt] a b
  queues : ∃ l, (port b q).queue = (port a q).queue ++ l
  level : level b 32 (portIdx q) = level a 32 (portIdx q)
  n : b.rg.n = a.rg.n

theorem Aside.refl (q : Port) (a : Dev) : Aside q a a :=
  ⟨.refl .., (QueuesGrow.refl a).joined q, rfl, rfl⟩

theorem Aside.still {q : Port} {a b : Dev} (h : Aside q a b) : (port b q).still = (port a q).still :=
  h.frame.still q (by cases q <;> decide)

theorem Aside.field {q : Port} {a b : Dev} (h : Aside q a b) {α : Type} (f : LinkPort → α) (hf : ∀ x : LinkPort, f x.still = f x) :
    f (port b q) = f (port a q) := by rw [← hf, h.still, hf]

theorem frame_beginTraining (p : Port) (d : Dev) : ChangesOnly [portPart p] [] d (beginTraining p d) := by
  rw [beginTraining_eq]
  exact frame_setPort_queue rfl

/-- A port that does not run begins again at the fastest rate allowed. -/
def trainAgain (p : Port) (d : Dev) : Dev := beginTraining p (withPort p (fun x => { x with cap := 0 }) d)

theorem frame_trainAgain (p : Port) (d : Dev) : ChangesOnly [portPart p] [] d (trainAgain p d) :=
  (frame_setPort_queue (by rfl)).trans (frame_beginTraining ..)

theorem port_trainAgain (p : Port) (d : Dev) :
    port (trainAgain p d) p = { port d p with cap := 0 }.begun (rateLimit d p) d.now := by
  cases p <;> simp [trainAgain, beginTraining_eq, startRate, withPort, port, setPort, rateLimit, regFld, reg]

theorem retrain_up {p : Port} {d : Dev} (h : (port d p).st = .up) : retrain p d = hopDown p 4 0 d := by simp only [retrain, h]

theorem retrain_begun {p : Port} {d : Dev} (h : (port d p).st = .training ∨ (port d p).st = .broken) : retrain p d = trainAgain p d := by
  rcases h with h | h <;> simp only [retrain, h, trainAgain]

theorem retrain_bypass {p : Port} {d : Dev} (h : (port d p).st = .bypass) : retrain p d = d := by simp only [retrain, h]

theorem frame_retrain (p : Port) (d : Dev) : ChangesOnly (portPart p :: .rg :: evParts) [R.ringCnt] d (retrain p d) := by
  cases h : (port d p).st
  · rw [retrain_bypass h]
    exact .refl ..
  · rw [retrain_begun (.inl h)]
    exact (frame_trainAgain p d).mono (by cases p <;> decide)
  · rw [retrain_up h]
    exact frame_hopDown ..
  · rw [retrain_begun (.inr h)]
    exact (frame_trainAgain p d).mono (by cases p <;> decide)

theorem otherPort_otherPort (p : Port) : otherPort (otherPort p) = p := by cases p <;> rfl

/-- A hop that goes down leaves the other port but for what is posted. -/
theorem queues_hopDown_other (p : Port) (cause cap : Nat) (d : Dev) :
    ∃ l, (port (hopDown p cause cap d) (otherPort p)).queue = (port d (otherPort p)).queue ++ l := by
  obtain ⟨l, hl⟩ := (queuesGrow_hopDown p cause cap d).joined (otherPort p)
  refine ⟨l, hl.trans (congrArg (· ++ l) ?_)⟩
  cases p <;> rfl

theorem aside_trainAgain (p : Port) (d : Dev) : Aside (otherPort p) d (trainAgain p d) := by
  have h := frame_trainAgain p d
  refine ⟨?_, ?_, ?_, ?_⟩
  · rw [otherPort_otherPort]
    exact h.mono (by cases p <;> decide)
  · exact (h.queuesGrow (by cases p <;> decide)).joined _
  · exact level_congr (congrArg Events.lvl (h.1 .ev (by cases p <;> decide))) _ _
  · exact congrArg Ring.n (h.1 .rg (by cases p <;> decide))

theorem aside_retrain (p : Port) (d : Dev) : Aside (otherPort p) d (retrain p d) := by
  cases h : (port d p).st
  · rw [retrain_bypass h]
    exact .refl ..
  · rw [retrain_begun (.inl h)]
    exact aside_trainAgain ..
  · rw [retrain_up h]
    refine ⟨?_, queues_hopDown_other .., level_hopDown_other .., hopDown_n ..⟩
    rw [otherPort_otherPort]
    exact frame_hopDown ..
  · rw [retrain_begun (.inr h)]
    exact aside_trainAgain ..

/-- The bound of a north hop that is down stays as the south end is retrained. -/
theorem retrain_south_lo {d : Dev} (hb : d.rg.brk = true) : (retrain .south d).rg.brk = true ∧ (retrain .south d).rg.lo = d.rg.lo := by
  cases h : (port d .south).st
  · rw [retrain_bypass h]
    exact ⟨hb, rfl⟩
  · rw [retrain_begun (.inl h)]
    exact ⟨hb, rfl⟩
  · rw [retrain_up h, hopDown_eq]
    have hrg : (occur 32 (portIdx .south) 0x1003 [BitVec.ofNat 8 4] (hopFallen .south 0 d)).rg = (hopFallen .south 0 d).rg := occur_rg ..
    obtain ⟨hbrk, hlo⟩ := hopBound_south_lo (d := occur 32 (portIdx .south) 0x1003 [BitVec.ofNat 8 4] (hopFallen .south 0 d))
      (by rw [hrg]; exact hb)
    rw [hrg] at hlo
    exact ⟨hbrk, hlo⟩
  · rw [retrain_begun (.inr h)]
    exact ⟨hb, rfl⟩

/-- What RETRAIN leaves of a port that it names. -/
structure Retrained (p : Port) (a b : Dev) : Prop where
  up : (port a p).st = .up → WentDown a b p
  begun : (port a p).st = .training ∨ (port a p).st = .broken →
    (port b p).st = .training ∧ (port b p).trial = rateLimit a p ∧ (port b p).cycles = 0
  bypass : (port a p).st = .bypass → (port b p).still = (port a p).still

theorem retrained_retrain (p : Port) (d : Dev) : Retrained p d (retrain p d) := by
  refine ⟨fun h => ?_, fun h => ?_, fun h => by rw [retrain_bypass h]⟩
  · rw [retrain_up h]
    exact wentDown_hopDown ..
  · rw [retrain_begun h, port_trainAgain]
    exact ⟨rfl, rfl, rfl⟩

/-- What happens at the other port before leaves what RETRAIN does of a port. -/
theorem Retrained.before {q : Port} {a b c : Dev} (k : Aside q a b) (h : Retrained q b c) : Retrained q a c := by
  have hst := k.field LinkPort.st fun _ => rfl
  have hrate : rateLimit b q = rateLimit a q := rateLimit_congr k.frame q
  refine ⟨fun hu => ?_, fun hb => ?_, fun hy => ?_⟩
  · obtain ⟨hst', htrial, hcycles, howns, hout, hretries, hdly, ⟨l, hl⟩, hlevel, hbrk⟩ := h.up (hst.trans hu)
    obtain ⟨m, hm⟩ := k.queues
    refine ⟨hst', htrial.trans hrate, hcycles, howns, hout, hretries, hdly, ⟨m ++ l, ?_⟩, hlevel.trans (by rw [k.level]), fun hh => ?_⟩
    · rw [hl, hm, k.field LinkPort.out fun _ => rfl]
      simp only [List.append_assoc]
    · have hbrk' := hbrk ((head_congr k.frame (by cases q <;> decide)).trans hh)
      rwa [k.n] at hbrk'
  · obtain ⟨hs, ht, hc⟩ := h.begun (hst ▸ hb)
    exact ⟨hs, ht.trans hrate, hc⟩
  · exact (h.bypass (hst.trans hy)).trans k.still

/-- What RETRAIN makes of the north port stays as it is done at the south port. -/
theorem Retrained.after_south {a b : Dev} (h : Retrained .north a b) : Retrained .north a (retrain .south b) := by
  have k := aside_retrain .south b
  refine ⟨fun hu => ?_, fun hb => ?_, fun hy => k.still.trans (h.bypass hy)⟩
  · obtain ⟨hst, htrial, hcycles, howns, hout, hretries, hdly, ⟨l, hl⟩, hlevel, hbrk⟩ := h.up hu
    obtain ⟨m, hm⟩ := k.queues
    have hnow : (retrain .south b).now = b.now := k.frame.1 .now (by decide)
    refine ⟨(k.field LinkPort.st fun _ => rfl).trans hst, (k.field LinkPort.trial fun _ => rfl).trans htrial,
      (k.field LinkPort.cycles fun _ => rfl).trans hcycles, ?_, (k.field LinkPort.out fun _ => rfl).trans hout,
      (k.field LinkPort.retries fun _ => rfl).trans hretries, (k.field LinkPort.dly fun _ => rfl).trans hdly,
      ⟨l ++ m, ?_⟩, k.level.trans hlevel, fun hh => ?_⟩
    · rw [LinkPort.owns, hnow, k.field (q := .north) LinkPort.ownTo fun _ => rfl]
      exact howns
    · exact (hm.trans (congrArg (· ++ m) hl)).trans (List.append_assoc ..)
    · obtain ⟨hb, hlo⟩ := hbrk hh
      obtain ⟨hb', hlo'⟩ := retrain_south_lo hb
      exact ⟨hb', hlo'.trans hlo⟩
  · obtain ⟨hs, ht, hc⟩ := h.begun hb
    exact ⟨(k.field LinkPort.st fun _ => rfl).trans hs, (k.field LinkPort.trial fun _ => rfl).trans ht,
      (k.field LinkPort.cycles fun _ => rfl).trans hc⟩

theorem Retrained.posted {p : Port} {a b c : Dev} (h : Retrained p a b) (k : PostsOnly b c) : Retrained p a c := by
  have hstill := k.frame.still p (by cases p <;> decide)
  refine ⟨fun hu => (h.up hu).posted k, fun hb => ?_, fun hy => hstill.trans (h.bypass hy)⟩
  obtain ⟨hs, ht, hc⟩ := h.begun hb
  exact ⟨(congrArg LinkPort.st hstill).trans hs, (congrArg LinkPort.trial hstill).trans ht, (congrArg LinkPort.cycles hstill).trans hc⟩

theorem frame_linkCmd (v : Word) (d : Dev) : ChangesOnly (.north :: .south :: .rg :: evParts) [R.ringCnt] d (linkCmd v d) := by
  have hboth : ∀ p e, ChangesOnly (.north :: .south :: .rg :: evParts) [R.ringCnt] e (retrain p e) := fun p e =>
    (frame_retrain p e).mono (by cases p <;> decide)
  have hn := ChangesOnly.ite (p := bit v 0 = true) (hboth .north d) (.refl ..)
  exact .ite (hn.trans (hboth .south _)) hn

/-- RETRAIN of the north port as a whole write to LINK_CMD leaves it. -/
theorem retrained_linkCmd {v : Word} (p : Port) (d : Dev) (h : bit v (portIdx p) = true) : Retrained p d (linkCmd v d) := by
  cases p
  · have hn := retrained_retrain .north d
    simp only [linkCmd, show bit v 0 = true from h, if_true]
    split
    · exact hn.after_south
    · exact hn
  · simp only [linkCmd, show bit v 1 = true from h, if_true]
    refine Retrained.before ?_ (retrained_retrain ..)
    split
    · exact aside_retrain .north d
    · exact .refl ..

/-- A port that it does not name. -/
theorem still_linkCmd {v : Word} (p : Port) (d : Dev) (h : bit v (portIdx p) = false) : (port (linkCmd v d) p).still = (port d p).still := by
  cases p
  · simp only [linkCmd, show bit v 0 = false from h, Bool.false_eq_true, if_false]
    split
    · exact (aside_retrain .south d).still
    · rfl
  · simp only [linkCmd, show bit v 1 = false from h, Bool.false_eq_true, if_false]
    split
    · exact (aside_retrain .north d).still
    · rfl

end Sys2Proof.Machine
end

section
/-! SUPPORT. Bursts as sent and as they come to a port that trains (file 08). -/

namespace Sys2Proof.Machine

/-! ### The next frame (R225) -/

theorem frameClass_bounds (typ : Nat) : 1 ≤ frameClass typ ∧ frameClass typ < 1 + 5 := by
  unfold frameClass
  split <;> decide

/-- Among ascending classes, the first frame of the first class that waits is of the lowest class. -/
theorem findSome_least {q : List Frame} {g : Frame} (hg : g ∈ q) (n lo : Nat) (hlo : ∀ f ∈ q, lo ≤ frameClass f.typ)
    (hhi : frameClass g.typ < lo + n) :
    ∃ f ∈ q, (upFrom lo n).findSome? (fun c => q.find? (fun f => frameClass f.typ == c)) = some f ∧
      ∀ e ∈ q, frameClass f.typ ≤ frameClass e.typ := by
  induction n generalizing lo with
  | zero => exact absurd (hlo g hg) (by omega)
  | succ n ih =>
    rw [upFrom, List.findSome?_cons]
    cases hfind : q.find? (fun f => frameClass f.typ == lo) with
    | some f =>
      have hclass : frameClass f.typ = lo := by simpa using List.find?_some hfind
      exact ⟨f, List.mem_of_find?_eq_some hfind, rfl, fun e he => hclass ▸ hlo e he⟩
    | none =>
      have hne : ∀ f ∈ q, frameClass f.typ ≠ lo := by simpa using hfind
      refine ih (lo + 1) (fun f hf => ?_) (by omega)
      have hle := hlo f hf
      have hf' := hne f hf
      omega

theorem firstOf_least {q : List Frame} (hq : q ≠ []) :
    ∃ f ∈ q, firstOf q = some f ∧ ∀ g ∈ q, frameClass f.typ ≤ frameClass g.typ := by
  obtain ⟨g, hg⟩ := List.exists_mem_of_ne_nil q hq
  exact findSome_least hg 5 1 (fun f _ => (frameClass_bounds f.typ).1) (frameClass_bounds g.typ).2

theorem firstOf_nil : firstOf [] = none := rfl

/-! ### A burst as sent (R223, R225, R233) -/

/-- The frame that the next burst of a port brings. -/
def LinkPort.next (x : LinkPort) : Option Frame :=
  match x.out with
  | some f => if x.again || x.cut then some f else none
  | none => firstOf x.queue

/-- The frames that wait after it. -/
def LinkPort.left (x : LinkPort) : List Frame :=
  match x.out, x.next with
  | none, some f => x.queue.erase f
  | _, _ => x.queue

/-- When the TMARK of a burst that begins at `start` is sent. -/
def markTime (p : Port) (start : Time) (d : Dev) : Nat :=
  start.toNat + charTime (port d p).rate * (burstHead (linkState d p) (port d p).ackDue).length

/-- The burst that port p sends at `start`. -/
def burstOf (p : Port) (start : Time) (d : Dev) : Burst :=
  ⟨linkState d p, (port d p).ackDue, ((port d p).next.map (departing d.head (markTime p start d))).map (frameBytes p (port d p).alive),
    decide ((port d p).next.map Frame.typ = some 0x07), false, false, (port d p).txRd⟩

/-- The device as a frame departs. -/
def departed (p : Port) (start : Time) (d : Dev) : Dev :=
  match (port d p).next with
  | some f => noteDeparture (markTime p start d) f d
  | none => d

/-- A port that has sent a burst. -/
def LinkPort.sentAt (start : Time) (b : Burst) (x : LinkPort) : LinkPort :=
  { x with
    ownFrom := start, ownTo := burstEnd start x.rate (burstSyms b).length, waitAt := x.waits (burstEnd start x.rate (burstSyms b).length)
    out := x.out.orElse (fun _ => x.next), queue := x.left, ackDue := none, cut := false, again := false
    txRd := (encodeSyms b.rd (burstSyms b)).2, sent := some b }

theorem sendBurst_eq {p : Port} {start : Time} {d : Dev} (ht : toneOn d p = false) :
    sendBurst p start d = setPort p ((port d p).sentAt start (burstOf p start d)) (departed p start d) := by
  unfold sendBurst
  rw [if_neg (by simp [ht])]
  rfl

/-- No burst starts while the tone is on the line. -/
theorem sendBurst_tone {p : Port} {start : Time} {d : Dev} (ht : toneOn d p = true) : sendBurst p start d = d := by
  unfold sendBurst
  rw [if_pos ht]

theorem frame_noteDeparture (m : Nat) (f : Frame) (d : Dev) : ChangesOnly [.ex] [] d (noteDeparture m f d) := by
  refine .ite ⟨fun q hq => ?_, fun _ _ => rfl⟩ (.refl ..)
  cases q <;> simp_all [Part.same]

theorem noteDeparture_done (m : Nat) (f : Frame) (d : Dev) : (noteDeparture m f d).ex.done = d.ex.done := by
  unfold noteDeparture
  dsimp only
  split <;> rfl

theorem frame_sendBurst (p : Port) (start : Time) (d : Dev) : ChangesOnly [portPart p, .queues, .ex] [] d (sendBurst p start d) := by
  cases ht : toneOn d p
  · rw [sendBurst_eq ht]
    refine ChangesOnly.trans ?_ ((frame_setPort ..).mono (by cases p <;> decide))
    unfold departed
    split
    · exact (frame_noteDeparture ..).mono (by cases p <;> decide)
    · exact .refl ..
  · rw [sendBurst_tone ht]
    exact .refl ..

theorem sendBurst_done (p : Port) (start : Time) (d : Dev) : (sendBurst p start d).ex.done = d.ex.done := by
  cases ht : toneOn d p
  · rw [sendBurst_eq ht, setPort_ex]
    unfold departed
    split
    · exact noteDeparture_done ..
    · rfl
  · rw [sendBurst_tone ht]

/-- The frame of a burst is the one that is outstanding after it, but where that waits for the peer's burst. -/
theorem next_eq_out (x : LinkPort) : x.next =
    if x.out.isSome = true ∧ x.again = false ∧ x.cut = false then none else x.out.orElse (fun _ => x.next) := by
  cases ho : x.out with
  | none => simp
  | some f => cases ha : x.again <;> cases hc : x.cut <;> simp [LinkPort.next, ho, ha, hc]

theorem burstSent_sendBurst {p : Port} {start : Time} {d : Dev} (ht : toneOn d p = false) :
    BurstSent d p start (port (sendBurst p start d) p) := by
  rw [sendBurst_eq ht, port_setPort]
  refine ⟨rfl, rfl, fun ho => ?_, fun ho hq => ?_, fun ho hq => ?_, burstOf p start d, (port d p).next, next_eq_out _, rfl, rfl, rfl,
    rfl, rfl, decide_eq_true_iff, rfl, rfl⟩
  · obtain ⟨f, hf⟩ := Option.isSome_iff_exists.mp ho
    simp [LinkPort.sentAt, hf]
  · simp [LinkPort.sentAt, LinkPort.next, ho, hq, firstOf_nil]
  · obtain ⟨f, hf, hfirst, hleast⟩ := firstOf_least hq
    exact ⟨f, hf, by simp [LinkPort.sentAt, LinkPort.next, ho, hfirst], hleast⟩

/-! ### A training burst as sent (R236) -/

/-- The training burst that port p sends. -/
def trainOf (p : Port) (d : Dev) : Burst :=
  ⟨linkState (setPort p { port d p with rate := (port d p).trial } d) p, none, none, false, false, true, (port d p).txRd⟩

theorem burstSyms_trainOf (p : Port) (d : Dev) : burstSyms (trainOf p d) =
    [.ctl .sync, .data (BitVec.ofNat 8 (trainOf p d).ls)] ++ List.replicate 60 (.ctl .train) ++ [.ctl .turn] := rfl

theorem trainOf_rate {p : Port} {d : Dev} (h : (port d p).trial < 4) : (trainOf p d).ls % 4 = (port d p).trial := by
  simp only [trainOf, linkState, port_setPort, pack]
  omega

/-- A port that has sent a training burst. -/
def LinkPort.trainedAt (start : Time) (b : Burst) (x : LinkPort) : LinkPort :=
  { x with
    ownFrom := start, ownTo := burstEnd start x.trial (burstSyms b).length
    txN := if x.locked then x.txN + (burstSyms b).length else x.txN
    txRd := (encodeSyms b.rd (burstSyms b)).2, sent := some b }

theorem trainBurst_eq {p : Port} {start : Time} {d : Dev} (ht : toneOn d p = false) :
    trainBurst p start d = setPort p ((port d p).trainedAt start (trainOf p d)) d := by
  unfold trainBurst
  rw [if_neg (by simp [ht])]
  rfl

theorem trainBurst_tone {p : Port} {start : Time} {d : Dev} (ht : toneOn d p = true) : trainBurst p start d = d := by
  unfold trainBurst
  rw [if_pos ht]

theorem frame_trainBurst (p : Port) (start : Time) (d : Dev) : ChangesOnly [portPart p] [] d (trainBurst p start d) := by
  cases ht : toneOn d p
  · rw [trainBurst_eq ht]
    exact frame_setPort_queue rfl
  · rw [trainBurst_tone ht]
    exact .refl ..

theorem trainSent_trainBurst {p : Port} {start : Time} {d : Dev} (ht : toneOn d p = false) :
    TrainSent d p start (port (trainBurst p start d) p) := by
  have hlen : (burstSyms (trainOf p d)).length = 63 := by simp [burstSyms_trainOf]
  rw [trainBurst_eq ht, port_setPort]
  refine ⟨rfl, ?_, ?_, rfl, rfl, trainOf p d, rfl, burstSyms_trainOf p d, trainOf_rate⟩
  · simp [LinkPort.trainedAt, burstEnd, hlen]
  · cases hl : (port d p).locked <;> simp [LinkPort.trainedAt, hlen, hl]

/-- It leaves the lock and what has come. -/
theorem trainBurst_rx (p : Port) (start : Time) (d : Dev) :
    (port (trainBurst p start d) p).rxN = (port d p).rxN ∧ (port (trainBurst p start d) p).locked = (port d p).locked := by
  cases ht : toneOn d p
  · rw [trainBurst_eq ht, port_setPort]
    exact ⟨rfl, rfl⟩
  · rw [trainBurst_tone ht]
    exact ⟨rfl, rfl⟩

/-- What a training burst is does not depend on the queue of its port. -/
theorem TrainSent.of_still {a : Dev} {p : Port} {start : Time} {x y : LinkPort} (h : TrainSent a p start x) (k : y.still = x.still) :
    TrainSent a p start y := by
  have hfield : ∀ {α : Type} (f : LinkPort → α), (∀ z : LinkPort, f z.still = f z) → f y = f x := fun f hf => by rw [← hf, k, hf]
  obtain ⟨hfrom, hto, htx, hout, halive, m, hsent, hsyms, hrate⟩ := h
  exact ⟨(hfield LinkPort.ownFrom fun _ => rfl).trans hfrom, (hfield LinkPort.ownTo fun _ => rfl).trans hto,
    (hfield LinkPort.txN fun _ => rfl).trans htx, (hfield LinkPort.out fun _ => rfl).trans hout,
    (hfield LinkPort.alive fun _ => rfl).trans halive, m, (hfield LinkPort.sent fun _ => rfl).trans hsent, hsyms, hrate⟩

/-! ### The answer to TURN (R224) -/

/-- An answer starts 100 ns to 200 ns after the TURN. -/
theorem answerBurst_at (send : Port → Time → Dev → Dev) (p : Port) (d : Dev) :
    ∃ k : Nat, 20 ≤ k ∧ k ≤ 40 ∧ answerBurst send p d = send p (d.now + BitVec.ofNat 64 k) (freeWord d).2 :=
  ⟨20 + (freeWord d).1.toNat % 21, by omega, by omega, rfl⟩

theorem frame_answerTrain (p : Port) (d : Dev) : ChangesOnly [portPart p, .free] [] d (answerBurst trainBurst p d) := by
  obtain ⟨k, -, -, hk⟩ := answerBurst_at trainBurst p d
  rw [hk]
  exact ((frame_freeWord d).mono (by cases p <;> decide)).trans ((frame_trainBurst ..).mono (by cases p <;> decide))

end Sys2Proof.Machine
end

section
/-! SUPPORT. The commands of training (file 08, R236 to R238, R244). -/

namespace Sys2Proof.Machine

/-! ### The head's tables go on as a burst comes (R288) -/

theorem frame_sendBulk (p : Nat) (c : HeadCmd) (at0 : Nat) (b : Both) : ChangesOnly [.queues, .cyc] [R.ringCnt] b.1 (sendBulk p c at0 b).1 := by
  unfold sendBulk
  split
  · exact .refl ..
  · exact frame_enqueue ..

theorem frame_bulkNext (c : HeadCmd) (e : Nat × Nat) (b : Both) : ChangesOnly [.queues, .cyc] [R.ringCnt] b.1 (bulkNext c e b).1 := by
  unfold bulkNext
  split
  · exact .refl ..
  · split
    · exact .refl ..
    · exact frame_sendBulk ..

theorem frame_bulkFeed (b : Both) : ChangesOnly [.queues, .cyc] [R.ringCnt] b.1 (bulkFeed b).1 := by
  have hcmd : ∀ (c : HeadCmd) (e : Both), ChangesOnly [.queues, .cyc] [R.ringCnt] b.1 e.1 →
      ChangesOnly [.queues, .cyc] [R.ringCnt] b.1 (each (bulkNext c) c.bulk e).1 := fun c e he =>
    each_fst (P := fun e : Both => ChangesOnly [.queues, .cyc] [R.ringCnt] b.1 e.1) _ (fun _ _ h => h.trans (frame_bulkNext ..)) _ _ he
  unfold bulkFeed
  split
  · exact each_fst (P := fun e : Both => ChangesOnly [.queues, .cyc] [R.ringCnt] b.1 e.1) _ hcmd _ _ (.refl ..)
  · exact .refl ..

/-! ### A burst comes to a port that trains (R236) -/

/-- A command with an effect on device and host port while the C-die runs. -/
theorem actBoth_next (t : Time) (f : Both → Both) (s : State) (h : s.dev.running = true) :
    actBoth t f s = .next { s with dev := (settle (f (tick t s.dev, s.hst))).1, hst := (settle (f (tick t s.dev, s.hst))).2 } := by
  simp [actBoth, actH, h]

theorem exec_burstRx_training {t : Time} {p : Port} {groups : List Nat} {s : State} {d : Dev} (hd : d = tick t s.dev)
    (ha : d.awake = true) (ht : training (port d p) = true) :
    exec (.burstRx t p groups) s = .next { s with
      dev := (settle (bulkFeed (trainRx p groups d, s.hst))).1
      hst := (settle (bulkFeed (trainRx p groups d, s.hst))).2 } := by
  subst hd
  change execBurstRx t p groups s = _
  rw [execBurstRx, actBoth_next _ _ _ (running_of_awake (by simpa using ha))]
  simp only [burstRx, ht, if_true]

/-- Where nothing was posted, the burst's command adds to the queues alone. -/
theorem burstRx_quiet {e : Dev} {x : Hst} (calm : Calm e) : ChangesOnly [.queues, .cyc] [R.ringCnt] e (settle (bulkFeed (e, x))).1 := by
  have hfeed := frame_bulkFeed (e, x)
  have hcalm : Calm (bulkFeed (e, x)).1 := hfeed.calm calm
  rw [settle_quiet _ hcalm.1 hcalm.2]
  exact hfeed

/-- Where no command completed, it posts. -/
theorem burstRx_posted {e : Dev} {x : Hst} (hx : e.ex.done = []) : ChangesOnly [.queues, .cyc, .ev] evRegs e (settle (bulkFeed (e, x))).1 ∧
    (settle (bulkFeed (e, x))).1.ev.lvl = e.ev.lvl := by
  have hfeed := frame_bulkFeed (e, x)
  have hpost := posted_settle (b := bulkFeed (e, x)) (by rw [hfeed.1 .ex (by decide), hx])
  exact ⟨hfeed.mono.trans hpost.frame, by rw [hpost.lvl, hfeed.1 .ev (by decide)]⟩

theorem any_bad (l : List Sym) : l.any (fun c => decide (c = .bad)) = decide (0 < badCount l) := by
  rw [Bool.eq_iff_iff]
  simp [badCount, List.length_pos_iff_exists_mem]

/-- A port that has taken characters and is locked. -/
def LinkPort.heard (rd : Bool) (n : Nat) (now : Time) (x : LinkPort) : LinkPort :=
  { x with rxRd := rd, lineAt := now, locked := true, rxN := x.rxN + n, trainAt := if x.locked = true then x.trainAt else now }

/-- What a training port does with its burst once it is locked, the burst's TURN answered. -/
def heardTrain (p : Port) (groups : List Nat) (d : Dev) : Dev :=
  let r := decodeGroups (port d p).rxRd groups
  let e := setPort p ((port d p).heard r.2 r.1.length d.now) d
  if r.1.getLast? = some (.ctl .turn) then answerBurst trainBurst p e else e

theorem trainRx_unlocked {p : Port} {groups : List Nat} {d : Dev} (hl : (port d p).locked = false)
    (hk : locks (decodeGroups (port d p).rxRd groups).1 = false) : trainRx p groups d = d := by
  simp [trainRx, hl, hk]

theorem trainRx_bad {p : Port} {groups : List Nat} {d : Dev} (hl : (port d p).locked = true)
    (hb : 0 < badCount (decodeGroups (port d p).rxRd groups).1) : trainRx p groups d = rateFailed p d := by
  simp [trainRx, hl, any_bad, hb]

theorem trainRx_heard {p : Port} {groups : List Nat} {d : Dev}
    (h : ((port d p).locked = true ∧ badCount (decodeGroups (port d p).rxRd groups).1 = 0) ∨
      ((port d p).locked = false ∧ locks (decodeGroups (port d p).rxRd groups).1 = true)) : trainRx p groups d = heardTrain p groups d := by
  rcases h with ⟨hl, hb⟩ | ⟨hl, hk⟩
  · simp [trainRx, heardTrain, LinkPort.heard, hl, any_bad, hb]
  · simp [trainRx, heardTrain, LinkPort.heard, hl, hk]

theorem frame_heardTrain (p : Port) (groups : List Nat) (d : Dev) : ChangesOnly [portPart p, .free] [] d (heardTrain p groups d) := by
  have hport : ∀ r n, ChangesOnly [portPart p, .free] [] d (setPort p ((port d p).heard r n d.now) d) := fun r n =>
    (frame_setPort_queue (p := p) (x := (port d p).heard r n d.now) (d := d) rfl).mono (by cases p <;> decide)
  exact .ite ((hport _ _).trans (frame_answerTrain ..)) (hport _ _)

/-- Without a TURN at its end the characters count, and no more. -/
theorem heardTrain_mid {p : Port} {groups : List Nat} {d : Dev} {l : List Sym} {rd : Bool} (hr : (l, rd) = decodeGroups (port d p).rxRd groups)
    (hl : l.getLast? ≠ some (.ctl .turn)) : port (heardTrain p groups d) p = (port d p).heard rd l.length d.now := by
  unfold heardTrain
  rw [← hr]
  simp only [if_neg hl, port_setPort]

/-- TURN is answered with a training burst. -/
theorem heardTrain_turn {p : Port} {groups : List Nat} {d : Dev} {l : List Sym} {rd : Bool} {y : LinkPort}
    (hr : (l, rd) = decodeGroups (port d p).rxRd groups) (hl : l.getLast? = some (.ctl .turn)) (ht : toneOn d p = false)
    (hy : y = (port d p).heard rd l.length d.now) :
    (port (heardTrain p groups d) p).rxN = y.rxN ∧ (port (heardTrain p groups d) p).locked = true ∧
      ∃ k : Nat, 20 ≤ k ∧ k ≤ 40 ∧ TrainSent (setPort p y d) p (d.now + BitVec.ofNat 64 k) (port (heardTrain p groups d) p) := by
  obtain ⟨k, hlo, hhi, hk⟩ := answerBurst_at trainBurst p (setPort p y d)
  have heq : heardTrain p groups d = trainBurst p (d.now + BitVec.ofNat 64 k) (freeWord (setPort p y d)).2 := by
    rw [setPort_now] at hk
    rw [← hk, hy, heardTrain, ← hr]
    simp only [if_pos hl]
  have hport : port (freeWord (setPort p y d)).2 p = y := by cases p <;> rfl
  have htone : toneOn (freeWord (setPort p y d)).2 p = false := by
    rw [← ht, toneOn, hport, hy]
    cases p <;> rfl
  obtain ⟨hn, hlock⟩ := trainBurst_rx p (d.now + BitVec.ofNat 64 k) (freeWord (setPort p y d)).2
  have hsent := trainSent_trainBurst (start := d.now + BitVec.ofNat 64 k) htone
  rw [heq]
  refine ⟨hn.trans (by rw [hport]), hlock.trans (by rw [hport, hy]; rfl), k, hlo, hhi, ?_⟩
  simpa only [TrainSent, hport, port_setPort] using hsent

theorem exec_burstRx_train {s : State} {t : Time} {p : Port} {x : LinkPort} {d : Dev} (hd : d = tick t s.dev) (ha : d.awake = true)
    (calm : Calm d) (hx : port d p = x) (groups : List Nat) (l : List Sym) (rd : Bool) (hr : (l, rd) = decodeGroups x.rxRd groups)
    (ht : training x = true) : ∃ u, exec (.burstRx t p groups) s = .next u ∧
      (x.locked = false → locks l = false → (port u.dev p).still = x.still ∧ ChangesOnly [.queues, .cyc] [R.ringCnt] d u.dev) ∧
      (x.locked = true → 0 < badCount l → RateFailed d u.dev p ∧ ChangesOnly (portPart p :: evParts) evRegs d u.dev) ∧
      (∀ y, y = x.heard rd l.length d.now → (x.locked = true ∧ badCount l = 0) ∨ (x.locked = false ∧ locks l = true) →
        (l.getLast? ≠ some (.ctl .turn) → (port u.dev p).still = y.still) ∧
        (l.getLast? = some (.ctl .turn) → toneOn d p = false →
          (port u.dev p).rxN = y.rxN ∧ (port u.dev p).locked = true ∧
          ∃ k : Nat, 20 ≤ k ∧ k ≤ 40 ∧ TrainSent (setPort p y d) p (d.now + BitVec.ofNat 64 k) (port u.dev p)) ∧
        ChangesOnly [portPart p, .free, .queues, .cyc] [R.ringCnt] d u.dev) := by
  subst hx
  have hl : (decodeGroups (port d p).rxRd groups).1 = l := by rw [← hr]
  refine ⟨_, exec_burstRx_training hd ha ht, fun hlock hk => ?_, fun hlock hb => ?_, fun y hy h => ?_⟩
  · rw [trainRx_unlocked hlock (by rw [hl, hk])]
    have hframe := burstRx_quiet (x := s.hst) calm
    exact ⟨hframe.still p (by cases p <;> decide), hframe⟩
  · rw [trainRx_bad hlock (by rwa [hl])]
    have hfail := frame_rateFailed p d
    obtain ⟨hframe, hlvl⟩ := burstRx_posted (e := rateFailed p d) (x := s.hst) (by rw [hfail.1 .ex (by cases p <;> decide), calm.2])
    obtain ⟨hport, hlevel⟩ := rateFailed_spec p d
    exact ⟨⟨(hframe.still p (by cases p <;> decide)).trans hport, (level_congr hlvl ..).trans hlevel⟩,
      (hfail.mono (by cases p <;> decide)).trans (hframe.mono (by cases p <;> decide))⟩
  · rw [trainRx_heard (by rwa [hl])]
    have hheard := frame_heardTrain p groups d
    have hframe := burstRx_quiet (x := s.hst) (hheard.calm calm (by cases p <;> decide) (by cases p <;> decide))
    have hstill := hframe.still p (by cases p <;> decide)
    refine ⟨fun hm => by rw [hstill, heardTrain_mid hr hm, hy], fun hm htone => ?_,
      (hheard.mono (by cases p <;> decide)).trans (hframe.mono (by cases p <;> decide))⟩
    obtain ⟨hn, hlock, k, hlo, hhi, hsent⟩ := heardTrain_turn hr hm htone hy
    exact ⟨(congrArg LinkPort.rxN hstill).trans hn, (congrArg LinkPort.locked hstill).trans hlock, k, hlo, hhi, hsent.of_still hstill⟩

/-! ### Rates, retries and exchanges (R236, R238) -/

/-- The effect of TRAIN_RATE_TIMEOUT. -/
def rateTimeout (p : Port) (groups : List Nat) (d : Dev) : Dev :=
  if training (port d p) && checkFailed p groups d then rateFailed p d else d

theorem exec_trainRateTimeout_eq (t : Time) (p : Port) (groups : List Nat) (s : State) :
    exec (.trainRateTimeout t p groups) s = actAwake t (rateTimeout p groups) s := rfl

theorem exec_trainRateTimeout {s : State} {t : Time} {p : Port} {d : Dev} (hd : d = tick t s.dev) (ha : d.awake = true) (calm : Calm d)
    (groups : List Nat) :
    (training (port d p) = false ∨ checkFailed p groups d = false → exec (.trainRateTimeout t p groups) s = .next { s with dev := d }) ∧
    (training (port d p) = true → checkFailed p groups d = true → ∃ u, exec (.trainRateTimeout t p groups) s = .next u ∧
      RateFailed d u.dev p ∧ ChangesOnly (portPart p :: evParts) evRegs d u.dev ∧ HostEvents s.hst u.hst) := by
  rw [exec_trainRateTimeout_eq]
  refine ⟨fun h => actAwake_idle _ hd ha calm (if_neg ?_), fun ht hc => ?_⟩
  · rcases h with h | h <;> simp [h]
  · have hfail := frame_rateFailed p d
    have heff : rateTimeout p groups d = rateFailed p d := if_pos (by simp [ht, hc])
    obtain ⟨u, hu, hpost, hhost⟩ := actAwake_posted (s := s) (rateTimeout p groups) hd ha
      (by rw [heff, hfail.1 .ex (by cases p <;> decide), calm.2])
    rw [heff] at hpost
    exact ⟨u, hu, (rateFailed_spec p d).posted hpost,
      (hfail.mono (by cases p <;> decide)).trans (hpost.frame.mono (by cases p <;> decide)), hhost⟩

/-- A command awake that replaces its port but for the queue. -/
theorem actAwake_setPort {t : Time} {s : State} {d : Dev} {p : Port} {x : LinkPort} (f : Dev → Dev) (hd : d = tick t s.dev)
    (ha : d.awake = true) (calm : Calm d) (hf : f d = setPort p x d) (hq : x.queue = (port d p).queue) :
    ∃ u, actAwake t f s = .next u ∧ port u.dev p = x ∧ ChangesOnly [portPart p] [] d u.dev ∧ u.hst = s.hst := by
  have hframe := frame_setPort_queue hq
  have hnext := actAwake_calm (s := s) f hd ha (by rw [hf]; exact hframe.calm calm (by cases p <;> decide) (by cases p <;> decide))
  rw [hf] at hnext
  exact ⟨_, hnext, port_setPort .., hframe, rfl⟩

theorem exec_trainListenRate {s : State} {t : Time} {p : Port} {x : LinkPort} {d : Dev} (hd : d = tick t s.dev) (ha : d.awake = true)
    (calm : Calm d) (hx : port d p = x) (from0 : Time) (hfrom : from0 = if x.locked = true then x.lineAt else x.listenAt) :
    (training x = false ∨ p = .north ∨ passed (usT 100) from0 d.now = false → exec (.trainListenRate t p) s = .next { s with dev := d }) ∧
    (training x = true → p = .south → passed (usT 100) from0 d.now = true → ∃ u, exec (.trainListenRate t p) s = .next u ∧
      port u.dev p = { x.tryRate (if x.trial < 2 then x.trial + 1 else startRate d p) d.now with
        trainAt := if x.locked = true then d.now else x.trainAt } ∧
      ChangesOnly [portPart p] [] d u.dev ∧ u.hst = s.hst) := by
  subst hx hfrom
  refine ⟨fun h => actAwake_idle _ hd ha calm (if_neg ?_), fun ht hp hpast => ?_⟩
  · rcases h with h | h | h <;> simp [h]
  · subst hp
    refine actAwake_setPort _ hd ha calm (if_pos ?_) (by rfl)
    simp only [ht, hpast, decide_true, Bool.and_self]

/-- The effect of TRAIN_RETRY. -/
def retryTraining (p : Port) (d : Dev) : Dev :=
  if (port d p).st = .broken ∧ passed (msT 100) (port d p).trainAt d.now then beginTraining p d else d

theorem exec_trainRetry_eq (t : Time) (p : Port) (s : State) : exec (.trainRetry t p) s = actAwake t (retryTraining p) s := rfl

theorem exec_trainRetry {s : State} {t : Time} {p : Port} {x : LinkPort} {d : Dev} (hd : d = tick t s.dev) (ha : d.awake = true)
    (calm : Calm d) (hx : port d p = x) :
    (x.st ≠ .broken ∨ passed (msT 100) x.trainAt d.now = false → exec (.trainRetry t p) s = .next { s with dev := d }) ∧
    (x.st = .broken → passed (msT 100) x.trainAt d.now = true → ∃ u, exec (.trainRetry t p) s = .next u ∧
      port u.dev p = x.begun (startRate d p) d.now ∧ ChangesOnly [portPart p] [] d u.dev ∧ u.hst = s.hst) := by
  subst hx
  rw [exec_trainRetry_eq]
  refine ⟨fun h => actAwake_idle _ hd ha calm (if_neg ?_), fun hb hpast => ?_⟩
  · rcases h with h | h <;> simp [h]
  · have heff : retryTraining p d = setPort p ((port d p).begun (startRate d p) d.now) d := by
      rw [retryTraining, if_pos ⟨hb, hpast⟩, beginTraining_eq]
    exact actAwake_setPort _ hd ha calm heff (by rfl)

theorem exec_delayExchange {s : State} {t : Time} {p : Port} {x : LinkPort} {d : Dev} (hd : d = tick t s.dev) (ha : d.awake = true)
    (calm : Calm d) (hx : port d p = x) (e : DlyStamps) :
    (x.st ≠ .up ∨ passed (msT 10000) x.dlyAt d.now = false → exec (.delayExchange t p e) s = .next { s with dev := d }) ∧
    (x.st = .up → passed (msT 10000) x.dlyAt d.now = true → ∃ u, exec (.delayExchange t p e) s = .next u ∧
      port u.dev p = { x with dly := lastN 64 (x.dly ++ [exchangeDelay x.rate e]), dlyAt := d.now } ∧
      ChangesOnly [portPart p] [] d u.dev ∧ u.hst = s.hst) := by
  subst hx
  refine ⟨fun h => actAwake_idle _ hd ha calm (if_neg ?_), fun hu hpast => ?_⟩
  · rcases h with h | h <;> simp [LinkPort.isUp, h]
  · refine actAwake_setPort _ hd ha calm ?_ (by rfl)
    exact if_pos (by simp [LinkPort.isUp, hu, hpast])

/-! ### A hop goes down (R237, R244, R268) -/

/-- The effect of HOP_DOWN_TIMEOUT. -/
def fallSilent (p : Port) (d : Dev) : Dev := if silent (port d p) d.now then downIfUp p 1 0 d else d

theorem exec_hopDownTimeout_eq (t : Time) (p : Port) (s : State) : exec (.hopDownTimeout t p) s = actAwake t (fallSilent p) s := rfl

theorem exec_hopDownTimeout {s : State} {t : Time} {p : Port} {d : Dev} (hd : d = tick t s.dev) (ha : d.awake = true) (calm : Calm d) :
    ((port d p).st ≠ .up ∨ silent (port d p) d.now = false → exec (.hopDownTimeout t p) s = .next { s with dev := d }) ∧
    ((port d p).st = .up → silent (port d p) d.now = true →
      ∃ u, exec (.hopDownTimeout t p) s = .next u ∧ WentDown d u.dev p ∧ (port u.dev p).wakeRx = false ∧
        ChangesOnly (portPart p :: .rg :: evParts) evRegs d u.dev ∧ HostEvents s.hst u.hst) := by
  rw [exec_hopDownTimeout_eq]
  refine ⟨fun h => actAwake_idle _ hd ha calm ?_, fun hu hs => ?_⟩
  · rcases h with h | h <;> simp [fallSilent, downIfUp, LinkPort.isUp, h]
  · have hdown := frame_hopDown p 1 0 d
    have heff : fallSilent p d = hopDown p 1 0 d := by simp [fallSilent, downIfUp, LinkPort.isUp, hu, hs]
    obtain ⟨u, hnext, hpost, hhost⟩ := actAwake_posted (s := s) (fallSilent p) hd ha
      (by rw [heff, hdown.1 .ex (by cases p <;> decide), calm.2])
    rw [heff] at hpost
    have hstill : (port u.dev p).still = (port (hopFallen p 0 d) p).still :=
      (hpost.frame.still p (by cases p <;> decide)).trans (still_hopDown ..)
    rw [port_hopFallen] at hstill
    exact ⟨u, hnext, (wentDown_hopDown p 1 d).posted hpost, congrArg LinkPort.wakeRx hstill,
      (hdown.mono (by cases p <;> decide)).trans (hpost.frame.mono (by cases p <;> decide)), hhost⟩

/-- The wake stream is on a port. -/
def LinkPort.waking (now : Time) (x : LinkPort) : LinkPort := { x with wakeRx := true, wakeAt := now }

theorem wakeOnUp_eq {p : Port} {d : Dev} (h : (port d p).st = .up) :
    wakeOnUp p d = setPort p ((port (hopDown p 3 0 d) p).waking d.now) (hopDown p 3 0 d) := by
  have hnow : (hopDown p 3 0 d).now = d.now := (frame_hopDown p 3 0 d).1 .now (by cases p <;> decide)
  rw [← hnow, wakeOnUp, if_pos (by simp [LinkPort.isUp, h])]
  rfl

theorem WentDown.waking {a b : Dev} {p : Port} (h : WentDown a b p) (now : Time) : WentDown a (setPort p ((port b p).waking now) b) p := by
  have hlevel := level_congr (congrArg Events.lvl (setPort_ev p ((port b p).waking now) b)) 32 (portIdx p)
  unfold WentDown
  rw [port_setPort, setPort_now, setPort_rg, hlevel]
  exact h

theorem exec_wakeStreamOnUp {s : State} {t : Time} {p : Port} {d : Dev} (hd : d = tick t s.dev) (ha : d.awake = true) (calm : Calm d) :
    ((port d p).st ≠ .up → exec (.wakeStreamOnUp t p) s = .next { s with dev := d }) ∧
    ((port d p).st = .up → ∃ u, exec (.wakeStreamOnUp t p) s = .next u ∧ WentDown d u.dev p ∧
      (port u.dev p).wakeRx = true ∧ (port u.dev p).wakeAt = d.now ∧ training (port u.dev p) = false ∧
      ChangesOnly (portPart p :: .rg :: evParts) evRegs d u.dev ∧ HostEvents s.hst u.hst) := by
  refine ⟨fun h => actAwake_idle _ hd ha calm (if_neg (by simpa [LinkPort.isUp] using h)), fun hu => ?_⟩
  have hframe : ChangesOnly (portPart p :: .rg :: evParts) evRegs d (wakeOnUp p d) := by
    rw [wakeOnUp_eq hu]
    exact ((frame_hopDown ..).mono (by cases p <;> decide)).trans ((frame_setPort ..).mono (by cases p <;> decide))
  obtain ⟨u, hnext, hpost, hhost⟩ := actAwake_posted (s := s) (wakeOnUp p) hd ha (by rw [hframe.1 .ex (by cases p <;> decide), calm.2])
  have hdown : WentDown d (wakeOnUp p d) p := by
    rw [wakeOnUp_eq hu]
    exact (wentDown_hopDown ..).waking ..
  have hstill : (port u.dev p).still = ((port (hopDown p 3 0 d) p).waking d.now).still := by
    rw [hpost.frame.still p (by cases p <;> decide), wakeOnUp_eq hu, port_setPort]
  have hwake : (port u.dev p).wakeRx = true := congrArg LinkPort.wakeRx hstill
  exact ⟨u, hnext, hdown.posted hpost, hwake, congrArg LinkPort.wakeAt hstill, by simp [training, hwake],
    hframe.trans (hpost.frame.mono (by cases p <;> decide)), hhost⟩

theorem exec_linkRetrain {s : State} {t : Time} {v : Word} {d : Dev} (hd : d = tick t s.dev) (hr : d.running = true) (calm : Calm d) :
    ∃ u, exec (.linkRetrain t v) s = .next u ∧
      (∀ p : Port,
        (bit v (portIdx p) = true → (port d p).st = .up → WentDown d u.dev p) ∧
        (bit v (portIdx p) = true → (port d p).st = .training ∨ (port d p).st = .broken →
          (port u.dev p).st = .training ∧ (port u.dev p).trial = rateLimit d p ∧ (port u.dev p).cycles = 0) ∧
        (bit v (portIdx p) = false ∨ (port d p).st = .bypass → (port u.dev p).still = (port d p).still)) ∧
      ChangesOnly (.north :: .south :: .rg :: evParts) evRegs d u.dev ∧ HostEvents s.hst u.hst := by
  subst hd
  have hframe := frame_linkCmd v (tick t s.dev)
  have hx : (linkCmd v (tick t s.dev)).ex.done = [] := by rw [hframe.1 .ex (by decide), calm.2]
  have hpost := posted_settle (b := (linkCmd v (tick t s.dev), s.hst)) hx
  refine ⟨_, actAt_next t (linkCmd v) s (by simpa using hr), fun p => ?_, hframe.mono.trans hpost.frame.mono,
    settle_host (linkCmd v (tick t s.dev), s.hst) hx⟩
  refine ⟨fun hv hu => ((retrained_linkCmd p _ hv).posted hpost).up hu, fun hv hb => ((retrained_linkCmd p _ hv).posted hpost).begun hb,
    fun h => ?_⟩
  cases hv : bit v (portIdx p)
  · exact (hpost.frame.still p (by cases p <;> decide)).trans (still_linkCmd p _ hv)
  · exact ((retrained_linkCmd p _ hv).posted hpost).bypass (by simpa [hv] using h)

end Sys2Proof.Machine
end

section
/-! SUPPORT. A hop that comes UP (file 08, R236, R238; R57, R427). -/

namespace Sys2Proof.Machine

/-! ### Trips that waited (R57) -/

@[simp] theorem cutOff_st (now : Time) (x : LinkPort) : (x.cutOff now).st = x.st := by
  unfold LinkPort.cutOff
  split
  · rfl
  · split <;> rfl

theorem still_st {x y : LinkPort} (h : x.still = y.still) : x.st = y.st := by
  have hst : x.still.st = y.still.st := by rw [h]
  exact hst

theorem st_originate (p : Port) (d : Dev) : (port (originate d) p).st = (port d p).st := by
  cases p <;> unfold originate <;> split <;> simp [port, LinkPort.startTone]

/-- What a reaction of the outputs can change. -/
theorem frame_faultReact (b item : Nat) (d : Dev) : ChangesOnly [.sf, .cyc] [R.safeCnt] d (faultReact b item d) := by
  unfold faultReact
  exact .ite (frame_react ..) (.ite (frame_react ..) (.ite (frame_react ..) (.ite (.ite (frame_outOff ..) (frame_outOff ..)) (frame_react ..))))

/-- A latch takes no hop down. -/
theorem st_latch (b item : Nat) (p : Port) (d : Dev) : (port (latch b item d) p).st = (port d p).st := by
  have hreact : ∀ code data, (port (faultReact b item (post code item data (latchNote b item d))) p).st = (port d p).st := fun code data => by
    rw [still_st ((frame_faultReact ..).still p (by cases p <;> decide)), still_st ((frame_post ..).still p (by cases p <;> decide))]
    cases p <;> rfl
  unfold latch
  split
  · rfl
  · dsimp only
    split
    · rw [st_originate, hreact]
    · exact hreact ..

/-- From device a to device b causes have latched, none has been released, and no hop has gone down. -/
structure Latching (a b : Dev) : Prop where
  causes : a.sf.causes ⊆ b.sf.causes
  present : ∀ c ∈ b.sf.present, c ∈ a.sf.present
  st : ∀ p, (port b p).st = (port a p).st

theorem Latching.trans {a b c : Dev} (h : Latching a b) (k : Latching b c) : Latching a c :=
  ⟨fun _ hc => k.causes (h.causes hc), fun x hx => h.present x (k.present x hx), fun p => (k.st p).trans (h.st p)⟩

/-- The record of a trip in the open summary (Table MEM-8). -/
def noteTrip (e : Nat × Bool) (d : Dev) : Dev := withAcc e.1 (fun a => { a with flags := a.flags ||| (if e.2 then 2 else 4) }) d

theorem latchTrip_eq (e : Nat × Bool) (d : Dev) : latchTrip e d = gone 0 e.1 (latch 0 e.1 (noteTrip e d)) := rfl

theorem latching_latchTrip (e : Nat × Bool) (d : Dev) : Latching d (latchTrip e d) := by
  have hst : ∀ p, (port (latchTrip e d) p).st = (port d p).st := fun p => by
    rw [latchTrip_eq, still_st ((frame_gone ..).still p (by cases p <;> decide)), st_latch]
    rfl
  by_cases h : (0, e.1) ∈ (noteTrip e d).sf.present
  · refine ⟨?_, ?_, hst⟩ <;> rw [latchTrip_eq, latch_present h]
    · exact fun _ hc => hc
    · exact fun c hc => (List.mem_filter.mp hc).1
  · refine ⟨?_, ?_, hst⟩ <;> simp only [latchTrip_eq, gone, latch_sf h, Safe.dropped, Safe.latched]
    · intro c hc
      by_cases hce : c = (0, e.1)
      · simp [hce]
      · exact List.mem_append_left _ (List.mem_filter.mpr ⟨hc, by simpa using hce⟩)
    · intro c hc
      obtain ⟨hc, hne⟩ := List.mem_filter.mp hc
      rcases List.mem_append.mp hc with hc | hc
      · exact hc
      · exact absurd (List.mem_singleton.mp hc) (by simpa using hne)

/-- A trip whose cause was not present latches. -/
theorem cause_latchTrip {e : Nat × Bool} {d : Dev} (h : (0, e.1) ∉ d.sf.present) : (0, e.1) ∈ (latchTrip e d).sf.causes := by
  have hnote : (0, e.1) ∉ (noteTrip e d).sf.present := h
  simp [latchTrip_eq, gone, latch_sf hnote, Safe.dropped, Safe.latched]

theorem latching_each (l : List (Nat × Bool)) (d : Dev) :
    Latching d (each latchTrip l d) ∧ ∀ e ∈ l, (0, e.1) ∉ d.sf.present → (0, e.1) ∈ (each latchTrip l d).sf.causes := by
  induction l generalizing d with
  | nil => exact ⟨⟨fun _ h => h, fun _ h => h, fun _ => rfl⟩, nofun⟩
  | cons x r ih =>
    obtain ⟨hrest, hcauses⟩ := ih (latchTrip x d)
    have hfirst := latching_latchTrip x d
    refine ⟨hfirst.trans hrest, fun e he hp => ?_⟩
    rcases List.mem_cons.mp he with rfl | he
    · exact hrest.causes (cause_latchTrip hp)
    · exact hcauses e he fun hc => hp (hfirst.present _ hc)

/-- Without a trip that waited nothing latches. -/
theorem latchTrips_nil {d : Dev} (h : d.pw.tripWake = []) : latchTrips d = d := by
  rw [latchTrips, h]
  change { d with pw := { d.pw with tripWake := [] } } = d
  rw [← h]

/-! ### A tone that waited (R427) -/

/-- The line of a port falls quiet. -/
def LinkPort.fellQuiet (now : Time) (x : LinkPort) : LinkPort := { x with quietAt := some now, lineAt := now }

/-- The device whose forwarding has left a port. -/
def unforwarded (d : Dev) : Dev :=
  match d.tn.fwd with
  | some q => if (port d q).toneTx then d else withPort q (LinkPort.fellQuiet d.now) d
  | none => d

theorem frame_unforwarded (d : Dev) : ChangesOnly [.north, .south] [] d (unforwarded d) := by
  unfold unforwarded
  split
  · next q _ => exact .ite (.refl ..) ((frame_setPort_queue (by rfl)).mono (by cases q <;> decide))
  · exact .refl ..

theorem frame_withTone (f : Tone → Tone) (d : Dev) : ChangesOnly [.tn] [] d (withTone f d) := by
  refine ⟨fun q hq => ?_, fun _ _ => rfl⟩
  cases q <;> simp_all [Part.same]

theorem unforwarded_st (p : Port) (d : Dev) : (port (unforwarded d) p).st = (port d p).st := by
  unfold unforwarded
  split
  · next q _ =>
    split
    · rfl
    · cases p <;> cases q <;> rfl
  · rfl

/-- A port that drives a tone, and one that the device did not forward to, stay. -/
theorem unforwarded_port {p : Port} {d : Dev} (h : d.tn.fwd ≠ some p ∨ (port d p).toneTx = true) : port (unforwarded d) p = port d p := by
  unfold unforwarded
  split
  · next q hq =>
    split
    · rfl
    · next hn =>
      have hpq : q ≠ p := by
        rintro rfl
        rcases h with h | h
        · exact h hq
        · exact hn h
      rw [eq_otherPort hpq.symm, withPort, port_setPort_other]
  · rfl

/-- The device whose tone has started on a port. -/
def toned (p : Port) (d : Dev) : Dev := withPort p (LinkPort.startTone d.now) d

theorem toneOnUp_eq (p : Port) (d : Dev) : toneOnUp p d = withTone (fun n => { n with fwd := none }) (unforwarded (toned p d)) := rfl

theorem toned_port (p : Port) (d : Dev) : port (toned p d) p = (port d p).startTone d.now := port_setPort ..

theorem toned_other (p : Port) (d : Dev) : port (toned p d) (otherPort p) = port d (otherPort p) := port_setPort_other ..

theorem toned_tn (p : Port) (d : Dev) : (toned p d).tn = d.tn := setPort_tn ..

theorem toned_st (p q : Port) (d : Dev) : (port (toned p d) q).st = (port d q).st := by
  cases p <;> cases q <;> simp [toned, withPort, port, setPort, LinkPort.startTone]

/-- Once the tone has started, what is left to do for a port is the end of the forwarding. -/
theorem port_toneOnUp (p q : Port) (d : Dev) : port (toneOnUp p d) q = port (unforwarded (toned p d)) q := by
  rw [toneOnUp_eq]
  cases q <;> rfl

theorem frame_toneOnUp (p : Port) (d : Dev) : ChangesOnly [.north, .south, .tn] [] d (toneOnUp p d) := by
  rw [toneOnUp_eq]
  refine ChangesOnly.trans (ChangesOnly.trans ?_ ((frame_unforwarded _).mono)) ((frame_withTone ..).mono)
  exact (frame_setPort_queue (p := p) (by simp [LinkPort.startTone])).mono (by cases p <;> decide)

theorem toneOnUp_st (p q : Port) (d : Dev) : (port (toneOnUp p d) q).st = (port d q).st := by
  rw [port_toneOnUp, unforwarded_st, toned_st]

theorem toneOnUp_tn (p : Port) (d : Dev) : (toneOnUp p d).tn = { d.tn with fwd := none } := by
  have htn : (unforwarded (toned p d)).tn = d.tn := ((frame_unforwarded _).1 .tn (by decide)).trans (toned_tn ..)
  rw [toneOnUp_eq, withTone, htn]

/-- The tone starts on the port. -/
theorem toneOnUp_port (p : Port) (d : Dev) : port (toneOnUp p d) p = (port d p).startTone d.now := by
  rw [port_toneOnUp, unforwarded_port (.inr (by rw [toned_port]; rfl)), toned_port]

theorem toneOnUp_other {p : Port} {d : Dev} (h : d.tn.fwd = none ∨ d.tn.fwd = some p ∨ (port d (otherPort p)).toneTx = true) :
    port (toneOnUp p d) (otherPort p) = port d (otherPort p) := by
  have hstay : (toned p d).tn.fwd ≠ some (otherPort p) ∨ (port (toned p d) (otherPort p)).toneTx = true := by
    rw [toned_tn, toned_other]
    rcases h with h | h | h
    · exact .inl (by simp [h])
    · exact .inl (by rw [h]; cases p <;> decide)
    · exact .inr h
  rw [port_toneOnUp, unforwarded_port hstay, toned_other]

/-! ### The hop is UP (R236, R238) -/

/-- A port whose hop has come UP. -/
def LinkPort.cameUp (ex : List DlyStamps) (now : Time) (x : LinkPort) : LinkPort :=
  { x with
    st := .up, rate := x.trial, cycles := 0, ups := (x.ups + 1) % 65536, alive := 0, lastAlive := none, rxBuf := []
    dly := ex.map (exchangeDelay x.trial), dlyAt := now, burstAt := now, lineAt := now, ownTo := 0, waitAt := now
    sent := none, toneDue := false }

/-- What a hop that came UP does: the tone that waited, or the first burst of the north end. -/
def greet (p : Port) (due : Bool) (d : Dev) : Dev := if due then toneOnUp p d else if p = .north then sendBurst p d.now d else d

theorem linkUp_idle {p : Port} {ex : List DlyStamps} {d : Dev} {x : LinkPort} (hx : port d p = x)
    (h : training x = false ∨ ex.length ≠ 64 ∨ x.locked = false ∨ x.rxN < 4096 ∨ x.txN < 4096 ∨
      passed (checkTime x.trial) x.trainAt d.now = false) : linkUp p ex d = d := by
  subst hx
  refine if_neg ?_
  rcases h with h | h | h | h | h | h
  · simp [h]
  · simp [h]
  · simp [LinkPort.checked, h]
  · simp [LinkPort.checked, Nat.not_le.mpr h]
  · simp [LinkPort.checked, Nat.not_le.mpr h]
  · simp [LinkPort.checked, h]

theorem linkUp_greet {p : Port} {ex : List DlyStamps} {d : Dev} {x : LinkPort} (hx : port d p = x) (ht : training x = true)
    (hex : ex.length = 64) (hl : x.locked = true) (hrx : 4096 ≤ x.rxN) (htx : 4096 ≤ x.txN)
    (hpast : passed (checkTime x.trial) x.trainAt d.now = true) :
    linkUp p ex d = greet p x.toneDue (latchTrips (setPort p (x.cameUp ex d.now) d)) := by
  subst hx
  exact if_pos (by simp [ht, hex, LinkPort.checked, hl, hrx, htx, hpast])

theorem frame_greet (p : Port) (due : Bool) (d : Dev) : ChangesOnly [.north, .south, .tn, .queues, .ex] [] d (greet p due d) :=
  .ite ((frame_toneOnUp ..).mono) (.ite ((frame_sendBurst ..).mono (by cases p <;> decide)) (.refl ..))

theorem sendBurst_st (p q : Port) (start : Time) (d : Dev) : (port (sendBurst p start d) q).st = (port d q).st := by
  by_cases hq : q = p
  · subst hq
    cases ht : toneOn d q
    · rw [sendBurst_eq ht, port_setPort]
      rfl
    · rw [sendBurst_tone ht]
  · rw [eq_otherPort hq]
    exact still_st ((frame_sendBurst p start d).still _ (by cases p <;> decide))

theorem greet_st (p q : Port) (due : Bool) (d : Dev) : (port (greet p due d) q).st = (port d q).st := by
  unfold greet
  split
  · exact toneOnUp_st ..
  · split
    · exact sendBurst_st ..
    · rfl

theorem greet_done (p : Port) (due : Bool) (d : Dev) (calm : d.ex.done = []) : (greet p due d).ex.done = [] := by
  unfold greet
  split
  · rw [(frame_toneOnUp p d).1 .ex (by decide), calm]
  · split
    · rw [sendBurst_done, calm]
    · exact calm

theorem greet_pw (p : Port) (due : Bool) (d : Dev) : (greet p due d).pw = d.pw := (frame_greet p due d).1 .pw (by decide)

theorem greet_sf (p : Port) (due : Bool) (d : Dev) : (greet p due d).sf = d.sf := (frame_greet p due d).1 .sf (by decide)

theorem latchTrips_done (d : Dev) : (latchTrips d).ex.done = d.ex.done := by
  have htrip : ∀ e d, (latchTrip e d).ex = d.ex := fun e d => by
    rw [latchTrip_eq, (frame_gone ..).1 .ex (by decide), (frame_latch ..).1 .ex (by decide)]
    rfl
  exact congrArg Exec.done (each_ex htrip d.pw.tripWake d)

/-- The tone on the line of a port does not depend on its hop's coming up. -/
theorem toneOn_cameUp (p : Port) (ex : List DlyStamps) (now : Time) (d : Dev) :
    toneOn (setPort p ((port d p).cameUp ex now) d) p = toneOn d p := by cases p <;> rfl

/-- LINK_UP of a hop whose check has passed, with trips that waited or without. -/
theorem exec_linkUp_trips {s : State} {t : Time} {p : Port} {d e : Dev} {ex : List DlyStamps} {due : Bool} {y : LinkPort}
    (hd : d = tick t s.dev) (ha : d.awake = true) (calm : Calm d) (he : e = latchTrips (setPort p y d)) (hy : y.st = .up)
    (heff : linkUp p ex d = greet p due e) :
    ∃ u, exec (.linkUp t p ex) s = .next u ∧ (port u.dev p).st = .up ∧ u.dev.pw.tripWake = [] ∧
      (∀ e ∈ d.pw.tripWake, (0, e.1) ∉ d.sf.present → (0, e.1) ∈ u.dev.sf.causes) ∧
      (d.pw.tripWake = [] → u.dev = greet p due (setPort p y d) ∧ u.hst = s.hst) := by
  have hdone : (linkUp p ex d).ex.done = [] := by
    rw [heff]
    exact greet_done _ _ _ (by rw [he, latchTrips_done, setPort_ex, calm.2])
  obtain ⟨u, hu, hpost, -⟩ := actAwake_posted (s := s) (linkUp p ex) hd ha hdone
  obtain ⟨hlatch, hcauses⟩ := latching_each (setPort p y d).pw.tripWake (setPort p y d)
  rw [setPort_pw, setPort_sf] at hcauses
  have hpw : u.dev.pw = e.pw := by rw [hpost.frame.1 .pw (by decide), heff, greet_pw]
  have hsf : u.dev.sf = e.sf := by rw [hpost.frame.1 .sf (by decide), heff, greet_sf]
  refine ⟨u, hu, ?_, ?_, ?_, fun hnil => ?_⟩
  · have hst : (port e p).st = y.st := by
      have hport := hlatch.st p
      rw [port_setPort] at hport
      rw [← hport, he]
      cases p <;> rfl
    rw [still_st (hpost.frame.still p (by cases p <;> decide)), heff, greet_st, hst, hy]
  · rw [hpw, he]
    rfl
  · have hsame : (latchTrips (setPort p y d)).sf = (each latchTrip (setPort p y d).pw.tripWake (setPort p y d)).sf := rfl
    rw [hsf, he, hsame, setPort_pw]
    exact hcauses
  · have hplain : linkUp p ex d = greet p due (setPort p y d) := by
      rw [heff, he, latchTrips_nil (by rw [setPort_pw, hnil])]
    have hev : (linkUp p ex d).ev.out = [] := by
      rw [hplain, (frame_greet ..).1 .ev (by decide), setPort_ev, calm.1]
    have hnext := actAwake_calm (s := s) (linkUp p ex) hd ha ⟨hev, hdone⟩
    obtain rfl : u = { s with dev := linkUp p ex d } := by
      have huu := hu.symm.trans hnext
      injection huu
    exact ⟨hplain, rfl⟩

/-- What it does without a trip that waited. -/
theorem greet_cameUp {p : Port} {x y : LinkPort} {d : Dev} {ex : List DlyStamps} (hx : port d p = x) (hy : y = x.cameUp ex d.now) (due : Bool) :
    (due = true → (greet p due (setPort p y d)).tn = { d.tn with fwd := none } ∧
      port (greet p due (setPort p y d)) p = y.startTone d.now ∧
      (d.tn.fwd = none ∨ d.tn.fwd = some p ∨ (port d (otherPort p)).toneTx = true →
        port (greet p due (setPort p y d)) (otherPort p) = port d (otherPort p))) ∧
    (due = false → (greet p due (setPort p y d)).tn = d.tn ∧
      (p = .south ∨ toneOn d p = true → port (greet p due (setPort p y d)) p = y) ∧
      (p = .north → toneOn d p = false → BurstSent (setPort p y d) p d.now (port (greet p due (setPort p y d)) p))) ∧
    ChangesOnly [.north, .south, .tn, .queues, .ex] [] d (greet p due (setPort p y d)) := by
  subst hx hy
  have htone := toneOn_cameUp p ex d.now d
  refine ⟨fun hdue => ?_, fun hdue => ?_, ((frame_setPort ..).mono (by cases p <;> decide)).trans (frame_greet ..)⟩
  · rw [greet, if_pos hdue]
    refine ⟨?_, ?_, fun h => ?_⟩
    · rw [toneOnUp_tn, setPort_tn]
    · rw [toneOnUp_port, port_setPort, setPort_now]
    · rw [toneOnUp_other (by rwa [setPort_tn, port_setPort_other]), port_setPort_other]
  · rw [greet, if_neg (by simp [hdue])]
    refine ⟨?_, fun h => ?_, fun hp ht => ?_⟩
    · split
      · rw [(frame_sendBurst ..).1 .tn (by cases p <;> decide), setPort_tn]
      · exact setPort_tn ..
    · rcases h with rfl | h
      · rw [if_neg (by decide), port_setPort]
      · split
        · rw [sendBurst_tone (htone.trans h), port_setPort]
        · exact port_setPort ..
    · rw [if_pos hp, setPort_now]
      exact burstSent_sendBurst (htone.trans ht)

end Sys2Proof.Machine
end

section
/-! PROOF. Hops train, come UP, fall and obey RETRAIN. -/

namespace Sys2Proof.Machine

/-- Settles O38: each command of training and of a hop that goes down by the lemma about it. -/
theorem hopsTrainAndFall : Obligations.HopsTrainAndFall := by
  unfold Obligations.HopsTrainAndFall
  refine ⟨fun s t p x d hd ha calm hx => ⟨?_, ?_, ?_, ?_, ?_, ?_, ?_⟩, fun s t p d hd ha calm => ⟨?_, ?_, ?_, ?_⟩, ?_⟩
  · intro groups
    subst hx
    exact exec_trainRateTimeout hd ha calm groups
  · intro groups l rd hr ht
    exact exec_burstRx_train hd ha calm hx groups l rd hr ht
  · exact exec_trainListenRate hd ha calm hx
  · intro ex y hy
    refine ⟨fun h => ?_, fun ht hex hl hrx htx hpast => ?_⟩
    · exact actAwake_idle (linkUp p ex) hd ha calm (linkUp_idle hx h)
    · obtain ⟨u, hu, hst, htrips, hcauses, hplain⟩ := exec_linkUp_trips hd ha calm rfl (y := x.cameUp ex d.now) rfl
        (linkUp_greet hx ht hex hl hrx htx hpast)
      refine ⟨u, hu, hst, htrips, hcauses, fun hnil => ?_⟩
      obtain ⟨hdev, hhst⟩ := hplain hnil
      obtain ⟨hdue, hnot, hframe⟩ := greet_cameUp (ex := ex) hx rfl x.toneDue
      subst hy
      rw [hdev]
      exact ⟨hdue, hnot, hframe, hhst⟩
  · exact (exec_trainRetry hd ha calm hx).1
  · exact (exec_trainRetry hd ha calm hx).2
  · exact exec_delayExchange hd ha calm hx
  · exact (exec_hopDownTimeout hd ha calm).1
  · exact (exec_hopDownTimeout hd ha calm).2
  · exact (exec_wakeStreamOnUp hd ha calm).1
  · exact (exec_wakeStreamOnUp hd ha calm).2
  · intro s t v d hd hr calm
    exact exec_linkRetrain hd hr calm

end Sys2Proof.Machine
end

section
/-! SUPPORT. What the balancing block's update after a change of its cells can change, and what it leaves of a cell (file 07). -/

namespace Sys2Proof.Machine

/-! ### Frames of the update (R82, R209) -/

theorem frame_withAcc (cell : Nat) (f : CellAcc → CellAcc) (d : Dev) : ChangesOnly [.hist] [] d (withAcc cell f d) := by
  refine ⟨fun q hq => ?_, fun _ _ => rfl⟩
  cases q <;> simp_all [Part.same, withAcc, Mem.still]

theorem frame_noteHeld (d : Dev) : ChangesOnly [.hist] [] d (noteHeld d) :=
  .each _ (fun _ _ => .ite (frame_withAcc ..) (.refl ..)) _ _

theorem frame_endTest (d : Dev) : ChangesOnly [.ba] [] d (endTest d) := by
  unfold endTest
  split
  · exact .refl ..
  · exact frame_ba ..

/-- The device with a step test of switch j that begins now (R82). -/
def testBegun (j : Nat) (d : Dev) : Dev := { d with ba := { d.ba with test := some (j, d.now), voids := 0, voidTo := 0 } }

/-- The running test ends or goes on; then the test of a cell in WAIT may begin (R82). -/
theorem nextTest_cases (d : Dev) : ∃ e, (e = d ∨ e = endTest d) ∧
    (nextTest d = e ∨ ∃ j, cellState e j = .wait ∧ nextTest d = testBegun j e) := by
  unfold nextTest
  extract_lets e
  refine ⟨e, ?_, ?_⟩
  · unfold e
    split
    · split
      · exact .inr rfl
      · exact .inl rfl
    · exact .inl rfl
  · split
    · exact .inl rfl
    · split
      · next j hj => exact .inr ⟨j, by simpa using List.find?_some hj, rfl⟩
      · exact .inl rfl

theorem frame_testBegun (j : Nat) (d : Dev) : ChangesOnly [.ba] [] d (testBegun j d) := frame_ba ..

theorem frame_nextTest (d : Dev) : ChangesOnly [.ba] [] d (nextTest d) := by
  obtain ⟨e, he, hn⟩ := nextTest_cases d
  have hend : ChangesOnly [.ba] [] d e := by
    rcases he with rfl | rfl
    · exact .refl ..
    · exact frame_endTest d
  rcases hn with h | ⟨j, -, h⟩ <;> rw [h]
  · exact hend
  · exact hend.trans (frame_testBegun j e)

theorem frame_fitU (n : Nat) (z : Int) (d : Dev) : ChangesOnly [.free] [] d (fitU n z d).2 := by
  unfold fitU
  split
  · exact .refl ..
  · exact frame_freeWord d

/-- What the update of the balancing block may change. -/
def balParts : List Part := [.ba, .free] ++ evParts

/-- The device with a new K and a new power request (R209). -/
def powered (k q : Nat) (d : Dev) : Dev := { d with ba := { d.ba with k := k, pReq := q } }

/-- Setting K takes at most a free word, then K and the request; a rise of DERATED counts (R209). -/
theorem setK_cases (d : Dev) : ∃ e k q data, ChangesOnly [.free] [] d e ∧
    (setK d = powered k q e ∨ setK d = occur 28 0 0x0C03 data (powered k q e)) := by
  unfold setK
  by_cases h : (if extFet d then (if d.ba.forbid then 0 else 256) else kOf d.ba.forbid (pReqN d) ((d.ba.pMax64 : Int) - 64 * d.ba.pExc)) < 256 ∧
      !decide (d.ba.k < 256)
  · exact ⟨_, _, _, _, frame_fitU 16 (quot (pReqN d) 256000000) d, .inr (if_pos h)⟩
  · exact ⟨_, _, _, [], frame_fitU 16 (quot (pReqN d) 256000000) d, .inl (if_neg h)⟩

theorem frame_powered (k q : Nat) (d : Dev) : ChangesOnly [.ba] [] d (powered k q d) := frame_ba ..

theorem frame_setK (d : Dev) : ChangesOnly balParts [R.ringCnt] d (setK d) := by
  obtain ⟨e, k, q, data, he, h | h⟩ := setK_cases d <;> rw [h]
  · exact he.mono.trans (frame_powered k q e).mono
  · exact (he.mono.trans (frame_powered k q e).mono).trans (frame_occur ..).mono

/-- Cells that no longer run lose their mark of running (R205). -/
def marksDown (d : Dev) : Dev :=
  each (fun n d => if (balCell d n).was && decide (cellState d n ≠ .run) then withBal n (fun c => { c with was := false }) d else d)
    (cellsUsed d) d

theorem frame_unmark (d : Dev) : ChangesOnly [.ba] [] d (marksDown d) := .each _ (fun _ _ => .ite (frame_withBal ..) (.refl ..)) _ _

/-- The update, without a plan and with one. -/
theorem balUpdate_cases (d : Dev) : (d.ba.plan = none ∧ balUpdate d = setK (endTest d)) ∨
    ((∃ p, d.ba.plan = some p) ∧ balUpdate d = setK (nextTest (noteHeld (marksDown d)))) := by
  unfold balUpdate
  split
  · next h => exact .inl ⟨h, rfl⟩
  · next p h => exact .inr ⟨⟨p, h⟩, rfl⟩

theorem frame_balUpdate (d : Dev) : ChangesOnly balParts [R.ringCnt] d (balUpdate d) := by
  rcases balUpdate_cases d with ⟨-, h⟩ | ⟨-, h⟩ <;> rw [h]
  · exact (frame_endTest d).mono.trans (frame_setK _)
  · exact (((frame_unmark d).mono.trans (frame_noteHeld _).mono).trans (frame_nextTest _).mono).trans (frame_setK _)

@[simp] theorem balUpdate_sf (d : Dev) : (balUpdate d).sf = d.sf := (frame_balUpdate d).1 .sf (by decide)

@[simp] theorem balUpdate_ex (d : Dev) : (balUpdate d).ex = d.ex := (frame_balUpdate d).1 .ex (by decide)

/-! ### What the update leaves of the plan and of the cells -/

/-- From device a to device b the plan, the conduction owed and what the plan keeps of cell n but its mark of running are as they were, and
no bucket but that of DERATED has changed. -/
structure PlanKept (a b : Dev) : Prop where
  plan : b.ba.plan = a.ba.plan
  owed : b.ba.owed = a.ba.owed
  tested : ∀ n, (balCell b n).tested = (balCell a n).tested

theorem PlanKept.trans {a b c : Dev} (h : PlanKept a b) (k : PlanKept b c) : PlanKept a c :=
  ⟨k.plan.trans h.plan, k.owed.trans h.owed, fun n => (k.tested n).trans (h.tested n)⟩

theorem PlanKept.of_ba {a b : Dev} (h : b.ba = a.ba) : PlanKept a b := ⟨by rw [h], by rw [h], fun n => by rw [balCell, h, ← balCell]⟩

theorem PlanKept.ite {p : Prop} [Decidable p] {a b c : Dev} (h : PlanKept a b) (k : PlanKept a c) : PlanKept a (if p then b else c) := by
  split <;> assumption

theorem balCell_withBal (k : Nat) (f : BalCell → BalCell) (d : Dev) (n : Nat) :
    balCell (withBal k f d) n = if n = k then f (balCell d k) else balCell d n := by
  simp [balCell, withBal, kget, kset, mget_mset]

theorem planKept_endTest (d : Dev) : PlanKept d (endTest d) := by
  unfold endTest
  split <;> exact ⟨rfl, rfl, fun _ => rfl⟩

theorem planKept_nextTest (d : Dev) : PlanKept d (nextTest d) := by
  obtain ⟨e, he, hn⟩ := nextTest_cases d
  have hend : PlanKept d e := by
    rcases he with rfl | rfl
    · exact .of_ba rfl
    · exact planKept_endTest d
  rcases hn with h | ⟨j, -, h⟩ <;> rw [h]
  · exact hend
  · exact hend.trans ⟨rfl, rfl, fun _ => rfl⟩

theorem planKept_setK (d : Dev) : PlanKept d (setK d) := by
  obtain ⟨e, k, q, data, he, h⟩ := setK_cases d
  have hk : PlanKept d (powered k q e) := (PlanKept.of_ba (he.1 .ba (by decide))).trans ⟨rfl, rfl, fun _ => rfl⟩
  rcases h with h | h <;> rw [h]
  · exact hk
  · exact hk.trans (.of_ba ((frame_occur ..).1 .ba (by decide)))

theorem PlanKept.each {α : Type} (f : α → Dev → Dev) (h : ∀ x d, PlanKept d (f x d)) (l : List α) (d : Dev) : PlanKept d (each f l d) :=
  each_fst (P := PlanKept d) f (fun x e he => he.trans (h x e)) l d (.of_ba rfl)

theorem planKept_unmark (d : Dev) : PlanKept d (marksDown d) := by
  have hcell : ∀ n e, PlanKept e (withBal n (fun c => { c with was := false }) e) := fun n e =>
    ⟨rfl, rfl, fun k => by rw [balCell_withBal]; split <;> simp_all⟩
  exact .each _ (fun n e => .ite (hcell n e) (.of_ba rfl)) _ _

theorem planKept_balUpdate (d : Dev) : PlanKept d (balUpdate d) := by
  rcases balUpdate_cases d with ⟨-, h⟩ | ⟨-, h⟩ <;> rw [h]
  · exact (planKept_endTest d).trans (planKept_setK _)
  · have hheld : PlanKept (marksDown d) (noteHeld (marksDown d)) := .of_ba ((frame_noteHeld _).1 .ba (by decide))
    exact (((planKept_unmark d).trans hheld).trans (planKept_nextTest _)).trans (planKept_setK _)

/-- The update counts in the bucket of DERATED alone (R209). -/
theorem level_setK {s i : Nat} (d : Dev) (h : bucketBase s + i ≠ bucketBase 28) : level (setK d) s i = level d s i := by
  obtain ⟨e, k, q, data, he, hs⟩ := setK_cases d
  have hk : level (powered k q e) s i = level d s i := level_congr (congrArg Events.lvl (he.1 .ev (by decide))) ..
  rcases hs with hs | hs <;> rw [hs]
  · exact hk
  · rw [level_occur_ne _ _ _ h, hk]

/-- Levels stay where event accounting does. -/
theorem ChangesOnly.level {ps : List Part} {rs : List Nat} {a b : Dev} (h : ChangesOnly ps rs a b) (s i : Nat) (hv : .ev ∉ ps := by decide) :
    level b s i = level a s i := level_congr (congrArg Events.lvl (h.1 .ev hv)) s i

theorem level_balUpdate {s i : Nat} (d : Dev) (h : bucketBase s + i ≠ bucketBase 28) : level (balUpdate d) s i = level d s i := by
  rcases balUpdate_cases d with ⟨-, hu⟩ | ⟨-, hu⟩ <;> rw [hu]
  · rw [level_setK _ h, (frame_endTest _).level]
  · rw [level_setK _ h, (frame_nextTest _).level, (frame_noteHeld _).level, (frame_unmark _).level]

end Sys2Proof.Machine
end

section
/-! SUPPORT. The value of a lane result (file 03). -/

namespace Sys2Proof.Machine

/-! ### Rounding and the chain of R101 without corrections -/

theorem clampInt_bounds {lo hi : Int} (h : lo ≤ hi) (v : Int) : lo ≤ clampInt lo hi v ∧ clampInt lo hi v ≤ hi := by
  unfold clampInt
  split
  · omega
  · split <;> omega

/-- Of a multiple of a positive number nothing is rounded. -/
theorem quot_mul {v m : Int} (hm : 0 < m) : quot (v * m) m = v := by
  simp [quot, show ¬ m < 0 by omega, hm.ne']

theorem sumInt_mul (c : Int) (l : List Int) : sumInt (l.map (fun x => c * x)) = c * sumInt l := by
  induction l with
  | nil => simp [sumInt]
  | cons x r ih => simp [sumInt, ih, Int.mul_add]

/-- Neutral layers scale a part's weighted sum alone (R101). -/
theorem correct_neutral (p : RawPart) : (⟨0, 0, 0, 0, 0⟩ : Layers).correct p = 10 ^ 30 * p.m1 := by
  simp only [Layers.correct]
  ring

theorem laneSum_neutral {d : Dev} {lane : Nat} {T : Time} {l : List RawPart}
    (h : ∀ p ∈ l, layersAt d lane (T.toNat - p.age) = ⟨0, 0, 0, 0, 0⟩) : laneSum d lane T l = 10 ^ 30 * sumInt (l.map RawPart.m1) := by
  rw [laneSum, ← sumInt_mul, List.map_map]
  congr 1
  exact List.map_congr_left fun p hp => by rw [h p hp, correct_neutral]; rfl

/-- Without conduction there is no correction (R83). -/
theorem corrTerm_open (d : Dev) (T : Time) (k j : Nat) (upper both : Bool) : corrTerm d T k j 0 upper both = (0, false) := by
  simp [corrTerm]

theorem correction_open {d : Dev} {T : Time} {x : LaneSample} (ho : x.wOwn = 0) (hh : x.wHigh = 0) (hl : x.wLow = 0) :
    correction d T x = (0, false) := by
  simp [correction, ho, hh, hl, corrTerm_open]

/-! ### The result -/

/-- The corrected reading before it is held within its bounds, in uV (R75, R83, R101). -/
def laneReading (mode : Nat) (d : Dev) (g : LaneGroup) (T : Time) (x : LaneSample) : Int :=
  quot (laneSum d (laneIdx g x.cell) T x.parts * corrDen +
    (if ignoreMode d mode then 0 else (correction d T x).1) * scale31 * 65536) (scale31 * 65536 * corrDen)

theorem laneEvalIn_value (mode : Nat) (d : Dev) (g : LaneGroup) (T : Time) (x : LaneSample) : (laneEvalIn mode d g T x).value =
    if (laneEvalIn mode d g T x).stale then kget 0 d.me.good (laneIdx g x.cell)
    else clampInt (-2300000) 5800000 (laneReading mode d g T x) := rfl

theorem laneEvalIn_ovr (mode : Nat) (d : Dev) (g : LaneGroup) (T : Time) (x : LaneSample) : (laneEvalIn mode d g T x).ovr =
    (laneUnstable x.input || decide (laneReading mode d g T x < -2000000 ∨ 5500000 < laneReading mode d g T x)) := rfl

/-- A held reading is at a bound only where it lies beyond the range that is not flagged (R75, R78). -/
theorem ovr_of_bound {v : Int} (h : clampInt (-2300000) 5800000 v = -2300000 ∨ clampInt (-2300000) 5800000 v = 5800000) :
    v < -2000000 ∨ 5500000 < v := by
  unfold clampInt at h
  split at h
  · omega
  · split at h <;> omega

/-- With neutral layers and open switches the reading is the weighted mean of the raw samples (R101). -/
theorem laneReading_neutral {mode : Nat} {d : Dev} {g : LaneGroup} {T : Time} {x : LaneSample} {v : Int}
    (ho : x.wOwn = 0) (hh : x.wHigh = 0) (hl : x.wLow = 0)
    (hn : ∀ p ∈ x.parts, layersAt d (laneIdx g x.cell) (T.toNat - p.age) = ⟨0, 0, 0, 0, 0⟩)
    (hv : sumInt (x.parts.map RawPart.m1) = 655360 * v) : laneReading mode d g T x = v := by
  have hsum : laneSum d (laneIdx g x.cell) T x.parts * corrDen = v * (scale31 * 65536 * corrDen) := by
    rw [laneSum_neutral hn, hv]
    unfold scale31
    ring
  rw [laneReading, correction_open ho hh hl, hsum]
  simp only [ite_self, Int.zero_mul, Int.add_zero]
  exact quot_mul (by decide)

theorem clampInt_eq {lo hi : Int} (h : lo ≤ hi) (v : Int) : clampInt lo hi v = max lo (min hi v) := by
  unfold clampInt
  split
  · omega
  · split <;> omega

/-- Settles O17: the value is the last good one or the held reading, and of the reading the bounds and the neutral chain say the rest. -/
theorem laneValue : Obligations.LaneValue := by
  unfold Obligations.LaneValue
  intro d g T x v
  have hval := laneEvalIn_value (measMode d) d g T x
  have hovr := laneEvalIn_ovr (measMode d) d g T x
  change (laneEval d g T x).value = if (laneEval d g T x).stale then _ else _ at hval
  change (laneEval d g T x).ovr = _ at hovr
  generalize laneEval d g T x = r at hval hovr ⊢
  have hbounds := clampInt_bounds (lo := -2300000) (hi := 5800000) (by decide) (laneReading (measMode d) d g T x)
  cases hs : r.stale
  · simp only [hs, Bool.false_eq_true, if_false] at hval ⊢
    refine ⟨nofun, ?_, ?_, fun _ hb => ?_, fun _ ho hh hl hn hv => ?_⟩
    · exact hval ▸ hbounds.1
    · exact hval ▸ hbounds.2
    · rw [hovr, decide_eq_true (ovr_of_bound (hval ▸ hb)), Bool.or_true]
    · rw [hval, hovr, laneReading_neutral ho hh hl hn hv]
      exact ⟨clampInt_eq (by decide) v, rfl⟩
  · simp [hval, hs]

end Sys2Proof.Machine
end

section
/-! SUPPORT. Commands while the C-die runs, the tone that a latch originates, and the comparators' trips and releases (files 03 and 11). -/

namespace Sys2Proof.Machine

/-! ### Commands while the C-die runs -/

/-- Such a command with effect f, without a completion. -/
theorem actAt_posted {t : Time} {s : State} {d : Dev} (f : Dev → Dev) (hd : d = tick t s.dev) (hr : d.running = true)
    (hx : (f d).ex.done = []) : ∃ u, actAt t f s = .next u ∧ PostsOnly (f d) u.dev ∧ HostEvents s.hst u.hst := by
  subst hd
  exact ⟨_, actAt_next t f s (by simpa using hr), posted_settle (b := (f (tick t s.dev), s.hst)) hx, settle_host (f (tick t s.dev), s.hst) hx⟩

/-- Such a command with an effect that posts nothing. -/
theorem actAt_calm {t : Time} {s : State} {d : Dev} (f : Dev → Dev) (hd : d = tick t s.dev) (hr : d.running = true)
    (calm : Calm (f d)) : actAt t f s = .next { s with dev := f d } := by
  subst hd
  exact actAt_quiet t f s (by simpa using hr) calm.1 calm.2

/-- Such a command that leaves the device as it is but for ring time. -/
theorem actAt_idle {t : Time} {s : State} {d : Dev} (f : Dev → Dev) (hd : d = tick t s.dev) (hr : d.running = true) (calm : Calm d)
    (hf : f d = d) : actAt t f s = .next { s with dev := d } := by
  have h := actAt_calm (s := s) f hd hr (by rwa [hf])
  rwa [hf] at h

/-! ### A new latch that originates the tone (R240, R311, R312) -/

/-- From device a to device b the fault tone has been originated: no port forwards it, and each port begins its schedule at the present. -/
structure Toned (a b : Dev) : Prop where
  tn : b.tn = { a.tn with fwd := none }
  port : ∀ p, (port b p).toneTx = true ∧ (port b p).toneLeft = 9 ∧ (port b p).toneFrom = a.now

theorem toned_originate {d : Dev} (ha : d.awake = true) : Toned d (originate d) := by
  unfold originate
  cases hs : d.pw.st <;> simp [Dev.awake, PowerState.awake, hs] at ha
  all_goals exact ⟨rfl, fun p => by cases p <;> exact ⟨rfl, rfl, rfl⟩⟩

/-- Originating looks at the time, the power state and the tone alone. -/
theorem Toned.before {ps : List Part} {rs : List Nat} {a b c : Dev} (h : ChangesOnly ps rs a b) (k : Toned b c)
    (ht : .tn ∉ ps := by decide) (hn : .now ∉ ps := by decide) : Toned a c := by
  have htn : b.tn = a.tn := h.1 .tn ht
  have hnow : b.now = a.now := h.1 .now hn
  exact ⟨htn ▸ k.tn, hnow ▸ k.port⟩

theorem Toned.posted {a b c : Dev} (h : Toned a b) (k : PostsOnly b c) : Toned a c := by
  refine ⟨(k.frame.1 .tn (by decide)).trans h.tn, fun p => ?_⟩
  have hstill := k.frame.still p (by cases p <;> decide)
  obtain ⟨htx, hleft, hfrom⟩ := h.port p
  exact ⟨(congrArg LinkPort.toneTx hstill).trans htx, (congrArg LinkPort.toneLeft hstill).trans hleft,
    (congrArg LinkPort.toneFrom hstill).trans hfrom⟩

theorem toned_latch {b item : Nat} {d : Dev} (ha : d.awake = true) (hb : toneBit b = true) (hn : (b, item) ∉ d.sf.present) :
    Toned d (latch b item d) := by
  unfold latch
  rw [if_neg hn]
  dsimp only
  rw [if_pos hb]
  have hnote : ChangesOnly (.sf :: evParts) [R.ringCnt, R.safeCnt] d (latchNote b item d) := by
    refine ⟨fun q hq => ?_, fun _ _ => rfl⟩
    cases q <;> simp_all [Part.same, latchNote, evParts, Mem.still]
  have hframe := (hnote.trans (frame_post 0x1601 item [BitVec.ofNat 8 b, BitVec.ofNat 8 (latchPos b (latchNote b item d)), BitVec.ofNat 8 item]
    _).mono).trans (frame_faultReact b item _).mono
  refine .before hframe (toned_originate ?_)
  rw [Dev.awake, hframe.1 .pw (by decide), ← Dev.awake]
  exact ha

/-! ### Trips (R92, R93, R96) -/

theorem cmpOff_cases (ov : Bool) : cmpOff ov = R.cmpStatOv ∨ cmpOff ov = R.cmpStatUv := by cases ov <;> simp [cmpOff]

/-- What a trip leaves before its latch: the pair's bit, the open summary's flag, and the balance cells brought up to date. -/
def tripNoted (cell : Nat) (ov : Bool) (d : Dev) : Dev :=
  balUpdate (withAcc cell (fun a => { a with flags := a.flags ||| (if ov then 2 else 4) }) (setRegBit (cmpOff ov) (cell - 1) true d))

theorem cmpTrip_trips {cell : Nat} {ov : Bool} {samples : Nat} {uv : Int} {standIn : Bool} {d : Dev} (h1 : 1 ≤ cell) (hk : cell ≤ ncells d)
    (hs : deglitch d ≤ samples) (hb : beyondThr d cell ov uv = true) (hi : standIn = standsIn d cell) :
    cmpTrip cell ov samples uv standIn d = latch 0 cell (tripNoted cell ov d) := by
  simp [cmpTrip, tripNoted, h1, hk, hs, hb, hi]

theorem cmpTrip_idle {cell : Nat} {ov : Bool} {samples : Nat} {uv : Int} {standIn : Bool} {d : Dev}
    (h : samples < deglitch d ∨ beyondThr d cell ov uv = false ∨ standIn ≠ standsIn d cell) :
    cmpTrip cell ov samples uv standIn d = d := by
  refine if_neg fun hc => ?_
  simp only [Bool.and_eq_true, decide_eq_true_eq, beq_iff_eq] at hc
  obtain ⟨⟨⟨-, hs⟩, hb⟩, hi⟩ := hc
  rcases h with h | h | h
  · omega
  · simp [hb] at h
  · exact h hi

theorem frame_tripNoted (cell : Nat) (ov : Bool) (d : Dev) : ChangesOnly balParts [cmpOff ov, R.ringCnt] d (tripNoted cell ov d) :=
  (((frame_setRegBit ..).mono (by decide) (by simp)).trans ((frame_withAcc ..).mono (by decide) (by simp))).trans
    ((frame_balUpdate _).mono (by decide) (by simp))

/-- A bit of a register that a frame leaves alone. -/
theorem ChangesOnly.regBit {ps : List Part} {rs : List Nat} {a b : Dev} (h : ChangesOnly ps rs a b) {off : Nat} (j : Nat) (ho : off ∉ rs := by decide) :
    regBit b off j = regBit a off j := by
  unfold Machine.regBit
  rw [h.2 _ ho]

theorem cmpOff_quiet (ov : Bool) : cmpOff ov ∉ [R.ringCnt, R.safeCnt, R.hostEvtLost] := by cases ov <;> decide

theorem regBit_tripNoted {cell : Nat} {ov : Bool} {d : Dev} (h : cell - 1 < 32) (j : Nat) :
    regBit (tripNoted cell ov d) (cmpOff ov) j = (decide (j = cell - 1) || regBit d (cmpOff ov) j) := by
  have hoff := cmpOff_quiet ov
  rw [tripNoted, (frame_balUpdate _).regBit j (by simp_all), (frame_withAcc ..).regBit j (by simp), regBit_setRegBit _ _ _ _ _ h]
  split <;> simp_all

/-! ### Releases (R93) -/

/-- What a release leaves before the cause is looked at. -/
def releaseNoted (cell : Nat) (ov : Bool) (d : Dev) : Dev := balUpdate (setRegBit (cmpOff ov) (cell - 1) false d)

theorem frame_releaseNoted (cell : Nat) (ov : Bool) (d : Dev) : ChangesOnly balParts [cmpOff ov, R.ringCnt] d (releaseNoted cell ov d) :=
  ((frame_setRegBit ..).mono (by decide) (by simp)).trans ((frame_balUpdate _).mono (by decide) (by simp))

theorem cmpOff_not_mem (ov : Bool) : cmpOff (!ov) ∉ [cmpOff ov, R.ringCnt] := by cases ov <;> decide

theorem regBit_releaseNoted {cell : Nat} {ov : Bool} {d : Dev} (h : cell - 1 < 32) (j : Nat) :
    regBit (releaseNoted cell ov d) (cmpOff ov) j = (decide (j ≠ cell - 1) && regBit d (cmpOff ov) j) := by
  have hoff := cmpOff_quiet ov
  rw [releaseNoted, (frame_balUpdate _).regBit j (by simp_all), regBit_setRegBit _ _ _ _ _ h]
  split <;> simp_all

/-- A release clears the pair's bit, and the cause is gone where the cell's other bit does not stand. -/
theorem cmpRelease_releases {cell : Nat} {ov : Bool} {samples : Nat} {uv : Int} {d : Dev} (h1 : 1 ≤ cell) (hk : cell ≤ ncells d)
    (hc : cell - 1 < 32) (hs : deglitch d ≤ samples) (hb : insideThr d cell ov uv = true) : cmpRelease cell ov samples uv d =
      if regBit d (cmpOff !ov) (cell - 1) then releaseNoted cell ov d else gone 0 cell (releaseNoted cell ov d) := by
  have hown := regBit_setRegBit (cmpOff ov) (cell - 1) false d (cell - 1) hc
  have hother : regBit (setRegBit (cmpOff ov) (cell - 1) false d) (cmpOff !ov) (cell - 1) = regBit d (cmpOff !ov) (cell - 1) :=
    (frame_setRegBit ..).regBit _ (by have := cmpOff_not_mem ov; simp_all)
  simp only [cmpRelease, releaseNoted, h1, hk, hs, hb, decide_true, Bool.and_self, if_true]
  cases hx : regBit d (cmpOff !ov) (cell - 1) <;> cases ov <;> simp_all [cmpOff]

theorem cmpRelease_idle {cell : Nat} {ov : Bool} {samples : Nat} {uv : Int} {d : Dev}
    (h : samples < deglitch d ∨ insideThr d cell ov uv = false) : cmpRelease cell ov samples uv d = d := by
  refine if_neg fun hc => ?_
  simp only [Bool.and_eq_true, decide_eq_true_eq] at hc
  obtain ⟨⟨-, hs⟩, hb⟩ := hc
  rcases h with h | h
  · omega
  · simp [hb] at h

/-! ### The statement -/

/-- A trip posts within these frames. -/
theorem frame_trip (cell : Nat) (ov : Bool) (d : Dev) : ChangesOnly ([.ba, .free] ++ latchParts) [cmpOff ov, R.ringCnt, R.safeCnt, R.hostEvtLost] d
    (latch 0 cell (tripNoted cell ov d)) :=
  ((frame_tripNoted cell ov d).mono (by decide) (by simp)).trans ((frame_latch ..).mono (by decide) (by simp [latchRegs]))

theorem frame_release_trip (cell : Nat) (ov : Bool) (uv : Int) (samples : Nat) (d : Dev) (h1 : 1 ≤ cell) (hk : cell ≤ ncells d)
    (hc : cell - 1 < 32) (hs : deglitch d ≤ samples) (hb : insideThr d cell ov uv = true) :
    ChangesOnly ([.ba, .free, .sf] ++ evParts) [cmpOff ov, R.ringCnt, R.hostEvtLost] d (cmpRelease cell ov samples uv d) := by
  have hnoted := (frame_releaseNoted cell ov d).mono (qs := [.ba, .free, .sf] ++ evParts) (us := [cmpOff ov, R.ringCnt, R.hostEvtLost])
    (by decide) (by simp)
  rw [cmpRelease_releases h1 hk hc hs hb]
  exact .ite hnoted (hnoted.trans ((frame_gone ..).mono (by decide) (by simp)))

/-- The safety state after a release. -/
theorem cmpRelease_sf {cell : Nat} {ov : Bool} {samples : Nat} {uv : Int} {d : Dev} (h1 : 1 ≤ cell) (hk : cell ≤ ncells d)
    (hc : cell - 1 < 32) (hs : deglitch d ≤ samples) (hb : insideThr d cell ov uv = true) : (cmpRelease cell ov samples uv d).sf =
      { d.sf with present := if regBit d (cmpOff !ov) (cell - 1) then d.sf.present else d.sf.present.filter (fun c => c ≠ (0, cell)) } := by
  have hsf : (releaseNoted cell ov d).sf = d.sf := (frame_releaseNoted cell ov d).1 .sf (by decide)
  rw [cmpRelease_releases h1 hk hc hs hb]
  split
  · exact hsf
  · rw [gone, hsf]

theorem regBit_cmpRelease {cell : Nat} {ov : Bool} {samples : Nat} {uv : Int} {d : Dev} (h1 : 1 ≤ cell) (hk : cell ≤ ncells d)
    (hc : cell - 1 < 32) (hs : deglitch d ≤ samples) (hb : insideThr d cell ov uv = true) (j : Nat) :
    regBit (cmpRelease cell ov samples uv d) (cmpOff ov) j = (decide (j ≠ cell - 1) && regBit d (cmpOff ov) j) := by
  rw [cmpRelease_releases h1 hk hc hs hb, ← regBit_releaseNoted hc]
  split
  · rfl
  · exact (frame_gone ..).regBit j (by simp)

/-- The safety state after a trip whose cause is new (R311). -/
theorem trip_sf {cell : Nat} {ov : Bool} {d : Dev} (hn : (0, cell) ∉ d.sf.present) : (latch 0 cell (tripNoted cell ov d)).sf =
    (d.sf.latched 0 cell d.rg.pos d.now).dropped (true, true) d.now := by
  have hframe := frame_tripNoted cell ov d
  have hsf : (tripNoted cell ov d).sf = d.sf := hframe.1 .sf (by decide)
  have hrg : (tripNoted cell ov d).rg = d.rg := hframe.1 .rg (by decide)
  have hnow : (tripNoted cell ov d).now = d.now := hframe.1 .now (by decide)
  rw [latch_sf (by rwa [hsf]), hsf, hnow]
  simp [latchPos, hrg, latchOff]

/-- Settles O18: a trip is the pair's bit and the latch of bit 0, a release clears the bit and looks at the cell's other one. -/
theorem comparatorTrips : Obligations.ComparatorTrips := by
  unfold Obligations.ComparatorTrips
  intro s t cell ov samples uv standIn d hd ha calm h1 hk hmax
  have hr := running_of_awake ha
  have hc : cell - 1 < 32 := by omega
  refine ⟨fun hs hb hi => ?_, fun h => ?_, fun hs hb => ?_, fun h => ?_⟩
  · have htrip := cmpTrip_trips h1 hk hs hb hi
    have hframe := frame_trip cell ov d
    have hnoted := frame_tripNoted cell ov d
    have hsf : (tripNoted cell ov d).sf = d.sf := hnoted.1 .sf (by decide)
    obtain ⟨u, hu, hp, hh⟩ := actAt_posted (s := s) (cmpTrip cell ov samples uv standIn) hd hr
      (by rw [htrip, hframe.1 .ex (by decide), calm.2])
    rw [htrip] at hp
    have husf : u.dev.sf = _ := hp.frame.1 .sf (by decide)
    have hutn : u.dev.tn = _ := hp.frame.1 .tn (by decide)
    refine ⟨u, hu, fun j => ?_, fun hn => ?_, fun hn => ?_, hframe.trans (hp.frame.mono (by decide) (by simp [evRegs])), hh⟩
    · rw [hp.frame.regBit j (by have := cmpOff_quiet ov; simp_all [evRegs]), (frame_latch ..).regBit j (by have := cmpOff_quiet ov; simp_all [latchRegs]),
        regBit_tripNoted hc]
    · have htone := ((toned_latch (d := tripNoted cell ov d) (b := 0) (item := cell)
        (by rwa [Dev.awake, hnoted.1 .pw (by decide), ← Dev.awake]) rfl (by rwa [hsf])).posted hp).before hnoted
      exact ⟨husf.trans (trip_sf hn), htone.tn, htone.port⟩
    · rw [husf, hutn, latch_present (by rwa [hsf])]
      exact ⟨hsf, hnoted.1 .tn (by decide)⟩
  · exact actAt_idle _ hd hr calm (cmpTrip_idle h)
  · have hframe := frame_release_trip cell ov uv samples d h1 hk hc hs hb
    obtain ⟨u, hu, hp, hh⟩ := actAt_posted (s := s) (cmpRelease cell ov samples uv) hd hr (by rw [hframe.1 .ex (by decide), calm.2])
    refine ⟨u, hu, fun j => ?_, ?_, hframe.trans (hp.frame.mono (by decide) (by simp [evRegs])), hh⟩
    · rw [hp.frame.regBit j (by have := cmpOff_quiet ov; simp_all [evRegs]), regBit_cmpRelease h1 hk hc hs hb]
    · rw [show u.dev.sf = _ from hp.frame.1 .sf (by decide), cmpRelease_sf h1 hk hc hs hb]
  · exact actAt_idle _ hd hr calm (cmpRelease_idle h)

end Sys2Proof.Machine
end

section
/-! SUPPORT. Coefficients of the switches, the taps beside them, and the open-wire test (file 03). -/

namespace Sys2Proof.Machine

/-! ### Coefficients and taps (R82, R85) -/

/-- Registers that new coefficients of switch j may change: its own, and those of the taps it touches. -/
def coefRegs (j : Nat) : List Nat := [R.measBcoef + 4 * (j - 1), R.measTapr + 4 * (j - 1), R.measTapr + 4 * j, R.ringCnt]

theorem not_mem_coefRegs {off j : Nat} (h : off < R.measTapr ∨ R.measBcoef + 4 * (j - 1) < off ∧ R.measTapr + 4 * j < off) (hr : off ≠ R.ringCnt) :
    off ∉ coefRegs j := by
  simp only [coefRegs, List.mem_cons, List.not_mem_nil, or_false, not_or]
  unfold R.measTapr R.measBcoef at *
  omega

theorem frame_updateTap (k : Nat) (d : Dev) : ChangesOnly evParts [R.measTapr + 4 * k, R.ringCnt] d (updateTap k d) := by
  have hset : ∀ w, ChangesOnly evParts [R.measTapr + 4 * k, R.ringCnt] d (setReg (R.measTapr + 4 * k) w d) := fun w =>
    (frame_setReg ..).mono (by decide) (by simp)
  exact .ite (hset _) (.ite ((hset _).trans ((frame_occur ..).mono (by decide) (by simp))) (hset _))

theorem frame_setCoef (j : Nat) (w : Word) (d : Dev) : ChangesOnly evParts (coefRegs j) d (setCoef j w d) :=
  (((frame_setReg ..).mono (by decide) (by simp [coefRegs])).trans ((frame_updateTap ..).mono (by decide) (by simp [coefRegs]))).trans
    ((frame_updateTap ..).mono (by decide) (by simp [coefRegs]))

theorem frame_me (m : Meas) (d : Dev) : ChangesOnly [.me] [] d { d with me := m } := by
  refine ⟨fun q hq => ?_, fun _ _ => rfl⟩
  cases q <;> simp_all [Part.same]

theorem frame_forgetCoef (j : Nat) (d : Dev) : ChangesOnly (.me :: evParts) (coefRegs j) d (forgetCoef j d) :=
  ((frame_me ..).mono (by decide) (by simp)).trans ((frame_setCoef ..).mono (by decide) (by simp))

/-- The coefficients of a switch, once set: no tap's register is one of them. -/
theorem reg_setCoef_self {j : Nat} (w : Word) (d : Dev) (hj : j ≤ 32) : reg (setCoef j w d) (R.measBcoef + 4 * (j - 1)) = w := by
  have hne : ∀ k ≤ j, R.measBcoef + 4 * (j - 1) ∉ [R.measTapr + 4 * k, R.ringCnt] := fun k hk => by
    simp only [List.mem_cons, List.not_mem_nil, or_false, not_or]
    unfold R.measTapr R.measBcoef R.ringCnt
    omega
  rw [setCoef, (frame_updateTap ..).2 _ (hne j (by omega)), (frame_updateTap ..).2 _ (hne (j - 1) (by omega)), reg_setReg_self]

/-- A tap counts in its own bucket alone (R85). -/
theorem level_updateTap {s i : Nat} (k : Nat) (d : Dev) (h : bucketBase s + i ≠ bucketBase 11 + k) : level (updateTap k d) s i = level d s i := by
  unfold updateTap
  dsimp only
  split
  · rfl
  · split
    · rw [level_occur_ne _ _ _ h]
      rfl
    · rfl

theorem level_setCoef {s i j : Nat} (w : Word) (d : Dev) (h : ∀ k, bucketBase s + i ≠ bucketBase 11 + k) :
    level (setCoef j w d) s i = level d s i := by
  rw [setCoef, level_updateTap _ _ (h _), level_updateTap _ _ (h _)]
  rfl

theorem level_forgetCoef {s i : Nat} (j : Nat) (d : Dev) (h : ∀ k, bucketBase s + i ≠ bucketBase 11 + k) :
    level (forgetCoef j d) s i = level d s i := level_setCoef _ _ h

/-- The number of cells stays where its register does. -/
theorem ChangesOnly.ncells {ps : List Part} {rs : List Nat} {a b : Dev} (h : ChangesOnly ps rs a b) (hr : R.measCells ∉ rs := by decide) :
    ncells b = ncells a := by simp only [Machine.ncells, regFld, h.2 _ hr]

/-! ### What an open tap leaves (R82, R88) -/

/-- Switch j beside an open tap: its coefficients are unknown and it is to be tested again. -/
def openSwitch (j : Nat) (d : Dev) : Dev := withBal j (fun c => { c with tested := false }) (forgetCoef j d)

theorem frame_openSwitch (j : Nat) (d : Dev) : ChangesOnly (.me :: .ba :: evParts) (coefRegs j) d (openSwitch j d) :=
  ((frame_forgetCoef ..).mono (by decide) (by simp)).trans ((frame_withBal ..).mono (by decide) (by simp))

theorem measCells_not_mem_coefRegs (j : Nat) : R.measCells ∉ coefRegs j := not_mem_coefRegs (.inl (by decide)) (by decide)

/-- Switch j has unknown coefficients and no test. -/
def Unknown (j : Nat) (d : Dev) : Prop := reg d (R.measBcoef + 4 * (j - 1)) = 0xFFFFFFFF ∧ (balCell d j).tested = false

theorem unknown_openSwitch {j : Nat} (d : Dev) (hj : j ≤ 32) : Unknown j (openSwitch j d) := by
  refine ⟨?_, ?_⟩
  · rw [openSwitch, (frame_withBal ..).2 _ (by simp), forgetCoef, reg_setCoef_self _ _ hj]
  · rw [openSwitch, balCell_withBal, if_pos rfl]

/-- What is done to the next switch leaves this one unknown. -/
theorem Unknown.openSwitch {j : Nat} {d : Dev} (h : Unknown j d) (hj : 1 ≤ j) (hmax : j + 1 ≤ 32) : Unknown j (openSwitch (j + 1) d) := by
  obtain ⟨hreg, htest⟩ := h
  refine ⟨?_, ?_⟩
  · rw [(frame_openSwitch ..).2 _ ?_, hreg]
    simp only [coefRegs, List.mem_cons, List.not_mem_nil, or_false, not_or]
    unfold R.measTapr R.measBcoef R.ringCnt
    omega
  · have hba : (forgetCoef (j + 1) d).ba = d.ba := (frame_forgetCoef ..).1 .ba (by decide)
    rw [Machine.openSwitch, balCell_withBal, if_neg (by omega), balCell, hba]
    exact htest

theorem onOpen_eq (tap : Nat) (d : Dev) : onOpen tap d =
    let e := if tap ≤ ncells d then openSwitch tap d else d
    if tap + 1 ≤ ncells e then openSwitch (tap + 1) e else e := rfl

/-- Registers that an open tap may change. -/
def openRegs (tap : Nat) : List Nat := coefRegs tap ++ coefRegs (tap + 1)

theorem frame_onOpen (tap : Nat) (d : Dev) : ChangesOnly (.me :: .ba :: evParts) (openRegs tap) d (onOpen tap d) := by
  rw [onOpen_eq]
  have hfirst : ChangesOnly (.me :: .ba :: evParts) (openRegs tap) d (if tap ≤ ncells d then openSwitch tap d else d) :=
    .ite ((frame_openSwitch ..).mono (by decide) (by simp [openRegs])) (.refl ..)
  exact .ite (hfirst.trans ((frame_openSwitch ..).mono (by decide) (by simp [openRegs]))) hfirst

theorem unknown_onOpen {tap j : Nat} (d : Dev) (h1 : 1 ≤ tap) (hk : tap ≤ ncells d) (hmax : ncells d ≤ 32) (hj : j = tap ∨ j = tap + 1)
    (hjk : j ≤ ncells d) : Unknown j (onOpen tap d) := by
  have hcells : ncells (openSwitch tap d) = ncells d := (frame_openSwitch ..).ncells (measCells_not_mem_coefRegs _)
  rw [onOpen_eq]
  dsimp only
  rw [if_pos hk, hcells]
  rcases hj with rfl | rfl
  · have htap := unknown_openSwitch d (by omega : j ≤ 32)
    split
    · exact htap.openSwitch h1 (by omega)
    · exact htap
  · rw [if_pos hjk]
    exact unknown_openSwitch _ (by omega)

theorem level_openSwitch {s i : Nat} (j : Nat) (d : Dev) (h : ∀ k, bucketBase s + i ≠ bucketBase 11 + k) :
    level (openSwitch j d) s i = level d s i := level_forgetCoef j d h

theorem level_onOpen {s i : Nat} (tap : Nat) (d : Dev) (h : ∀ k, bucketBase s + i ≠ bucketBase 11 + k) :
    level (onOpen tap d) s i = level d s i := by
  rw [onOpen_eq]
  dsimp only
  split <;> split <;> simp only [level_openSwitch _ _ h]

/-! ### Faults that an occurrence brings to N -/

/-- An occurrence that brings an open tap's bucket to N latches its fault (R88). -/
theorem occurFault_open {i code : Nat} {data : List Byte} {d : Dev} (h : bucketN d 0 ≤ satNat 255 (level d 0 i + 1)) :
    occurFault 0 i code data d = latch 6 (i + 1) (occur 0 i code data d) := by
  have hlast : lasting (occur 0 i code data d) 0 i = true := by
    rw [lasting, level_occur, bucketN_congr 0 ((frame_occur ..).2 _ (by decide))]
    exact decide_eq_true h
  simp only [occurFault, hlast, if_true, bucketFault]

/-- A new latch of an open wire stands among the causes, with both outputs off. -/
theorem latch_open_sf {item : Nat} {d : Dev} (h : (6, item) ∉ d.sf.present) :
    (6, item) ∈ (latch 6 item d).sf.causes ∧ (latch 6 item d).outputsOff = true := by
  have hsf := latch_sf h
  refine ⟨?_, ?_⟩
  · rw [hsf]
    simp [Safe.dropped, Safe.latched]
  · rw [Dev.outputsOff, hsf]
    simp [Safe.dropped, Safe.latched, latchOff, OutState.off]

/-! ### The open-wire test (R86 to R88) -/

theorem frame_owSettle (d : Dev) : ChangesOnly [.me] [] d (owSettle d) := by
  unfold owSettle
  split
  · exact frame_me ..
  · exact .refl ..

/-- The test as it is made: the time of the test, and the change that counts. -/
def owTested (tap : Nat) (d : Dev) : Dev := { d with me := { d.me with owAt := kset 0 d.me.owAt tap (later d.now 1) } }

theorem frame_owTested (tap : Nat) (d : Dev) : ChangesOnly [.me] [] d (owTested tap d) := frame_me ..

/-- The open summary's flags of a tap found open (Table MEM-8). -/
def owNoted (tap : Nat) (d : Dev) : Dev :=
  let mark := withAcc tap (fun a => { a with flags := a.flags ||| 1 }) d
  if tap < ncells d then withAcc (tap + 1) (fun a => { a with flags := a.flags ||| 1 }) mark else mark

theorem frame_owNoted (tap : Nat) (d : Dev) : ChangesOnly [.hist] [] d (owNoted tap d) :=
  .ite ((frame_withAcc ..).trans (frame_withAcc ..)) (frame_withAcc ..)

/-- A tap found open, before its occurrence counts. -/
def owOpened (tap : Nat) (d : Dev) : Dev := onOpen tap (owNoted tap (setRegBit R.measOwStat (tap - 1) true (owTested tap d)))

section
variable {tap : Nat} {dk dk1 : Int} {d : Dev} (h1 : 1 ≤ tap) (hk : tap ≤ ncells d)
include h1 hk

theorem owTest_open (ho : 100000 < dk.natAbs ∨ (100000 < dk1.natAbs ∧ tap < ncells d)) :
    ∃ data, owTest tap dk dk1 onOpen (fun _ d => d) d = occurFault 0 (tap - 1) 0x0401 data (owOpened tap d) := by
  have hch : 100000 < (if dk.natAbs ≤ 100000 && decide (tap < ncells d) then dk1 else dk).natAbs := by
    split
    · next h =>
      simp only [Bool.and_eq_true, decide_eq_true_eq] at h
      omega
    · next h =>
      simp only [Bool.and_eq_true, decide_eq_true_eq] at h
      omega
  refine ⟨_, (if_pos (by simp [h1, hk])).trans (if_pos hch)⟩

theorem owTest_clear (ho : dk.natAbs ≤ 100000) (ho1 : dk1.natAbs ≤ 100000) :
    owTest tap dk dk1 onOpen (fun _ d => d) d = setRegBit R.measOwStat (tap - 1) false (owTested tap d) := by
  refine (if_pos (by simp [h1, hk])).trans (if_neg ?_)
  split <;> omega

end

theorem measOwStat_not_mem_openRegs (tap : Nat) : R.measOwStat ∉ openRegs tap := by
  simp only [openRegs, List.mem_append, not_or]
  exact ⟨not_mem_coefRegs (.inl (by decide)) (by decide), not_mem_coefRegs (.inl (by decide)) (by decide)⟩

/-- What stands before the tap's own mark and after it. -/
theorem regBit_owOpened {tap : Nat} {d : Dev} (h : tap - 1 < 32) (j : Nat) :
    regBit (owOpened tap d) R.measOwStat j = (decide (j = tap - 1) || regBit d R.measOwStat j) := by
  rw [owOpened, (frame_onOpen ..).regBit j (measOwStat_not_mem_openRegs tap), (frame_owNoted ..).regBit j (by simp), regBit_setRegBit _ _ _ _ _ h,
    (frame_owTested ..).regBit j]
  split <;> simp_all

/-- The bucket of a tap lies below those that the update of taps and cells counts in. -/
theorem bucket_open {i : Nat} (h : i < 32) : (∀ k, bucketBase 0 + i ≠ bucketBase 11 + k) ∧ bucketBase 0 + i ≠ bucketBase 28 := by
  have h0 : bucketBase 0 = 0 := rfl
  have h11 : bucketBase 11 = 0x08C := rfl
  have h28 : bucketBase 28 = 0x1DF := rfl
  exact ⟨fun k => by omega, by omega⟩

theorem level_owOpened {tap : Nat} (d : Dev) (h : tap - 1 < 32) : level (owOpened tap d) 0 (tap - 1) = level d 0 (tap - 1) := by
  rw [owOpened, level_onOpen _ _ (bucket_open h).1, (frame_owNoted ..).level, (frame_setRegBit ..).level, (frame_owTested ..).level]

theorem frame_owOpened (tap : Nat) (d : Dev) : ChangesOnly (.me :: .ba :: evParts) (R.measOwStat :: openRegs tap) d (owOpened tap d) :=
  (((frame_owTested tap d).mono (by decide) (by simp)).trans (((frame_setRegBit ..).mono (by decide) (by simp)).trans
    ((frame_owNoted ..).mono (by decide) (by simp)))).trans ((frame_onOpen ..).mono (by decide) (by simp))

theorem unknown_owOpened {tap j : Nat} {d : Dev} (h1 : 1 ≤ tap) (hk : tap ≤ ncells d) (hmax : ncells d ≤ 32) (hj : j = tap ∨ j = tap + 1)
    (hjk : j ≤ ncells d) : Unknown j (owOpened tap d) := by
  have hcells : ncells (owNoted tap (setRegBit R.measOwStat (tap - 1) true (owTested tap d))) = ncells d := by
    rw [(frame_owNoted ..).ncells, (frame_setRegBit ..).ncells, (frame_owTested ..).ncells]
  exact unknown_onOpen _ h1 (by rwa [hcells]) (by rwa [hcells]) hj (by rwa [hcells])

/-- A switch stays unknown where its register and its mark of having been tested stay. -/
theorem Unknown.kept {j : Nat} {ps : List Part} {rs : List Nat} {a b : Dev} (h : Unknown j a) (k : ChangesOnly ps rs a b)
    (ht : PlanKept a b) (hr : R.measBcoef + 4 * (j - 1) ∉ rs) : Unknown j b :=
  ⟨(k.2 _ hr).trans h.1, (ht.tested j).trans h.2⟩

theorem planKept_openWire (tap code : Nat) (data : List Byte) (d : Dev) : PlanKept d (balUpdate (occurFault 0 (tap - 1) code data d)) :=
  (PlanKept.of_ba ((frame_occurFault ..).1 .ba (by decide))).trans (planKept_balUpdate _)

/-- The whole test at a tap that is open. -/
theorem frame_openWire_open (tap code : Nat) (data : List Byte) (d : Dev) : ChangesOnly ([.ba, .free] ++ latchParts) [R.ringCnt, R.safeCnt] (owOpened tap d)
    (balUpdate (occurFault 0 (tap - 1) code data (owOpened tap d))) :=
  (frame_occurFault ..).mono.trans (frame_balUpdate _).mono

theorem bcoef_not_mem {j : Nat} (h : j ≤ 32) : R.measBcoef + 4 * (j - 1) ∉ [R.ringCnt, R.safeCnt, R.hostEvtLost] := by
  simp only [List.mem_cons, List.not_mem_nil, or_false, not_or]
  unfold R.measBcoef R.ringCnt R.safeCnt R.hostEvtLost
  omega

/-- The threshold of open taps stays. -/
theorem bucketN_owOpened {tap : Nat} (d : Dev) (h : tap ≤ 32) : bucketN (owOpened tap d) 0 = bucketN d 0 := by
  refine bucketN_congr 0 ((frame_owOpened tap d).2 _ ?_)
  have hoff : evtCfgOff 0 = 0x7800 := rfl
  simp only [openRegs, List.mem_cons, List.mem_append, not_or, hoff]
  refine ⟨by decide, not_mem_coefRegs (.inr ?_) (by decide), not_mem_coefRegs (.inr ?_) (by decide)⟩ <;> unfold R.measBcoef R.measTapr <;> omega

/-- At N the open tap's fault is latched and the outputs are off (R88). -/
theorem openWire_latched {tap code : Nat} {data : List Byte} {d : Dev} (h1 : 1 ≤ tap) (hmax : tap ≤ 32)
    (hN : bucketN d 0 ≤ satNat 255 (level d 0 (tap - 1) + 1)) (hn : (6, tap) ∉ d.sf.present) :
    (6, tap) ∈ (balUpdate (occurFault 0 (tap - 1) code data (owOpened tap d))).sf.causes ∧
      (balUpdate (occurFault 0 (tap - 1) code data (owOpened tap d))).outputsOff = true := by
  have hsf : (occur 0 (tap - 1) code data (owOpened tap d)).sf = d.sf := by
    rw [occur_sf]
    exact (frame_owOpened tap d).1 .sf (by decide)
  rw [Dev.outputsOff, balUpdate_sf, ← Dev.outputsOff, occurFault_open (by rwa [bucketN_owOpened _ hmax, level_owOpened _ (by omega)]),
    show tap - 1 + 1 = tap by omega]
  exact latch_open_sf (by rwa [hsf])

/-- What a test that finds the tap clear may change. -/
theorem frame_openWire_clear (tap : Nat) (d : Dev) : ChangesOnly ([.me, .ba, .free] ++ evParts) [R.measOwStat, R.ringCnt] d
    (balUpdate (setRegBit R.measOwStat (tap - 1) false (owTested tap d))) :=
  ((frame_owTested tap d).mono.trans (frame_setRegBit ..).mono).trans (frame_balUpdate _).mono

/-- Settles O19: in the tap's slot an open tap is marked, forgets the switches beside it and counts, and a clear one loses its mark. -/
theorem openWireMarksTap : Obligations.OpenWireMarksTap := by
  unfold Obligations.OpenWireMarksTap
  intro s t tap dk dk1 d hd ha calm h1 hk hmax
  have hr := running_of_awake ha
  have hc : tap - 1 < 32 := by omega
  have hset := frame_owSettle d
  have hcells := hset.ncells
  refine ⟨fun ho => ?_, fun ho => ⟨fun hdk => ?_, fun hdk hdk1 => ?_⟩⟩
  · have hf : openWire t tap dk dk1 d = owSettle d := if_neg (by simp [ho])
    have h := actAt_calm (s := s) (openWire t tap dk dk1) hd hr (by rw [hf]; exact hset.calm calm)
    rwa [hf] at h
  · obtain ⟨data, htest⟩ := owTest_open (dk := dk) (dk1 := dk1) (d := owSettle d) h1 (by omega) (by omega)
    have hf : openWire t tap dk dk1 d = balUpdate (occurFault 0 (tap - 1) 0x0401 data (owOpened tap (owSettle d))) := by
      rw [← htest]
      exact if_pos ho
    have hopened := frame_owOpened tap (owSettle d)
    have hframe := frame_openWire_open tap 0x0401 data (owSettle d)
    obtain ⟨u, hu, hp, -⟩ := actAt_posted (s := s) (openWire t tap dk dk1) hd hr
      (by rw [hf, hframe.1 .ex (by decide), hopened.1 .ex (by decide), hset.1 .ex (by decide), calm.2])
    rw [hf] at hp
    refine ⟨u, hu, fun j => ?_, ?_, fun j hj hjk => ?_, fun hN hn => ?_⟩
    · rw [hp.frame.regBit j, hframe.regBit j, regBit_owOpened hc, hset.regBit j]
    · rw [hp.level, level_balUpdate _ (bucket_open hc).2, level_occurFault, level_owOpened _ hc, hset.level]
    · have hunk := unknown_owOpened (d := owSettle d) h1 (by omega) (by omega) hj (by omega)
      have hnot := bcoef_not_mem (j := j) (by omega)
      exact (hunk.kept hframe (planKept_openWire ..) (by simp_all)).kept hp.frame (.of_ba (hp.frame.1 .ba (by decide))) (by simp_all [evRegs])
    · have hsf : (owSettle d).sf = d.sf := hset.1 .sf (by decide)
      have hlatch := openWire_latched (code := 0x0401) (data := data) (d := owSettle d) h1 (by omega)
        (by rwa [bucketN_congr 0 (hset.2 _ (by simp)), hset.level]) (by rwa [hsf])
      rw [Dev.outputsOff, show u.dev.sf = _ from hp.frame.1 .sf (by decide), ← Dev.outputsOff]
      exact hlatch
  · have hf : openWire t tap dk dk1 d = balUpdate (setRegBit R.measOwStat (tap - 1) false (owTested tap (owSettle d))) := by
      rw [← owTest_clear (dk := dk) (dk1 := dk1) (d := owSettle d) h1 (by omega) hdk hdk1]
      exact if_pos ho
    have hframe := hset.mono.trans (frame_openWire_clear tap (owSettle d))
    obtain ⟨u, hu, hp, hh⟩ := actAt_posted (s := s) (openWire t tap dk dk1) hd hr (by rw [hf, hframe.1 .ex (by decide), calm.2])
    rw [hf] at hp
    refine ⟨u, hu, fun j => ?_, ?_, fun n => ?_, hframe.mono.trans hp.frame.mono, hh⟩
    · rw [hp.frame.regBit j, (frame_balUpdate _).regBit j, regBit_setRegBit _ _ _ _ _ hc, (frame_owTested ..).regBit j, hset.regBit j]
      split <;> simp_all
    · exact (hp.frame.1 .sf (by decide)).trans (hframe.1 .sf (by decide))
    · have hplan : u.dev.ba.plan = d.ba.plan := by
        rw [show u.dev.ba = _ from hp.frame.1 .ba (by decide), (planKept_balUpdate _).plan]
        exact congrArg Bal.plan (hset.1 .ba (by decide))
      rw [planEntry, hplan, planEntry]

end Sys2Proof.Machine
end

section
/-! SUPPORT. Charge, the first estimates of a switch, step tests and edges (files 03 and 07). -/

namespace Sys2Proof.Machine

/-! ### Charge (R211) -/

/-- Register of a switch's charge. -/
abbrev qbalOff (n : Nat) : Nat := R.balQbal + 4 * (n - 1)

theorem frame_charge (n ma : Nat) (d : Dev) : ChangesOnly [.ba] [qbalOff n] d (charge n ma d) :=
  ((frame_ba ..).mono (by decide) (by simp)).trans ((frame_setReg ..).mono (by decide) (by simp))

/-- In internal switch mode the sensed current counts. -/
theorem reg_charge {n ma : Nat} {d : Dev} (h : extFet d = false) : reg (charge n ma d) (qbalOff n) =
    BitVec.ofNat 32 ((reg d (qbalOff n)).toNat + (kget 0 d.ba.qsub n + ma * kget 0 d.ba.owed n) / lsbPerSec) := by
  have hma : balMa d n ma = ma := by simp [balMa, h]
  unfold charge
  rw [hma]
  exact reg_setReg_self ..

theorem owed_charge (n ma : Nat) (d : Dev) : kget 0 (charge n ma d).ba.owed n = 0 := by simp [charge, kget, kset]

theorem reg_charge_below {n ma r : Nat} {d : Dev} (h : r < R.balQbal) : reg (charge n ma d) r = reg d r :=
  (frame_charge n ma d).2 r (by unfold qbalOff; simp only [List.mem_singleton]; omega)

/-- Charge changes neither a cell's state, nor where the edges of its schedule lie. -/
theorem cellState_charge (n ma : Nat) {d : Dev} {i : Nat} (hi : i ≤ 64) : cellState (charge n ma d) i = cellState d i := by
  have hreg : ∀ r < R.balQbal, reg (charge n ma d) r = reg d r := fun r hr => reg_charge_below hr
  have hcoef : R.measBcoef + 4 * (i - 1) < R.balQbal := by
    unfold R.measBcoef R.balQbal
    omega
  have hk : ncells (charge n ma d) = ncells d := by rw [ncells, regFld, hreg _ (by decide), ncells, regFld]
  have hheld : heldCond (charge n ma d) i = heldCond d i := by
    simp only [heldCond, owCell, regBit, hreg R.measOwStat (by decide), hreg R.cmpStatUv (by decide), hreg R.measDisFault (by decide)]
    rfl
  have hknown : coefKnown (charge n ma d) i = coefKnown d i := by simp only [coefKnown, coef, hreg _ hcoef]
  simp only [cellState, hk, hheld, hknown]
  rfl

theorem edgeTicks_charge (n ma : Nat) {d : Dev} {i : Nat} (hi : i ≤ 64) : edgeTicks (charge n ma d) i = edgeTicks d i := by
  have hk : ncells (charge n ma d) = ncells d := by rw [ncells, regFld, reg_charge_below (by decide), ncells, regFld]
  simp only [edgeTicks, hk, cellState_charge n ma hi]
  rfl

theorem nearEdge_charge (n ma t : Nat) {d : Dev} {j : Nat} (hj : j < 64) : nearEdge (charge n ma d) j t = nearEdge d j t := by
  simp only [nearEdge, List.any_cons, List.any_nil, edgeTicks_charge n ma (show j - 1 ≤ 64 by omega), edgeTicks_charge n ma (show j + 1 ≤ 64 by omega)]
  rfl

/-! ### The first estimates of an inner switch (R82) -/

/-- The sum that the cell shows and the sum that its neighbours show agree within 5 % and 20 uV (R82). -/
def firstAgrees (e : CoefEst) : Bool := decide (20 * ((e.own : Int) - (e.up + e.down)).natAbs ≤ e.own + 200)

/-- The coefficients of an inner switch from one set of estimates (R82). -/
def firstWord (e : CoefEst) : Word := if firstAgrees e then packW [(e.up, 0), (e.down, 16)] else 0xFFFFFFFF

theorem meanOf_single (f : CoefEst → Nat) (e : CoefEst) : meanOf f [e] = f e := by
  have h := quot_mul (v := (f e : Int)) (m := 1) (by decide)
  rw [Int.mul_one] at h
  simp [meanOf, sumInt, h]

theorem coefWord_nat {a b : Nat} (ha : a < 0xFFFF) (hb : b < 0xFFFF) : coefWord a b = packW [(a, 0), (b, 16)] := by
  have hclamp : ∀ n : Nat, n < 0xFFFF → (clampInt 0 0xFFFE n).toNat = n := fun n hn => by
    unfold clampInt
    split
    · omega
    · split <;> omega
  rw [coefWord, hclamp a ha, hclamp b hb]

section
variable {j : Nat} {e : CoefEst} {d : Dev} (h1 : 1 < j) (hk : j < ncells d) (hnone : kget [] d.me.est j = [])
include h1 hk hnone

/-- The first estimates set the coefficients, or leave them unknown and count (R82). -/
theorem estimate_first (ma : Nat) : ∃ m data, estimate j e ma d = if firstAgrees e then setCoef j (coefWord e.up e.down) { d with me := m }
    else occur 12 (j - 1) 0x0405 data (forgetCoef j { d with me := m }) := by
  have hlast : lastN 64 ([] ++ [e]) = [e] := rfl
  have hcells : ∀ m, ncells { d with me := m } = ncells d := fun _ => rfl
  have hpair : coefPair (ncells d) j [e] = ((e.up : Int), (e.down : Int)) := by
    simp only [coefPair, meanOf_single]
    rw [if_neg (by omega), if_neg (by omega)]
  have hone : ncells d ≠ 1 := by omega
  have hlow : j ≠ 1 := by omega
  have hhigh : j ≠ ncells d := by omega
  unfold estimate
  simp only [hnone, hlast, hcells, hone, hlow, hhigh, hpair, or_self, meanOf_single, if_false, coefOk, Int.natAbs_natCast]
  exact ⟨_, _, rfl⟩

theorem frame_estimate_first (ma : Nat) : ChangesOnly (.me :: evParts) (coefRegs j) d (estimate j e ma d) := by
  obtain ⟨m, data, h⟩ := estimate_first (e := e) h1 hk hnone ma
  have hme : ChangesOnly (.me :: evParts) (coefRegs j) d { d with me := m } := (frame_me m d).mono (by decide) (by simp)
  rw [h]
  exact .ite (hme.trans ((frame_setCoef ..).mono (by decide) (by simp)))
    ((hme.trans (frame_forgetCoef ..)).trans ((frame_occur ..).mono (by decide) (by simp [coefRegs])))

theorem reg_estimate_first (ma : Nat) (hmax : ncells d ≤ 32) (hu : e.up < 0xFFFF) (hd : e.down < 0xFFFF) :
    reg (estimate j e ma d) (R.measBcoef + 4 * (j - 1)) = firstWord e := by
  obtain ⟨m, data, h⟩ := estimate_first (e := e) h1 hk hnone ma
  have hnot := bcoef_not_mem (j := j) (by omega)
  rw [h, firstWord]
  split
  · rw [reg_setCoef_self _ _ (by omega), coefWord_nat hu hd]
  · rw [(frame_occur ..).2 _ (by simp_all), forgetCoef, reg_setCoef_self _ _ (by omega)]

end

/-! ### The end of a step test (R82, R201) -/

theorem test_setK (d : Dev) : (setK d).ba.test = d.ba.test := by
  obtain ⟨e, k, q, data, he, h⟩ := setK_cases d
  have he : e.ba = d.ba := he.1 .ba (by decide)
  have hba : (powered k q e).ba.test = d.ba.test := by simp [powered, he]
  rcases h with h | h <;> rw [h]
  · exact hba
  · exact (congrArg Bal.test ((frame_occur ..).1 .ba (by decide))).trans hba

theorem test_endTest (d : Dev) : (endTest d).ba.test = none := by
  unfold endTest
  split
  · assumption
  · rfl

theorem test_marksDown (d : Dev) : (marksDown d).ba.test = d.ba.test :=
  each_fst (P := fun e : Dev => e.ba.test = d.ba.test) _ (fun n e he => by split <;> exact he) _ _ rfl

/-- A switch waits only while it has not been tested. -/
theorem tested_of_wait {d : Dev} {n : Nat} (h : cellState d n = .wait) : (balCell d n).tested = false := by
  by_contra ht
  simp only [cellState, Bool.eq_true_of_not_eq_false ht, Bool.not_true, Bool.and_false, Bool.false_eq_true, if_false] at h
  repeat' split at h
  all_goals cases h

/-- The update begins no test of a switch that has been tested. -/
theorem test_balUpdate {j : Nat} {t : Time} {d : Dev} (hn : d.ba.test = none) (ht : (balCell d j).tested = true) :
    (balUpdate d).ba.test ≠ some (j, t) := by
  rcases balUpdate_cases d with ⟨-, h⟩ | ⟨-, h⟩ <;> rw [h, test_setK]
  · simp [test_endTest]
  · have hba : (noteHeld (marksDown d)).ba = (marksDown d).ba := (frame_noteHeld _).1 .ba (by decide)
    obtain ⟨f, hf, hnext⟩ := nextTest_cases (noteHeld (marksDown d))
    have hend : f.ba.test = none ∧ (balCell f j).tested = true := by
      have hmarks : (balCell (noteHeld (marksDown d)) j).tested = true := by
        rw [balCell, hba, ← balCell, (planKept_unmark d).tested, ht]
      rcases hf with rfl | rfl
      · exact ⟨by rw [hba, test_marksDown, hn], hmarks⟩
      · exact ⟨test_endTest _, by rw [(planKept_endTest _).tested, hmarks]⟩
    rcases hnext with hnext | ⟨i, hw, hnext⟩ <;> rw [hnext]
    · simp [hend.1]
    · intro hi
      have hij : i = j := by simpa [testBegun] using congrArg (Option.map Prod.fst) hi
      rw [hij] at hw
      simpa [hend.2] using tested_of_wait hw

/-- A switch driven inside the device has no missing external FET. -/
theorem missingFet_internal (j : Nat) {d : Dev} (h : extFet d = false) : missingFet j d = d := by
  unfold missingFet
  split
  · simp [h]
  · rfl

/-! ### Estimates after the charge (R82, R211) -/

/-- Registers that the charge and the estimate of switch j may change. -/
def estRegs (j : Nat) : List Nat := qbalOff j :: coefRegs j

section
variable {j ma : Nat} {e : CoefEst} {d f : Dev} (h1 : 1 < j) (hk : j < ncells d) (hnone : kget [] d.me.est j = [])
  (hf : ChangesOnly [.ba] [qbalOff j] d f)
include h1 hk hnone hf

omit h1 in
/-- A charged switch of the device is an inner one without estimates. -/
theorem charged_inner : j < ncells f ∧ ncells f = ncells d ∧ kget [] f.me.est j = [] := by
  have hcells : ncells f = ncells d := hf.ncells (by unfold qbalOff R.measCells R.balQbal; simp; omega)
  have hme : f.me = d.me := hf.1 .me (by decide)
  rw [hcells, hme]
  exact ⟨hk, rfl, hnone⟩

theorem frame_estimated : ChangesOnly (.me :: .ba :: evParts) (estRegs j) d (estimate j e ma f) := by
  obtain ⟨hkf, -, hnonef⟩ := charged_inner hk hnone hf
  exact (hf.mono (by decide) (by simp [estRegs])).trans ((frame_estimate_first h1 hkf hnonef ma).mono (by decide) (by simp [estRegs]))

theorem reg_estimated (hmax : ncells d ≤ 32) (hu : e.up < 0xFFFF) (hd : e.down < 0xFFFF) :
    reg (estimate j e ma f) (R.measBcoef + 4 * (j - 1)) = firstWord e := by
  obtain ⟨hkf, hcells, hnonef⟩ := charged_inner hk hnone hf
  exact reg_estimate_first h1 hkf hnonef ma (by omega) hu hd

/-- The charge stands in a register of its own. -/
theorem charge_estimated (hmax : ncells d ≤ 32) : reg (estimate j e ma f) (qbalOff j) = reg f (qbalOff j) := by
  obtain ⟨hkf, hcells, hnonef⟩ := charged_inner hk hnone hf
  refine (frame_estimate_first h1 hkf hnonef ma).2 _ ?_
  simp only [coefRegs, List.mem_cons, List.not_mem_nil, or_false, not_or]
  unfold qbalOff R.balQbal R.measBcoef R.measTapr R.ringCnt
  omega

end

/-- The registers of a switch's coefficients and charge are none that events and the update change. -/
theorem qbal_not_mem {j : Nat} (h : j ≤ 32) : qbalOff j ∉ [R.ringCnt, R.safeCnt, R.hostEvtLost] := by
  simp only [List.mem_cons, List.not_mem_nil, or_false, not_or]
  unfold qbalOff R.balQbal R.ringCnt R.safeCnt R.hostEvtLost
  omega

/-- The device before the estimate of a step test that ends. -/
def testOver (j ma : Nat) (d : Dev) : Dev := endTest (charge j ma d)

theorem frame_testOver (j ma : Nat) (d : Dev) : ChangesOnly [.ba] [qbalOff j] d (testOver j ma d) :=
  (frame_charge ..).trans ((frame_endTest _).mono (by decide) (by simp))

/-- The step test of switch j has ended with its estimates. -/
def testedDev (j : Nat) (e : CoefEst) (ma : Nat) (d : Dev) : Dev :=
  withBal j (fun c => { c with tested := true }) (estimate j e (normMa (testOver j ma d) j ma) (testOver j ma d))

/-- A step test that is over ends with an estimate; a switch inside the device has no missing FET. -/
theorem stepDone_eq {j ma : Nat} {t0 : Time} {e : CoefEst} {d : Dev} (h1 : 1 < j) (hk : j < ncells d) (hmax : ncells d ≤ 32)
    (hnone : kget [] d.me.est j = [])
    (hint : extFet d = false) (ht : d.ba.test = some (j, t0)) (hl : testLen d ≤ since t0 d.now) :
    stepDone j e ma d = balUpdate (testedDev j e ma d) := by
  have hext : extFet (estimate j e (normMa (testOver j ma d) j ma) (testOver j ma d)) = false := by
    have hnot : R.balCtrl ∉ estRegs j := by
      simp only [estRegs, List.mem_cons, not_or]
      exact ⟨by unfold qbalOff R.balCtrl R.balQbal; omega, not_mem_coefRegs (.inr (by unfold R.measBcoef R.measTapr R.balCtrl; omega)) (by decide)⟩
    rw [extFet, (frame_estimated h1 hk hnone (frame_testOver j ma d)).regBit 0 hnot, ← extFet, hint]
  unfold stepDone
  simp only [ht, hl, and_self, if_true]
  rw [testedDev, ← missingFet_internal j hext]
  rfl

/-! ### Step tests and edges as commands (R82, R200, R201, R211) -/

/-- What the update and the events of a command leave of a register outside theirs. -/
theorem PostsOnly.reg_updated {r : Nat} {b u : Dev} (hp : PostsOnly (balUpdate b) u) (hr : r ∉ [R.ringCnt, R.safeCnt, R.hostEvtLost]) :
    reg u r = reg b r := by
  rw [hp.frame.2 _ (by simp_all [evRegs]), (frame_balUpdate b).2 _ (by simp_all)]

/-- A switch counts as tested, and without a running test, once a command's update has ended. -/
theorem PostsOnly.ba_updated {b u : Dev} (hp : PostsOnly (balUpdate b) u) : u.ba = (balUpdate b).ba := hp.frame.1 .ba (by decide)

section
variable {s : State} {t t0 : Time} {j ma : Nat} {e : CoefEst} {d : Dev} (hd : d = tick t s.dev) (ha : d.awake = true) (calm : Calm d)
  (h1 : 1 < j) (hk : j < ncells d) (hmax : ncells d ≤ 32) (hnone : kget [] d.me.est j = []) (hu : e.up < 0xFFFF) (hdn : e.down < 0xFFFF)
  (hint : extFet d = false)
include hd ha calm h1 hk hmax hnone hu hdn hint

/-- A step test that is over gives its switch its coefficients, and its conduction becomes charge. -/
theorem stepTest_completes (ht : d.ba.test = some (j, t0)) (hl : testLen d ≤ since t0 d.now) :
    ∃ u, exec (.stepTestComplete t j e ma) s = .next u ∧
      (balCell u.dev j).tested = true ∧ (∀ t1, u.dev.ba.test ≠ some (j, t1)) ∧
      reg u.dev (R.measBcoef + 4 * (j - 1)) = firstWord e ∧
      reg u.dev (qbalOff j) = BitVec.ofNat 32 ((reg d (qbalOff j)).toNat + (kget 0 d.ba.qsub j + ma * kget 0 d.ba.owed j) / lsbPerSec) ∧
      u.dev.sf = d.sf ∧ HostEvents s.hst u.hst := by
  have hover := frame_testOver j ma d
  have hframe : ChangesOnly (.me :: .ba :: evParts) (estRegs j) d (testedDev j e ma d) :=
    (frame_estimated h1 hk hnone hover).trans ((frame_withBal ..).mono (by decide) (by simp))
  have hf := stepDone_eq h1 hk hmax hnone hint ht hl (ma := ma) (e := e)
  obtain ⟨u, hnext, hp, hh⟩ := actAwake_posted (s := s) (stepDone j e ma) hd ha
    (by rw [hf, balUpdate_ex, hframe.1 .ex (by decide), calm.2])
  rw [hf] at hp
  have htest : (balCell (testedDev j e ma d) j).tested = true := by simp [testedDev, balCell_withBal]
  have hidle : (testedDev j e ma d).ba.test = none := by
    have hba : ∀ m, (estimate j e m (testOver j ma d)).ba = (testOver j ma d).ba := fun m => by
      obtain ⟨hkf, -, hnonef⟩ := charged_inner hk hnone hover
      exact (frame_estimate_first h1 hkf hnonef m).1 .ba (by decide)
    simp only [testedDev, withBal, hba]
    exact test_endTest _
  refine ⟨u, hnext, ?_, fun t1 => ?_, ?_, ?_, ?_, hh⟩
  · rw [balCell, hp.ba_updated, ← balCell, (planKept_balUpdate _).tested, htest]
  · rw [hp.ba_updated]
    exact test_balUpdate hidle htest
  · rw [hp.reg_updated (bcoef_not_mem (by omega)), testedDev, (frame_withBal ..).2 _ (by simp), reg_estimated h1 hk hnone hover hmax hu hdn]
  · rw [hp.reg_updated (qbal_not_mem (by omega)), testedDev, (frame_withBal ..).2 _ (by simp), charge_estimated h1 hk hnone hover hmax,
      testOver, (frame_endTest _).2 _ (by simp), reg_charge hint]
  · exact (hp.frame.1 .sf (by decide)).trans ((balUpdate_sf _).trans (hframe.1 .sf (by decide)))

/-- An edge makes the conduction so far charge, and gives an estimate unless an edge of a neighbour is near. -/
theorem edge_estimates (he : isEdge d j t.toNat = true) :
    ∃ u, exec (.balPwmEdge t j e ma) s = .next u ∧
      reg u.dev (R.measBcoef + 4 * (j - 1)) = (if nearEdge d j t.toNat then reg d (R.measBcoef + 4 * (j - 1)) else firstWord e) ∧
      reg u.dev (qbalOff j) = BitVec.ofNat 32 ((reg d (qbalOff j)).toNat + (kget 0 d.ba.qsub j + ma * kget 0 d.ba.owed j) / lsbPerSec) ∧
      kget 0 u.dev.ba.owed j = 0 ∧ u.dev.sf = d.sf ∧ HostEvents s.hst u.hst := by
  have hcharge := frame_charge j ma d
  have hin : decide (1 ≤ j ∧ j ≤ ncells d) = true := by simp; omega
  by_cases hn : nearEdge d j t.toNat
  · have hf : pwmEdge j t e ma d = charge j ma d := by
      simp [pwmEdge, hin, he, nearEdge_charge j ma t.toNat (show j < 64 by omega), hn]
    have h := actAwake_calm (s := s) (pwmEdge j t e ma) hd ha (by rw [hf]; exact hcharge.calm calm)
    rw [hf] at h
    refine ⟨_, h, ?_, reg_charge hint, owed_charge j ma d, hcharge.1 .sf (by decide), .refl _⟩
    rw [if_pos hn]
    exact reg_charge_below (by unfold R.measBcoef R.balQbal; omega)
  · have hf : pwmEdge j t e ma d = balUpdate (estimate j e (normMa (charge j ma d) j ma) (charge j ma d)) := by
      simp [pwmEdge, hin, he, nearEdge_charge j ma t.toNat (show j < 64 by omega), hn]
    have hframe := frame_estimated (e := e) (ma := normMa (charge j ma d) j ma) h1 hk hnone hcharge
    obtain ⟨u, hnext, hp, hh⟩ := actAwake_posted (s := s) (pwmEdge j t e ma) hd ha
      (by rw [hf, balUpdate_ex, hframe.1 .ex (by decide), calm.2])
    rw [hf] at hp
    have hba : (estimate j e (normMa (charge j ma d) j ma) (charge j ma d)).ba = (charge j ma d).ba := by
      obtain ⟨hkf, -, hnonef⟩ := charged_inner hk hnone hcharge
      exact (frame_estimate_first h1 hkf hnonef _).1 .ba (by decide)
    refine ⟨u, hnext, ?_, ?_, ?_, ?_, hh⟩
    · rw [if_neg hn, hp.reg_updated (bcoef_not_mem (by omega)), reg_estimated h1 hk hnone hcharge hmax hu hdn]
    · rw [hp.reg_updated (qbal_not_mem (by omega)), charge_estimated h1 hk hnone hcharge hmax, reg_charge hint]
    · rw [hp.ba_updated, (planKept_balUpdate _).owed, hba, owed_charge]
    · exact (hp.frame.1 .sf (by decide)).trans ((balUpdate_sf _).trans (hframe.1 .sf (by decide)))

end

/-- Settles O20: the first agreeing estimates of an inner switch are its coefficients, and its conduction becomes charge. -/
theorem coefficientsEstimated : Obligations.CoefficientsEstimated := by
  unfold Obligations.CoefficientsEstimated
  intro s t j e ma d hd ha calm
  have hword : firstWord e = (if 20 * ((e.own : Int) - (e.up + e.down)).natAbs ≤ e.own + 200 then packW [(e.up, 0), (e.down, 16)] else 0xFFFFFFFF) := by
    simp [firstWord, firstAgrees]
  rw [← hword]
  refine ⟨fun he => actAwake_idle (pwmEdge j t e ma) hd ha calm (by simp [pwmEdge, he]), fun h1 hk hmax hnone _ hu hdn hint => ⟨fun t0 ht hl => ?_, fun he => ?_⟩⟩
  · exact stepTest_completes hd ha calm h1 hk hmax hnone hu hdn hint ht hl
  · exact edge_estimates hd ha calm h1 hk hmax hnone hu hdn hint he

end Sys2Proof.Machine
end

section
/-! SUPPORT. Lane results, their bits and comparisons, and a grid instant (file 03). -/

namespace Sys2Proof.Machine

/-! ### Folds over distinct keys -/

theorem each_kept {α β σ : Type} {f : α → σ → σ} {view : σ → β} {l : List α} (h : ∀ y ∈ l, ∀ s, view (f y s) = view s) (s : σ) :
    view (each f l s) = view s := by
  induction l generalizing s with
  | nil => rfl
  | cons y r ih => exact (ih (fun z hz => h z (by simp [hz])) _).trans (h y (by simp) s)

/-- A view that only element x of a list changes shows, after the whole list, what it shows after x. -/
theorem each_at {α β σ κ : Type} {f : α → σ → σ} {view : σ → β} {key : α → κ} {l : List α} {x : α} {s : σ} {v : β} (hx : x ∈ l)
    (hn : (l.map key).Nodup) (hother : ∀ y ∈ l, key y ≠ key x → ∀ s, view (f y s) = view s)
    (hself : ∀ e, view e = view s → view (f x e) = v) : view (each f l s) = v := by
  induction l generalizing s with
  | nil => cases hx
  | cons y r ih =>
    simp only [List.map_cons, List.nodup_cons, List.mem_map, not_exists, not_and] at hn
    obtain ⟨hfirst, hrest⟩ := hn
    rcases List.mem_cons.1 hx with rfl | hr
    · exact (each_kept (fun z hz => hother z (by simp [hz]) (hfirst z hz)) _).trans (hself s rfl)
    · have hy : view (f y s) = view s := hother y (by simp) (fun h => hfirst x hr h.symm) s
      exact ih hr hrest (fun z hz => hother z (by simp [hz])) (fun e he => hself e (he.trans hy))

/-! ### A lane result is written (R75, R83) -/

theorem frame_userBad (code : Nat) (d : Dev) : ChangesOnly [.ca] [] d (userBad code d) := by
  unfold userBad
  split
  · exact .ite (frame_ca ..) (.refl ..)
  · exact .refl ..

theorem frame_userFlagged (cell : Nat) (r : LaneResult) (d : Dev) : ChangesOnly [.ca] [] d (userFlagged cell r d) := by
  unfold userFlagged
  split
  · exact .ite (frame_userBad ..) (.refl ..)
  · exact .refl ..

theorem frame_noteUncomp (g : LaneGroup) (cell : Nat) (un : Bool) (d : Dev) : ChangesOnly [] [R.measUncomp] d (noteUncomp g cell un d) := by
  cases g
  · exact frame_setRegBit ..
  · exact .ite (frame_setRegBit ..) (.refl ..)

/-- Of a cell's bits only its own follows. -/
theorem regBit_noteUncomp_other {g : LaneGroup} {cell j : Nat} (un : Bool) (d : Dev) (hc : cell - 1 < 32) (hj : j ≠ cell - 1) :
    regBit (noteUncomp g cell un d) R.measUncomp j = regBit d R.measUncomp j := by
  cases g
  · simp [noteUncomp, regBit_setRegBit _ _ _ _ _ hc, hj]
  · simp only [noteUncomp]
    split
    · simp [regBit_setRegBit _ _ _ _ _ hc, hj]
    · rfl

/-- A written result before its bit of MEAS_UNCOMP. -/
theorem writeLane_cases (g : LaneGroup) (cell : Nat) (r : LaneResult) (d : Dev) : ∃ e, ChangesOnly (.me :: .ca :: evParts) [R.ringCnt]
    (setReg (resOff g cell) r.word d) e ∧ ∃ un, writeLane g cell r d = noteUncomp g cell un e ∧ (g = .a → un = r.uncomp) := by
  refine ⟨_, ?_, _, rfl, fun hg => by simp [hg]⟩
  refine ChangesOnly.trans ?_ (frame_userFlagged ..).mono
  have hme : ∀ m, ChangesOnly (.me :: .ca :: evParts) [R.ringCnt] (setReg (resOff g cell) r.word d) { setReg (resOff g cell) r.word d with me := m } :=
    fun m => (frame_me ..).mono
  exact .ite ((hme _).trans (frame_occur ..).mono) (hme _)

/-- Registers that a lane result may change. -/
def laneRegs (g : LaneGroup) (cell : Nat) : List Nat := [resOff g cell, R.ringCnt, R.measUncomp]

theorem frame_writeLane (g : LaneGroup) (cell : Nat) (r : LaneResult) (d : Dev) :
    ChangesOnly (.me :: .ca :: evParts) (laneRegs g cell) d (writeLane g cell r d) := by
  obtain ⟨e, he, un, h, -⟩ := writeLane_cases g cell r d
  rw [h]
  exact (((frame_setReg ..).mono (by decide) (by simp [laneRegs])).trans (he.mono (by decide) (by simp [laneRegs]))).trans
    ((frame_noteUncomp ..).mono (by decide) (by simp [laneRegs]))

/-- Where the result registers of a group lie. -/
theorem resOff_bounds {g : LaneGroup} {cell : Nat} (h : cell ≤ 32) : 0x1100 ≤ resOff g cell ∧ resOff g cell < 0x1200 := by
  unfold resOff R.measResA R.measResB
  cases g <;> dsimp only <;> omega

theorem resOff_ne {g : LaneGroup} {a b : Nat} (ha : 1 ≤ a) (hb : 1 ≤ b) (h : a ≠ b) : resOff g a ≠ resOff g b := by
  unfold resOff
  cases g <;> dsimp only <;> omega

theorem resOff_not_mem {g : LaneGroup} {cell : Nat} {l : List Nat} (h : cell ≤ 32) (hl : ∀ r ∈ l, r < 0x1100 ∨ 0x1200 ≤ r := by decide) :
    resOff g cell ∉ l := fun hm => by
  have := resOff_bounds (g := g) h
  have := hl _ hm
  omega

theorem reg_writeLane_self {g : LaneGroup} {cell : Nat} (r : LaneResult) (d : Dev) (h : cell ≤ 32) :
    reg (writeLane g cell r d) (resOff g cell) = r.word := by
  obtain ⟨e, he, un, hw, -⟩ := writeLane_cases g cell r d
  rw [hw, (frame_noteUncomp ..).2 _ (resOff_not_mem h), he.2 _ (resOff_not_mem h), reg_setReg_self]

theorem regBit_writeLane_self {cell : Nat} (r : LaneResult) (d : Dev) (h : cell - 1 < 32) :
    regBit (writeLane .a cell r d) R.measUncomp (cell - 1) = r.uncomp := by
  obtain ⟨e, he, un, hw, hun⟩ := writeLane_cases .a cell r d
  rw [hw, noteUncomp, regBit_setRegBit _ _ _ _ _ h, if_pos rfl, hun rfl]

theorem regBit_writeLane_other {g : LaneGroup} {cell j : Nat} (r : LaneResult) (d : Dev) (h1 : 1 ≤ cell) (h : cell ≤ 32) (hj : j ≠ cell - 1) :
    regBit (writeLane g cell r d) R.measUncomp j = regBit d R.measUncomp j := by
  obtain ⟨e, he, un, hw, -⟩ := writeLane_cases g cell r d
  have hoff : R.measUncomp ∉ [resOff g cell] := fun hm => by
    have := resOff_bounds (g := g) h
    simp only [List.mem_singleton] at hm
    unfold R.measUncomp at hm
    omega
  rw [hw, regBit_noteUncomp_other _ _ (by omega) hj, he.regBit, (frame_setReg ..).regBit j hoff]

/-! ### Lane disagreement (R89, R90) -/

/-- Registers that a comparison may change. -/
def cmpRegs : List Nat := [R.measDisStat, R.measDisFault, R.ringCnt, R.safeCnt]

/-- The device after a comparison that was not skipped. -/
def compared (T : Time) (cell diff : Nat) (beyond : Bool) (d : Dev) : Dev :=
  let stamp := BitVec.ofNat 64 (T.toNat + 1)
  let d := withAcc cell (fun c => { c with dis := max c.dis diff }) (setRegBit R.measDisStat (cell - 1) beyond d)
  if beyond then { d with me := { d.me with disEx := kset 0 d.me.disEx cell stamp } }
  else gone 4 cell (setRegBit R.measDisFault (cell - 1) false { d with me := { d.me with disOk := kset 0 d.me.disOk cell stamp } })

/-- After a comparison that was not skipped only the fault's bit may still change. -/
theorem compared_after (T : Time) (cell diff : Nat) (beyond : Bool) (d : Dev) :
    ChangesOnly (.me :: latchParts) [R.measDisFault] (setRegBit R.measDisStat (cell - 1) beyond d) (compared T cell diff beyond d) := by
  have hacc : ChangesOnly (.me :: latchParts) [R.measDisFault] (setRegBit R.measDisStat (cell - 1) beyond d)
      (withAcc cell (fun c => { c with dis := max c.dis diff }) (setRegBit R.measDisStat (cell - 1) beyond d)) := (frame_withAcc ..).mono
  exact .ite (hacc.trans (frame_me ..).mono) (((hacc.trans (frame_me ..).mono).trans (frame_setRegBit ..).mono).trans (frame_gone ..).mono)

/-- Beyond what value two results of a cell disagree (R89). -/
def disagrees (d : Dev) (a b : LaneResult) : Bool := decide (10 * regFld d R.measDisCfg 15 0 < (a.value - b.value).natAbs)

/-- A comparison marks the cell, unless it is skipped, and may then bring the fault. -/
theorem compareLanes_cases (T : Time) (cell : Nat) (a b : LaneResult) (d : Dev) : ∃ e, ChangesOnly (.me :: latchParts) [R.measDisFault]
      (if skipCmp a b then d else setRegBit R.measDisStat (cell - 1) (disagrees d a b) d) e ∧
    ChangesOnly latchParts [R.measDisFault, R.ringCnt, R.safeCnt] e (compareLanes T cell a b d) := by
  have hbeyond : decide (10 * (regFld d R.measDisCfg 15 0 : Int) < Int.ofNat (a.value - b.value).natAbs) = disagrees d a b := by
    simp only [disagrees, Int.ofNat_eq_natCast]
    congr 1
    exact propext ⟨fun h => by omega, fun h => by omega⟩
  have hfault : ∀ code data e, ChangesOnly latchParts [R.measDisFault, R.ringCnt, R.safeCnt] e
      (occurFault 1 (cell - 1) code data (setRegBit R.measDisFault (cell - 1) true e)) := fun code data e =>
    (frame_setRegBit ..).mono.trans (frame_occurFault ..).mono
  refine ⟨if skipCmp a b then d else compared T cell (a.value - b.value).natAbs (disagrees d a b) d, ?_, ?_⟩
  · split
    · exact .refl ..
    · exact compared_after ..
  · rw [← hbeyond]
    exact .ite (hfault ..) (.refl ..)

theorem frame_compareLanes (T : Time) (cell : Nat) (a b : LaneResult) (d : Dev) :
    ChangesOnly (.me :: latchParts) cmpRegs d (compareLanes T cell a b d) := by
  obtain ⟨e, he, h⟩ := compareLanes_cases T cell a b d
  have hstat : ChangesOnly (.me :: latchParts) cmpRegs d (if skipCmp a b then d else setRegBit R.measDisStat (cell - 1) (disagrees d a b) d) :=
    .ite (.refl ..) (frame_setRegBit ..).mono
  exact (hstat.trans he.mono).trans h.mono

/-- A comparison marks its own cell alone, and only where it is not skipped (R89). -/
theorem regBit_compareLanes {T : Time} {cell : Nat} {a b : LaneResult} {d : Dev} (h : cell - 1 < 32) (j : Nat) :
    regBit (compareLanes T cell a b d) R.measDisStat j =
      if skipCmp a b ∨ j ≠ cell - 1 then regBit d R.measDisStat j else disagrees d a b := by
  obtain ⟨e, he, hc⟩ := compareLanes_cases T cell a b d
  rw [hc.regBit, he.regBit]
  by_cases hs : skipCmp a b
  · simp [hs]
  · simp only [hs, Bool.false_eq_true, if_false, false_or, regBit_setRegBit _ _ _ _ _ h]
    split <;> simp_all

/-! ### One cell of a grid instant (R72, R89) -/

theorem frame_userLane (d0 : Dev) (g : LaneGroup) (T : Time) (x : LaneSample) (d : Dev) : ChangesOnly [.ca] [] d (userLane d0 g T x d) := by
  unfold userLane
  split
  · exact .refl ..
  · exact .ite (frame_ca ..) (.refl ..)

theorem frame_accValue (r : LaneResult) (cell : Nat) (d : Dev) : ChangesOnly [.hist] [] d (accValue r cell d) :=
  .ite (.refl ..) (frame_withAcc ..)

/-- A cell of a grid instant before its comparison. -/
def gridWritten (d0 : Dev) (g : LaneGroup) (T : Time) (x : LaneSample) (d : Dev) : Dev :=
  let r := laneEval d0 g T x
  let d := userLane d0 g T x (writeLane g x.cell r d)
  match g with
  | .a => accValue r x.cell (noteGrid T x.cell r d)
  | .b => d

/-- Nothing of a written cell but its registers is anew there once it is noted. -/
theorem gridWritten_after (d0 : Dev) (g : LaneGroup) (T : Time) (x : LaneSample) (d : Dev) :
    ChangesOnly [.me, .ca, .hist] [] (writeLane g x.cell (laneEval d0 g T x) d) (gridWritten d0 g T x d) := by
  cases g
  · exact ((frame_userLane ..).mono.trans (frame_me ..).mono).trans (frame_accValue ..).mono
  · exact (frame_userLane ..).mono

/-- The comparison that a cell of a grid instant brings, with the lanes in their order. -/
def gridCompared (d0 : Dev) (g : LaneGroup) (T : Time) (x y : LaneSample) (d : Dev) : Dev :=
  let r := laneEval d0 g T x
  let q := laneEval d0 (otherGroup g) T y
  match g with
  | .a => compareLanes T x.cell r q d
  | .b => compareLanes T x.cell q r d

theorem gridCell_eq (d0 : Dev) (g : LaneGroup) (T : Time) (other : List LaneSample) (x : LaneSample) (d : Dev) :
    gridCell d0 g T other x d = if comparesAt d0 g then
      (sampleOf other x.cell).elim (gridWritten d0 g T x d) (fun y => gridCompared d0 g T x y (gridWritten d0 g T x d))
    else gridWritten d0 g T x d := by
  have hsample : ∀ e, (match sampleOf other x.cell with
      | some y => gridCompared d0 g T x y e
      | none => e) = (sampleOf other x.cell).elim e (fun y => gridCompared d0 g T x y e) := fun e => by
    cases sampleOf other x.cell <;> rfl
  rw [← hsample]
  cases g <;> rfl

theorem frame_gridCompared (d0 : Dev) (g : LaneGroup) (T : Time) (x y : LaneSample) (d : Dev) :
    ChangesOnly (.me :: latchParts) cmpRegs d (gridCompared d0 g T x y d) := by
  cases g <;> exact frame_compareLanes ..

/-- The comparison is the same seen from either lane. -/
theorem regBit_gridCompared {d0 : Dev} {g : LaneGroup} {T : Time} {x y : LaneSample} {d : Dev} (h : x.cell - 1 < 32) (j : Nat) :
    regBit (gridCompared d0 g T x y d) R.measDisStat j =
      if skipCmp (laneEval d0 g T x) (laneEval d0 (otherGroup g) T y) ∨ j ≠ x.cell - 1 then regBit d R.measDisStat j
      else disagrees d (laneEval d0 g T x) (laneEval d0 (otherGroup g) T y) := by
  have hskip : ∀ a b : LaneResult, skipCmp a b = skipCmp b a := fun a b => by
    simp only [skipCmp, Bool.or_comm, Bool.or_left_comm]
  have hdis : ∀ a b : LaneResult, disagrees d a b = disagrees d b a := fun a b => by
    rw [disagrees, disagrees, ← Int.neg_sub, Int.natAbs_neg]
  cases g
  · exact regBit_compareLanes h j
  · rw [hskip, hdis]
    exact regBit_compareLanes h j

/-- Registers that a cell of a grid instant may change. -/
def gridRegs (g : LaneGroup) (cell : Nat) : List Nat := resOff g cell :: R.measUncomp :: cmpRegs

theorem frame_gridWritten (d0 : Dev) (g : LaneGroup) (T : Time) (x : LaneSample) (d : Dev) :
    ChangesOnly (.me :: .ca :: latchParts) (laneRegs g x.cell) d (gridWritten d0 g T x d) :=
  ((frame_writeLane ..).mono (by decide) (by simp)).trans ((gridWritten_after ..).mono (by decide) (by simp))

theorem frame_gridCell (d0 : Dev) (g : LaneGroup) (T : Time) (other : List LaneSample) (x : LaneSample) (d : Dev) :
    ChangesOnly (.me :: .ca :: latchParts) (gridRegs g x.cell) d (gridCell d0 g T other x d) := by
  have hw : ChangesOnly (.me :: .ca :: latchParts) (gridRegs g x.cell) d (gridWritten d0 g T x d) :=
    (frame_gridWritten ..).mono (by decide) (by simp [laneRegs, gridRegs, cmpRegs])
  rw [gridCell_eq]
  refine .ite ?_ hw
  cases sampleOf other x.cell with
  | none => exact hw
  | some y => exact hw.trans ((frame_gridCompared ..).mono (by decide) (by simp [gridRegs]))

/-- From a written cell on only the registers of the comparison change. -/
theorem gridCell_after (d0 : Dev) (g : LaneGroup) (T : Time) (other : List LaneSample) (x : LaneSample) (d : Dev) :
    ChangesOnly (.me :: .ca :: latchParts) cmpRegs (gridWritten d0 g T x d) (gridCell d0 g T other x d) := by
  rw [gridCell_eq]
  refine .ite ?_ (.refl ..)
  cases sampleOf other x.cell with
  | none => exact .refl ..
  | some y => exact (frame_gridCompared ..).mono

section
variable {d0 : Dev} {g : LaneGroup} {T : Time} {other : List LaneSample} {x : LaneSample} (h1 : 1 ≤ x.cell) (h : x.cell ≤ 32)
include h1 h

omit h1 in
theorem reg_gridCell_self (d : Dev) : reg (gridCell d0 g T other x d) (resOff g x.cell) = (laneEval d0 g T x).word := by
  rw [(gridCell_after ..).2 _ (resOff_not_mem h), (gridWritten_after ..).2 _ (by simp), reg_writeLane_self _ _ h]

omit h in
theorem reg_gridCell_other {c : Nat} (hc : 1 ≤ c) (hmax : c ≤ 32) (hne : x.cell ≠ c) (d : Dev) :
    reg (gridCell d0 g T other x d) (resOff g c) = reg d (resOff g c) := by
  refine (frame_gridCell ..).2 _ ?_
  rw [gridRegs, List.mem_cons, not_or]
  exact ⟨resOff_ne hc h1 (Ne.symm hne), resOff_not_mem hmax⟩

theorem uncomp_gridCell_self (d : Dev) :
    regBit (gridCell d0 .a T other x d) R.measUncomp (x.cell - 1) = (laneEval d0 .a T x).uncomp := by
  rw [(gridCell_after ..).regBit, (gridWritten_after ..).regBit, regBit_writeLane_self _ _ (by omega)]

theorem uncomp_gridCell_other {c : Nat} (hc : 1 ≤ c) (hne : x.cell ≠ c) (d : Dev) :
    regBit (gridCell d0 g T other x d) R.measUncomp (c - 1) = regBit d R.measUncomp (c - 1) := by
  rw [(gridCell_after ..).regBit, (gridWritten_after ..).regBit, regBit_writeLane_other _ _ h1 h (by omega)]

/-- A cell's mark of disagreement, with the limit that it is judged by. -/
def disShown (c : Nat) (d : Dev) : Bool × Nat := (regBit d R.measDisStat (c - 1), regFld d R.measDisCfg 15 0)

omit h1 in
theorem disShown_gridWritten (c : Nat) (d : Dev) : disShown c (gridWritten d0 g T x d) = disShown c d := by
  have hnot : ∀ r, r = R.measDisStat ∨ r = R.measDisCfg → r ∉ laneRegs g x.cell := fun r hr => by
    rw [laneRegs, List.mem_cons, not_or]
    refine ⟨fun he => ?_, by rcases hr with rfl | rfl <;> decide⟩
    exact resOff_not_mem (g := g) (l := [r]) h (by rcases hr with rfl | rfl <;> decide) (by simp [he])
  rw [disShown, (frame_gridWritten ..).regBit _ (hnot _ (.inl rfl)), regFld, (frame_gridWritten ..).2 _ (hnot _ (.inr rfl))]
  rfl

omit h1 in
/-- Comparing leaves the limit. -/
theorem disCfg_gridCell (d : Dev) : regFld (gridCell d0 g T other x d) R.measDisCfg 15 0 = regFld d R.measDisCfg 15 0 := by
  rw [regFld, (gridCell_after ..).2 _ (by decide)]
  exact congrArg Prod.snd (disShown_gridWritten h 0 d)

theorem disShown_gridCell_other {c : Nat} (hc : 1 ≤ c) (hne : x.cell ≠ c) (d : Dev) : disShown c (gridCell d0 g T other x d) = disShown c d := by
  have hbit : regBit (gridWritten d0 g T x d) R.measDisStat (c - 1) = regBit d R.measDisStat (c - 1) :=
    congrArg Prod.fst (disShown_gridWritten h c d)
  rw [disShown, disCfg_gridCell h, disShown, ← hbit, gridCell_eq]
  split
  · cases sampleOf other x.cell with
    | none => rfl
    | some y => simp only [Option.elim_some, regBit_gridCompared (show x.cell - 1 < 32 by omega), if_pos (Or.inr (show c - 1 ≠ x.cell - 1 by omega))]
  · rfl

/-- What a comparison of a difference leaves of a cell's mark (R89). -/
def judged (skip : Bool) (diff : Nat) (p : Bool × Nat) : Bool × Nat := (if skip then p.1 else decide (10 * p.2 < diff), p.2)

theorem disShown_gridCell_self {y : LaneSample} (hcmp : comparesAt d0 g = true) (hy : sampleOf other x.cell = some y) (d : Dev) :
    disShown x.cell (gridCell d0 g T other x d) = judged (skipCmp (laneEval d0 g T x) (laneEval d0 (otherGroup g) T y))
      ((laneEval d0 g T x).value - (laneEval d0 (otherGroup g) T y).value).natAbs (disShown x.cell d) := by
  rw [← disShown_gridWritten (d0 := d0) (g := g) (T := T) h x.cell d]
  refine Prod.ext ?_ ?_
  · have hbit := regBit_gridCompared (d0 := d0) (g := g) (T := T) (x := x) (y := y) (d := gridWritten d0 g T x d) (by omega) (x.cell - 1)
    rw [disShown, gridCell_eq, if_pos hcmp, hy, Option.elim_some, hbit]
    simp only [ne_eq, not_true_eq_false, or_false]
    rfl
  · exact (disCfg_gridCell h d).trans (congrArg Prod.snd (disShown_gridWritten h x.cell d)).symm

end

/-! ### A grid instant (R72, R75, R83, R89, R261) -/

/-- A reading of the other lanes of distinct cells is the one found. -/
theorem sampleOf_eq {l : List LaneSample} {y : LaneSample} (hn : (l.map LaneSample.cell).Nodup) (hy : y ∈ l) : sampleOf l y.cell = some y := by
  induction l with
  | nil => cases hy
  | cons z r ih =>
    simp only [List.map_cons, List.nodup_cons, List.mem_map, not_exists, not_and] at hn
    rcases List.mem_cons.1 hy with rfl | hr
    · simp [sampleOf]
    · have hne : z.cell ≠ y.cell := fun he => hn.1 y hr he.symm
      rw [sampleOf, List.find?_cons_of_neg (by simpa using hne)]
      exact ih hn.2 hr

theorem mem_inUse {d : Dev} {l : List LaneSample} {x : LaneSample} : x ∈ inUse d l ↔ x ∈ l ∧ 1 ≤ x.cell ∧ x.cell ≤ ncells d := by
  simp [inUse]

theorem inUse_sublist (d : Dev) (l : List LaneSample) : (inUse d l).Sublist l := List.filter_sublist

/-- The cells of a grid instant, in the device as it was. -/
def gridWrites (g : LaneGroup) (T : Time) (own other : List LaneSample) (d : Dev) : Dev :=
  each (gridCell (asOf T d) g T other) (inUse (asOf T d) (inUse d own)) d

section
variable {g : LaneGroup} {T : Time} {own other : List LaneSample} {d : Dev} (hown : (own.map LaneSample.cell).Nodup)
  (hmax : ∀ x ∈ own, x.cell ≤ 32)

/-- The registers that a grid instant may change. -/
def instantRegs (g : LaneGroup) (own : List LaneSample) : List Nat :=
  [R.measUncomp, R.measDisStat, R.measDisFault, R.ringCnt, R.safeCnt] ++ own.map (fun x => resOff g x.cell)

theorem ChangesOnly.each_mem {α : Type} {ps : List Part} {rs : List Nat} {f : α → Dev → Dev} {l : List α}
    (h : ∀ x ∈ l, ∀ d, ChangesOnly ps rs d (f x d)) (d : Dev) : ChangesOnly ps rs d (Machine.each f l d) := by
  induction l generalizing d with
  | nil => exact .refl ..
  | cons x r ih => exact (h x (by simp) d).trans (ih (fun y hy => h y (by simp [hy])) _)

theorem frame_gridWrites : ChangesOnly (.me :: .ca :: latchParts) (instantRegs g own) d (gridWrites g T own other d) := by
  refine .each_mem (fun x hx e => (frame_gridCell ..).mono (List.Subset.refl _) ?_) d
  have hx : x ∈ own := (inUse_sublist _ _).subset ((inUse_sublist _ _).subset hx)
  have hres : resOff g x.cell ∈ instantRegs g own := by simp only [instantRegs, List.mem_append, List.mem_map]; exact .inr ⟨x, hx, rfl⟩
  simp only [gridRegs, cmpRegs, List.cons_subset, List.nil_subset, hres, true_and, and_true]
  simp [instantRegs]

include hown hmax

section
variable {x : LaneSample} (hx : x ∈ own) (h1 : 1 ≤ x.cell) (hk : x.cell ≤ ncells d) (hko : x.cell ≤ ncells (asOf T d))
include hx h1 hk hko

/-- A configured cell read is one of those written, with no other reading of its cell. -/
theorem gridWrites_at {β : Type} {view : Dev → β} {v : β}
    (hother : ∀ y : LaneSample, 1 ≤ y.cell → y.cell ≤ 32 → y.cell ≠ x.cell → ∀ e, view (gridCell (asOf T d) g T other y e) = view e)
    (hself : ∀ e, view e = view d → view (gridCell (asOf T d) g T other x e) = v) : view (gridWrites g T own other d) = v := by
  have hsub := (inUse_sublist (asOf T d) (inUse d own)).trans (inUse_sublist d own)
  refine each_at (key := LaneSample.cell) (x := x) ?_ (hown.sublist (hsub.map _)) (fun y hy hne e => ?_) hself
  · exact mem_inUse.2 ⟨mem_inUse.2 ⟨hx, h1, hk⟩, h1, hko⟩
  · exact hother y (mem_inUse.1 hy).2.1 (hmax y (hsub.subset hy)) hne e

theorem reg_gridWrites : reg (gridWrites g T own other d) (resOff g x.cell) = (laneEval (asOf T d) g T x).word :=
  gridWrites_at hown hmax hx h1 hk hko (view := fun e => reg e (resOff g x.cell))
    (fun _ hy1 _ hne e => reg_gridCell_other hy1 h1 (hmax x hx) hne e) (fun e _ => reg_gridCell_self (hmax x hx) e)

theorem uncomp_gridWrites (hg : g = .a) :
    regBit (gridWrites g T own other d) R.measUncomp (x.cell - 1) = (laneEval (asOf T d) g T x).uncomp := by
  subst hg
  exact gridWrites_at hown hmax hx h1 hk hko (view := fun e => regBit e R.measUncomp (x.cell - 1))
    (fun _ hy1 hy hne e => uncomp_gridCell_other hy1 hy h1 hne e) (fun e _ => uncomp_gridCell_self h1 (hmax x hx) e)

theorem disStat_gridWrites {y : LaneSample} (hcmp : comparesAt (asOf T d) g = true) (hy : sampleOf other x.cell = some y) :
    regBit (gridWrites g T own other d) R.measDisStat (x.cell - 1) =
      if skipCmp (laneEval (asOf T d) g T x) (laneEval (asOf T d) (otherGroup g) T y) then regBit d R.measDisStat (x.cell - 1)
      else decide (10 * regFld d R.measDisCfg 15 0 <
        ((laneEval (asOf T d) g T x).value - (laneEval (asOf T d) (otherGroup g) T y).value).natAbs) :=
  congrArg Prod.fst (gridWrites_at hown hmax hx h1 hk hko (view := disShown x.cell)
    (v := judged (skipCmp (laneEval (asOf T d) g T x) (laneEval (asOf T d) (otherGroup g) T y))
      ((laneEval (asOf T d) g T x).value - (laneEval (asOf T d) (otherGroup g) T y).value).natAbs (disShown x.cell d))
    (fun _ hy1 hy hne e => disShown_gridCell_other hy1 hy h1 hne e)
    (fun e he => by rw [disShown_gridCell_self h1 (hmax x hx) hcmp hy, he]))

end

end

theorem gridResult_eq {g : LaneGroup} {T : Time} {own other : List LaneSample} {d : Dev} (hg : onGrid (groupP2 (asOf T d) g) T = true)
    (hf : since T d.now ≤ usT 20) : gridResult g T own other d = balUpdate (gridWrites g T own other d) :=
  if_pos (by simp [hg, fresh, hf])

/-- Settles O16: each configured cell read shows its result, its bit of MEAS_UNCOMP and that of its comparison, and nothing else changes. -/
theorem laneResultsWritten : Obligations.LaneResultsWritten := by
  unfold Obligations.LaneResultsWritten
  intro s t g own other d o hd ho hr calm
  subst ho
  refine ⟨fun h => actAt_idle (gridResult g t own other) hd hr calm ?_, fun hown hoth hmax hg hf => ?_⟩
  · refine if_neg ?_
    rcases h with h | h
    · simp [h]
    · simp [fresh, h]
  · have hgrid := gridResult_eq (own := own) (other := other) hg hf
    have hw := frame_gridWrites (g := g) (T := t) (own := own) (other := other) (d := d)
    obtain ⟨u, hu, hp, hh⟩ := actAt_posted (s := s) (gridResult g t own other) hd hr
      (by rw [hgrid, balUpdate_ex, hw.1 .ex (by decide), calm.2])
    rw [hgrid] at hp
    refine ⟨u, hu, fun x hx h1 hk hko => ⟨?_, fun hga => ?_, fun hcmp y hy hyx => ?_⟩, ?_, hh⟩
    · rw [hp.reg_updated (resOff_not_mem (hmax x hx)), reg_gridWrites hown hmax hx h1 hk hko]
    · rw [regBit, hp.reg_updated (by decide), ← regBit, uncomp_gridWrites hown hmax hx h1 hk hko hga]
    · rw [regBit, hp.reg_updated (by decide), ← regBit, disStat_gridWrites hown hmax hx h1 hk hko hcmp (by rw [← hyx]; exact sampleOf_eq hoth hy)]
    · have hregs : instantRegs g own ⊆ [R.measUncomp, R.measDisStat, R.measDisFault, R.ringCnt, R.safeCnt, R.hostEvtLost] ++
          own.map (fun x => resOff g x.cell) := List.append_subset.2 ⟨by simp, List.subset_append_right ..⟩
      exact ((hw.mono (by decide) hregs).trans ((frame_balUpdate _).mono (by decide) (by simp))).trans
        (hp.frame.mono (by decide) (by simp [evRegs]))

end Sys2Proof.Machine
end

section
/-! SUPPORT. Sweeps: what completing them changes, and how they are started, triggered and ended (file 09). -/

namespace Sys2Proof.Machine

/-! ### Completing sweeps (R266) -/

theorem frame_withSweep (f : Sweeps → Sweeps) (d : Dev) : ChangesOnly [.sw] [] d (withSweep f d) := by
  refine ⟨fun q hq => ?_, fun _ _ => rfl⟩
  cases q <;> simp_all [Part.same]

/-- What completing sweeps may change. -/
def sweepParts : List Part := [.sw, .queues, .ex, .cyc]

/-- A collecting sweep whose entries are all final. -/
def Collect.ready (c : Collect) : Bool := c.slots.all SweepSlot.final

/-- The device without the sweeps that are ready. -/
def collecting (d : Dev) : Dev := withSweep (fun s => { s with collect := s.collect.filter (fun c => !c.slots.all SweepSlot.final) }) d

/-- The status of a completed sweep. -/
def sweepStatus (c : Collect) : Nat := if countState c.slots 1 = c.slots.length ∧ !c.castled then St.done else St.partial'

theorem sweepStatus_cases (c : Collect) : sweepStatus c = 0x00 ∨ sweepStatus c = 0x01 := by
  unfold sweepStatus
  split
  · exact .inl rfl
  · exact .inr rfl

theorem frame_collecting (d : Dev) : ChangesOnly [.sw] [] d (collecting d) := frame_withSweep ..

/-- A device stays the head where its power state stays. -/
theorem ChangesOnly.head {ps : List Part} {rs : List Nat} {a b : Dev} (h : ChangesOnly ps rs a b) (hp : .pw ∉ ps := by decide) :
    b.head = a.head := by
  have hpw : b.pw = a.pw := h.1 .pw hp
  rw [Dev.head, hpw, Dev.head]

theorem sweepsDone_eq (d : Dev) : sweepsDone d = each (fun c d => finish c.h (sweepStatus c) (sweepResult d c) d)
    (d.sw.collect.filter (fun c => c.slots.all SweepSlot.final)) (collecting d) := rfl

theorem frame_finishSweeps (l : List Collect) (d : Dev) :
    ChangesOnly [.ex, .queues, .cyc] [R.ringCnt] d (each (fun c d => finish c.h (sweepStatus c) (sweepResult d c) d) l d) :=
  .each _ (fun _ _ => frame_finish ..) _ _

theorem frame_sweepsDone (d : Dev) : ChangesOnly sweepParts [R.ringCnt] d (sweepsDone d) := by
  rw [sweepsDone_eq]
  exact (frame_withSweep ..).mono.trans (frame_finishSweeps ..).mono

theorem sweepsDone_sw (d : Dev) : (sweepsDone d).sw = (collecting d).sw := by
  rw [sweepsDone_eq]
  exact (frame_finishSweeps ..).1 .sw (by decide)

theorem mem_collect_sweepsDone {d : Dev} {c : Collect} : c ∈ (sweepsDone d).sw.collect ↔ c ∈ d.sw.collect ∧ c.slots.all SweepSlot.final = false := by
  rw [sweepsDone_sw]
  simp [collecting]

/-- The one sweep that is ready is completed. -/
theorem sweepsDone_one {d : Dev} {c : Collect} (hc : d.sw.collect = [c]) (hf : c.slots.all SweepSlot.final = true) :
    sweepsDone d = finish c.h (sweepStatus c) (sweepResult (collecting d) c) (collecting d) := by
  rw [sweepsDone_eq, hc, List.filter_cons_of_pos (p := fun c : Collect => c.slots.all SweepSlot.final) hf]
  rfl

/-- Where none is ready nothing is completed. -/
theorem sweepsDone_none {d : Dev} (h : ∀ c ∈ d.sw.collect, c.slots.all SweepSlot.final = false) : sweepsDone d = collecting d := by
  rw [sweepsDone_eq, List.filter_eq_nil_iff.2 fun c hc => by simp [h c hc]]
  rfl

/-- In the head a completion waits for the end of the command. -/
theorem finish_head {h status : Nat} {res : List Byte} {d : Dev} (hh : d.head = true) :
    finish h status res d = { d with ex := { d.ex with done := d.ex.done ++ [⟨h, status, res⟩] } } := if_pos hh

/-- What the one ready sweep's completion leaves to post in the head. -/
theorem done_sweepsDone_one {d : Dev} {c : Collect} (hh : d.head = true) (hd : d.ex.done = []) (hc : d.sw.collect = [c])
    (hf : c.slots.all SweepSlot.final = true) : (sweepsDone d).ex.done = [⟨c.h, sweepStatus c, sweepResult (collecting d) c⟩] := by
  rw [sweepsDone_one hc hf, finish_head ((frame_collecting d).head.trans hh)]
  exact congrArg (· ++ _) hd

/-- The state after a command whose effect leaves device e. -/
def settled (s : State) (e : Dev) : State := { s with dev := (settle (e, s.hst)).1, hst := (settle (e, s.hst)).2 }

/-- The one completion that waits in the head is posted. -/
theorem finished_settled {s : State} {h status : Nat} {res : List Byte} {e : Dev} (hs : s.dev.head = true) (hout : e.ev.out = [])
    (hdone : e.ex.done = [⟨h, status, res⟩]) : Finished s (settled s e) h status res := by
  rw [Finished, if_pos hs]
  refine ⟨s.hst, .refl _, ?_⟩
  simp only [settled, settle, hout, hdone, each]

theorem frame_settled {s : State} {e : Dev} (hout : e.ev.out = []) : ChangesOnly [.ex] [] e (settled s e).dev := frame_settle_ex hout

/-! ### SWEEP (R263, R264, R266) -/

theorem frame_want (T : Time) (h : Option Nat) (soon : Bool) (d : Dev) : ChangesOnly [.sw] [] d (want T h soon d) := frame_withSweep ..

/-- The sample instant of a SWEEP (R263). -/
def sweepInstant (h : Nat) (c : Desc) (d : Dev) (x : Hst) : Time :=
  let from' := match findCmd x h with
    | some k => k.since
    | none => d.now
  BitVec.ofNat 64 (if swStart c = 0 then from'.toNat + leadT d else swStart c)

/-- A sweep as it begins to be collected. -/
def sweepBegun (h : Nat) (c : Desc) (d : Dev) (x : Hst) : Collect :=
  ⟨h, sweepInstant h c d x, (sweepPositions d c).map (fun p => ⟨p, none, none, false, missingAtStart d p⟩), d.rg.castled⟩

/-- The device with a sweep that begins, its triggers sent. -/
def sweepSent (h : Nat) (c : Desc) (d : Dev) (x : Hst) : Dev :=
  let T := sweepInstant h c d x
  let mid := if d.rg.castled then d.rg.b else northHalf d
  let d := withSweep (fun s => { s with collect := s.collect ++ [sweepBegun h c d x] }) d
  sendTrigger .south T h (mid + 1) (topPos d) false (sendTrigger .north T h 1 mid false d)

/-- The device with a sweep that begins, and its own sample wanted where it takes part. -/
def sweepAsked (h : Nat) (c : Desc) (d : Dev) (x : Hst) : Dev :=
  if 0 ∈ sweepPositions d c then want (sweepInstant h c d x) (some h) false (sweepSent h c d x) else sweepSent h c d x

theorem sweepOp_eq {h : Nat} {c : Desc} {d : Dev} {x : Hst} (hh : d.head = true) :
    sweepOp h c (d, x) = if 2 ≤ d.sw.collect.length then (finish h 0x31 [] d, x) else (sweepsDone (sweepAsked h c d x), x) := by
  unfold sweepOp
  simp only [hh, Bool.not_true, Bool.false_eq_true, if_false]
  rfl

theorem frame_sendTrigger (p : Port) (T : Time) (h first last : Nat) (r : Bool) (d : Dev) :
    ChangesOnly [.queues, .cyc] [R.ringCnt] d (sendTrigger p T h first last r d) := frame_enqueue ..

theorem sweepSent_sw (h : Nat) (c : Desc) (d : Dev) (x : Hst) :
    (sweepSent h c d x).sw = { d.sw with collect := d.sw.collect ++ [sweepBegun h c d x] } :=
  (((frame_sendTrigger ..).trans (frame_sendTrigger ..)).1 .sw (by decide)).trans rfl

theorem frame_sweepAsked (h : Nat) (c : Desc) (d : Dev) (x : Hst) : ChangesOnly [.sw, .queues, .cyc] [R.ringCnt] d (sweepAsked h c d x) := by
  have hs : ChangesOnly [.sw, .queues, .cyc] [R.ringCnt] d (sweepSent h c d x) :=
    ((frame_withSweep ..).mono.trans (frame_sendTrigger ..).mono).trans (frame_sendTrigger ..).mono
  exact .ite (hs.trans (frame_want ..).mono) hs

theorem collect_sweepAsked (h : Nat) (c : Desc) (d : Dev) (x : Hst) :
    (sweepAsked h c d x).sw.collect = d.sw.collect ++ [sweepBegun h c d x] := by
  unfold sweepAsked
  split
  · simp [want, sweepSent_sw]
  · simp [sweepSent_sw]

theorem wanted_sweepAsked {h : Nat} {c : Desc} {d : Dev} {x : Hst} (h0 : 0 ∈ sweepPositions d c) :
    ∃ w ∈ (sweepAsked h c d x).sw.wanted, w.h = some h := by
  rw [sweepAsked, if_pos h0, want, withSweep_sw]
  exact ⟨_, List.mem_append_right _ (List.mem_singleton.2 rfl), rfl⟩

/-- A sweep that begins is ready where every position is missing (R266). -/
theorem ready_sweepBegun (h : Nat) (c : Desc) (d : Dev) (x : Hst) :
    (sweepBegun h c d x).slots.all SweepSlot.final = true ↔ ∀ p ∈ sweepPositions d c, missingAtStart d p ≠ 0 := by
  simp [sweepBegun, SweepSlot.final]

theorem sweep_holds (s : State) (t : Time) (h : Nat) (c : Desc) (d : Dev) (hd : d = tick t s.dev) (ha : d.awake = true) (calm : Calm d)
    (hh : d.head = true) (hop : dOp c = 0x10) (hok : okSweep c = true) :
    ∃ u, exec (.sweep t h c) s = .next u ∧
      (2 ≤ d.sw.collect.length → Finished s u h 0x31 [] ∧ u.dev.sw = d.sw) ∧
      (d.sw.collect.length < 2 → (∃ p ∈ sweepPositions d c, missingAtStart d p = 0) →
        (∃ k ∈ u.dev.sw.collect, k.h = h ∧ k.slots.map SweepSlot.pos = sweepPositions d c ∧
          (swStart c ≠ 0 → k.T = BitVec.ofNat 64 (swStart c)) ∧
          (∀ e, swStart c = 0 → findCmd s.hst h = some e → k.T = BitVec.ofNat 64 (e.since.toNat + leadT d))) ∧
        (0 ∈ sweepPositions d c → ∃ w ∈ u.dev.sw.wanted, w.h = some h)) ∧
      (d.sw.collect = [] → (∀ p ∈ sweepPositions d c, missingAtStart d p ≠ 0) → (∀ k ∈ u.dev.sw.collect, k.h ≠ h) ∧
        ∃ st res, Finished s u h st res) ∧
      ChangesOnly [.sw, .queues, .ex, .cyc] [R.ringCnt] d u.dev := by
  subst hd
  have hs : s.dev.head = true := by rwa [tick_head] at hh
  have hnext : exec (.sweep t h c) s = .next (settled s (sweepOp h c (tick t s.dev, s.hst)).1) := by
    refine (actOpH_next (sweepOp h c) ha hop hok).trans ?_
    rw [sweepOp_eq hh]
    split <;> rfl
  refine ⟨_, hnext, ?_⟩
  rw [sweepOp_eq hh]
  split
  · next hfull =>
    have hend := frame_endedState (s := s) (h := h) (status := 0x31) (res := []) calm.1
    exact ⟨fun _ => ⟨finished_endedState_head calm hs hh, hend.1 .sw (by decide)⟩, fun hl => absurd hfull (by omega),
      fun hl => absurd hfull (by rw [hl]; decide), hend.mono⟩
  · next hfree =>
    have hasked := frame_sweepAsked h c (tick t s.dev) s.hst
    have hall := hasked.mono.trans (frame_sweepsDone _)
    have hout : (sweepsDone (sweepAsked h c (tick t s.dev) s.hst)).ev.out = [] := by
      rw [show _ = _ from hall.1 .ev (by decide), calm.1]
    have hset := frame_settled (s := s) hout
    have hsw : (settled s (sweepsDone (sweepAsked h c (tick t s.dev) s.hst))).dev.sw = (collecting (sweepAsked h c (tick t s.dev) s.hst)).sw :=
      (hset.1 .sw (by decide)).trans (sweepsDone_sw _)
    refine ⟨fun hl => absurd hl hfree, fun _ ⟨p, hp, hm⟩ => ⟨⟨sweepBegun h c (tick t s.dev) s.hst, ?_, rfl, ?_, ?_, ?_⟩, fun h0 => ?_⟩,
      fun hnil hmiss => ⟨fun k hk => ?_, ?_⟩, hall.trans hset.mono⟩
    · rw [hsw, ← sweepsDone_sw, mem_collect_sweepsDone, collect_sweepAsked, ← Bool.not_eq_true, ready_sweepBegun]
      exact ⟨by simp, fun hn => hn p hp hm⟩
    · simp [sweepBegun, Function.comp_def]
    · intro hne
      simp [sweepBegun, sweepInstant, hne]
    · intro e h0 he
      simp [sweepBegun, sweepInstant, h0, he]
    · rw [hsw]
      exact wanted_sweepAsked h0
    · rw [hsw, ← sweepsDone_sw, mem_collect_sweepsDone, collect_sweepAsked, hnil] at hk
      obtain ⟨hk, hnot⟩ := hk
      rw [List.nil_append, List.mem_singleton] at hk
      subst hk
      rw [(ready_sweepBegun ..).2 hmiss] at hnot
      cases hnot
    · exact ⟨_, _, finished_settled hs hout (done_sweepsDone_one (hasked.head.trans hh) (hasked.calm calm).2
        (by rw [collect_sweepAsked, hnil, List.nil_append]) ((ready_sweepBegun h c (tick t s.dev) s.hst).2 hmiss))⟩

/-! ### Triggers at a position (R264, R265) -/

theorem frame_sendSweep (h : Nat) (f0 f1 : List Byte) (fetched : Bool) (d : Dev) :
    ChangesOnly [.queues, .cyc] [R.ringCnt] d (sendSweep h f0 f1 fetched d) := (frame_enqueue ..).trans (frame_enqueue ..)

/-- Where its port has room, both frames of a sweep join the queue. -/
theorem queue_sendSweep {h : Nat} {f0 f1 : List Byte} {d : Dev} (hq : (port d (dataPort d)).queue.length < 31) :
    ∃ f g, (port (sendSweep h f0 f1 true d) (dataPort d)).queue = (port d (dataPort d)).queue ++ [f, g] ∧
      f.typ = 0x05 ∧ g.typ = 0x05 ∧ f.pay = f0 ∧ g.pay.length = f1.length := by
  refine ⟨ownFrame d 0 0x05 (h % 128 * 2) f0, ownFrame (enqueue (dataPort d) (ownFrame d 0 0x05 (h % 128 * 2) f0) d) 0 0x05 (h % 128 * 2 + 1)
    (f1.set 3 (f1.getD 3 0 ||| 4)), ?_, rfl, rfl, rfl, by simp [ownFrame]⟩
  have hfirst : ∀ f : Frame, (port (enqueue (dataPort d) f d) (dataPort d)).queue = (port d (dataPort d)).queue ++ [f] := fun f => by
    rw [enqueue, if_pos (by omega), port_setPort]
  simp only [sendSweep, if_true]
  rw [enqueue, if_pos (by rw [hfirst, List.length_append]; simp only [List.length_singleton]; omega), port_setPort, hfirst,
    List.append_assoc]
  rfl

/-- Frames that a trigger with RETRIG has sent again. -/
def heldFor (tr : Trigger) (d : Dev) : Option SweepHeld :=
  if tr.retrig then d.sw.held.find? (fun x => x.h == tr.h && decide (d.now.toNat < holdTime x.T)) else none

/-- A trigger that finds nothing held asks for a sample. -/
def askedFor (tr : Trigger) (d : Dev) : Dev :=
  if tr.retrig then want tr.T (some tr.h) true (withSweep (fun s => { s with wanted := s.wanted.filter (fun w => w.h ≠ some tr.h) }) d)
  else if d.sw.wanted.any (fun w => w.h == some tr.h) then d
  else want tr.T (some tr.h) false d

theorem triggerRx_eq {tr : Trigger} {d : Dev} (hh : d.head = false) (hp : d.rg.pos ≠ 0x3F) (hf : tr.first ≤ d.rg.pos) (hl : d.rg.pos ≤ tr.last) :
    triggerRx tr d = (heldFor tr d).elim (askedFor tr d) (fun x => sendSweep x.h x.f0 x.f1 true d) := by
  have hin : (d.head || decide (d.rg.pos = 0x3F) || decide (d.rg.pos < tr.first) || decide (tr.last < d.rg.pos)) = false := by
    simp [hh, hp, hf, hl]
  unfold triggerRx
  rw [hin]
  change (match heldFor tr d with
    | some x => sendSweep x.h x.f0 x.f1 true d
    | none => askedFor tr d) = _
  cases heldFor tr d <;> rfl

theorem frame_triggerRx (tr : Trigger) (d : Dev) : ChangesOnly [.sw, .queues, .cyc] [R.ringCnt] d (triggerRx tr d) := by
  unfold triggerRx
  refine .ite (.refl ..) ?_
  split
  · exact (frame_sendSweep ..).mono
  · exact .ite ((frame_withSweep ..).trans (frame_want ..)).mono (.ite (.refl ..) (frame_want ..).mono)

/-! ### SYNC, the hold and the deadline (R259, R265, R266) -/

/-- A sweep with what has not been delivered missing, its hold expired. -/
def expired (h now : Nat) (c : Collect) : Collect :=
  if decide (c.h = h) && decide (holdTime c.T ≤ now) then
    { c with slots := c.slots.map (fun x => if x.final then x else { x with missing := 4 }) } else c

theorem sweepDeadline_eq (h : Nat) (d : Dev) : sweepDeadline h d =
    sweepsDone (withSweep (fun s => { s with collect := s.collect.map (expired h (dropCut d).now.toNat) }) (dropCut d)) := rfl

theorem expired_final {h now : Nat} {c : Collect} (hc : c.h = h) (hT : holdTime c.T ≤ now) : (expired h now c).slots.all SweepSlot.final = true := by
  simp only [expired, hc, hT, decide_true, Bool.and_self, if_true, List.all_map, List.all_eq_true, Function.comp_apply]
  intro x _
  split
  · assumption
  · simp [SweepSlot.final]

theorem expired_h (h now : Nat) (c : Collect) : (expired h now c).h = c.h ∧ (expired h now c).T = c.T := by
  unfold expired
  split <;> exact ⟨rfl, rfl⟩

/-- What the ring cannot reach goes missing. -/
def cut (d : Dev) (c : Collect) : Collect :=
  { c with slots := c.slots.map (fun x => if !x.final && !reachable d x.pos then { x with missing := 1 } else x) }

theorem dropCut_eq (d : Dev) : dropCut d =
    if d.rg.castled then sweepsDone (withSweep (fun s => { s with collect := s.collect.map (cut d) }) d) else d := rfl

theorem frame_dropCut (d : Dev) : ChangesOnly sweepParts [R.ringCnt] d (dropCut d) := by
  rw [dropCut_eq]
  exact .ite ((frame_withSweep ..).mono.trans (frame_sweepsDone _)) (.refl ..)

theorem frame_sweepDeadline (h : Nat) (d : Dev) : ChangesOnly sweepParts [R.ringCnt] d (sweepDeadline h d) := by
  rw [sweepDeadline_eq]
  exact ((frame_dropCut d).trans (frame_withSweep ..).mono).trans (frame_sweepsDone _)

/-- Where one sweep is collected, what the ring cannot reach completes it, or leaves it with its handle and instant. -/
theorem dropCut_one {d : Dev} {c : Collect} (hh : d.head = true) (hd : d.ex.done = []) (hc : d.sw.collect = [c]) :
    (∃ st res, (st = 0x00 ∨ st = 0x01) ∧ (dropCut d).ex.done = [⟨c.h, st, res⟩] ∧ (dropCut d).sw.collect = []) ∨
    (∃ e, (dropCut d).ex.done = [] ∧ (dropCut d).sw.collect = [e] ∧ e.h = c.h ∧ e.T = c.T) := by
  rw [dropCut_eq]
  split
  · have hone : (withSweep (fun s => { s with collect := s.collect.map (cut d) }) d).sw.collect = [cut d c] := by simp [hc]
    by_cases hf : (cut d c).slots.all SweepSlot.final
    · refine .inl ⟨_, _, sweepStatus_cases (cut d c), done_sweepsDone_one ((frame_withSweep ..).head.trans hh) hd hone hf, ?_⟩
      rw [sweepsDone_sw, collecting, withSweep_sw, hone]
      simp [hf]
    · have hnone : sweepsDone (withSweep (fun s => { s with collect := s.collect.map (cut d) }) d) = _ :=
        sweepsDone_none (by rw [hone]; simpa using hf)
      refine .inr ⟨cut d c, ?_, ?_, rfl, rfl⟩
      · rw [hnone]
        exact hd
      · rw [sweepsDone_sw, collecting, withSweep_sw, hone]
        simp [hf]
  · exact .inr ⟨c, hd, hc, rfl, rfl⟩

/-- At its deadline the one sweep that is collected ends. -/
theorem done_sweepDeadline {d : Dev} {c : Collect} (hh : d.head = true) (hd : d.ex.done = []) (hc : d.sw.collect = [c])
    (hT : holdTime c.T ≤ d.now.toNat) : ∃ st res, (st = 0x00 ∨ st = 0x01) ∧ (sweepDeadline c.h d).ex.done = [⟨c.h, st, res⟩] := by
  have hcut := frame_dropCut d
  have hnow : (dropCut d).now = d.now := hcut.1 .now (by decide)
  rw [sweepDeadline_eq, hnow]
  rcases dropCut_one hh hd hc with ⟨st, res, hst, hdone, hnil⟩ | ⟨e, hdone, hone, heh, heT⟩
  · refine ⟨st, res, hst, ?_⟩
    rw [sweepsDone_none (by simp [hnil])]
    exact hdone
  · have hfin := done_sweepsDone_one (c := expired c.h d.now.toNat e) (d := withSweep (fun s => { s with collect := s.collect.map (expired c.h d.now.toNat) }) (dropCut d))
      ((frame_withSweep ..).head.trans (hcut.head.trans hh)) hdone (by simp [hone]) (expired_final heh (by rwa [heT]))
    rw [(expired_h ..).1, heh] at hfin
    exact ⟨_, _, sweepStatus_cases _, hfin⟩

/-! ### The commands (R259, R264 to R266) -/

theorem sweepTriggerRx_holds (s : State) (t : Time) (p : Port) (tr : Trigger) (d : Dev) (hd : d = unbuffer p 0x04 (tick t s.dev))
    (ha : d.awake = true) (calm : Calm d) (hh : d.head = false) (hp : d.rg.pos ≠ 0x3F) :
    ∃ u, exec (.sweepTriggerRx t p tr) s = .next u ∧
      (d.rg.pos < tr.first ∨ tr.last < d.rg.pos → ChangesOnly [] [] d u.dev) ∧
      (tr.first ≤ d.rg.pos → d.rg.pos ≤ tr.last →
        (tr.retrig = false → (∀ w ∈ d.sw.wanted, w.h ≠ some tr.h) →
          u.dev.sw = { d.sw with wanted := d.sw.wanted ++ [⟨tr.T, some tr.h, d.now, measMode d, false⟩] }) ∧
        (tr.retrig = false → (∃ w ∈ d.sw.wanted, w.h = some tr.h) → u.dev.sw = d.sw) ∧
        (tr.retrig = true → (∀ x ∈ d.sw.held, x.h ≠ tr.h ∨ holdTime x.T ≤ d.now.toNat) →
          u.dev.sw = { d.sw with wanted := d.sw.wanted.filter (fun w => w.h ≠ some tr.h) ++
            [⟨tr.T, some tr.h, d.now, measMode d, true⟩] })) ∧
      (∀ x, tr.first ≤ d.rg.pos → d.rg.pos ≤ tr.last → tr.retrig = true →
        d.sw.held.find? (fun x => x.h == tr.h && decide (d.now.toNat < holdTime x.T)) = some x → (port d (dataPort d)).queue.length < 31 →
        ∃ f g, (port u.dev (dataPort d)).queue = (port d (dataPort d)).queue ++ [f, g] ∧
          f.typ = 0x05 ∧ g.typ = 0x05 ∧ f.pay = x.f0 ∧ g.pay.length = x.f1.length) ∧
      ChangesOnly [.sw, .queues, .cyc] [R.ringCnt] d u.dev ∧ u.hst = s.hst := by
  have hframe := frame_triggerRx tr d
  have hpw : d.pw = (tick t s.dev).pw := by rw [hd]; exact (frame_setPort ..).1 .pw (by cases p <;> decide)
  have hnext : exec (.sweepTriggerRx t p tr) s = .next { s with dev := triggerRx tr d } := by
    have h := actAwake_calm (s := s) (fun d => triggerRx tr (unbuffer p 0x04 d)) rfl (by rw [Dev.awake, ← hpw]; exact ha)
      (by rw [← hd]; exact hframe.calm calm)
    rwa [← hd] at h
  refine ⟨_, hnext, fun hout => ?_, fun hf hl => ⟨fun hr hnone => ?_, fun hr hany => ?_, fun hr hold => ?_⟩, fun x hf hl hr hx hq => ?_, hframe, rfl⟩
  · have hsame : triggerRx tr d = d := if_pos (by rcases hout with h | h <;> simp [h])
    change ChangesOnly [] [] d (triggerRx tr d)
    rw [hsame]
    exact .refl ..
  all_goals simp only [triggerRx_eq hh hp hf hl, heldFor, hr, Bool.false_eq_true, if_false, if_true]
  · have hany : d.sw.wanted.any (fun w => w.h == some tr.h) = false := by simpa using hnone
    simp only [Option.elim_none, askedFor, hr, hany, Bool.false_eq_true, if_false]
    rfl
  · have hany' : d.sw.wanted.any (fun w => w.h == some tr.h) = true := by simpa using hany
    simp only [Option.elim_none, askedFor, hr, hany', Bool.false_eq_true, if_false, if_true]
  · have hnone : d.sw.held.find? (fun x => x.h == tr.h && decide (d.now.toNat < holdTime x.T)) = none := by
      rw [List.find?_eq_none]
      intro x hx
      rcases hold x hx with h | h
      · simp [h]
      · simp [h]
    simp only [hnone, Option.elim_none, askedFor, hr, if_true]
    rfl
  · rw [hx]
    exact queue_sendSweep hq

theorem syncInputEdge_holds (s : State) (t : Time) (d : Dev) (hd : d = tick t s.dev) (ha : d.awake = true) (calm : Calm d) :
    ∃ u, exec (.syncInputEdge t) s = .next u ∧
      u.dev.sw = (if syncMode d = 2 then { d.sw with wanted := d.sw.wanted ++ [⟨d.now, none, d.now, measMode d, false⟩] } else d.sw) ∧
      ChangesOnly [.sw] [] d u.dev ∧ u.hst = s.hst := by
  have hframe : ChangesOnly [.sw] [] d (if syncMode d = 2 then want d.now none false d else d) := .ite (frame_want ..) (.refl ..)
  refine ⟨_, actAwake_calm (s := s) (fun d => if syncMode d = 2 then want d.now none false d else d) hd ha (hframe.calm calm), ?_, hframe, rfl⟩
  dsimp only
  split <;> rfl

theorem sweepHoldExpire_holds (s : State) (t : Time) (h : Nat) (d : Dev) (hd : d = tick t s.dev) (hr : d.running = true) (calm : Calm d) :
    ∃ u, exec (.sweepHoldExpire t h) s = .next u ∧
      u.dev.sw = { d.sw with held := d.sw.held.filter (fun x => decide (x.h ≠ h) || decide (d.now.toNat < holdTime x.T)) } ∧
      ChangesOnly [.sw] [] d u.dev ∧ u.hst = s.hst :=
  ⟨_, actAt_calm (s := s) (fun d => withSweep (fun s => { s with
    held := s.held.filter (fun x => decide (x.h ≠ h) || decide (d.now.toNat < holdTime x.T)) }) d) hd hr ((frame_withSweep ..).calm calm),
    rfl, frame_withSweep .., rfl⟩

theorem sweepDeadline_holds (s : State) (t : Time) (h : Nat) (d : Dev) (hd : d = tick t s.dev) (hr : d.running = true) (calm : Calm d) :
    ∃ u, exec (.sweepDeadline t h) s = .next u ∧
      (∀ c ∈ u.dev.sw.collect, c.h = h → d.now.toNat < holdTime c.T) ∧
      (∀ c, d.head = true → d.sw.collect = [c] → c.h = h → holdTime c.T ≤ d.now.toNat →
        ∃ st res, (st = 0x00 ∨ st = 0x01) ∧ Finished s u h st res) ∧
      ChangesOnly [.sw, .ex, .queues, .cyc] [R.ringCnt] d u.dev := by
  have hframe := frame_sweepDeadline h d
  have hout : (sweepDeadline h d).ev.out = [] := by rw [show _ = _ from hframe.1 .ev (by decide), calm.1]
  have hnext : exec (.sweepDeadline t h) s = .next (settled s (sweepDeadline h d)) := by
    subst hd
    exact actAt_next t (sweepDeadline h) s (by simpa using hr)
  have hset := frame_settled (s := s) hout
  refine ⟨_, hnext, fun c hc hch => ?_, fun c hh hone hch hT => ?_, (hframe.trans hset.mono).mono⟩
  · have hsw : (settled s (sweepDeadline h d)).dev.sw = (sweepDeadline h d).sw := hset.1 .sw (by decide)
    rw [hsw, sweepDeadline_eq, mem_collect_sweepsDone] at hc
    obtain ⟨hmem, hnot⟩ := hc
    have hnow : (dropCut d).now = d.now := (frame_dropCut d).1 .now (by decide)
    rw [withSweep_sw, hnow] at hmem
    obtain ⟨e, -, rfl⟩ := List.mem_map.1 hmem
    by_contra hlate
    rw [(expired_h ..).1] at hch
    rw [(expired_h ..).2, not_lt] at hlate
    rw [expired_final hch hlate] at hnot
    cases hnot
  · subst hch
    obtain ⟨st, res, hst, hdone⟩ := done_sweepDeadline hh calm.2 hone hT
    exact ⟨st, res, hst, finished_settled (by rwa [hd, tick_head] at hh) hout hdone⟩

end Sys2Proof.Machine
end

section
/-! SUPPORT. A requested instant: what its lane results leave of the current channel, the charge, and the frames held (files 03, 05 and 09). -/

namespace Sys2Proof.Machine

/-! ### What lane results leave of the current channel (R131, R136) -/

/-- From device a to device b everything that a current sample depends on is as it was. -/
structure ChargeKept (a b : Dev) : Prop where
  regs : ∀ r, 0x1300 ≤ r → r ≠ R.ringCnt → reg b r = reg a r
  confs : b.me.was = a.me.was
  corrs : b.ca.was = a.ca.was
  io : b.io = a.io

theorem ChargeKept.refl (a : Dev) : ChargeKept a a := ⟨fun _ _ _ => rfl, rfl, rfl, rfl⟩

theorem ChargeKept.trans {a b c : Dev} (h : ChargeKept a b) (k : ChargeKept b c) : ChargeKept a c :=
  ⟨fun r hr hn => (k.regs r hr hn).trans (h.regs r hr hn), k.confs.trans h.confs, k.corrs.trans h.corrs, k.io.trans h.io⟩

theorem ChargeKept.curOnAt {a b : Dev} (h : ChargeKept a b) (T : Nat) : curOnAt b T = curOnAt a T := by
  simp only [Machine.curOnAt, confAt, h.confs, regBit, h.regs R.curCtrl (by decide) (by decide)]

theorem ChargeKept.curCorrect {a b : Dev} (h : ChargeKept a b) (chB : Bool) (T : Nat) (x : Int) : curCorrect b chB T x = curCorrect a chB T x := by
  have hcorr : ∀ r, 0x1300 ≤ r → r ≠ R.ringCnt → corrAt b T r = corrAt a T r := fun r hr hn => by simp only [corrAt, h.corrs, h.regs r hr hn]
  simp only [Machine.curCorrect, curLayer, hcorr R.calIsaOff (by decide) (by decide), hcorr R.calIsaGain (by decide) (by decide),
    hcorr R.calIsbOff (by decide) (by decide), hcorr R.calIsbGain (by decide) (by decide)]

theorem ChargeKept.qacc {a b : Dev} (h : ChargeKept a b) : qacc b = qacc a := by
  simp only [Machine.qacc, reg64, h.regs R.curQaccLo (by decide) (by decide), h.regs R.curQaccHi (by decide) (by decide)]

theorem userBad_was (code : Nat) (d : Dev) : (userBad code d).ca.was = d.ca.was := by
  unfold userBad
  split
  · split <;> rfl
  · rfl

theorem userFlagged_was (cell : Nat) (r : LaneResult) (d : Dev) : (userFlagged cell r d).ca.was = d.ca.was := by
  unfold userFlagged
  split
  · split
    · exact userBad_was ..
    · rfl
  · rfl

theorem resOff_below {g : LaneGroup} {cell : Nat} (h : cell ≤ 63) : resOff g cell < 0x1300 := by
  unfold resOff R.measResA R.measResB
  cases g <;> dsimp only <;> omega

/-- A lane result, before it is noted. -/
def laneNoted (lane : Nat) (r : LaneResult) (d : Dev) : Dev := { d with me := { d.me with
  good := if r.stale then d.me.good else kset 0 d.me.good lane r.value
  ovrOn := kset false d.me.ovrOn lane r.ovr
  flagAt := if r.ovr || r.ow then kset 0 d.me.flagAt lane (later d.now 1) else d.me.flagAt } }

theorem writeLane_was (g : LaneGroup) (cell : Nat) (r : LaneResult) (d : Dev) :
    (writeLane g cell r d).me.was = d.me.was ∧ (writeLane g cell r d).ca.was = d.ca.was := by
  have hout : ∃ e un, writeLane g cell r d = noteUncomp g cell un (userFlagged cell r e) ∧
      (e = laneNoted (laneIdx g cell) r (setReg (resOff g cell) r.word d) ∨
        e = occur 10 (laneIdx g cell) 0x0403 [] (laneNoted (laneIdx g cell) r (setReg (resOff g cell) r.word d))) := by
    refine ⟨_, _, rfl, ?_⟩
    split
    · exact .inr rfl
    · exact .inl rfl
  obtain ⟨e, un, hw, he⟩ := hout
  have hme : e.me.was = d.me.was ∧ e.ca.was = d.ca.was := by
    rcases he with rfl | rfl
    · exact ⟨rfl, rfl⟩
    · rw [show _ = _ from (frame_occur ..).1 .me (by decide), show _ = _ from (frame_occur ..).1 .ca (by decide)]
      exact ⟨rfl, rfl⟩
  have hun := frame_noteUncomp g cell un (userFlagged cell r e)
  rw [hw, show (noteUncomp ..).me = _ from hun.1 .me (by decide), show (noteUncomp ..).ca = _ from hun.1 .ca (by decide), userFlagged_was]
  refine ⟨?_, hme.2⟩
  rw [show (userFlagged ..).me = _ from (frame_userFlagged ..).1 .me (by decide), hme.1]

theorem chargeKept_writeLane {g : LaneGroup} {cell : Nat} (r : LaneResult) (d : Dev) (h : cell ≤ 63) : ChargeKept d (writeLane g cell r d) := by
  have hframe := frame_writeLane g cell r d
  obtain ⟨hme, hca⟩ := writeLane_was g cell r d
  refine ⟨fun off ho hn => hframe.2 off ?_, hme, hca, hframe.1 .io (by decide)⟩
  have := resOff_below (g := g) h
  simp only [laneRegs, List.mem_cons, List.not_mem_nil, or_false, not_or]
  unfold R.measUncomp
  exact ⟨by omega, hn, by omega⟩

/-! ### The lanes of a requested instant (R73, R75) -/

theorem ncells_le (d : Dev) : ncells d ≤ 63 := by
  have h : ncells d < 2 ^ (5 + 1 - 0) := Nat.mod_lt _ (by decide)
  omega

/-- The results of one group at a requested instant. -/
def lanesWritten (mode : Nat) (d0 : Dev) (g : LaneGroup) (T : Time) (l : List LaneSample) (d : Dev) : Dev :=
  each (fun x d => writeLane g x.cell (laneEvalIn mode d0 g T x) d) l d

theorem chargeKept_lanesWritten {mode : Nat} {d0 : Dev} {g : LaneGroup} {T : Time} {l : List LaneSample} (h : ∀ x ∈ l, x.cell ≤ 63) (d : Dev) :
    ChargeKept d (lanesWritten mode d0 g T l d) := by
  unfold lanesWritten
  induction l generalizing d with
  | nil => exact .refl d
  | cons x r ih => exact (chargeKept_writeLane _ d (h x (by simp))).trans (ih (fun y hy => h y (by simp [hy])) _)

theorem frame_lanesWritten (mode : Nat) (d0 : Dev) (g : LaneGroup) (T : Time) (l : List LaneSample) (d : Dev) :
    ChangesOnly (.me :: .ca :: evParts) ([R.ringCnt, R.measUncomp] ++ l.map (fun x => resOff g x.cell)) d (lanesWritten mode d0 g T l d) :=
  .each_mem (fun x hx _ => (frame_writeLane ..).mono (List.Subset.refl _) (by
    simp only [laneRegs, List.cons_subset, List.nil_subset, and_true, List.mem_append, List.mem_map]
    exact ⟨.inr ⟨x, hx, rfl⟩, .inl (by simp), .inl (by simp)⟩)) d

theorem reg_lanesWritten {mode : Nat} {d0 : Dev} {g : LaneGroup} {T : Time} {l : List LaneSample} {x : LaneSample} (hx : x ∈ l)
    (hn : (l.map LaneSample.cell).Nodup) (h1 : ∀ y ∈ l, 1 ≤ y.cell) (h : x.cell ≤ 32) (d : Dev) :
    reg (lanesWritten mode d0 g T l d) (resOff g x.cell) = (laneEvalIn mode d0 g T x).word :=
  each_at (view := fun e => reg e (resOff g x.cell)) hx hn
    (fun y hy hne e => (frame_writeLane ..).2 _ (by
      rw [laneRegs, List.mem_cons, not_or]
      exact ⟨resOff_ne (h1 x hx) (h1 y hy) (Ne.symm hne), resOff_not_mem h⟩))
    (fun e _ => reg_writeLane_self _ e h)

/-! ### The current samples of an instant (R136) -/

theorem frame_io (m : Inputs) (d : Dev) : ChangesOnly [.io] [] d { d with io := m } := by
  refine ⟨fun q hq => ?_, fun _ _ => rfl⟩
  cases q <;> simp_all [Part.same]

theorem frame_withCur (f : Cur → Cur) (d : Dev) : ChangesOnly [.io] [] d (withCur f d) := frame_io ..

theorem frame_curFlagged (b : Bool) (d : Dev) : ChangesOnly [.ca] [] d (curFlagged b d) := by
  unfold curFlagged
  split
  · exact .ite (frame_userBad ..) (.refl ..)
  · exact .refl ..

theorem frame_countOvrMs (l : List Nat) (d : Dev) : ChangesOnly [.io, .free] [R.curOvrMs] d (countOvrMs l d) := by
  unfold countOvrMs
  refine .each _ (fun m e => ?_) l d
  split
  · exact .refl ..
  · have hfit := frame_fitU 32 ((reg e R.curOvrMs).toNat + 1) e
    generalize fitU 32 ((reg e R.curOvrMs).toNat + 1) e = x at *
    obtain ⟨v, f⟩ := x
    exact (hfit.mono.trans (frame_withCur ..).mono).trans (frame_setReg ..).mono

theorem frame_sumSamples (l : List Int) (d : Dev) : ChangesOnly [.hist] [] d (sumSamples l d) := by
  refine ⟨fun q hq => ?_, fun _ _ => rfl⟩
  cases q <;> simp_all [Part.same, sumSamples, Mem.still]

theorem frame_userSamples (l : List (Nat × CurRaw)) (d : Dev) : ChangesOnly [.ca] [] d (userSamples l d) := by
  unfold userSamples
  split
  · exact .refl ..
  · exact .ite (.refl ..) (frame_ca ..)

/-- The charge with a list of corrected samples, and whether it has saturated (R136). -/
def charged (d : Dev) (l : List Int) : Int × Bool := l.foldl addCharge (qacc d * qUnit + d.io.cu.qfrac, false)

theorem unsigned_lt (n : Nat) (z : Int) : unsigned n z < 2 ^ n := by
  have hpos : (0 : Int) < Int.ofNat (2 ^ n) := by simp
  have h0 := Int.emod_nonneg z (ne_of_gt hpos)
  have h1 := Int.emod_lt_of_pos z hpos
  simp only [unsigned, Int.ofNat_eq_natCast] at *
  omega

theorem reg64_setReg64 {lo hi v : Nat} (d : Dev) (h : lo ≠ hi) (hv : v < 2 ^ 64) : reg64 (setReg64 lo hi v d) lo hi = v := by
  have hlow : reg (setReg64 lo hi v d) lo = BitVec.ofNat 32 v := by rw [setReg64, reg_setReg_ne _ _ h, reg_setReg_self]
  have hhigh : reg (setReg64 lo hi v d) hi = BitVec.ofNat 32 (v / 2 ^ 32) := by rw [setReg64, reg_setReg_self]
  rw [reg64, hlow, hhigh, BitVec.toNat_ofNat, BitVec.toNat_ofNat]
  omega

/-- A 64-bit register stays where both its words do. -/
theorem ChangesOnly.reg64 {ps : List Part} {rs : List Nat} {a b : Dev} (h : ChangesOnly ps rs a b) {lo hi : Nat} (hlo : lo ∉ rs := by decide)
    (hhi : hi ∉ rs := by decide) : reg64 b lo hi = reg64 a lo hi := by rw [Machine.reg64, h.2 _ hlo, h.2 _ hhi, Machine.reg64]

theorem reg64_accumulate (l : List Int) (d : Dev) :
    reg64 (accumulate l d) R.curQaccLo R.curQaccHi = unsigned 64 ((charged d l).1 / qUnit) := by
  have hsat : ∀ (b : Bool) (e : Dev), ChangesOnly [] [R.curStat] e (if b then setRegBit R.curStat 7 true e else e) := fun b e =>
    .ite (frame_setRegBit ..) (.refl ..)
  exact ((hsat ..).reg64).trans (reg64_setReg64 _ (by decide) (unsigned_lt ..))

theorem frame_accumulate (l : List Int) (d : Dev) : ChangesOnly [.io] [R.curQaccLo, R.curQaccHi, R.curStat] d (accumulate l d) := by
  have hset : ∀ f v, ChangesOnly [.io] [R.curQaccLo, R.curQaccHi, R.curStat] d (setReg64 R.curQaccLo R.curQaccHi v (withCur f d)) := fun f v =>
    ((frame_withCur f d).mono.trans (frame_setReg ..).mono).trans (frame_setReg ..).mono
  exact .ite ((hset ..).trans (frame_setRegBit ..).mono) (hset ..)

/-- The samples that an instant brings the accumulator. -/
def instantSamples (d : Dev) (T : Nat) (raw : List CurRaw) : List (Nat × CurRaw) :=
  (streamTimes T raw).filter (fun e => decide (d.io.cu.rawTo.toNat ≤ e.1) && curOnAt d e.1)

/-- Registers that current samples may change. -/
def sampleRegs : List Nat := [R.curQaccLo, R.curQaccHi, R.curStat, R.curOvrMs]

/-- The samples reach the accumulator, once they are noted and a running job has been judged. -/
theorem curSamples_cases (T : Nat) (raw : List CurRaw) (d : Dev) : ∃ e, ChangesOnly [.io, .ca] [] d e ∧ e.io.cu.qfrac = d.io.cu.qfrac ∧
    ChangesOnly [.io, .ca, .free, .hist] [R.curOvrMs]
      (accumulate ((instantSamples d T raw).map (fun x => curCorrect d false x.1 x.2.a)) e) (curSamples T raw d) := by
  have hlast : ∀ ms s l e, ChangesOnly [.io, .ca, .free, .hist] [R.curOvrMs] e (userSamples l (sumSamples s (countOvrMs ms e))) := fun ms s l e =>
    (((frame_countOvrMs ms e).mono).trans (frame_sumSamples s _).mono).trans (frame_userSamples l _).mono
  let noted := withCur (fun c => { c with rawTo := if c.rawTo.toNat < T then BitVec.ofNat 64 T else c.rawTo }) d
  have hnoted : ChangesOnly [.io] [] d noted := frame_withCur ..
  have hframe : ∀ b, ChangesOnly [.io, .ca] [] d (curFlagged b noted) := fun b => hnoted.mono.trans (frame_curFlagged ..).mono
  have hio : ∀ b, (curFlagged b noted).io.cu.qfrac = d.io.cu.qfrac := fun b => by
    have h : (curFlagged b noted).io = noted.io := (frame_curFlagged b noted).1 .io (by decide)
    rw [h]
    rfl
  exact ⟨_, hframe _, hio _, hlast ..⟩

/-! ### The device as sampled (R73, R138) -/

theorem frame_writeCur (chB : Bool) (r : CurResult) (d : Dev) :
    ChangesOnly (.io :: .ca :: evParts) [R.curResA, R.curResB, R.curStat, R.ringCnt] d (writeCur chB r d) := by
  have hset : ∀ w f i b fl, ChangesOnly (.io :: .ca :: evParts) [R.curResA, R.curResB, R.curStat, R.ringCnt] d
      (curFlagged fl (setRegBit R.curStat i b (withCur f (setReg (if chB then R.curResB else R.curResA) w d)))) := fun w f i b fl => by
    have hres := frame_setReg (if chB then R.curResB else R.curResA) w d
    refine (((hres.mono (by decide) (by cases chB <;> decide)).trans (frame_withCur ..).mono).trans (frame_setRegBit ..).mono).trans
      (frame_curFlagged ..).mono
  exact .ite ((hset ..).trans (frame_occur ..).mono) (hset ..)

/-- The device after both groups' lane results of a requested instant. -/
def bothLanes (T : Time) (mode : Nat) (a b : List LaneSample) (d : Dev) : Dev :=
  let e := lanesWritten mode (asOf T d) .a T (inUse (asOf T d) (inUse d a)) d
  lanesWritten mode (asOf T d) .b T (inUse (asOf T d) (inUse e b)) e

/-- The charge snapshot (R138). -/
def snapped (d : Dev) : Dev := setReg R.curQsnapHi (reg d R.curQaccHi) (setReg R.curQsnapLo (reg d R.curQaccLo) d)

theorem sampleNow_cases (T : Time) (mode : Nat) (a b : List LaneSample) (cur : List CurSample) (raw : List CurRaw) (d : Dev) :
    ∃ e, ChangesOnly (.io :: .ca :: evParts) [R.curResA, R.curResB, R.curStat, R.ringCnt] (curSamples T.toNat raw (bothLanes T mode a b d)) e ∧
      sampleNow T mode a b cur raw d = snapped e := by
  refine ⟨_, ?_, rfl⟩
  split
  · exact .ite ((frame_writeCur ..).trans (frame_writeCur ..)) (.refl ..)
  · exact .refl ..

theorem mem_le_63 {o d : Dev} {l : List LaneSample} : ∀ x ∈ inUse o (inUse d l), x.cell ≤ 63 := fun _ hx =>
  (mem_inUse.1 hx).2.2.trans (ncells_le o)

theorem chargeKept_bothLanes (T : Time) (mode : Nat) (a b : List LaneSample) (d : Dev) : ChargeKept d (bothLanes T mode a b d) :=
  (chargeKept_lanesWritten mem_le_63 d).trans (chargeKept_lanesWritten mem_le_63 _)

theorem bothLanes_sw (T : Time) (mode : Nat) (a b : List LaneSample) (d : Dev) : (bothLanes T mode a b d).sw = d.sw := by
  have ha := frame_lanesWritten mode (asOf T d) .a T (inUse (asOf T d) (inUse d a)) d
  exact ((frame_lanesWritten ..).1 .sw (by decide)).trans (ha.1 .sw (by decide))

/-- Results of group A are still there after those of group B. -/
theorem reg_bothLanes {T : Time} {mode : Nat} {a b : List LaneSample} {d : Dev} {x : LaneSample} (hn : (a.map LaneSample.cell).Nodup)
    (hx : x ∈ a) (h1 : 1 ≤ x.cell) (hk : x.cell ≤ ncells d) (hko : x.cell ≤ ncells (asOf T d)) (hmax : x.cell ≤ 32) :
    reg (bothLanes T mode a b d) (resOff .a x.cell) = (laneEvalIn mode (asOf T d) .a T x).word := by
  have hsub := (inUse_sublist (asOf T d) (inUse d a)).trans (inUse_sublist d a)
  have ha := reg_lanesWritten (mode := mode) (d0 := asOf T d) (g := .a) (T := T) (mem_inUse.2 ⟨mem_inUse.2 ⟨hx, h1, hk⟩, h1, hko⟩)
    (hn.sublist (hsub.map _)) (fun y hy => (mem_inUse.1 hy).2.1) hmax d
  refine ((frame_lanesWritten ..).2 _ ?_).trans ha
  rw [List.mem_append, not_or]
  refine ⟨resOff_not_mem hmax, fun hm => ?_⟩
  obtain ⟨y, -, hy⟩ := List.mem_map.1 hm
  unfold resOff R.measResA R.measResB at hy
  dsimp only at hy
  omega

theorem frame_curSamples (T : Nat) (raw : List CurRaw) (d : Dev) : ChangesOnly [.io, .ca, .free, .hist] sampleRegs d (curSamples T raw d) := by
  obtain ⟨e, he, -, h⟩ := curSamples_cases T raw d
  exact (he.mono.trans (frame_accumulate ..).mono).trans h.mono

theorem reg64_curSamples (T : Nat) (raw : List CurRaw) (d : Dev) : reg64 (curSamples T raw d) R.curQaccLo R.curQaccHi =
    unsigned 64 ((charged d ((instantSamples d T raw).map (fun x => curCorrect d false x.1 x.2.a))).1 / qUnit) := by
  obtain ⟨e, he, hq, h⟩ := curSamples_cases T raw d
  rw [h.reg64, reg64_accumulate, charged, charged, hq, qacc, he.reg64, ← qacc]

/-- Nothing that a sample is reckoned from has changed. -/
theorem charged_kept {a b : Dev} (h : ChargeKept a b) (T : Nat) (raw : List CurRaw) :
    charged b ((instantSamples b T raw).map (fun x => curCorrect b false x.1 x.2.a)) =
      charged a ((instantSamples a T raw).map (fun x => curCorrect a false x.1 x.2.a)) := by
  simp only [charged, instantSamples, h.qacc, h.io, h.curOnAt, h.curCorrect]

/-- What a requested instant leaves of its own registers. -/
structure Sampled (t : Time) (mode : Nat) (a : List LaneSample) (raw : List CurRaw) (d e : Dev) : Prop where
  snapLo : reg e R.curQsnapLo = reg e R.curQaccLo
  snapHi : reg e R.curQsnapHi = reg e R.curQaccHi
  charge : reg64 e R.curQaccLo R.curQaccHi =
    unsigned 64 ((charged d ((instantSamples d t.toNat raw).map (fun x => curCorrect d false x.1 x.2.a))).1 / qUnit)
  lanes : (a.map LaneSample.cell).Nodup → ∀ x ∈ a, 1 ≤ x.cell → x.cell ≤ ncells d → x.cell ≤ ncells (asOf t d) → x.cell ≤ 32 →
    reg e (resOff .a x.cell) = (laneEvalIn mode (asOf t d) .a t x).word

theorem frame_snapped (d : Dev) : ChangesOnly [] [R.curQsnapLo, R.curQsnapHi] d (snapped d) :=
  (frame_setReg ..).mono.trans (frame_setReg ..).mono

theorem sampled_sampleNow (T : Time) (mode : Nat) (a b : List LaneSample) (cur : List CurSample) (raw : List CurRaw) (d : Dev) :
    Sampled T mode a raw d (sampleNow T mode a b cur raw d) := by
  obtain ⟨e, he, h⟩ := sampleNow_cases T mode a b cur raw d
  have hsnap := frame_snapped e
  rw [h]
  refine ⟨?_, ?_, ?_, fun hn x hx h1 hk hko hmax => ?_⟩
  · rw [hsnap.2 R.curQaccLo (by decide), snapped, reg_setReg_ne _ _ (by decide), reg_setReg_self]
  · rw [hsnap.2 R.curQaccHi (by decide), snapped, reg_setReg_self]
  · rw [hsnap.reg64, he.reg64, reg64_curSamples, charged_kept (chargeKept_bothLanes ..)]
  · rw [hsnap.2 _ (resOff_not_mem hmax), he.2 _ (resOff_not_mem hmax), (frame_curSamples ..).2 _ (resOff_not_mem hmax),
      reg_bothLanes hn hx h1 hk hko hmax]

theorem sampleNow_sw (T : Time) (mode : Nat) (a b : List LaneSample) (cur : List CurSample) (raw : List CurRaw) (d : Dev) :
    (sampleNow T mode a b cur raw d).sw = d.sw := by
  obtain ⟨e, he, h⟩ := sampleNow_cases T mode a b cur raw d
  have hcur := frame_curSamples T.toNat raw (bothLanes T mode a b d)
  rw [h, show (snapped e).sw = e.sw from (frame_snapped e).1 .sw (by decide), show e.sw = _ from he.1 .sw (by decide),
    show (curSamples ..).sw = _ from hcur.1 .sw (by decide), bothLanes_sw]

/-- What is sampled stays where only other registers change. -/
theorem Sampled.kept {t : Time} {mode : Nat} {a : List LaneSample} {raw : List CurRaw} {d e f : Dev} {ps : List Part} {rs : List Nat}
    (h : Sampled t mode a raw d e) (k : ChangesOnly ps rs e f)
    (hr : ∀ r ∈ rs, r = R.ringCnt ∨ r = R.hostEvtLost := by decide) : Sampled t mode a raw d f := by
  have hreg : ∀ r, r ≠ R.ringCnt → r ≠ R.hostEvtLost → reg f r = reg e r := fun r h1 h2 => k.2 r fun hm => (hr r hm).elim h1 h2
  refine ⟨?_, ?_, ?_, fun hn x hx h1 hk hko hmax => ?_⟩
  · rw [hreg _ (by decide) (by decide), hreg _ (by decide) (by decide), h.snapLo]
  · rw [hreg _ (by decide) (by decide), hreg _ (by decide) (by decide), h.snapHi]
  · rw [← h.charge, reg64, reg64, hreg R.curQaccLo (by decide) (by decide), hreg R.curQaccHi (by decide) (by decide)]
  · have hnot := resOff_not_mem (g := .a) (l := [R.ringCnt, R.hostEvtLost]) hmax
    simp only [List.mem_cons, List.not_mem_nil, or_false, not_or] at hnot
    rw [hreg _ hnot.1 hnot.2, h.lanes hn x hx h1 hk hko hmax]

/-! ### Frames held (R265) -/

theorem laneBytes_length (d : Dev) (g : LaneGroup) : (laneBytes d g).length = 128 := by
  rw [laneBytes, wordsBytes_length, List.length_map]
  rfl

theorem sweepFrame0_length (d : Dev) : (sweepFrame0 d).length = 256 := by
  rw [sweepFrame0, List.length_append, laneBytes_length, laneBytes_length]

theorem sweepAux_length (d : Dev) (k : Nat) : (sweepAux d k).length = 2 := by
  unfold sweepAux
  dsimp only
  split <;> simp [leBytes_length]

theorem sweepFrame1_length (d : Dev) (h : Nat) (late : Bool) (ofs : Int) : (sweepFrame1 d h late ofs).length = 64 := by
  have haux : ((upFrom 0 8).flatMap (sweepAux d)).length = 16 := by
    simp [upFrom, sweepAux_length]
  simp only [sweepFrame1, List.length_append, haux, leBytes_length, wordBytes, List.length_cons, List.length_nil, zeros, List.length_replicate]

/-- LATE is bit 0 of the flags of frame 1 (Table RING-7). -/
theorem sweepFrame1_late (d : Dev) (h : Nat) (ofs : Int) : ((sweepFrame1 d h true ofs).getD 3 0).toNat % 2 = 1 := by
  have hflags : ∀ b : Bool, (BitVec.ofNat 8 (b2n true + 2 * b2n b)).toNat % 2 = 1 := by decide
  simpa [sweepFrame1, leBytes] using hflags (decide (timeState d ≠ 2))

/-- The last of a list is among its last two. -/
theorem mem_lastN_append {α : Type} {n : Nat} (hn : 0 < n) (l : List α) (x : α) : x ∈ lastN n (l ++ [x]) := by
  rw [lastN, List.drop_append_of_le_length (by rw [List.length_append, List.length_singleton]; omega)]
  exact List.mem_append_right _ (List.mem_singleton.2 rfl)

/-- The device that holds the frames of a sweep sampled at t. -/
def framesHeld (h : Nat) (T t : Time) (soon : Bool) (d : Dev) : Dev := withSweep (fun s => { s with
  held := lastN 2 (s.held.filter (fun x => x.h ≠ h) ++
    [⟨h, T, sweepFrame0 d, sweepFrame1 d h (soon || decide (t ≠ T)) ((t.toNat : Int) - T.toNat)⟩])
  lastH := h, lastLate := soon || decide (t ≠ T), lastOfs := (t.toNat : Int) - T.toNat,
  syncAt := if syncMode d = 1 then some t else s.syncAt }) d

/-- From device a to device b no frame held and no sample wanted has changed, while sweeps are completed and frames sent. -/
structure FramesKept (a b : Dev) : Prop where
  frame : ChangesOnly sweepParts [R.ringCnt] a b
  held : b.sw.held = a.sw.held
  wanted : b.sw.wanted = a.sw.wanted

theorem FramesKept.ite {p : Prop} [Decidable p] {a b c : Dev} (h : FramesKept a b) (k : FramesKept a c) : FramesKept a (if p then b else c) := by
  split <;> assumption

/-- Held frames go to the head, or complete what it collects. -/
theorem framesKept_sweepTaken (h : Nat) (T t : Time) (soon : Bool) (d : Dev) : FramesKept (framesHeld h T t soon d) (sweepTaken h T t soon d) := by
  have hslot : ∀ f e, FramesKept e (sweepsDone (setSlot h 0 f e)) := fun f e => by
    refine ⟨(frame_withSweep ..).mono.trans (frame_sweepsDone _), ?_, ?_⟩ <;> rw [sweepsDone_sw] <;> rfl
  have hsend : ∀ f0 f1 e, FramesKept e (sendSweep h f0 f1 false e) := fun f0 f1 e => by
    have hs := frame_sendSweep h f0 f1 false e
    have hsw : (sendSweep h f0 f1 false e).sw = e.sw := hs.1 .sw (by decide)
    exact ⟨hs.mono, by rw [hsw], by rw [hsw]⟩
  exact .ite (hslot ..) (hsend ..)

/-! ### A requested instant (R73, R138, R265) -/

/-- A request that was served: a sweep's frames are held. -/
def wantedTaken (t : Time) (w : Wanted) (d : Dev) : Dev :=
  match w.h with
  | some h => sweepTaken h w.T t w.soon d
  | none => d

theorem frame_wantedTaken (t : Time) (w : Wanted) (d : Dev) :
    ChangesOnly sweepParts [R.ringCnt] d (wantedTaken t w d) ∧ (wantedTaken t w d).sw.wanted = d.sw.wanted := by
  unfold wantedTaken
  split
  · next h _ =>
    have hk := framesKept_sweepTaken h w.T t w.soon d
    exact ⟨(frame_withSweep ..).mono.trans hk.frame, hk.wanted⟩
  · exact ⟨.refl .., rfl⟩

theorem wanted_each_taken (t : Time) (ws : List Wanted) (d : Dev) : (each (wantedTaken t) ws d).sw.wanted = d.sw.wanted :=
  each_kept (view := fun e : Dev => e.sw.wanted) (fun w _ e => (frame_wantedTaken t w e).2) d

/-- The requests for `req` that are served at t. -/
def servedFor (t req : Time) (d : Dev) : List Wanted := d.sw.wanted.filter (fun w => decide (w.T = req) && servedAt t w)

/-- The device as sampled for `req`, those requests gone. -/
def instantServed (t req : Time) (mode : Nat) (a b : List LaneSample) (cur : List CurSample) (raw : List CurRaw) (d : Dev) : Dev :=
  withSweep (fun s => { s with wanted := s.wanted.filter (fun w => !(decide (w.T = req) && servedAt t w)) }) (sampleNow t mode a b cur raw d)

theorem requestedInstant_eq {t req : Time} {a b : List LaneSample} {cur : List CurSample} {raw : List CurRaw} {d : Dev} {w0 : Wanted} {r : List Wanted}
    (hw : servedFor t req d = w0 :: r) (hf : since t d.now ≤ usT 20) :
    requestedInstant t req a b cur raw d = each (wantedTaken t) (w0 :: r) (instantServed t req w0.mode a b cur raw d) := by
  rw [servedFor] at hw
  unfold requestedInstant
  rw [hw]
  exact if_pos (decide_eq_true hf)

theorem requestedInstant_idle {t req : Time} {a b : List LaneSample} {cur : List CurSample} {raw : List CurRaw} {d : Dev}
    (h : servedFor t req d = [] ∨ usT 20 < since t d.now) : requestedInstant t req a b cur raw d = d := by
  unfold requestedInstant
  split
  · rfl
  · next w0 r hw =>
    refine if_neg fun hf => ?_
    have hf : since t d.now ≤ usT 20 := of_decide_eq_true hf
    rcases h with h | h
    · rw [servedFor, hw] at h
      cases h
    · omega

/-- Frames of a served sweep are held, LATE where it was asked for at once (R265). -/
theorem held_wantedTaken {t : Time} {w : Wanted} {h : Nat} (hh : w.h = some h) (d : Dev) : ∃ x ∈ (wantedTaken t w d).sw.held,
    x.h = h ∧ x.T = w.T ∧ x.f0.length = 256 ∧ x.f1.length = 64 ∧ (w.soon = true → (x.f1.getD 3 0).toNat % 2 = 1) := by
  have hk := framesKept_sweepTaken h w.T t w.soon d
  simp only [wantedTaken, hh, hk.held, framesHeld, withSweep_sw]
  refine ⟨_, mem_lastN_append (by decide) .., rfl, rfl, sweepFrame0_length _, sweepFrame1_length .., fun hs => ?_⟩
  simp only [hs, Bool.true_or]
  exact sweepFrame1_late ..

/-- A requested instant that is served takes the charge snapshot and writes its results, and the requests are gone. -/
theorem sampled_requestedInstant {t req : Time} {a b : List LaneSample} {cur : List CurSample} {raw : List CurRaw} {d : Dev} {w0 : Wanted} {r : List Wanted}
    (hw : servedFor t req d = w0 :: r) (hf : since t d.now ≤ usT 20) : Sampled t w0.mode a raw d (requestedInstant t req a b cur raw d) ∧
    (requestedInstant t req a b cur raw d).sw.wanted = d.sw.wanted.filter (fun w => !(decide (w.T = req) && servedAt t w)) := by
  have hserved : Sampled t w0.mode a raw d (instantServed t req w0.mode a b cur raw d) :=
    (sampled_sampleNow ..).kept (frame_withSweep ..) (by simp)
  have htaken : ChangesOnly sweepParts [R.ringCnt] (instantServed t req w0.mode a b cur raw d)
      (each (wantedTaken t) (w0 :: r) (instantServed t req w0.mode a b cur raw d)) := .each _ (fun w e => (frame_wantedTaken t w e).1) _ _
  rw [requestedInstant_eq hw hf]
  refine ⟨hserved.kept htaken, ?_⟩
  rw [wanted_each_taken, instantServed, withSweep_sw, sampleNow_sw]

theorem requestedInstant_holds (s : State) (t req : Time) (a b : List LaneSample) (cur : List CurSample) (raw : List CurRaw) (ws : List Wanted)
    (d o : Dev) (hd : d = tick t s.dev) (ho : o = asOf t d) (ha : d.awake = true) (calm : Calm d)
    (hws : ws = d.sw.wanted.filter (fun w => decide (w.T = req) && servedAt t w)) :
    (ws = [] ∨ usT 20 < since t d.now → exec (.requestedInstant t req a b ⟨cur, raw⟩) s = .next { s with dev := d }) ∧
    (ws ≠ [] → since t d.now ≤ usT 20 → ∃ u, exec (.requestedInstant t req a b ⟨cur, raw⟩) s = .next u ∧
      u.dev.sw.wanted = d.sw.wanted.filter (fun w => !(decide (w.T = req) && servedAt t w)) ∧
      reg u.dev R.curQsnapLo = reg u.dev R.curQaccLo ∧ reg u.dev R.curQsnapHi = reg u.dev R.curQaccHi ∧
      (let l := (streamTimes t.toNat raw).filter (fun e => decide (d.io.cu.rawTo.toNat ≤ e.1) && curOnAt d e.1)
       let q := (l.map (fun e => curCorrect d false e.1 e.2.a)).foldl addCharge (qacc d * qUnit + d.io.cu.qfrac, false)
       reg64 u.dev R.curQaccLo R.curQaccHi = unsigned 64 (q.1 / qUnit)) ∧
      (∀ w, ws = [w] → (a.map LaneSample.cell).Nodup → ∀ x ∈ a, 1 ≤ x.cell → x.cell ≤ ncells d → x.cell ≤ ncells o → x.cell ≤ 32 →
        reg u.dev (resOff .a x.cell) = (laneEvalIn w.mode o .a t x).word) ∧
      ∀ w h, ws = [w] → w.h = some h → ∃ x ∈ u.dev.sw.held, x.h = h ∧ x.T = req ∧ x.f0.length = 256 ∧ x.f1.length = 64 ∧
        (w.soon = true → (x.f1.getD 3 0).toNat % 2 = 1)) := by
  subst ho
  change ws = servedFor t req d at hws
  refine ⟨fun h => actAwake_idle (requestedInstant t req a b cur raw) hd ha calm (requestedInstant_idle (by rwa [← hws])), fun hne hf => ?_⟩
  have hnext : exec (.requestedInstant t req a b ⟨cur, raw⟩) s = .next (settled s (requestedInstant t req a b cur raw d)) := by
    subst hd
    exact actAwake_next t (requestedInstant t req a b cur raw) s (by simpa using ha)
  have hset := frame_settle (requestedInstant t req a b cur raw d, s.hst)
  have hsw : (settled s (requestedInstant t req a b cur raw d)).dev.sw = (requestedInstant t req a b cur raw d).sw := hset.1 .sw (by decide)
  obtain ⟨w0, r, hcons⟩ := List.exists_cons_of_ne_nil hne
  obtain ⟨hsampled, hwanted⟩ := sampled_requestedInstant (a := a) (b := b) (cur := cur) (raw := raw) (hws.symm.trans hcons) hf
  obtain ⟨hlo, hhi, hcharge, hlanes⟩ := hsampled.kept hset
  refine ⟨_, hnext, by rw [hsw, hwanted], hlo, hhi, hcharge, fun w hw => ?_, fun w h hw hh => ?_⟩
  · have hmode : w0 = w := by rw [hw] at hcons; exact (List.cons.inj hcons).1.symm
    rwa [hmode] at hlanes
  · have hT : w.T = req := by
      have hmem : w ∈ servedFor t req d := by rw [← hws, hw]; exact List.mem_singleton.2 rfl
      simp only [servedFor, List.mem_filter, Bool.and_eq_true, decide_eq_true_eq] at hmem
      exact hmem.2.1
    rw [hsw, requestedInstant_eq (hws.symm.trans hw) hf, ← hT]
    exact held_wantedTaken hh _

/-- Settles O46: a SWEEP, a trigger, an instant, an edge of SYNC, the hold and the deadline each do what their rule says. -/
theorem sweepsSample : Obligations.SweepsSample := by
  unfold Obligations.SweepsSample
  exact ⟨sweep_holds, sweepTriggerRx_holds, requestedInstant_holds, syncInputEdge_holds,
    fun s t h d hd hr calm => ⟨sweepHoldExpire_holds s t h d hd hr calm, sweepDeadline_holds s t h d hd hr calm⟩⟩

end Sys2Proof.Machine
end

section
/-! SUPPORT. The number of cells, and the commits that wait: what each operation of the model leaves of them (files 03 and 12, R65, R338). -/

namespace Sys2Proof.Machine

/-- The word of MEAS_CELLS, and the commits that wait. -/
def cellViewOf (r : List (Nat × Word)) (l : List PendCommit) : Word × List PendCommit := (mget regReset r R.measCells, l)

/-- The committed MEAS_CELLS of a device, and its commits that wait. -/
def cellView (d : Dev) : Word × List PendCommit := cellViewOf d.regs d.pr.commits

theorem cellView_fold (d : Dev) : cellViewOf d.regs d.pr.commits = cellView d := Prod.ext rfl rfl

theorem cellView_mk (now free regs shad cyc pw pr sf mm ev ln ls tn rg tb sw ex me ca ba io ck en bi) :
    cellView ⟨now, free, regs, shad, cyc, pw, pr, sf, mm, ev, ln, ls, tn, rg, tb, sw, ex, me, ca, ba, io, ck, en,
      bi⟩ = cellViewOf regs pr.commits := Prod.ext rfl rfl

theorem cellView_ite (p : Prop) [Decidable p] (a b : Dev) : cellView (if p then a else b) = if p then cellView a else cellView b := apply_ite ..

theorem cellView_ite_fst {α : Type} (p : Prop) [Decidable p] (a b : Dev × α) :
    cellView (if p then a else b).1 = if p then cellView a.1 else cellView b.1 := by split <;> rfl

theorem cellView_ite_snd {α : Type} (p : Prop) [Decidable p] (a b : α × Dev) :
    cellView (if p then a else b).2 = if p then cellView a.2 else cellView b.2 := by split <;> rfl

theorem cellView_each {α : Type} {f : α → Dev → Dev} (h : ∀ x d, cellView (f x d) = cellView d) (l : List α) (d : Dev) :
    cellView (each f l d) = cellView d :=
  each_fst (P := fun e => cellView e = cellView d) f (fun x e he => (h x e).trans he) l d rfl

theorem cellView_each_both {α : Type} {f : α → Both → Both} (h : ∀ x b, cellView (f x b).1 = cellView b.1) (l : List α) (b : Both) :
    cellView (each f l b).1 = cellView b.1 :=
  each_fst (P := fun e : Both => cellView e.1 = cellView b.1) f (fun x e he => (h x e).trans he) l b rfl

theorem ChangesOnly.cellView {ps : List Part} {rs : List Nat} {a b : Dev} (h : ChangesOnly ps rs a b) (hp : .pr ∉ ps := by decide)
    (hr : R.measCells ∉ rs := by decide) : cellView b = cellView a := by
  have hpr : b.pr = a.pr := h.1 .pr hp
  have hreg : reg b R.measCells = reg a R.measCells := h.2 _ hr
  exact Prod.ext hreg (congrArg Prot.commits hpr)

/-- Registers that lie after MEAS_CELLS. -/
theorem add_ne_measCells {b : Nat} (h : R.measCells < b) (k : Nat) : b + k ≠ R.measCells := by omega

end Sys2Proof.Machine
end

section
/-! SUPPORT. Operations that every family shares (files 12 and 13): MEAS_CELLS and the waiting commits stay (R65, R338). -/

namespace Sys2Proof.Machine

/-! ### Registers, events, time and the end of a command -/

theorem cellView_freeBit (d : Dev) : cellView (freeBit d).2 = cellView d := by
  unfold freeBit
  simp only [↓cellView_mk, cellView_fold]

theorem cellView_freeWord (d : Dev) : cellView (freeWord d).2 = cellView d := by
  unfold freeWord
  simp only [↓cellView_mk, cellView_fold]

theorem cellView_fitS (n : Nat) (z : Int) (d : Dev) : cellView (fitS n z d).2 = cellView d := by
  unfold fitS
  simp only [↓cellView_freeWord, ↓cellView_ite_snd, ite_self]

theorem cellView_fitU (n : Nat) (z : Int) (d : Dev) : cellView (fitU n z d).2 = cellView d := by
  unfold fitU
  simp only [↓cellView_freeWord, ↓cellView_ite_snd, ite_self]

theorem cellView_lifeAdd (n : Nat) (d : Dev) : cellView (lifeAdd n d) = cellView d := by
  unfold lifeAdd
  simp only [↓cellView_mk, cellView_fold]

theorem cellView_advance (t : Time) (d : Dev) : cellView (advance t d) = cellView d := by
  unfold advance
  simp only [↓cellView_lifeAdd, ↓cellView_mk, cellView_fold, ↓cellView_ite, ite_self]

theorem cellView_elapse (ms : Nat) (d : Dev) : cellView (elapse ms d) = cellView d := by
  unfold elapse
  simp only [↓cellView_lifeAdd, ↓cellView_mk, cellView_fold]

theorem cellView_abortClosing (src : Nat) (d : Dev) : cellView (abortClosing src d) = cellView d := by
  unfold abortClosing
  simp only [↓cellView_mk, cellView_fold, ↓cellView_ite, ite_self]

theorem cellView_releasePorts (d : Dev) : cellView (releasePorts d) = cellView d := by
  unfold releasePorts
  simp only [↓cellView_mk, cellView_fold, ↓cellView_ite, ite_self]

theorem cellView_setReg {off : Nat} (h : off ≠ R.measCells) (v : Word) (d : Dev) : cellView (setReg off v d) = cellView d :=
  Prod.ext (reg_setReg_ne v d (Ne.symm h)) rfl

theorem cellView_setShadow (off : Nat) (v : Word) (d : Dev) : cellView (setShadow off v d) = cellView d := by
  unfold setShadow
  simp only [↓cellView_mk, cellView_fold]

theorem cellView_setBoth {off : Nat} (h : off ≠ R.measCells) (v : Word) (d : Dev) : cellView (setBoth off v d) = cellView d := cellView_setReg h ..

theorem cellView_hwUpdate {off : Nat} (h : off ≠ R.measCells) (v : Word) (d : Dev) :
    cellView (hwUpdate off v d) = cellView d := cellView_setReg h ..

theorem cellView_hwStand {off : Nat} (h : off ≠ R.measCells) (mask v : Word) (d : Dev) :
    cellView (hwStand off mask v d) = cellView d := cellView_setReg h ..

theorem cellView_swShadow (off : Nat) (mask v : Word) (d : Dev) : cellView (swShadow off mask v d) = cellView d := by
  unfold swShadow
  simp only [↓cellView_setShadow, ↓cellView_mk, cellView_fold]

theorem cellView_bump {off : Nat} (h : off ≠ R.measCells) (hi lo n : Nat) (d : Dev) :
    cellView (bump off hi lo n d) = cellView d := cellView_setReg h ..

theorem cellView_sumWrite {off : Nat} (h : off ≠ R.measCells) (w : Word) (d : Dev) :
    cellView (sumWrite off w d) = cellView d := cellView_setReg h ..

theorem cellView_setRegBit {off : Nat} (h : off ≠ R.measCells) (i : Nat) (b : Bool) (d : Dev) :
    cellView (setRegBit off i b d) = cellView d := cellView_setReg h ..

theorem cellView_setReg64 {lo hi : Nat} (hl : lo ≠ R.measCells) (hh : hi ≠ R.measCells) (v : Nat) (d : Dev) :
    cellView (setReg64 lo hi v d) = cellView d := (cellView_setReg hh ..).trans (cellView_setReg hl ..)

theorem cellView_withDue (f : NvDue → NvDue) (d : Dev) : cellView (withDue f d) = cellView d := by
  unfold withDue
  simp only [↓cellView_mk, cellView_fold]

theorem cellView_clearBad (a n : Nat) (d : Dev) : cellView (clearBad a n d) = cellView d := by
  unfold clearBad
  simp only [↓cellView_mk, cellView_fold]

theorem cellView_logWrite (kind part : Nat) (pay : List Byte) (d : Dev) : cellView (logWrite kind part pay d) = cellView d := by
  unfold logWrite
  simp only [↓cellView_mk, cellView_fold]

theorem cellView_logRec (kind part : Nat) (pay : List Byte) (d : Dev) : cellView (logRec kind part pay d) = cellView d := by
  unfold logRec
  simp only [↓cellView_withDue, ↓cellView_logWrite, ↓cellView_ite, ite_self]

theorem cellView_setPort (p : Port) (x : LinkPort) (d : Dev) : cellView (setPort p x d) = cellView d := by cases p <;> rfl

theorem cellView_enqueue (p : Port) (f : Frame) (d : Dev) : cellView (enqueue p f d) = cellView d := by
  unfold enqueue
  simp (disch := decide) only [↓cellView_bump, ↓cellView_setPort, ↓cellView_ite, ite_self]

theorem cellView_unbuffer (p : Port) (typ : Nat) (d : Dev) : cellView (unbuffer p typ d) = cellView d := by
  unfold unbuffer
  simp only [↓cellView_setPort]

theorem cellView_unbufferAny (typ : Nat) (d : Dev) : cellView (unbufferAny typ d) = cellView d := by
  unfold unbufferAny
  simp only [↓cellView_unbuffer]

theorem cellView_enqueueTurning (p : Port) (f : Frame) (d : Dev) : cellView (enqueueTurning p f d) = cellView d := by
  unfold enqueueTurning
  simp (disch := decide) only [↓cellView_bump, ↓cellView_enqueue, ↓cellView_ite, ite_self]

theorem cellView_startLeak (s i : Nat) (d : Dev) : cellView (startLeak s i d) = cellView d := by
  unfold startLeak
  simp only [↓cellView_mk, cellView_fold]

theorem cellView_stopLeak (s i : Nat) (d : Dev) : cellView (stopLeak s i d) = cellView d := by
  unfold stopLeak
  simp only [↓cellView_mk, cellView_fold]

theorem cellView_setLevel (s i n : Nat) (d : Dev) : cellView (setLevel s i n d) = cellView d := by
  unfold setLevel
  simp only [↓cellView_startLeak, ↓cellView_stopLeak, ↓cellView_mk, cellView_fold, ↓cellView_ite, ite_self]

theorem cellView_sendEvent (e : EvRec) (d : Dev) : cellView (sendEvent e d) = cellView d := by
  unfold sendEvent
  simp only [↓cellView_enqueueTurning, ↓cellView_mk, cellView_fold, ↓cellView_ite, ite_self]

theorem cellView_postAt (t : Time) (code b10 : Nat) (src lv : Nat) (last record : Bool) (data : List Byte) (d : Dev) :
    cellView (postAt t code b10 src lv last record data d) = cellView d := by
  unfold postAt
  simp only [↓cellView_logRec, ↓cellView_sendEvent, ↓cellView_mk, cellView_fold, ↓cellView_ite, ite_self]

theorem cellView_post (code b10 : Nat) (data : List Byte) (d : Dev) : cellView (post code b10 data d) = cellView d := by
  unfold post
  simp only [↓cellView_postAt]

theorem cellView_countOcc (s : Nat) (d : Dev) : cellView (countOcc s d) = cellView d := by
  unfold countOcc
  simp only [↓cellView_mk, cellView_fold]

theorem cellView_postTurn (code s i : Nat) (d : Dev) : cellView (postTurn code s i d) = cellView d := by
  unfold postTurn
  simp only [↓cellView_postAt]

theorem cellView_occurAt (t : Time) (s i code : Nat) (data : List Byte) (d : Dev) : cellView (occurAt t s i code data d) = cellView d := by
  unfold occurAt
  simp only [↓cellView_setLevel, ↓cellView_postAt, ↓cellView_countOcc, ↓cellView_postTurn, ↓cellView_ite, ite_self]

theorem cellView_occurLogged (t : Time) (s i code : Nat) (data : List Byte) (d : Dev) : cellView (occurLogged t s i code data d) = cellView d := by
  unfold occurLogged
  simp only [↓cellView_setLevel, ↓cellView_postAt, ↓cellView_countOcc, ↓cellView_postTurn, ↓cellView_ite, ite_self]

theorem cellView_countOnly (s i : Nat) (d : Dev) : cellView (countOnly s i d) = cellView d := by
  unfold countOnly
  simp only [↓cellView_setLevel, ↓cellView_postTurn, ↓cellView_ite, ite_self]

theorem cellView_occur (s i code : Nat) (data : List Byte) (d : Dev) : cellView (occur s i code data d) = cellView d := by
  unfold occur
  simp only [↓cellView_occurAt]

theorem cellView_leak (s i : Nat) (d : Dev) : cellView (leak s i d) = cellView d := by
  unfold leak
  simp only [↓cellView_startLeak, ↓cellView_setLevel, ↓cellView_postTurn, ↓cellView_ite, ite_self]

theorem cellView_reevaluate (was : List Nat) (s : Nat) (d : Dev) : cellView (reevaluate was s d) = cellView d := by
  unfold reevaluate
  simp only [↓cellView_postTurn, ↓cellView_ite, ite_self, ↓cellView_each, implies_true]

theorem cellView_denied (m : Master) (off : Nat) (p : Priv) (d : Dev) : cellView (denied m off p d) = cellView d := by
  unfold denied
  simp (disch := decide) only [↓cellView_bump, ↓cellView_occur]

theorem cellView_misaligned (d : Dev) : cellView (misaligned d) = cellView d := by
  unfold misaligned
  simp (disch := decide) only [↓cellView_bump]

theorem cellView_cfgFault (off kind group : Nat) (record : Bool) (d : Dev) : cellView (cfgFault off kind group record d) = cellView d := by
  unfold cfgFault
  simp only [↓cellView_occur, ↓cellView_mk, cellView_fold]

theorem cellView_originate (d : Dev) : cellView (originate d) = cellView d := by
  unfold originate
  (repeat' split) <;> simp only [↓cellView_mk, cellView_fold]

theorem cellView_setOut (o : Out) (x : OutState) (d : Dev) : cellView (setOut o x d) = cellView d := by
  unfold setOut
  (repeat' split) <;> simp only [↓cellView_mk, cellView_fold]

theorem cellView_outOff (o : Out) (d : Dev) : cellView (outOff o d) = cellView d := by
  unfold outOff
  simp (disch := decide) only [↓cellView_bump, ↓cellView_setOut, ↓cellView_ite, ite_self]

theorem cellView_react (a b : Bool) (d : Dev) : cellView (react a b d) = cellView d := by
  unfold react
  simp (disch := decide) only [↓cellView_bump, ↓cellView_outOff, ↓cellView_ite, ite_self]

theorem cellView_faultReact (b item : Nat) (d : Dev) : cellView (faultReact b item d) = cellView d := by
  unfold faultReact
  simp only [↓cellView_outOff, ↓cellView_react, ↓cellView_ite, ite_self]

theorem cellView_latchNote (b item : Nat) (d : Dev) : cellView (latchNote b item d) = cellView d := by
  unfold latchNote
  simp only [↓cellView_mk, cellView_fold]

theorem cellView_latch (b item : Nat) (d : Dev) : cellView (latch b item d) = cellView d := by
  unfold latch
  simp only [↓cellView_post, ↓cellView_originate, ↓cellView_faultReact, ↓cellView_latchNote, ↓cellView_ite, ite_self]

theorem cellView_gone (b item : Nat) (d : Dev) : cellView (gone b item d) = cellView d := by
  unfold gone
  simp only [↓cellView_mk, cellView_fold]

theorem cellView_occurFault (s i code : Nat) (data : List Byte) (d : Dev) : cellView (occurFault s i code data d) = cellView d := by
  unfold occurFault
  (repeat' split) <;> simp only [↓cellView_occur, ↓cellView_latch, ↓cellView_ite, ite_self]

theorem cellView_release (b item : Nat) (d : Dev) : cellView (release b item d) = cellView d := by
  unfold release
  simp only [↓cellView_post, ↓cellView_gone, ↓cellView_mk, cellView_fold, ↓cellView_ite, ite_self]

theorem cellView_sendFinal (h status : Nat) (res : List Byte) (d : Dev) : cellView (sendFinal h status res d) = cellView d := by
  unfold sendFinal
  simp only [↓cellView_enqueue, ↓cellView_each, implies_true]

theorem cellView_sendAccept (h : Nat) (d : Dev) : cellView (sendAccept h d) = cellView d := by
  unfold sendAccept
  simp only [↓cellView_enqueue]

theorem cellView_finish (h status : Nat) (res : List Byte) (d : Dev) : cellView (finish h status res d) = cellView d := by
  unfold finish
  simp only [↓cellView_sendFinal, ↓cellView_mk, cellView_fold, ↓cellView_ite, ite_self]

end Sys2Proof.Machine
end

section
/-! SUPPORT. Online tests, relief slots, balance cells, host rings (files 04, 07, 10, 14): MEAS_CELLS and the waiting commits stay (R65, R338). -/

namespace Sys2Proof.Machine

/-! ### Online tests (file 14) -/

theorem cellView_withEng (f : Eng → Eng) (d : Dev) : cellView (withEng f d) = cellView d := by
  unfold withEng
  simp only [↓cellView_mk, cellView_fold]

theorem cellView_moved (n : Nat) (d : Dev) : cellView (moved n d) = cellView d := by
  unfold moved
  simp only [↓cellView_withEng]

theorem cellView_engineMoves (old : List Nat) (d : Dev) : cellView (engineMoves old d) = cellView d := by
  unfold engineMoves
  simp only [↓cellView_moved, ↓cellView_ite, ite_self, ↓cellView_each, implies_true]

theorem cellView_moveCell (n : Nat) (d : Dev) : cellView (moveCell n d) = cellView d := by
  have hoff : ∀ m v e, cellView (hwStand (R.engAssign0 + 4 * ((n - 1) / 8)) m v e) = cellView e := fun m v e =>
    cellView_hwStand (add_ne_measCells (by decide) _) m v e
  unfold moveCell
  split
  · simp only [↓cellView_moved, hoff]
  · rfl

theorem cellView_rebalance (cells : List Nat) (d : Dev) : cellView (rebalance cells d) = cellView d := by
  unfold rebalance
  simp only [↓cellView_moveCell, ↓cellView_ite, ite_self, ↓cellView_each, implies_true]

theorem cellView_engineFail (k cause : Nat) (d : Dev) : cellView (engineFail k cause d) = cellView d := by
  unfold engineFail
  simp only [↓cellView_occur, ↓cellView_withEng, ↓cellView_rebalance, ↓cellView_ite, ite_self]

theorem cellView_withBist (f : Bist → Bist) (d : Dev) : cellView (withBist f d) = cellView d := by
  unfold withBist
  simp only [↓cellView_mk, cellView_fold]

theorem cellView_testBank (b : BankFails) (d : Dev) : cellView (testBank b d) = cellView d := by
  unfold testBank
  simp only [↓cellView_post, ↓cellView_withBist, ↓cellView_ite, ite_self]

theorem cellView_retestEngine (k : Nat) (d : Dev) : cellView (retestEngine k d) = cellView d := by
  unfold retestEngine
  simp only [↓cellView_withBist]

theorem cellView_excludeEngine (k : Nat) (bad : Bool) (d : Dev) : cellView (excludeEngine k bad d) = cellView d := by
  unfold excludeEngine
  simp only [↓cellView_withBist]

theorem cellView_engineTested (h k : Nat) (l : List BankFails) (d : Dev) : cellView (engineTested h k l d) = cellView d := by
  unfold engineTested
  simp only [↓cellView_finish, ↓cellView_engineFail, ↓cellView_withBist, ↓cellView_testBank, ↓cellView_retestEngine, ↓cellView_excludeEngine,
    ↓cellView_ite, ite_self, ↓cellView_each, implies_true]

/-! ### Relief slots and the lanes' corners (file 04) -/

theorem cellView_setCorr {off : Nat} (h : off ≠ R.measCells) (v : Word) (d : Dev) : cellView (setCorr off v d) = cellView d := by
  unfold setCorr
  simp only [↓cellView_ite, ↓cellView_mk, cellView_fold, cellView_setReg h, ite_self]

theorem cellView_withdraw (d : Dev) : cellView (withdraw d) = cellView d := by
  unfold withdraw
  simp only [↓cellView_mk, cellView_fold, ↓cellView_ite, ite_self, ↓cellView_each, implies_true]

theorem cellView_handover (t : Time) (spare lane dir : Nat) (step : Int) (d : Dev) : cellView (handover t spare lane dir step d) = cellView d := by
  have hfit := cellView_fitS 24 step d
  unfold handover
  generalize fitS 24 step d = x at hfit ⊢
  obtain ⟨v, e⟩ := x
  rw [← hfit]
  dsimp only
  simp (disch := decide) only [↓cellView_ite, ↓cellView_withdraw, ↓cellView_countOnly, ↓cellView_occurAt, ↓cellView_mk, cellView_fold,
    ↓cellView_setReg, ite_self]

theorem cellView_bgJudge (d : Dev) : cellView (bgJudge d) = cellView d := by
  unfold bgJudge
  simp only [↓cellView_occurFault, ↓cellView_mk, cellView_fold, ↓cellView_ite, ite_self]

theorem cellView_bgTake (e : Int) (d : Dev) : cellView (bgTake e d) = cellView d := by
  unfold bgTake
  simp (disch := decide) only [↓cellView_fitS, ↓cellView_setReg, ↓cellView_bgJudge, ↓cellView_mk, cellView_fold]

theorem cellView_fitStep (m a b : Nat) (o : ReliefOutcome) (d : Dev) : cellView (fitStep m a b o d) = cellView d := by
  unfold fitStep
  simp only [↓cellView_occur, ↓cellView_bgTake, ↓cellView_mk, cellView_fold, ↓cellView_ite, ite_self]

theorem cellView_applyStep (m : Nat) (o : ReliefOutcome) (d : Dev) : cellView (applyStep m o d) = cellView d := by
  unfold applyStep
  simp only [↓cellView_setCorr, ↓cellView_mk, cellView_fold, ↓cellView_ite, ite_self, ne_eq, add_ne_measCells, not_false_eq_true, Nat.reduceLT,
    R.calBgain, R.calBoff, R.measCells]

theorem cellView_cmpBegin (k : Nat) (h : Option Nat) (seen : List PairSeen) (d : Dev) : cellView (cmpBegin k h seen d) = cellView d := by
  unfold cmpBegin
  simp only [↓cellView_mk, cellView_fold]

theorem cellView_cmpTestEnd (k : Nat) (r : CmpFound) (d : Dev) : cellView (cmpTestEnd k r d) = cellView d := by
  unfold cmpTestEnd
  dsimp only
  (repeat' split) <;> simp only [↓cellView_setRegBit, ↓cellView_post, ↓cellView_finish, ↓cellView_withBist, ↓cellView_cmpBegin, ↓cellView_mk,
    cellView_fold, ↓cellView_each, implies_true, ne_eq, not_false_eq_true, Nat.reduceEqDiff, R.bistCmpFail, R.measCells]

theorem cellView_withStages (g : LaneGroup) (f : StageGroup → StageGroup) (d : Dev) : cellView (withStages g f d) = cellView d := by
  unfold withStages
  simp only [↓cellView_withBist]

theorem cellView_stageBegin (g : LaneGroup) (x : StageTest) (d : Dev) : cellView (stageBegin g x d) = cellView d := by
  unfold stageBegin
  simp (disch := decide) only [↓cellView_setReg, ↓cellView_withStages, ↓cellView_mk, cellView_fold]

theorem cellView_stageTry (g : LaneGroup) (d : Dev) : cellView (stageTry g d) = cellView d := by
  unfold stageTry
  (repeat' split) <;> simp only [↓cellView_finish, ↓cellView_withStages, ↓cellView_stageBegin, ↓cellView_mk, cellView_fold]

theorem cellView_stageFound (g : LaneGroup) (x : StageTest) (d : Dev) : cellView (stageFound g x d) = cellView d := by
  have hoff : laneFailOff g ≠ R.measCells := by cases g <;> decide
  unfold stageFound
  simp only [↓cellView_ite, ↓cellView_post, ↓cellView_setRegBit (show R.bistOnline ≠ R.measCells by decide), ↓cellView_setRegBit hoff,
    ↓cellView_mk, cellView_fold, ite_self]

theorem cellView_stageEnd (g : LaneGroup) (d : Dev) : cellView (stageEnd g d) = cellView d := by
  unfold stageEnd
  (repeat' split) <;> simp (disch := decide) only [↓cellView_setRegBit, ↓cellView_finish, ↓cellView_withStages, ↓cellView_stageTry,
    ↓cellView_stageFound]

theorem cellView_fuseDone (m i : Nat) (ok : Bool) (d : Dev) : cellView (fuseDone m i ok d) = cellView d := by
  unfold fuseDone
  simp only [↓cellView_post, ↓cellView_withBist, ↓cellView_ite, ite_self]

theorem cellView_fusesDone (d : Dev) : cellView (fusesDone d) = cellView d := by
  unfold fusesDone
  simp only [↓cellView_withBist]

theorem cellView_calStep (x : CalDue) (d : Dev) : cellView (calStep x d) = cellView d := by
  unfold calStep
  (repeat' split) <;> simp only [↓cellView_advance, ↓cellView_engineTested, ↓cellView_handover, ↓cellView_fitStep, ↓cellView_applyStep,
    ↓cellView_cmpTestEnd, ↓cellView_stageTry, ↓cellView_stageEnd, ↓cellView_fuseDone, ↓cellView_fusesDone, ↓cellView_ite, ite_self]

theorem cellView_calRunN (t : Time) (n : Nat) (d : Dev) : cellView (calRunN t n d) = cellView d := by
  induction n generalizing d with
  | zero => rfl
  | succ n ih =>
    unfold calRunN
    split
    · rfl
    · simp only [↓cellView_ite, ih, ↓cellView_calStep, ↓cellView_mk, cellView_fold, ite_self]

theorem cellView_calRun (t : Time) (d : Dev) : cellView (calRun t d) = cellView d := cellView_calRunN ..

/-! ### Balance cells (file 07) -/

theorem cellView_withBal (n : Nat) (f : BalCell → BalCell) (d : Dev) : cellView (withBal n f d) = cellView d := by
  unfold withBal
  simp only [↓cellView_mk, cellView_fold]

theorem cellView_userBad (code : Nat) (d : Dev) : cellView (userBad code d) = cellView d := by
  unfold userBad
  (repeat' split) <;> simp only [↓cellView_mk, cellView_fold]

theorem cellView_runTo (d : Dev) : cellView (runTo d) = cellView d := (frame_runTo ..).cellView

theorem cellView_tick (t : Time) (d : Dev) : cellView (tick t d) = cellView d := by
  unfold tick
  simp only [↓cellView_advance, ↓cellView_releasePorts, ↓cellView_calRun, ↓cellView_runTo]

theorem cellView_withAcc (cell : Nat) (f : CellAcc → CellAcc) (d : Dev) : cellView (withAcc cell f d) = cellView d := by
  unfold withAcc
  simp only [↓cellView_mk, cellView_fold]

theorem cellView_noteHeld (d : Dev) : cellView (noteHeld d) = cellView d := by
  unfold noteHeld
  simp only [↓cellView_withAcc, ↓cellView_ite, ite_self, ↓cellView_each, implies_true]

theorem cellView_endTest (d : Dev) : cellView (endTest d) = cellView d := by
  unfold endTest
  (repeat' split) <;> simp only [↓cellView_mk, cellView_fold]

theorem cellView_nextTest (d : Dev) : cellView (nextTest d) = cellView d := by
  unfold nextTest
  dsimp only
  (repeat' split) <;> simp only [↓cellView_endTest, ↓cellView_mk, cellView_fold]

theorem cellView_setK (d : Dev) : cellView (setK d) = cellView d := by
  unfold setK
  simp only [↓cellView_fitU, ↓cellView_occur, ↓cellView_mk, cellView_fold, ↓cellView_ite, ite_self]

theorem cellView_balUpdate (d : Dev) : cellView (balUpdate d) = cellView d := by
  unfold balUpdate
  (repeat' split) <;> simp only [↓cellView_withBal, ↓cellView_noteHeld, ↓cellView_endTest, ↓cellView_nextTest, ↓cellView_setK, ↓cellView_ite,
    ite_self, ↓cellView_each, implies_true]

/-! ### Host rings and posting (file 10) -/

theorem cellView_internalError (h op : Nat) (d : Dev) : cellView (internalError h op d) = cellView d := by
  unfold internalError
  simp only [↓cellView_post]

theorem cellView_setPosRec (p : Nat) (r : PosRec) (d : Dev) : cellView (setPosRec p r d) = cellView d := by
  unfold setPosRec
  simp only [↓cellView_mk, cellView_fold]

theorem cellView_pushEvent (e : EvRec) (b : Both) : cellView (pushEvent e b).1 = cellView b.1 := by
  unfold pushEvent
  simp (disch := decide) only [↓cellView_bump, ↓cellView_ite_fst, ite_self]

theorem cellView_settle (b : Both) : cellView (settle b).1 = cellView b.1 := by
  unfold settle
  simp only [↓cellView_pushEvent, ↓cellView_mk, cellView_fold, ↓cellView_each_both, implies_true]

end Sys2Proof.Machine
end

section
/-! SUPPORT. Safety, measurement and calibration (files 03, 04, 11): MEAS_CELLS and the waiting commits stay (R65, R338). -/

namespace Sys2Proof.Machine

/-! ### Safety functions (file 11) -/

theorem cellView_setPairIn (p : Nat) (x : PairState) (d : Dev) : cellView (setPairIn p x d) = cellView d := by
  unfold setPairIn
  simp only [↓cellView_mk, cellView_fold, ↓cellView_ite, ite_self]

theorem cellView_userOutputs (d : Dev) : cellView (userOutputs d) = cellView d := by
  unfold userOutputs
  (repeat' split) <;> simp only [↓cellView_userBad]

theorem cellView_unstuck (o : Out) (d : Dev) : cellView (unstuck o d) = cellView d := by
  unfold unstuck
  simp only [↓cellView_gone, ↓cellView_ite, ite_self]

theorem cellView_outOn (o : Out) (d : Dev) : cellView (outOn o d) = cellView d := by
  unfold outOn
  simp only [↓cellView_setOut, ↓cellView_userOutputs, ↓cellView_unstuck]

theorem cellView_outCmd (onA onB : Bool) (offA offB : Bool) (d : Dev) : cellView (outCmd onA onB offA offB d) = cellView d := by
  unfold outCmd
  simp only [↓cellView_occur, ↓cellView_outOff, ↓cellView_outOn, ↓cellView_ite, ite_self]

theorem cellView_outputRecord (d : Dev) : cellView (outputRecord d).2 = cellView d := by
  unfold outputRecord
  rfl

theorem cellView_headOutputs (b : Both) : cellView (headOutputs b).1 = cellView b.1 := by
  unfold headOutputs
  simp only [↓cellView_outputRecord, ↓cellView_ite_fst, ite_self, ↓cellView_each_both, implies_true]

theorem cellView_offTest (o : Out) (d : Dev) : cellView (offTest o d) = cellView d := by
  unfold offTest
  simp only [↓cellView_setOut, ↓cellView_ite, ite_self]

theorem cellView_offTestEnd (o : Out) (mv : List Nat) (d : Dev) : cellView (offTestEnd o mv d) = cellView d := by
  unfold offTestEnd
  simp only [↓cellView_setOut, ↓cellView_occurFault, ↓cellView_ite, ite_self]

theorem cellView_outputStuck (o : Out) (mv us : Nat) (d : Dev) : cellView (outputStuck o mv us d) = cellView d := by
  unfold outputStuck
  simp only [↓cellView_setOut, ↓cellView_latch, ↓cellView_ite, ite_self]

theorem cellView_outputOverload (o : Out) (limit : Bool) (mv vstk us : Nat) (d : Dev) :
    cellView (outputOverload o limit mv vstk us d) = cellView d := by
  unfold outputOverload
  simp only [↓cellView_occur, ↓cellView_latch, ↓cellView_ite, ite_self]

theorem cellView_pulseCheck (own : Bool) (ch : Nat) (before during : Bool) (d : Dev) :
    cellView (pulseCheck own ch before during d) = cellView d := by
  unfold pulseCheck
  simp only [↓cellView_occurFault, ↓cellView_setPairIn, ↓cellView_ite, ite_self]

theorem cellView_setRaw (l : List Bool) (d : Dev) : cellView (setRaw l d) = cellView d := by
  unfold setRaw
  simp only [↓cellView_mk, cellView_fold]

theorem cellView_testPulse (before during : List Bool) (d : Dev) : cellView (testPulse before during d) = cellView d := by
  unfold testPulse
  (repeat' split) <;> simp only [↓cellView_pulseCheck, ↓cellView_setRaw, ↓cellView_each, implies_true]

theorem cellView_filterChange (ch : Nat) (lv : Bool) (begun : Time) (d : Dev) : cellView (filterChange ch lv begun d) = cellView d := by
  unfold filterChange
  simp only [↓cellView_react, ↓cellView_gone, ↓cellView_setPairIn, ↓cellView_ite, ite_self]

theorem cellView_endPending (p : Nat) (d : Dev) : cellView (endPending p d) = cellView d := by
  unfold endPending
  simp only [↓cellView_setPairIn, ↓cellView_ite, ite_self]

theorem cellView_safeResetWrite (key : Word) (d : Dev) : cellView (safeResetWrite key d) = cellView d := by
  unfold safeResetWrite
  simp only [↓cellView_endPending, ↓cellView_mk, cellView_fold, ↓cellView_ite, ite_self]

theorem cellView_windowEnd (d : Dev) : cellView (windowEnd d) = cellView d := by
  unfold windowEnd
  simp only [↓cellView_mk, cellView_fold, ↓cellView_ite, ite_self]

theorem cellView_releaseAll (d : Dev) : cellView (releaseAll d) = cellView d := by
  unfold releaseAll
  simp only [↓cellView_release, ↓cellView_ite, ite_self, ↓cellView_each, implies_true]

theorem cellView_pairCommit (old : Dev) (p : Nat) (d : Dev) : cellView (pairCommit old p d) = cellView d := by
  unfold pairCommit
  simp only [↓cellView_setPairIn]

theorem cellView_discTick (p : Nat) (d : Dev) : cellView (discTick p d) = cellView d := by
  unfold discTick
  simp only [↓cellView_latch, ↓cellView_setPairIn, ↓cellView_ite, ite_self]

theorem cellView_heartbeatCheck (d : Dev) : cellView (heartbeatCheck d) = cellView d := by
  unfold heartbeatCheck
  simp only [↓cellView_latch, ↓cellView_mk, cellView_fold, ↓cellView_ite, ite_self, ↓cellView_each, implies_true]

theorem cellView_imageCheck (d : Dev) : cellView (imageCheck d) = cellView d := by
  unfold imageCheck
  simp (disch := decide) only [↓cellView_setReg, ↓cellView_latch, ↓cellView_gone, ↓cellView_mk, cellView_fold, ↓cellView_ite, ite_self]

theorem cellView_watchdogExpire (d : Dev) : cellView (watchdogExpire d) = cellView d := by
  unfold watchdogExpire
  simp only [↓cellView_latch, ↓cellView_mk, cellView_fold]

theorem cellView_setReadback (a b vstk : Nat) (d : Dev) : cellView (setReadback a b vstk d) = cellView d := by
  unfold setReadback
  simp only [↓cellView_unstuck, ↓cellView_mk, cellView_fold, ↓cellView_ite, ite_self]

theorem cellView_safetyCycle (serviced : Bool) (rbA rbB vstk : Nat) (d : Dev) : cellView (safetyCycle serviced rbA rbB vstk d) = cellView d := by
  unfold safetyCycle
  simp only [↓cellView_releaseAll, ↓cellView_discTick, ↓cellView_heartbeatCheck, ↓cellView_imageCheck, ↓cellView_watchdogExpire,
    ↓cellView_setReadback, ↓cellView_mk, cellView_fold, ↓cellView_ite, ite_self]

/-! ### Cell measurement (file 03) -/

theorem cellView_keepConf (old d : Dev) : cellView (keepConf old d) = cellView d := by
  unfold keepConf
  simp only [↓cellView_mk, cellView_fold]

theorem cellView_writeLane (g : LaneGroup) (cell : Nat) (r : LaneResult) (d : Dev) : cellView (writeLane g cell r d) = cellView d := by
  refine (frame_writeLane ..).cellView (by decide) ?_
  have hoff : R.measCells ≠ resOff g cell := by cases g <;> exact (add_ne_measCells (by decide) _).symm
  simp (disch := decide) [laneRegs, hoff]

theorem cellView_userLane (d0 : Dev) (g : LaneGroup) (T : Time) (x : LaneSample) (d : Dev) : cellView (userLane d0 g T x d) = cellView d := by
  unfold userLane
  (repeat' split) <;> simp only [↓cellView_mk, cellView_fold]

theorem cellView_noteGrid (T : Time) (cell : Nat) (r : LaneResult) (d : Dev) : cellView (noteGrid T cell r d) = cellView d := by
  unfold noteGrid
  simp only [↓cellView_mk, cellView_fold]

theorem cellView_accValue (r : LaneResult) (cell : Nat) (d : Dev) : cellView (accValue r cell d) = cellView d := by
  unfold accValue
  simp only [↓cellView_withAcc, ↓cellView_ite, ite_self]

theorem cellView_compareLanes (T : Time) (cell : Nat) (a b : LaneResult) (d : Dev) : cellView (compareLanes T cell a b d) = cellView d := by
  unfold compareLanes
  simp (disch := decide) only [↓cellView_setRegBit, ↓cellView_gone, ↓cellView_occurFault, ↓cellView_withAcc, ↓cellView_mk, cellView_fold,
    ↓cellView_ite, ite_self]

theorem cellView_gridCell (d0 : Dev) (g : LaneGroup) (T : Time) (other : List LaneSample) (x : LaneSample) (d : Dev) :
    cellView (gridCell d0 g T other x d) = cellView d := by
  unfold gridCell
  (repeat' split) <;> simp only [↓cellView_writeLane, ↓cellView_userLane, ↓cellView_noteGrid, ↓cellView_accValue, ↓cellView_compareLanes]

theorem cellView_gridResult (g : LaneGroup) (T : Time) (own other : List LaneSample) (d : Dev) :
    cellView (gridResult g T own other d) = cellView d := by
  unfold gridResult
  simp only [↓cellView_balUpdate, ↓cellView_gridCell, ↓cellView_ite, ite_self, ↓cellView_each, implies_true]

theorem cellView_cmpTrip (cell : Nat) (ov : Bool) (samples : Nat) (uv : Int) (standIn : Bool) (d : Dev) :
    cellView (cmpTrip cell ov samples uv standIn d) = cellView d := by
  have hoff : cmpOff ov ≠ R.measCells := by cases ov <;> decide
  unfold cmpTrip
  simp only [↓cellView_ite, ↓cellView_latch, ↓cellView_balUpdate, ↓cellView_withAcc, ↓cellView_setRegBit hoff, ite_self]

theorem cellView_cmpRelease (cell : Nat) (ov : Bool) (samples : Nat) (uv : Int) (d : Dev) :
    cellView (cmpRelease cell ov samples uv d) = cellView d := by
  have hoff : cmpOff ov ≠ R.measCells := by cases ov <;> decide
  unfold cmpRelease
  simp only [↓cellView_ite, ↓cellView_gone, ↓cellView_balUpdate, ↓cellView_setRegBit hoff, ite_self]

theorem cellView_updateTap (k : Nat) (d : Dev) : cellView (updateTap k d) = cellView d := by
  unfold updateTap
  simp only [↓cellView_setReg, ↓cellView_occur, ↓cellView_ite, ite_self, ne_eq, add_ne_measCells, not_false_eq_true, Nat.reduceLT, R.measTapr,
    R.measCells]

theorem cellView_updateTaps (d : Dev) : cellView (updateTaps d) = cellView d := by
  unfold updateTaps
  simp only [↓cellView_updateTap, ↓cellView_each, implies_true]

theorem cellView_setCoef (j : Nat) (w : Word) (d : Dev) : cellView (setCoef j w d) = cellView d := by
  unfold setCoef
  simp only [↓cellView_setReg, ↓cellView_updateTap, ne_eq, add_ne_measCells, not_false_eq_true, Nat.reduceLT, R.measBcoef, R.measCells]

theorem cellView_forgetCoef (j : Nat) (d : Dev) : cellView (forgetCoef j d) = cellView d := by
  unfold forgetCoef
  simp only [↓cellView_setCoef, ↓cellView_mk, cellView_fold]

theorem cellView_estimate (j : Nat) (e : CoefEst) (ma : Nat) (d : Dev) : cellView (estimate j e ma d) = cellView d := by
  unfold estimate
  simp only [↓cellView_freeWord, ↓cellView_occur, ↓cellView_setCoef, ↓cellView_forgetCoef, ↓cellView_mk, cellView_fold, ↓cellView_ite, ite_self]

theorem cellView_owSettle (d : Dev) : cellView (owSettle d) = cellView d := by
  unfold owSettle
  (repeat' split) <;> simp only [↓cellView_mk, cellView_fold]

theorem cellView_owCommit (d : Dev) : cellView (owCommit d) = cellView d := by
  unfold owCommit
  simp only [↓cellView_owSettle, ↓cellView_mk, cellView_fold, ↓cellView_ite, ite_self]

theorem cellView_owTest {f g : Nat → Dev → Dev} (hf : ∀ n d, cellView (f n d) = cellView d) (hg : ∀ n d, cellView (g n d) = cellView d)
    (tap : Nat) (dk dk1 : Int) (d : Dev) : cellView (owTest tap dk dk1 f g d) = cellView d := by
  have hoff : R.measOwStat ≠ R.measCells := by decide
  unfold owTest
  simp only [↓cellView_ite, ↓cellView_occurFault, ↓hf, ↓hg, ↓cellView_withAcc, ↓cellView_setRegBit hoff, ↓cellView_mk, cellView_fold, ite_self]

/-! ### Calibration (file 04) -/

theorem cellView_leaveOut (slot : Nat) (d : Dev) : cellView (leaveOut slot d) = cellView d := by
  unfold leaveOut
  simp only [↓cellView_mk, cellView_fold]

theorem cellView_endSlot (d : Dev) : cellView (endSlot d) = cellView d := by
  unfold endSlot
  simp only [↓cellView_mk, cellView_fold]

theorem cellView_slotStart (slot : Nat) (l : List ReliefOutcome) (d : Dev) : cellView (slotStart slot l d) = cellView d := by
  unfold slotStart
  simp only [↓cellView_calRun, ↓cellView_leaveOut, ↓cellView_endSlot, ↓cellView_mk, cellView_fold, ↓cellView_ite, ite_self]

theorem cellView_setCalSlot (i : Nat) (x : CalSlot) (d : Dev) : cellView (setCalSlot i x d) = cellView d := by
  unfold setCalSlot
  simp only [↓cellView_mk, cellView_fold, ↓cellView_ite, ite_self]

/-- The working set lies after MEAS_CELLS. -/
theorem workset_ne_measCells {off : Nat} (h : off ∈ worksetOffsets) : off ≠ R.measCells := by
  have hadd : ∀ b n k, R.measCells < b → off ∈ (upFrom k n).map (fun i => b + 4 * i) → off ≠ R.measCells := by
    intro b n k hb hm
    obtain ⟨i, -, rfl⟩ := List.mem_map.1 hm
    exact add_ne_measCells hb _
  simp only [worksetOffsets, List.mem_append] at h
  rcases h with (((h | h) | h) | h) | h
  · exact hadd _ _ _ (by decide) h
  · exact hadd _ _ _ (by decide) h
  · exact hadd _ _ _ (by decide) h
  · exact hadd _ _ _ (by decide) h
  · exact (by decide : ∀ o ∈ [R.calIsaOff, R.calIsaGain, R.calIsbOff, R.calIsbGain, R.calAuxOff, R.calAuxGain, R.calTdieOff, R.calBgref],
      o ≠ R.measCells) off h

theorem cellView_loadWords (ws : List Word) (d : Dev) : cellView (loadWords ws d) = cellView d :=
  each_kept (view := cellView) (fun _ hp _ => cellView_hwUpdate (workset_ne_measCells (List.of_mem_zip hp).1) ..) d

theorem cellView_showSet (d : Dev) : cellView (showSet d) = cellView d := by
  unfold showSet
  (repeat' split) <;> simp (disch := decide) only [↓cellView_setReg]

theorem cellView_activate (i : Nat) (d : Dev) : cellView (activate i d) = cellView d := by
  unfold activate
  simp only [↓cellView_showSet, ↓cellView_mk, cellView_fold]

theorem cellView_selectSet (d : Dev) : cellView (selectSet d) = cellView d := by
  unfold selectSet
  dsimp only
  (repeat' split) <;> simp only [↓cellView_post, ↓cellView_occur, ↓cellView_latch, ↓cellView_loadWords, ↓cellView_showSet, ↓cellView_activate,
    ↓cellView_mk, cellView_fold]

theorem cellView_calStoreBegin (h : Nat) (c : Desc) (d : Dev) : cellView (calStoreBegin h c d) = cellView d := by
  unfold calStoreBegin
  (repeat' split) <;> simp only [↓cellView_finish, ↓cellView_mk, cellView_fold]

theorem cellView_storeStep (x : CalStore) (n : Nat) (d : Dev) : cellView (storeStep x n d) = cellView d := by
  unfold storeStep
  simp only [↓cellView_mk, cellView_fold]

theorem cellView_storeEnd (x : CalStore) (st : Nat) (d : Dev) : cellView (storeEnd x st d) = cellView d := by
  unfold storeEnd
  simp only [↓cellView_finish, ↓cellView_mk, cellView_fold]

theorem cellView_storeDone (x : CalStore) (d : Dev) : cellView (storeDone x d) = cellView d := by
  unfold storeDone
  simp only [↓cellView_gone, ↓cellView_storeEnd, ↓cellView_mk, cellView_fold]

theorem cellView_storeFail (x : CalStore) (n : Nat) (d : Dev) : cellView (storeFail x n d) = cellView d := by
  unfold storeFail
  simp only [↓cellView_storeStep, ↓cellView_ite, ite_self]

theorem cellView_storeNext (op : NvmOp) (ok : Bool) (x : CalStore) (d : Dev) : cellView (storeNext op ok x d) = cellView d := by
  unfold storeNext
  (repeat' split) <;> simp only [↓cellView_post, ↓cellView_setCalSlot, ↓cellView_showSet, ↓cellView_storeStep, ↓cellView_storeEnd,
    ↓cellView_storeDone, ↓cellView_storeFail, ↓cellView_mk, cellView_fold, ↓cellView_ite, ite_self]

theorem cellView_calNvm (op : NvmOp) (ok : Bool) (d : Dev) : cellView (calNvm op ok d) = cellView d := by
  unfold calNvm
  (repeat' split) <;> simp only [↓cellView_setCalSlot, ↓cellView_storeNext, ↓cellView_mk, cellView_fold]

theorem cellView_calUserBegin (h : Nat) (c : Desc) (d : Dev) : cellView (calUserBegin h c d) = cellView d := by
  unfold calUserBegin
  dsimp only
  (repeat' split) <;> simp only [↓cellView_finish, ↓cellView_mk, cellView_fold]

theorem cellView_userShown (mode : Nat) (a : UserAcc) (d : Dev) : cellView (userShown mode a d).2 = cellView d := by
  unfold userShown
  simp only [↓cellView_freeWord, ↓cellView_ite_snd, ite_self]

theorem cellView_userRecord (u : CalUser) (detail : Nat) (newA newB : Word) (d : Dev) :
    cellView (userRecord u detail newA newB d).2 = cellView d := by
  unfold userRecord
  simp only [↓cellView_userShown]

theorem cellView_userStop (u : CalUser) (st detail : Nat) (newA newB : Word) (d : Dev) :
    cellView (userStop u st detail newA newB d) = cellView d := by
  unfold userStop
  simp only [↓cellView_finish, ↓cellView_userRecord, ↓cellView_mk, cellView_fold]

theorem cellView_userWrite {off : Nat} (h : off ≠ R.measCells) (n : Nat) (d : Dev) : cellView (userWrite off n d) = cellView d :=
  (cellView_hwUpdate h ..).trans (cellView_setCorr h ..)

theorem userRegs_ne_measCells (mode cell : Nat) : (userRegs mode cell).1 ≠ R.measCells ∧ (userRegs mode cell).2 ≠ R.measCells := by
  unfold userRegs
  split
  · decide
  · decide
  · exact ⟨add_ne_measCells (by decide) _, add_ne_measCells (by decide) _⟩

theorem cellView_userFinish (u : CalUser) (r : CalUserRun) (d : Dev) : cellView (userFinish u r d) = cellView d := by
  obtain ⟨hA, hB⟩ := userRegs_ne_measCells u.mode u.cell
  unfold userFinish
  simp only [↓cellView_userStop, ↓cellView_userWrite hA, ↓cellView_userWrite hB, ↓cellView_fitS]

theorem cellView_calUserJudge (r : CalUserRun) (d : Dev) : cellView (calUserJudge r d) = cellView d := by
  unfold calUserJudge
  (repeat' split) <;> simp only [↓cellView_userStop, ↓cellView_userFinish, ↓cellView_ite, ite_self]

theorem cellView_userAbort (d : Dev) : cellView (userAbort d) = cellView d := by
  unfold userAbort
  (repeat' split) <;> simp only [↓cellView_userStop]

/-! ### Jobs of the engines (file 06) -/

theorem cellView_endExcite (d : Dev) : cellView (endExcite d) = cellView d := by
  unfold endExcite
  simp only [↓cellView_balUpdate, ↓cellView_mk, cellView_fold, ↓cellView_ite, ite_self]

theorem cellView_impFinish (st : Nat) (res : List Byte) (d : Dev) : cellView (impFinish st res d) = cellView d := by
  unfold impFinish
  (repeat' split) <;> simp only [↓cellView_finish, ↓cellView_withEng, ↓cellView_endExcite]

theorem cellView_impAbort (reason : Nat) (d : Dev) : cellView (impAbort reason d) = cellView d := by
  unfold impAbort
  (repeat' split) <;> simp only [↓cellView_impFinish]

theorem cellView_estFinish (st : Nat) (res : List Byte) (d : Dev) : cellView (estFinish st res d) = cellView d := by
  unfold estFinish
  (repeat' split) <;> simp only [↓cellView_finish, ↓cellView_withEng]

theorem cellView_estAbort (reason : Nat) (d : Dev) : cellView (estAbort reason d) = cellView d := by
  unfold estAbort
  (repeat' split) <;> simp only [↓cellView_estFinish]

theorem cellView_noteFramed (d : Dev) : cellView (noteFramed d) = cellView d := by
  unfold noteFramed
  simp only [↓cellView_withEng]

theorem cellView_jobsAbort (reason : Nat) (d : Dev) : cellView (jobsAbort reason d) = cellView d := by
  unfold jobsAbort
  simp only [↓cellView_impAbort, ↓cellView_estAbort]

theorem cellView_srcAbort (d : Dev) : cellView (srcAbort d) = cellView d := by
  unfold srcAbort
  simp only [↓cellView_impAbort, ↓cellView_estAbort, ↓cellView_ite, ite_self]

theorem cellView_idxAbort (was : Nat) (d : Dev) : cellView (idxAbort was d) = cellView d := by
  unfold idxAbort
  simp only [↓cellView_jobsAbort, ↓cellView_ite, ite_self]

end Sys2Proof.Machine
end

section
/-! SUPPORT. Current, inputs and wire; balancing (files 05, 07, 12): MEAS_CELLS and the waiting commits stay (R65, R338). -/

namespace Sys2Proof.Machine

/-! ### Shunt, auxiliary inputs and wire ports (file 05) -/

theorem cellView_withCur (f : Cur → Cur) (d : Dev) : cellView (withCur f d) = cellView d := by
  unfold withCur
  simp only [↓cellView_mk, cellView_fold]

theorem cellView_curFlagged (flagged : Bool) (d : Dev) : cellView (curFlagged flagged d) = cellView d := by
  unfold curFlagged
  (repeat' split) <;> simp only [↓cellView_userBad]

theorem cellView_writeCur (chB : Bool) (r : CurResult) (d : Dev) : cellView (writeCur chB r d) = cellView d := by
  unfold writeCur
  (repeat' split) <;> simp (disch := decide) only [↓cellView_setReg, ↓cellView_setRegBit, ↓cellView_occur, ↓cellView_withCur,
    ↓cellView_curFlagged, ↓cellView_ite, ite_self]

theorem cellView_curCompare (T : Time) (a b : CurResult) (d : Dev) : cellView (curCompare T a b d) = cellView d := by
  unfold curCompare
  simp (disch := decide) only [↓cellView_setRegBit, ↓cellView_occurFault, ↓cellView_withCur, ↓cellView_ite, ite_self]

theorem cellView_accumulate (l : List Int) (d : Dev) : cellView (accumulate l d) = cellView d := by
  unfold accumulate
  simp (disch := decide) only [↓cellView_setRegBit, ↓cellView_setReg64, ↓cellView_withCur, ↓cellView_ite, ite_self]

theorem cellView_countOvrMs (l : List Nat) (d : Dev) : cellView (countOvrMs l d) = cellView d := (frame_countOvrMs ..).cellView

theorem cellView_sumSamples (l : List Int) (d : Dev) : cellView (sumSamples l d) = cellView d := by
  unfold sumSamples
  simp only [↓cellView_mk, cellView_fold]

theorem cellView_userSamples (l : List (Nat × CurRaw)) (d : Dev) : cellView (userSamples l d) = cellView d := by
  unfold userSamples
  (repeat' split) <;> simp only [↓cellView_mk, cellView_fold]

theorem cellView_curSamples (T : Nat) (raw : List CurRaw) (d : Dev) : cellView (curSamples T raw d) = cellView d := by
  unfold curSamples
  simp only [↓cellView_withCur, ↓cellView_curFlagged, ↓cellView_accumulate, ↓cellView_countOvrMs, ↓cellView_sumSamples, ↓cellView_userSamples]

theorem cellView_currentGrid (T : Time) (a b : CurSample) (raw : List CurRaw) (d : Dev) : cellView (currentGrid T a b raw d) = cellView d := by
  unfold currentGrid
  simp (disch := decide) only [↓cellView_setRegBit, ↓cellView_writeCur, ↓cellView_curCompare, ↓cellView_curSamples, ↓cellView_ite, ite_self]

theorem cellView_calUserEnd (r : CalUserRun) (d : Dev) : cellView (calUserEnd r d) = cellView d := by
  unfold calUserEnd
  simp only [↓cellView_calUserJudge, ↓cellView_curSamples]

theorem cellView_limitTrip (pos : Bool) (T : Nat) (raw : List (Int × Int)) (d : Dev) : cellView (limitTrip pos T raw d) = cellView d := by
  unfold limitTrip
  (repeat' split) <;> simp (disch := decide) only [↓cellView_setRegBit, ↓cellView_latch]

theorem cellView_limitRelease (pos : Bool) (T : Nat) (raw : List (Int × Int)) (d : Dev) : cellView (limitRelease pos T raw d) = cellView d := by
  unfold limitRelease
  (repeat' split) <;> simp (disch := decide) only [↓cellView_setRegBit, ↓cellView_gone, ↓cellView_ite, ite_self]

theorem cellView_bcRestart (d : Dev) : cellView (bcRestart d) = cellView d := by
  unfold bcRestart
  simp only [↓cellView_withCur]

theorem cellView_curRestart (d : Dev) : cellView (curRestart d) = cellView d := by
  unfold curRestart
  simp (disch := decide) only [↓cellView_setReg, ↓cellView_setRegBit, ↓cellView_withCur, ↓cellView_bcRestart, ↓cellView_ite, ite_self]

theorem cellView_keepPack (f : CurFrame) (d : Dev) : cellView (keepPack f d) = cellView d := by
  unfold keepPack
  simp only [↓cellView_withEng]

theorem cellView_keepFrame (f : CurFrame) (d : Dev) : cellView (keepFrame f d) = cellView d := by
  unfold keepFrame
  simp only [↓cellView_noteFramed, ↓cellView_withCur, ↓cellView_keepPack]

theorem cellView_queueSamples (f : Frame) (d : Dev) : cellView (queueSamples f d) = cellView d := by
  unfold queueSamples
  simp only [↓cellView_enqueue, ↓cellView_mk, cellView_fold, ↓cellView_ite, ite_self]

theorem cellView_frameSend (m0 : Time) (samples : List CurSample) (d : Dev) : cellView (frameSend m0 samples d) = cellView d := by
  unfold frameSend
  simp only [↓cellView_withCur, ↓cellView_keepFrame, ↓cellView_queueSamples, ↓cellView_ite, ite_self]

theorem cellView_noteSource (src idx : Nat) (d : Dev) : cellView (noteSource src idx d) = cellView d := by
  unfold noteSource
  simp only [↓cellView_occur, ↓cellView_withCur, ↓cellView_ite, ite_self]

set_option maxRecDepth 50000 in
theorem cellView_takeSamples (f : CurFrame) (d : Dev) : cellView (takeSamples f d) = cellView d := by
  unfold takeSamples
  simp (disch := decide) only [↓cellView_ite, ↓cellView_occur, ↓cellView_keepFrame, ↓cellView_withCur, ↓cellView_setReg, ↓cellView_fitU, ite_self]

theorem cellView_samplesRx (src : Nat) (f : CurFrame) (d : Dev) : cellView (samplesRx src f d) = cellView d := by
  unfold samplesRx
  simp only [↓cellView_idxAbort, ↓cellView_noteSource, ↓cellView_takeSamples, ↓cellView_ite, ite_self]

theorem cellView_srcChange (d : Dev) : cellView (srcChange d) = cellView d := by
  unfold srcChange
  simp only [↓cellView_withEng, ↓cellView_withCur]

theorem cellView_tempOf (code : Nat) (d : Dev) : cellView (tempOf code d).2 = cellView d := by
  unfold tempOf
  (repeat' split) <;> simp only [↓cellView_fitS]

theorem cellView_absCode (raw : Nat) (d : Dev) : cellView (absCode raw d).2 = cellView d := by
  unfold absCode
  simp only [↓cellView_fitU]

theorem cellView_auxLimits (k : Nat) (temp : Int) (bad : Bool) (d : Dev) : cellView (auxLimits k temp bad d) = cellView d := by
  unfold auxLimits
  simp (disch := decide) only [↓cellView_setRegBit, ↓cellView_latch, ↓cellView_gone, ↓cellView_mk, cellView_fold, ↓cellView_ite, ite_self]

theorem cellView_auxOpenShort (k : Nat) (isOpen isShort : Bool) (d : Dev) : cellView (auxOpenShort k isOpen isShort d) = cellView d := by
  unfold auxOpenShort
  simp (disch := decide) only [↓cellView_setRegBit, ↓cellView_occur, ↓cellView_ite, ite_self]

theorem cellView_auxSummary (k : Nat) (v : Int) (d : Dev) : cellView (auxSummary k v d) = cellView d := by
  unfold auxSummary
  simp only [↓cellView_mk, cellView_fold]

theorem cellView_auxUnguarded (k : Nat) (d : Dev) : cellView (auxUnguarded k d) = cellView d := by
  unfold auxUnguarded
  simp only [↓cellView_mk, cellView_fold]

theorem cellView_auxChannel (k : Nat) (conv : List Nat) (d : Dev) : cellView (auxChannel k conv d) = cellView d := by
  unfold auxChannel
  simp only [↓cellView_setReg, ↓cellView_tempOf, ↓cellView_absCode, ↓cellView_auxLimits, ↓cellView_auxOpenShort, ↓cellView_auxSummary,
    ↓cellView_auxUnguarded, ↓cellView_ite, ↓cellView_ite_snd, ite_self, ne_eq, add_ne_measCells, not_false_eq_true, Nat.reduceLT, R.auxRes,
      R.measCells]

theorem cellView_dieTemps (m c : Int) (d : Dev) : cellView (dieTemps m c d) = cellView d := by
  unfold dieTemps
  simp (disch := decide) only [↓cellView_fitS, ↓cellView_setReg, ↓cellView_mk, cellView_fold]

theorem cellView_noteNtc (d : Dev) : cellView (noteNtc d) = cellView d := by
  unfold noteNtc
  simp only [↓cellView_withEng, ↓cellView_mk, cellView_fold]

theorem cellView_scan (codes : List (List Nat)) (m c : Int) (d : Dev) : cellView (scan codes m c d) = cellView d := by
  unfold scan
  simp only [↓cellView_setRegBit, ↓cellView_auxChannel, ↓cellView_dieTemps, ↓cellView_noteNtc, ↓cellView_ite, ite_self, ↓cellView_each,
    implies_true, ne_eq, not_false_eq_true, Nat.reduceEqDiff, R.auxStat, R.measCells]

theorem cellView_setWire (p : Nat) (x : WirePort) (d : Dev) : cellView (setWire p x d) = cellView d := by
  unfold setWire
  (repeat' split) <;> simp only [↓cellView_mk, cellView_fold]

theorem cellView_wireGone (p st : Nat) (d : Dev) : cellView (wireGone p st d) = cellView d := by
  unfold wireGone
  simp only [↓cellView_post, ↓cellView_setWire, ↓cellView_ite, ite_self]

theorem cellView_wireBad (p : Nat) (d : Dev) : cellView (wireBad p d) = cellView d := by
  unfold wireBad
  simp only [↓cellView_setWire]

theorem cellView_wireGood (p : Nat) (ident : List Byte) (d : Dev) : cellView (wireGood p ident d) = cellView d := by
  unfold wireGood
  simp only [↓cellView_post, ↓cellView_setWire, ↓cellView_ite, ite_self]

theorem cellView_wireAlarm (p status : Nat) (d : Dev) : cellView (wireAlarm p status d) = cellView d := by
  unfold wireAlarm
  simp only [↓cellView_occur, ↓cellView_setWire, ↓cellView_ite, ite_self]

theorem cellView_wireCrc (p cmd : Nat) (d : Dev) : cellView (wireCrc p cmd d) = cellView d := by
  unfold wireCrc
  simp only [↓cellView_occur]

theorem cellView_wireSend (p : Nat) (l : List Byte) (d : Dev) : cellView (wireSend p l d) = cellView d := by
  unfold wireSend
  simp only [↓cellView_setWire]

theorem cellView_noteVwire (r : WireReply) (d : Dev) : cellView (noteVwire r d) = cellView d := by
  unfold noteVwire
  simp only [↓cellView_mk, cellView_fold]

theorem cellView_wirePower (p status : Nat) (d : Dev) : cellView (wirePower p status d) = cellView d := by
  unfold wirePower
  simp only [↓cellView_setWire, ↓cellView_ite, ite_self]

theorem cellView_wireFail {bad : Dev → Dev} (h : ∀ d, cellView (bad d) = cellView d) (p nin : Nat) (r : WireReply) (d : Dev) :
    cellView (wireFail p nin r bad d) = cellView d := by
  unfold wireFail
  simp only [↓cellView_ite, ↓cellView_wireGone, ↓h, ite_self]

theorem cellView_searchRun (p : Nat) (r : WireReply) (d : Dev) : cellView (searchRun p r d) = cellView d := by
  unfold searchRun
  dsimp only
  (repeat' split) <;> simp only [↓cellView_wireGone, ↓cellView_wireFail (cellView_wireBad p), ↓cellView_wireCrc, ↓cellView_wireGood,
    ↓cellView_wireBad, ↓cellView_wirePower, ↓cellView_wireAlarm, ↓cellView_wireSend]

theorem cellView_wireSearch (p : Nat) (r : WireReply) (d : Dev) : cellView (wireSearch p r d) = cellView d := by
  unfold wireSearch
  simp only [↓cellView_setWire, ↓cellView_noteVwire, ↓cellView_searchRun, ↓cellView_ite, ite_self]

theorem cellView_xferEnd (p h : Nat) (st status : Nat) (detail nin : Nat) (data : List Byte) (d : Dev) :
    cellView (xferEnd p h st status detail nin data d) = cellView d := by
  unfold xferEnd
  simp only [↓cellView_finish]

theorem cellView_xferDeny (h : Nat) (c : Desc) (d : Dev) : cellView (xferDeny h c d) = cellView d := by
  unfold xferDeny
  simp only [↓cellView_xferEnd]

theorem cellView_xferQueue (h : Nat) (c : Desc) (d : Dev) : cellView (xferQueue h c d) = cellView d := by
  unfold xferQueue
  simp only [↓cellView_setWire, ↓cellView_xferEnd, ↓cellView_xferDeny, ↓cellView_ite, ite_self]

theorem cellView_xferRun (p h : Nat) (c : Desc) (r : WireReply) (d : Dev) : cellView (xferRun p h c r d) = cellView d := by
  unfold xferRun
  dsimp only
  (repeat' split) <;> simp only [↓cellView_xferDeny, ↓cellView_xferEnd, ↓cellView_wireGone, ↓cellView_wireFail (bad := id) (fun _ => rfl),
    ↓cellView_wireCrc, ↓cellView_setWire, ↓cellView_wirePower, ↓cellView_wireAlarm, ↓cellView_wireSend]

theorem cellView_wireRun (p : Nat) (r : WireReply) (d : Dev) : cellView (wireRun p r d) = cellView d := by
  unfold wireRun
  dsimp only
  (repeat' split) <;> simp only [↓cellView_setWire, ↓cellView_noteVwire, ↓cellView_xferRun]

theorem cellView_spuOpen (p detail : Nat) (d : Dev) : cellView (spuOpen p detail d) = cellView d := by
  unfold spuOpen
  dsimp only
  (repeat' split) <;> simp only [↓cellView_setWire, ↓cellView_xferEnd]

theorem cellView_spuEnd (p : Nat) (d : Dev) : cellView (spuEnd p d) = cellView d := by
  unfold spuEnd
  simp only [↓cellView_spuOpen, ↓cellView_ite, ite_self]

theorem cellView_spuOverload (p : Nat) (d : Dev) : cellView (spuOverload p d) = cellView d := by
  unfold spuOverload
  simp only [↓cellView_occur, ↓cellView_spuOpen, ↓cellView_ite, ite_self]

theorem cellView_wireCommit (d : Dev) : cellView (wireCommit d) = cellView d := by
  unfold wireCommit
  simp only [↓cellView_setWire, ↓cellView_wireGone, ↓cellView_spuOpen, ↓cellView_ite, ite_self, ↓cellView_each, implies_true]

/-! ### Balancing (file 07) -/

theorem cellView_installAwake (p : BalPlan) (d : Dev) : cellView (installAwake p d) = cellView d := by
  unfold installAwake
  simp only [↓cellView_endTest, ↓cellView_balUpdate, ↓cellView_mk, cellView_fold]

theorem cellView_balPlan (h : Nat) (t : List Byte) (d : Dev) : cellView (balPlan h t d) = cellView d := by
  unfold balPlan
  simp only [↓cellView_finish, ↓cellView_installAwake, ↓cellView_mk, cellView_fold, ↓cellView_ite, ite_self]

theorem cellView_dropAwake (d : Dev) : cellView (dropAwake d) = cellView d := by
  unfold dropAwake
  simp only [↓cellView_endTest, ↓cellView_balUpdate, ↓cellView_mk, cellView_fold]

theorem cellView_balStop (c : Desc) (d : Dev) : cellView (balStop c d) = cellView d := by
  unfold balStop
  simp only [↓cellView_dropAwake, ↓cellView_mk, cellView_fold, ↓cellView_ite, ite_self]

theorem cellView_charge (n ma : Nat) (d : Dev) : cellView (charge n ma d) = cellView d := by
  unfold charge
  simp only [↓cellView_setReg, ↓cellView_mk, cellView_fold, ne_eq, add_ne_measCells, not_false_eq_true, Nat.reduceLT, R.balQbal, R.measCells]

theorem cellView_missing (n : Nat) (d : Dev) : cellView (missing n d) = cellView d := by
  unfold missing
  simp only [↓cellView_occur, ↓cellView_withBal, ↓cellView_ite, ite_self]

theorem cellView_missingFet (j : Nat) (d : Dev) : cellView (missingFet j d) = cellView d := by
  unfold missingFet
  (repeat' split) <;> simp only [↓cellView_missing]

theorem cellView_stepDone (j : Nat) (e : CoefEst) (ma : Nat) (d : Dev) : cellView (stepDone j e ma d) = cellView d := by
  unfold stepDone
  (repeat' split) <;> simp only [↓cellView_withBal, ↓cellView_endTest, ↓cellView_balUpdate, ↓cellView_estimate, ↓cellView_charge,
    ↓cellView_missingFet]

theorem cellView_pwmEdge (j : Nat) (t : Time) (e : CoefEst) (ma : Nat) (d : Dev) : cellView (pwmEdge j t e ma d) = cellView d := by
  unfold pwmEdge
  simp only [↓cellView_balUpdate, ↓cellView_estimate, ↓cellView_charge, ↓cellView_ite, ite_self]

theorem cellView_trackGap (j : Nat) (d : Dev) : cellView (trackGap j d) = cellView d := by
  unfold trackGap
  dsimp only
  (repeat' split) <;> simp only [↓cellView_freeWord, ↓cellView_mk, cellView_fold]

theorem cellView_onOpen (tap : Nat) (d : Dev) : cellView (onOpen tap d) = cellView d := by
  unfold onOpen
  simp only [↓cellView_withBal, ↓cellView_forgetCoef, ↓cellView_ite, ite_self, ↓cellView_each, implies_true]

theorem cellView_openWire (t : Time) (tap : Nat) (dk dk1 : Int) (d : Dev) : cellView (openWire t tap dk dk1 d) = cellView d := by
  unfold openWire
  simp only [↓cellView_ite, ↓cellView_balUpdate, ↓cellView_owTest cellView_onOpen (fun _ _ => rfl), ↓cellView_owSettle, ite_self]

theorem cellView_takeReading (r : SwitchReading) (d : Dev) : cellView (takeReading r d) = cellView d := by
  unfold takeReading
  simp only [↓cellView_withBal, ↓cellView_charge, ↓cellView_missing, ↓cellView_ite, ite_self]

theorem cellView_chargeFets (d : Dev) : cellView (chargeFets d) = cellView d := by
  unfold chargeFets
  simp only [↓cellView_charge, ↓cellView_ite, ite_self, ↓cellView_each, implies_true]

theorem cellView_thermalUpdate (l : List SwitchReading) (d : Dev) : cellView (thermalUpdate l d) = cellView d := by
  unfold thermalUpdate
  simp only [↓cellView_fitS, ↓cellView_occur, ↓cellView_withBal, ↓cellView_setK, ↓cellView_balUpdate, ↓cellView_takeReading, ↓cellView_chargeFets,
    ↓cellView_mk, cellView_fold, ↓cellView_ite, ite_self, ↓cellView_each, implies_true]

theorem cellView_overcurrent (j ma us : Nat) (d : Dev) : cellView (overcurrent j ma us d) = cellView d := by
  unfold overcurrent
  simp only [↓cellView_occur, ↓cellView_withBal, ↓cellView_balUpdate, ↓cellView_charge, ↓cellView_ite, ite_self]

theorem cellView_holdExpire (j : Nat) (d : Dev) : cellView (holdExpire j d) = cellView d := by
  unfold holdExpire
  (repeat' split) <;> simp only [↓cellView_withBal, ↓cellView_balUpdate]

theorem cellView_limitExpire (j : Nat) (d : Dev) : cellView (limitExpire j d) = cellView d := by
  unfold limitExpire
  simp only [↓cellView_withBal, ↓cellView_balUpdate, ↓cellView_ite, ite_self]

theorem cellView_targetCell (d0 : Dev) (t : Time) (x : LaneSample) (d : Dev) : cellView (targetCell d0 t x d) = cellView d := by
  unfold targetCell
  simp only [↓cellView_withBal, ↓cellView_writeLane, ↓cellView_ite, ite_self]

theorem cellView_targetCheck (t : Time) (a : List LaneSample) (d : Dev) : cellView (targetCheck t a d) = cellView d := by
  unfold targetCheck
  simp only [↓cellView_balUpdate, ↓cellView_targetCell, ↓cellView_ite, ite_self, ↓cellView_each, implies_true]

theorem cellView_gzEnter (p : BalPlan) (d : Dev) : cellView (gzEnter p d) = cellView d := by
  unfold gzEnter
  simp only [↓cellView_mk, cellView_fold]

theorem cellView_gzLastMa (n : Nat) (g : Gazebo) (d : Dev) : cellView (gzLastMa n g d).2 = cellView d := by
  unfold gzLastMa
  dsimp only
  (repeat' split) <;> simp only [↓cellView_freeWord]

theorem cellView_gzTail (g : Gazebo) (d : Dev) : cellView (gzTail g d).2 = cellView d :=
  each_kept (view := fun x : Gazebo × Dev => cellView x.2) (fun n _ x => cellView_gzLastMa n x.1 x.2) (g, d)

theorem cellView_gzEnd (reason cell : Nat) (d : Dev) : cellView (gzEnd reason cell d) = cellView d := by
  unfold gzEnd
  dsimp only
  (repeat' split) <;> simp only [↓cellView_gzTail, ↓cellView_mk, cellView_fold]

/-! ### Check-value units and buckets (file 12) -/

theorem cellView_setChk (n : Nat) (u : ChkUnit) (d : Dev) : cellView (setChk n u d) = cellView d := by
  unfold setChk
  simp only [↓cellView_mk, cellView_fold, ↓cellView_ite, ite_self]

theorem cellView_onChk {f : Dev → Dev} (h : ∀ d, cellView (f d) = cellView d) (n : Nat) (d : Dev) : cellView (onChk n f d) = cellView d := by
  unfold onChk
  simp only [↓cellView_ite, ↓h, ite_self]

/-- The registers of a check unit lie after MEAS_CELLS. -/
theorem chkStat_ne_measCells (n : Nat) : chkOff R.chkStat n ≠ R.measCells := add_ne_measCells (by decide) _

theorem chkAcnt_ne_measCells (n : Nat) : chkOff R.chkAcnt n ≠ R.measCells := add_ne_measCells (by decide) _

theorem cellView_chkFeed (n bytes : Nat) (v : Word) (d : Dev) : cellView (chkFeed n bytes v d) = cellView d := by
  unfold chkFeed
  simp only [↓cellView_setReg (chkStat_ne_measCells n), ↓cellView_setChk]

theorem cellView_chkRestart (n : Nat) (d : Dev) : cellView (chkRestart n d) = cellView d := by
  unfold chkRestart
  simp only [↓cellView_setReg (chkStat_ne_measCells n), ↓cellView_setChk]

theorem cellView_chkCompare (n : Nat) (d : Dev) : cellView (chkCompare n d) = cellView d := by
  unfold chkCompare
  simp only [↓cellView_ite, ↓cellView_post, ↓cellView_setReg (chkStat_ne_measCells n), ite_self]

theorem cellView_alvError (n kind v exp : Nat) (d : Dev) : cellView (alvError n kind v exp d) = cellView d := by
  unfold alvError
  simp only [↓cellView_ite, ↓cellView_post, ↓cellView_bump (chkAcnt_ne_measCells n), ite_self]

theorem cellView_alvCheck (n : Nat) (w : Word) (d : Dev) : cellView (alvCheck n w d) = cellView d := by
  unfold alvCheck
  simp only [↓cellView_ite, ↓cellView_alvError, ↓cellView_setReg (chkStat_ne_measCells n), ↓cellView_setChk, ite_self]

theorem cellView_bucketLeak (src inst : Nat) (d : Dev) : cellView (bucketLeak src inst d) = cellView d := by
  unfold bucketLeak
  (repeat' split) <;> simp only [↓cellView_leak, ↓cellView_gone, ↓cellView_ite, ite_self]

/-! ### Samples and trackers (file 06) -/

theorem cellView_meanNtc (d : Dev) : cellView (meanNtc d).2 = cellView d := by
  unfold meanNtc
  dsimp only
  (repeat' split) <;> simp only [↓cellView_freeWord]

theorem cellView_gather (g : GridSample) (d : Dev) : cellView (gather g d) = cellView d := by
  unfold gather
  (repeat' split) <;> simp only [↓cellView_withEng]

theorem cellView_setTrack (n : Nat) (x : Track) (d : Dev) : cellView (setTrack n x d) = cellView d := by
  unfold setTrack
  simp only [↓cellView_withEng]

theorem cellView_trackSample (g : GridSample) (d : Dev) : cellView (trackSample g d) = cellView d := by
  unfold trackSample
  dsimp only
  (repeat' split) <;> simp only [↓cellView_meanNtc, ↓cellView_setTrack]

theorem cellView_engineTake (g : GridSample) (d : Dev) : cellView (engineTake g d) = cellView d := by
  unfold engineTake
  simp only [↓cellView_gather, ↓cellView_trackSample, ↓cellView_ite, ite_self]

theorem cellView_engineRun (l : List EngSample) (d : Dev) : cellView (engineRun l d) = cellView d := by
  unfold engineRun
  simp only [↓cellView_withEng, ↓cellView_engineTake, ↓cellView_each, implies_true]

theorem cellView_freeDev (d : Dev) : cellView (freeDev d).2 = cellView d := by
  unfold freeDev
  simp only [↓cellView_mk, cellView_fold]

theorem cellView_restCorrect (n : Nat) (d : Dev) : cellView (restCorrect n d) = cellView d := by
  unfold restCorrect
  dsimp only
  (repeat' split) <;> simp only [↓cellView_meanNtc, ↓cellView_setTrack, ↓cellView_freeDev]

theorem cellView_detect (n : Nat) (d : Dev) : cellView (detect n d) = cellView d := by
  unfold detect
  simp only [↓cellView_occur, ↓cellView_withAcc, ↓cellView_setTrack, ↓cellView_ite, ite_self]

theorem cellView_trackSecond (n : Nat) (d : Dev) : cellView (trackSecond n d) = cellView d := by
  unfold trackSecond
  simp only [↓cellView_setTrack, ↓cellView_freeDev, ↓cellView_restCorrect, ↓cellView_detect, ↓cellView_ite, ite_self]

end Sys2Proof.Machine
end

section
/-! SUPPORT. Engines, memories and self-tests (files 06, 13, 14): MEAS_CELLS and the waiting commits stay (R65, R338). -/

namespace Sys2Proof.Machine

/-! ### Engines at work (file 06) -/

theorem cellView_putGot (n : Nat) (l : List (Nat × Gathered)) (d : Dev) : cellView (putGot n l d) = cellView d := by
  unfold putGot
  simp only [↓cellView_withEng]

theorem cellView_writeCkpt (k : Nat) (d : Dev) : cellView (writeCkpt k d) = cellView d := by
  unfold writeCkpt
  simp only [↓cellView_withEng, ↓cellView_ite, ite_self, ↓cellView_each, implies_true]

theorem cellView_checkpoint (engines : List Nat) (samples : List EngSample) (d : Dev) : cellView (checkpoint engines samples d) = cellView d := by
  unfold checkpoint
  simp only [↓cellView_engineRun, ↓cellView_writeCkpt, ↓cellView_ite, ite_self, ↓cellView_each, implies_true]

theorem cellView_checkpointMissed (k cause : Nat) (d : Dev) : cellView (checkpointMissed k cause d) = cellView d := by
  unfold checkpointMissed
  simp only [↓cellView_engineFail, ↓cellView_ite, ite_self]

theorem cellView_loseSamples (n : Nat) (l : List Nat) (d : Dev) : cellView (loseSamples n l d) = cellView d := by
  refine cellView_each (fun T e => ?_) l d
  split
  · exact cellView_putGot ..
  · rfl

theorem cellView_replayDone (n : Nat) (samples : List EngSample) (d : Dev) : cellView (replayDone n samples d) = cellView d := by
  unfold replayDone
  simp only [↓cellView_occur, ↓cellView_withEng, ↓cellView_engineTake, ↓cellView_engineRun, ↓cellView_putGot, ↓cellView_loseSamples,
    ↓cellView_ite, ite_self, ↓cellView_each, implies_true]

theorem cellView_holdJob (h : Nat) (c : Desc) (tab : List Byte) (d : Dev) : cellView (holdJob h c tab d) = cellView d := by
  unfold holdJob
  simp only [↓cellView_withEng]

theorem cellView_toActive (d : Dev) : cellView (toActive d) = cellView d := by
  unfold toActive
  simp only [↓cellView_mk, cellView_fold]

theorem cellView_impBegin (h : Nat) (c : Desc) (list : List Byte) (d : Dev) : cellView (impBegin h c list d) = cellView d := by
  unfold impBegin
  simp only [↓cellView_finish, ↓cellView_withEng, ↓cellView_holdJob, ↓cellView_toActive, ↓cellView_ite, ite_self]

theorem cellView_shedReplay (d : Dev) : cellView (shedReplay d) = cellView d := by
  unfold shedReplay
  simp only [↓cellView_withEng, ↓cellView_putGot, ↓cellView_mk, cellView_fold, ↓cellView_each, implies_true]

theorem cellView_impStart (h : Nat) (d : Dev) : cellView (impStart h d) = cellView d := by
  unfold impStart
  (repeat' split) <;> simp only [↓cellView_withEng, ↓cellView_balUpdate, ↓cellView_impFinish, ↓cellView_mk, cellView_fold, ↓cellView_ite, ite_self]

theorem cellView_excitePhase (h point : Nat) (odd : Bool) (sub : Nat) (d : Dev) : cellView (excitePhase h point odd sub d) = cellView d := by
  unfold excitePhase
  (repeat' split) <;> simp only [↓cellView_withEng, ↓cellView_balUpdate, ↓cellView_mk, cellView_fold, ↓cellView_ite, ite_self]

theorem cellView_impEnd (h : Nat) (lines : List RippleStep) (l : List CellSpectra) (samples : List EngSample) (d : Dev) :
    cellView (impEnd h lines l samples d) = cellView d := by
  unfold impEnd
  dsimp only
  (repeat' split) <;> simp only [↓cellView_impFinish, ↓cellView_engineRun, ↓cellView_mk, cellView_fold]

theorem cellView_takeModels (d : Dev) : cellView (takeModels d) = cellView d := by
  unfold takeModels
  simp only [↓cellView_withEng]

theorem cellView_trackerUpdate (samples : List EngSample) (load : List Nat) (d : Dev) :
    cellView (trackerUpdate samples load d) = cellView d := by
  have hload : ∀ (w : Nat → Word) l e, cellView (each (fun k d => setReg (R.engLoad + 4 * k) (w k) d) l e) = cellView e := fun w l e =>
    cellView_each (fun k e => cellView_setReg (add_ne_measCells (by decide) _) ..) l e
  unfold trackerUpdate
  simp only [↓cellView_ite, ↓cellView_takeModels, ↓cellView_toActive, ↓cellView_each cellView_trackSecond, ↓hload, ↓cellView_withEng,
    ↓cellView_engineRun, ite_self]

theorem cellView_trackSave (d : Dev) : cellView (trackSave d) = cellView d := by
  unfold trackSave
  simp only [↓cellView_logRec, ↓cellView_withEng, ↓cellView_ite, ite_self, ↓cellView_each, implies_true]

theorem cellView_trackRestore (d : Dev) : cellView (trackRestore d) = cellView d := by
  unfold trackRestore
  simp only [↓cellView_withEng]

/-! ### ESTIMATE and MODEL_LOAD (file 06) -/

theorem cellView_estBegin (h : Nat) (c : Desc) (b : Both) : cellView (estBegin h c b).1 = cellView b.1 := by
  unfold estBegin
  simp only [↓cellView_finish, ↓cellView_withEng, ↓cellView_holdJob, ↓cellView_toActive, ↓cellView_ite_fst, ite_self]

theorem cellView_setToff (l : List BandSums) (n : Nat) (d : Dev) : cellView (setToff l n d) = cellView d := by
  unfold setToff
  simp only [↓cellView_fitS, ↓cellView_hwStand, ↓cellView_meanNtc, ne_eq, add_ne_measCells, not_false_eq_true, Nat.reduceLT, R.engToff, R.measCells]

theorem cellView_noteTemps (j : EstJob) (l : List BandSums) (d : Dev) : cellView (noteTemps j l d) = cellView d := by
  unfold noteTemps
  simp only [↓cellView_withAcc, ↓cellView_ite, ite_self, ↓cellView_each, implies_true]

theorem cellView_estEnd (h : Nat) (lines : List RippleStep) (sp : List CellSpectra) (d : Dev) : cellView (estEnd h lines sp d) = cellView d := by
  unfold estEnd
  (repeat' split) <;> simp only [↓cellView_estFinish, ↓cellView_setToff, ↓cellView_noteTemps, ↓cellView_mk, cellView_fold, ↓cellView_ite,
    ite_self, ↓cellView_each, implies_true]

theorem cellView_loadModel (h : Nat) (c : Desc) (t : List Byte) (d : Dev) : cellView (loadModel h c t d) = cellView d := by
  unfold loadModel
  simp only [↓cellView_finish, ↓cellView_withEng, ↓cellView_holdJob, ↓cellView_ite, ite_self]

/-! ### Memories (file 13) -/

theorem cellView_withMem (f : Mem → Mem) (d : Dev) : cellView (withMem f d) = cellView d := by
  unfold withMem
  simp only [↓cellView_mk, cellView_fold]

theorem cellView_decoded (e : BitVec 79) (d : Dev) : cellView (decoded e d).2 = cellView d := by
  unfold decoded
  simp only [↓cellView_freeWord, ↓cellView_ite_snd, ite_self]

theorem cellView_addWear (area : Nat) (d : Dev) : cellView (addWear area d) = cellView d := by
  unfold addWear
  simp only [↓cellView_withMem]

theorem cellView_retire (s : Nat) (d : Dev) : cellView (retire s d) = cellView d := by
  unfold retire
  simp only [↓cellView_withMem, ↓cellView_ite, ite_self]

theorem cellView_noteError (m addr bits : Nat) (d : Dev) : cellView (noteError m addr bits d) = cellView d := by
  unfold noteError
  (repeat' split) <;> simp (disch := decide) only [↓cellView_bump, ↓cellView_withMem]

theorem cellView_corrected (m addr bits : Nat) (d : Dev) : cellView (corrected m addr bits d) = cellView d := by
  unfold corrected
  simp only [↓cellView_postAt, ↓cellView_withMem, ↓cellView_noteError, ↓cellView_ite, ite_self]

theorem cellView_uncorrectable (m addr : Nat) (d : Dev) : cellView (uncorrectable m addr d) = cellView d := by
  unfold uncorrectable
  simp only [↓cellView_post, ↓cellView_withMem, ↓cellView_noteError, ↓cellView_ite, ite_self]

theorem cellView_setBank (b : Bool) (x : FwBank) (d : Dev) : cellView (setBank b x d) = cellView d := by
  unfold setBank
  simp only [↓cellView_withMem]

theorem cellView_recLost (o : Nat) (d : Dev) : cellView (recLost o d) = cellView d := by
  unfold recLost
  simp only [↓cellView_withBist]

theorem cellView_nvmLost (a : Nat) (d : Dev) : cellView (nvmLost a d) = cellView d := by
  unfold nvmLost
  simp only [↓cellView_setCalSlot, ↓cellView_setBank, ↓cellView_recLost, ↓cellView_mk, cellView_fold, ↓cellView_ite, ite_self]

theorem cellView_startRefresh (a : Nat) (d : Dev) : cellView (startRefresh a d) = cellView d := by
  unfold startRefresh
  simp only [↓cellView_withMem, ↓cellView_ite, ite_self]

theorem cellView_beginRefresh (addr : Nat) (d : Dev) : cellView (beginRefresh addr d) = cellView d := by
  unfold beginRefresh
  (repeat' split) <;> simp only [↓cellView_withMem, ↓cellView_startRefresh, ↓cellView_ite, ite_self]

theorem cellView_refreshDone (addr : Nat) (d : Dev) : cellView (refreshDone addr d) = cellView d := by
  unfold refreshDone
  dsimp only
  (repeat' split) <;> simp only [↓cellView_post, ↓cellView_withMem, ↓cellView_addWear, ↓cellView_startRefresh]

theorem cellView_memError (m addr bits : Nat) (d : Dev) : cellView (memError m addr bits d) = cellView d := by
  unfold memError
  simp only [↓cellView_engineFail, ↓cellView_corrected, ↓cellView_uncorrectable, ↓cellView_nvmLost, ↓cellView_beginRefresh, ↓cellView_ite, ite_self]

theorem cellView_sweepStart (d : Dev) : cellView (sweepStart d) = cellView d := by
  unfold sweepStart
  simp only [↓cellView_withMem, ↓cellView_ite, ite_self]

theorem cellView_nvmWord (addr : Nat) (e : BitVec 79) (d : Dev) : cellView (nvmWord addr e d) = cellView d := by
  unfold nvmWord
  simp only [↓cellView_decoded, ↓cellView_memError, ↓cellView_ite, ite_self]

theorem cellView_sweepSector (found : List (Nat × BitVec 79)) (d : Dev) : cellView (sweepSector found d) = cellView d := by
  unfold sweepSector
  simp only [↓cellView_withMem, ↓cellView_nvmWord, ↓cellView_ite, ite_self, ↓cellView_each, implies_true]

theorem cellView_refreshNext (d : Dev) : cellView (refreshNext d) = cellView d := by
  unfold refreshNext
  (repeat' split) <;> simp only [↓cellView_withMem, ↓cellView_refreshDone]

theorem cellView_refreshResume (d : Dev) : cellView (refreshResume d) = cellView d := by
  unfold refreshResume
  (repeat' split) <;> simp only [↓cellView_withMem, ↓cellView_refreshDone]

theorem cellView_lifeSave (d : Dev) : cellView (lifeSave d) = cellView d := by
  unfold lifeSave
  simp only [↓cellView_withDue, ↓cellView_logRec, ↓cellView_withMem, ↓cellView_ite, ite_self]

theorem cellView_checkParts (l : List Byte) (n i : Nat) (d : Dev) : cellView (checkParts i l n d) = cellView d := by
  induction n generalizing i l d with
  | zero => rfl
  | succ n ih => exact (ih ..).trans (cellView_logRec ..)

theorem cellView_summarySave (d : Dev) : cellView (summarySave d) = cellView d := by
  unfold summarySave
  simp only [↓cellView_ite, ↓cellView_withDue, ↓cellView_checkParts, ↓cellView_withMem, ite_self]

theorem cellView_openSummary (num utc flags : Nat) (d : Dev) : cellView (openSummary num utc flags d) = cellView d := by
  unfold openSummary
  simp only [↓cellView_withMem]

theorem cellView_closeNow (flags utc nextFlags : Nat) (d : Dev) : cellView (closeNow flags utc nextFlags d) = cellView d := by
  unfold closeNow
  simp only [↓cellView_clearBad, ↓cellView_withMem, ↓cellView_openSummary, ↓cellView_ite, ite_self]

theorem cellView_closeSummary (flags utc nextFlags : Nat) (d : Dev) : cellView (closeSummary flags utc nextFlags d) = cellView d := by
  unfold closeSummary
  simp only [↓cellView_withDue, ↓cellView_closeNow, ↓cellView_ite, ite_self]

theorem cellView_writeDue (d : Dev) : cellView (writeDue d) = cellView d := by
  unfold writeDue
  dsimp only
  (repeat' split) <;> simp only [↓cellView_withDue, ↓cellView_logWrite, ↓cellView_withMem, ↓cellView_lifeSave, ↓cellView_summarySave,
    ↓cellView_closeNow, ↓cellView_each, implies_true]

theorem cellView_histBlocks (area first n : Nat) (held : List (Nat × (List Byte × Bool))) (h : Nat) (d : Dev) :
    cellView (histBlocks area first n held h d) = cellView d := by
  unfold histBlocks
  simp only [↓cellView_freeWord, ↓cellView_finish]

theorem cellView_histOpen (area num : Nat) (bad : Bool) (bytes : List Byte) (lo hi h : Nat) (d : Dev) :
    cellView (histOpen area num bad bytes lo hi h d) = cellView d := by
  unfold histOpen
  simp only [↓cellView_finish]

theorem cellView_histRead (h : Nat) (c : Desc) (d : Dev) : cellView (histRead h c d) = cellView d := by
  unfold histRead
  dsimp only
  (repeat' split) <;> simp only [↓cellView_freeWord, ↓cellView_finish, ↓cellView_histBlocks, ↓cellView_histOpen]

theorem cellView_histMark (h : Nat) (c : Desc) (d : Dev) : cellView (histMark h c d) = cellView d := by
  unfold histMark
  simp only [↓cellView_withMem]

theorem cellView_markActs (j : MarkJob) (d : Dev) : cellView (markActs j d) = cellView d := by
  unfold markActs
  simp only [↓cellView_logRec, ↓cellView_withMem, ↓cellView_closeSummary, ↓cellView_ite, ite_self]

theorem cellView_markDone (ok : Bool) (d : Dev) : cellView (markDone ok d) = cellView d := by
  unfold markDone
  (repeat' split) <;> simp only [↓cellView_finish, ↓cellView_withMem, ↓cellView_markActs]

theorem cellView_fwEnd (j : Install) (st detail : Nat) (d : Dev) : cellView (fwEnd j st detail d) = cellView d := by
  unfold fwEnd
  simp only [↓cellView_finish, ↓cellView_withMem]

theorem cellView_fwWipe (j : Install) (d : Dev) : cellView (fwWipe j d) = cellView d := by
  unfold fwWipe
  simp only [↓cellView_clearBad, ↓cellView_addWear, ↓cellView_setBank]

theorem cellView_unmark (b : Bool) (d : Dev) : cellView (unmark b d) = cellView d := by
  unfold unmark
  simp only [↓cellView_setBank]

theorem cellView_fwHeader (j : Install) (x : List Byte) (d : Dev) : cellView (fwHeader j x d) = cellView d := by
  unfold fwHeader
  simp only [↓cellView_withMem, ↓cellView_fwEnd, ↓cellView_fwWipe, ↓cellView_ite, ite_self]

theorem cellView_fwArrived (d : Dev) : cellView (fwArrived d) = cellView d := by
  unfold fwArrived
  (repeat' split) <;> simp only [↓cellView_fwHeader]

theorem cellView_fwBegin (h : Nat) (c : Desc) (b : Both) : cellView (fwBegin h c b).1 = cellView b.1 := by
  unfold fwBegin
  (repeat' split) <;> simp only [↓cellView_finish, ↓cellView_withMem, ↓cellView_unmark, ↓cellView_fwHeader, ↓cellView_fwArrived,
    ↓cellView_ite_fst, ite_self]

theorem cellView_fwNvm (op : NvmOp) (ok : Bool) (x : Option (List Byte)) (d : Dev) : cellView (fwNvm op ok x d) = cellView d := by
  unfold fwNvm
  (repeat' split) <;> simp only [↓cellView_withMem, ↓cellView_setBank, ↓cellView_fwEnd, ↓cellView_fwWipe, ↓cellView_ite, ite_self]

/-! ### Self-tests and repair (file 14) -/

theorem cellView_testBanks (l : List BankFails) (d : Dev) : cellView (testBanks l d) = cellView d := by
  unfold testBanks
  simp only [↓cellView_withBist, ↓cellView_testBank, ↓cellView_each, implies_true]

theorem cellView_appendRec (rec : List Byte) (d : Dev) : cellView (appendRec rec d) = cellView d := by
  unfold appendRec
  simp only [↓cellView_clearBad, ↓cellView_withBist, ↓cellView_mk, cellView_fold, ↓cellView_ite, ite_self]

theorem cellView_postResults (mem logic : Nat) (d : Dev) : cellView (postResults mem logic d) = cellView d := by
  unfold postResults
  simp only [↓cellView_post]

theorem cellView_runMem (transparent : Bool) (r : SelfTestRun) (d : Dev) : cellView (runMem transparent r d).1 = cellView d := by
  unfold runMem
  simp only [↓cellView_testBanks, ↓cellView_ite_fst, ite_self]

theorem cellView_runTest (kind : Nat) (transparent : Bool) (r : SelfTestRun) (d : Dev) :
    cellView (runTest kind transparent r d).1 = cellView d := by
  unfold runTest
  simp only [↓cellView_runMem]

theorem cellView_applyRepair (d : Dev) : cellView (applyRepair d) = cellView d := by
  unfold applyRepair
  (repeat' split) <;> simp only [↓cellView_withBist]

theorem cellView_writeRepair (d : Dev) : cellView (writeRepair d) = cellView d := by
  unfold writeRepair
  simp only [↓cellView_withBist, ↓cellView_addWear]

theorem cellView_repairNvm (ok : Bool) (d : Dev) : cellView (repairNvm ok d) = cellView d := by
  unfold repairNvm
  dsimp only
  (repeat' split) <;> simp only [↓cellView_finish, ↓cellView_withBist, ↓cellView_writeRepair]

theorem cellView_repairBegin (h : Nat) (c : Desc) (bad : List (Nat × Nat)) (d : Dev) : cellView (repairBegin h c bad d) = cellView d := by
  unfold repairBegin
  (repeat' split) <;> simp only [↓cellView_finish, ↓cellView_withBist, ↓cellView_mk, cellView_fold]

theorem cellView_laneStage (g : LaneGroup) (cell : Nat) (spareOk stageOk : Bool) (d : Dev) :
    cellView (laneStage g cell spareOk stageOk d) = cellView d := by
  unfold laneStage
  simp only [↓cellView_withStages, ↓cellView_stageBegin, ↓cellView_ite, ite_self]

theorem cellView_reportRecord (h : Nat) (d : Dev) : cellView (reportRecord h d) = cellView d := by
  unfold reportRecord
  (repeat' split) <;> simp only [↓cellView_finish]

theorem cellView_testLane (h m : Nat) (r : OnlineTest) (d : Dev) : cellView (testLane h m r d) = cellView d := by
  unfold testLane
  simp only [↓cellView_finish, ↓cellView_withStages, ↓cellView_stageTry, ↓cellView_ite, ite_self]

theorem cellView_testGroup (h k : Nat) (r : OnlineTest) (d : Dev) : cellView (testGroup h k r d) = cellView d := by
  unfold testGroup
  simp only [↓cellView_finish, ↓cellView_withBist, ↓cellView_cmpBegin, ↓cellView_ite, ite_self]

theorem cellView_testEngine (h k : Nat) (r : OnlineTest) (d : Dev) : cellView (testEngine h k r d) = cellView d := by
  unfold testEngine
  simp only [↓cellView_finish, ↓cellView_withBist, ↓cellView_mk, cellView_fold, ↓cellView_ite, ite_self]

theorem cellView_selftest (h : Nat) (c : Desc) (r : OnlineTest) (d : Dev) : cellView (selftest h c r d) = cellView d := by
  unfold selftest
  (repeat' split) <;> simp only [↓cellView_finish, ↓cellView_reportRecord, ↓cellView_testLane, ↓cellView_testGroup, ↓cellView_testEngine]

end Sys2Proof.Machine
end

section
/-! SUPPORT. Links and ring (files 08, 09, 10): MEAS_CELLS and the waiting commits stay (R65, R338). -/

namespace Sys2Proof.Machine

/-! ### Link ports (file 08) -/

theorem cellView_withPort (p : Port) (f : LinkPort → LinkPort) (d : Dev) : cellView (withPort p f d) = cellView d := by
  unfold withPort
  simp only [↓cellView_setPort]

theorem cellView_withRing (f : Ring → Ring) (d : Dev) : cellView (withRing f d) = cellView d := by
  unfold withRing
  simp only [↓cellView_mk, cellView_fold]

theorem cellView_withTone (f : Tone → Tone) (d : Dev) : cellView (withTone f d) = cellView d := by
  unfold withTone
  simp only [↓cellView_mk, cellView_fold]

theorem cellView_placeBreak (d : Dev) : cellView (placeBreak d) = cellView d := by
  unfold placeBreak
  simp only [↓cellView_withRing]

theorem cellView_recognise (d : Dev) : cellView (recognise d) = cellView d := by
  unfold recognise
  simp only [↓cellView_occur, ↓cellView_withRing, ↓cellView_placeBreak, ↓cellView_ite, ite_self]

theorem cellView_bound (low : Bool) (k : Nat) (d : Dev) : cellView (bound low k d) = cellView d := by
  unfold bound
  simp only [↓cellView_withRing, ↓cellView_recognise, ↓cellView_ite, ite_self]

theorem cellView_beginTraining (p : Port) (d : Dev) : cellView (beginTraining p d) = cellView d := by
  unfold beginTraining
  simp only [↓cellView_withPort]

theorem cellView_hopDown (p : Port) (cause cap : Nat) (d : Dev) : cellView (hopDown p cause cap d) = cellView d := by
  unfold hopDown
  (repeat' split) <;> simp only [↓cellView_setPort, ↓cellView_occur, ↓cellView_withRing, ↓cellView_bound, ↓cellView_beginTraining]

theorem cellView_downIfUp (p : Port) (cause cap : Nat) (d : Dev) : cellView (downIfUp p cause cap d) = cellView d := by
  unfold downIfUp
  simp only [↓cellView_hopDown, ↓cellView_ite, ite_self]

theorem cellView_retrain (p : Port) (d : Dev) : cellView (retrain p d) = cellView d := by
  unfold retrain
  (repeat' split) <;> simp only [↓cellView_withPort, ↓cellView_beginTraining, ↓cellView_hopDown]

theorem cellView_linkCmd (v : Word) (d : Dev) : cellView (linkCmd v d) = cellView d := by
  unfold linkCmd
  simp only [↓cellView_retrain, ↓cellView_ite, ite_self]

theorem cellView_rateFailed (p : Port) (d : Dev) : cellView (rateFailed p d) = cellView d := by
  unfold rateFailed
  simp only [↓cellView_setPort, ↓cellView_occur, ↓cellView_ite, ite_self]

theorem cellView_listenNext (p : Port) (d : Dev) : cellView (listenNext p d) = cellView d := by
  unfold listenNext
  simp only [↓cellView_setPort, ↓cellView_ite, ite_self]

theorem cellView_latchTrip (e : Nat × Bool) (d : Dev) : cellView (latchTrip e d) = cellView d := by
  unfold latchTrip
  simp only [↓cellView_latch, ↓cellView_gone, ↓cellView_withAcc]

theorem cellView_latchTrips (d : Dev) : cellView (latchTrips d) = cellView d := by
  unfold latchTrips
  simp only [↓cellView_latchTrip, ↓cellView_mk, cellView_fold, ↓cellView_each, implies_true]

theorem cellView_noteDeparture (at' : Nat) (f : Frame) (d : Dev) : cellView (noteDeparture at' f d) = cellView d := by
  unfold noteDeparture
  simp only [↓cellView_mk, cellView_fold, ↓cellView_ite, ite_self]

theorem cellView_sendBurst (p : Port) (start : Time) (d : Dev) : cellView (sendBurst p start d) = cellView d := by
  unfold sendBurst
  dsimp only
  (repeat' split) <;> simp only [↓cellView_setPort, ↓cellView_noteDeparture]

theorem cellView_trainBurst (p : Port) (start : Time) (d : Dev) : cellView (trainBurst p start d) = cellView d := by
  unfold trainBurst
  simp only [↓cellView_setPort, ↓cellView_ite, ite_self]

theorem cellView_answerBurst {send : Port → Time → Dev → Dev} (h : ∀ p t d, cellView (send p t d) = cellView d) (p : Port) (d : Dev) :
    cellView (answerBurst send p d) = cellView d := (h ..).trans (cellView_freeWord d)

theorem cellView_endForward (d : Dev) : cellView (endForward d) = cellView d := by
  unfold endForward
  (repeat' split) <;> simp only [↓cellView_withPort, ↓cellView_withTone]

theorem cellView_toneOnUp (p : Port) (d : Dev) : cellView (toneOnUp p d) = cellView d := by
  unfold toneOnUp
  simp only [↓cellView_withPort, ↓cellView_endForward]

theorem cellView_linkUp (p : Port) (ex : List DlyStamps) (d : Dev) : cellView (linkUp p ex d) = cellView d := by
  unfold linkUp
  simp only [↓cellView_setPort, ↓cellView_latchTrips, ↓cellView_sendBurst, ↓cellView_toneOnUp, ↓cellView_ite, ite_self]

theorem cellView_exchange (p : Port) (e : DlyStamps) (d : Dev) : cellView (exchange p e d) = cellView d := by
  unfold exchange
  simp only [↓cellView_setPort, ↓cellView_ite, ite_self]

theorem cellView_nextAlive (p : Port) (d : Dev) : cellView (nextAlive p d) = cellView d := by
  unfold nextAlive
  simp only [↓cellView_withPort]

/-- The counters of a port lie after MEAS_CELLS. -/
theorem cntOff_ne_measCells (p : Port) (k : Nat) : cntOff p k ≠ R.measCells := by
  cases p <;> exact add_ne_measCells (by decide) _

theorem cellView_dropFrame (p : Port) (f : Frame) (d : Dev) : cellView (dropFrame p f d) = cellView d := by
  unfold dropFrame
  simp only [↓cellView_ite, ↓cellView_downIfUp, ↓cellView_occur, ↓cellView_bump (cntOff_ne_measCells p _), ↓cellView_nextAlive, ite_self]

theorem cellView_takeAnswer (p : Port) (ans : Option Answer) (d : Dev) : cellView (takeAnswer p ans d) = cellView d := by
  unfold takeAnswer
  dsimp only
  (repeat' split) <;> simp only [↓cellView_nextAlive, ↓cellView_setPort, ↓cellView_bump (cntOff_ne_measCells p _),
    ↓cellView_dropFrame]

theorem cellView_reclaimLine (d : Dev) : cellView (reclaimLine d) = cellView d := by
  unfold reclaimLine
  simp only [↓cellView_sendBurst, ↓cellView_trainBurst, ↓cellView_ite, ite_self]

theorem cellView_linkError (p : Port) (cause : Nat) (d : Dev) : cellView (linkError p cause d) = cellView d := by
  unfold linkError
  simp only [↓cellView_ite, ↓cellView_downIfUp, ↓cellView_occur, ite_self]
  split <;> exact cellView_bump (cntOff_ne_measCells p _) ..

theorem cellView_countBad (p : Port) (l : List Sym) (d : Dev) : cellView (countBad p l d) = cellView d := by
  unfold countBad
  induction l.filter (fun c => decide (c = .bad)) generalizing d with
  | nil => rfl
  | cons x r ih => exact (ih _).trans (cellView_linkError ..)

theorem cellView_trainRx (p : Port) (groups : List Nat) (d : Dev) : cellView (trainRx p groups d) = cellView d := by
  unfold trainRx
  simp only [↓cellView_ite, ↓cellView_rateFailed, ↓cellView_answerBurst cellView_trainBurst, ↓cellView_setPort, ite_self]

theorem cellView_burstRx (p : Port) (groups : List Nat) (d : Dev) : cellView (burstRx p groups d) = cellView d := by
  unfold burstRx
  dsimp only
  (repeat' split) <;> simp only [↓cellView_trainRx, ↓cellView_answerBurst cellView_sendBurst, ↓cellView_takeAnswer, ↓cellView_countBad,
    ↓cellView_setPort, ↓cellView_withPort]

theorem cellView_setAnswer (p : Port) (nak : Option Nat) (src alive : Nat) (d : Dev) : cellView (setAnswer p nak src alive d) = cellView d := by
  unfold setAnswer
  simp only [↓cellView_withPort]

theorem cellView_cutSend (q : Port) (th : Nat) (f : Frame) (aborted : Bool) (d : Dev) : cellView (cutSend q th f aborted d) = cellView d := by
  unfold cutSend
  dsimp only
  (repeat' split) <;> simp only [↓cellView_freeWord, ↓cellView_setPort]

theorem cellView_forward (th : Nat) (p : Port) (f : Frame) (d : Dev) : cellView (forward th p f d) = cellView d := by
  unfold forward
  simp (disch := decide) only [↓cellView_bump, ↓cellView_enqueue, ↓cellView_cutSend, ↓cellView_ite, ite_self]

theorem cellView_buffer (p : Port) (th : Nat) (f : Frame) (d : Dev) : cellView (buffer p th f d) = cellView d := by
  unfold buffer
  simp only [↓cellView_withPort, ↓cellView_ite, ite_self]

section
variable {take : Port → Frame → Dev → Dev} (h : ∀ p f d, cellView (take p f d) = cellView d)
include h

theorem cellView_consume (th : Nat) (p : Port) (f : Frame) (d : Dev) : cellView (consume take th p f d) = cellView d := by
  unfold consume
  simp (disch := decide) only [↓cellView_ite, ↓cellView_bump, ↓cellView_enqueue, ↓h, ↓cellView_buffer, ite_self]

theorem cellView_deliver (th : Nat) (p : Port) (f : Frame) (d : Dev) : cellView (deliver take th p f d) = cellView d := by
  unfold deliver
  simp only [↓cellView_ite, ↓cellView_consume h, ↓cellView_forward, ite_self]

end

theorem cellView_abortCopy (p : Port) (th : Nat) (f : Frame) (d : Dev) : cellView (abortCopy p th f d) = cellView d := by
  unfold abortCopy
  simp only [↓cellView_cutSend, ↓cellView_ite, ite_self]

theorem cellView_endCopy (p : Port) (body : List (Option Byte)) (d : Dev) : cellView (endCopy p body d) = cellView d := by
  unfold endCopy
  simp only [↓cellView_abortCopy, ↓cellView_ite, ite_self]

section
variable {take : Port → Frame → Dev → Dev} (h : ∀ p f d, cellView (take p f d) = cellView d)
include h

theorem cellView_checkFrame (p : Port) (fin : FrameEnd) (body : List (Option Byte)) (d : Dev) :
    cellView (checkFrame take p fin body d) = cellView d := by
  unfold checkFrame
  simp only [↓cellView_ite, ↓cellView_setAnswer, ↓cellView_endCopy, ↓cellView_linkError, ↓cellView_bump (cntOff_ne_measCells p _),
    ↓cellView_deliver h, ↓cellView_withPort, ite_self]

theorem cellView_frameRx (p : Port) (groups : List Nat) (d : Dev) : cellView (frameRx take p groups d) = cellView d := by
  unfold frameRx
  dsimp only
  (repeat' split) <;> simp only [↓cellView_endCopy, ↓cellView_checkFrame h, ↓cellView_countBad, ↓cellView_setPort]

end

theorem cellView_quietFrom (p : Port) (d : Dev) : cellView (quietFrom p d) = cellView d := by
  unfold quietFrom
  simp only [↓cellView_withPort]

theorem cellView_toneRepeat (d : Dev) : cellView (toneRepeat d) = cellView d := by
  unfold toneRepeat
  simp only [↓cellView_endForward, ↓cellView_mk, cellView_fold, ↓cellView_ite, ite_self]

theorem cellView_toneBurstEnd (d : Dev) : cellView (toneBurstEnd d) = cellView d := by
  unfold toneBurstEnd
  simp only [↓cellView_withTone, ↓cellView_mk, cellView_fold, ↓cellView_ite, ite_self]

theorem cellView_toneRx (p : Port) (d : Dev) : cellView (toneRx p d) = cellView d := by
  unfold toneRx
  simp only [↓cellView_withPort, ↓cellView_withTone, ↓cellView_ite, ite_self]

theorem cellView_toneConfirm (p : Port) (d : Dev) : cellView (toneConfirm p d) = cellView d := by
  unfold toneConfirm
  simp (disch := decide) only [↓cellView_bump, ↓cellView_setPort, ↓cellView_latch, ↓cellView_ite, ite_self]

theorem cellView_toneEnd (p : Port) (d : Dev) : cellView (toneEnd p d) = cellView d := by
  unfold toneEnd
  simp (disch := decide) only [↓cellView_bump, ↓cellView_setPort, ↓cellView_occur, ↓cellView_gone, ↓cellView_withTone, ↓cellView_quietFrom,
    ↓cellView_mk, cellView_fold, ↓cellView_ite, ite_self]

theorem cellView_lineRetake (p : Port) (d : Dev) : cellView (lineRetake p d) = cellView d := by
  unfold lineRetake
  (repeat' split) <;> simp only [↓cellView_withPort, ↓cellView_sendBurst]

theorem cellView_wakeOnUp (p : Port) (d : Dev) : cellView (wakeOnUp p d) = cellView d := by
  unfold wakeOnUp
  simp only [↓cellView_withPort, ↓cellView_hopDown, ↓cellView_ite, ite_self]

theorem cellView_driveWake (p : Port) (d : Dev) : cellView (driveWake p d) = cellView d := by
  unfold driveWake
  simp only [↓cellView_withPort]

theorem cellView_wakeOverAt (p : Port) (d : Dev) : cellView (wakeOverAt p d) = cellView d := by
  unfold wakeOverAt
  simp only [↓cellView_withPort, ↓cellView_beginTraining, ↓cellView_ite, ite_self]

theorem cellView_wakeStreamEnd (d : Dev) : cellView (wakeStreamEnd d) = cellView d := by
  unfold wakeStreamEnd
  simp only [↓cellView_finish, ↓cellView_wakeOverAt, ↓cellView_ite, ite_self, ↓cellView_each, implies_true]

/-! ### The ring (file 09) -/

theorem cellView_withTime (f : Timebase → Timebase) (d : Dev) : cellView (withTime f d) = cellView d := by
  unfold withTime
  simp only [↓cellView_mk, cellView_fold]

theorem cellView_sendEnum (p : Port) (e : EnumMsg) (d : Dev) : cellView (sendEnum p e d) = cellView d := by
  unfold sendEnum
  simp only [↓cellView_enqueue]

theorem cellView_passOn (p : Port) (f : Frame) (d : Dev) : cellView (passOn p f d) = cellView d := by
  unfold passOn
  simp only [↓cellView_forward]

theorem cellView_sendOn (p : Port) (typ seq : Nat) (pay : List Byte) (d : Dev) : cellView (sendOn p typ seq pay d) = cellView d := by
  unfold sendOn
  simp only [↓cellView_passOn]

theorem cellView_sendBeaconOn (p : Port) (seq : Nat) (pay : List Byte) (stamp : Nat) (d : Dev) :
    cellView (sendBeaconOn p seq pay stamp d) = cellView d := by
  unfold sendBeaconOn
  simp only [↓cellView_passOn]

theorem cellView_dropStuck (d : Dev) : cellView (dropStuck d) = cellView d := by
  unfold dropStuck
  simp only [↓cellView_withPort]

theorem cellView_setRoute (b : Nat) (d : Dev) : cellView (setRoute b d) = cellView d := by
  unfold setRoute
  simp only [↓cellView_withRing, ↓cellView_dropStuck, ↓cellView_ite, ite_self]

theorem cellView_takePosition (p : Port) (e : EnumMsg) (d : Dev) : cellView (takePosition p e d) = cellView d := by
  unfold takePosition
  simp only [↓cellView_withRing, ↓cellView_sendOn, ↓cellView_ite, ite_self]

theorem cellView_forgetLost (d : Dev) : cellView (forgetLost d) = cellView d := by
  unfold forgetLost
  simp only [↓cellView_gone, ↓cellView_mk, cellView_fold, ↓cellView_each, implies_true]

theorem cellView_enumBack (e : EnumMsg) (d : Dev) : cellView (enumBack e d) = cellView d := by
  unfold enumBack
  simp only [↓cellView_withRing, ↓cellView_sendEnum, ↓cellView_setRoute, ↓cellView_forgetLost]

theorem cellView_enumRx (p : Port) (e : EnumMsg) (d : Dev) : cellView (enumRx p e d) = cellView d := by
  unfold enumRx
  simp only [↓cellView_sendOn, ↓cellView_setRoute, ↓cellView_takePosition, ↓cellView_enumBack, ↓cellView_ite, ite_self]

theorem cellView_enumBegin (h : Nat) (b : Both) : cellView (enumBegin h b).1 = cellView b.1 := by
  unfold enumBegin
  simp only [↓cellView_finish, ↓cellView_withRing, ↓cellView_sendEnum, ↓cellView_ite_fst, ite_self]

theorem cellView_unknownRec (p : Nat) (acc : List (Nat × PosRec) × Dev) : cellView (unknownRec p acc).2 = cellView acc.2 := by
  unfold unknownRec
  simp only [↓cellView_freeWord]

theorem cellView_secondRecs (d : Dev) : cellView (secondRecs d) = cellView d := by
  have hrecs := each_kept (f := unknownRec) (view := fun x : List (Nat × PosRec) × Dev => cellView x.2) (l := heardPositions d)
    (fun p _ x => cellView_unknownRec p x) ([], d)
  unfold secondRecs
  simp only [↓cellView_placeBreak, ↓cellView_forgetLost, ↓cellView_withRing]
  exact hrecs

theorem cellView_enumFinish (d : Dev) : cellView (enumFinish d) = cellView d := by
  unfold enumFinish
  (repeat' split) <;> simp only [↓cellView_finish, ↓cellView_withRing, ↓cellView_secondRecs, ↓cellView_ite, ite_self]

theorem cellView_queueHeartbeat (p : Port) (stat : Nat) (hb : Heartbeat) (d : Dev) : cellView (queueHeartbeat p stat hb d) = cellView d := by
  unfold queueHeartbeat
  simp only [↓cellView_enqueue, ↓cellView_ite, ite_self]

theorem cellView_hbOver (e : OpenHb) (d : Dev) : cellView (hbOver e d) = cellView d := by
  unfold hbOver
  simp only [↓cellView_withRing]

theorem cellView_hbLate (d : Dev) : cellView (hbLate d) = cellView d := by
  unfold hbLate
  simp only [↓cellView_hbOver, ↓cellView_each, implies_true]

theorem cellView_heartbeatSend (d : Dev) : cellView (heartbeatSend d) = cellView d := by
  unfold heartbeatSend
  simp only [↓cellView_withRing, ↓cellView_enumFinish, ↓cellView_queueHeartbeat, ↓cellView_hbLate, ↓cellView_ite, ite_self]

theorem cellView_beaconSend (d : Dev) : cellView (beaconSend d) = cellView d := by
  unfold beaconSend
  simp only [↓cellView_enqueue, ↓cellView_withRing, ↓cellView_ite, ite_self]

theorem cellView_shiftHb (n : Nat) (d : Dev) : cellView (shiftHb n d) = cellView d := by
  unfold shiftHb
  simp only [↓cellView_mk, cellView_fold]

theorem cellView_timeStep (e : Int) (d : Dev) : cellView (timeStep e d) = cellView d := by
  unfold timeStep
  simp (disch := decide) only [↓cellView_advance, ↓cellView_bump, ↓cellView_occur, ↓cellView_shiftHb, ↓cellView_ite, ite_self]

theorem cellView_countMissed (n : Nat) (d : Dev) : cellView (countMissed n d) = cellView d := by
  unfold countMissed
  (repeat' split) <;> simp (disch := decide) only [↓cellView_bump, ↓cellView_withTime]

theorem cellView_holdover (d : Dev) : cellView (holdover d) = cellView d := by
  unfold holdover
  simp only [↓cellView_withTime, ↓cellView_ite, ite_self]

theorem cellView_timeLost (d : Dev) : cellView (timeLost d) = cellView d := by
  unfold timeLost
  simp only [↓cellView_occur, ↓cellView_withTime, ↓cellView_ite, ite_self]

theorem cellView_castleRoute (b : Nat) (d : Dev) : cellView (castleRoute b d) = cellView d := by
  unfold castleRoute
  simp (disch := decide) only [↓cellView_bump, ↓cellView_post, ↓cellView_sendEnum, ↓cellView_setRoute, ↓cellView_mk, cellView_fold]

theorem cellView_noteAllUp (d : Dev) : cellView (noteAllUp d) = cellView d := by
  unfold noteAllUp
  simp only [↓cellView_withRing]

theorem cellView_ringRestore (d : Dev) : cellView (ringRestore d) = cellView d := by
  unfold ringRestore
  simp only [↓cellView_post, ↓cellView_withRing, ↓cellView_sendEnum, ↓cellView_setRoute, ↓cellView_ite, ite_self]

/-! ### Doorbells (file 10) -/

theorem cellView_badDoorbell (b : Both) : cellView (badDoorbell b).1 = cellView b.1 := by
  unfold badDoorbell
  simp (disch := decide) only [↓cellView_bump]

theorem cellView_takeDesc (p : Nat) (b : Both) : cellView (takeDesc p b).1 = cellView b.1 := by
  unfold takeDesc
  simp only [↓cellView_ite_fst, ite_self]

theorem cellView_takeDescs (p n : Nat) (b : Both) : cellView (takeDescs p n b).1 = cellView b.1 := by
  induction n generalizing b with
  | zero => rfl
  | succ n ih => exact (ih _).trans (cellView_takeDesc ..)

theorem cellView_sqBell (p : Nat) (w : Word) (b : Both) : cellView (sqBell p w b).1 = cellView b.1 := by
  unfold sqBell
  simp only [↓cellView_ite_fst, ↓cellView_badDoorbell, ↓cellView_abortClosing, ↓cellView_takeDescs, ite_self]

theorem cellView_cqBell (p : Nat) (w : Word) (b : Both) : cellView (cqBell p w b).1 = cellView b.1 := by
  unfold cqBell
  simp only [↓cellView_badDoorbell, ↓cellView_ite_fst, ite_self]

theorem cellView_eqBell (w : Word) (b : Both) : cellView (eqBell w b).1 = cellView b.1 := by
  unfold eqBell
  simp only [↓cellView_badDoorbell, ↓cellView_ite_fst, ite_self]

theorem cellView_deadlineEnd (h : Nat) (b : Both) : cellView (deadlineEnd h b).1 = cellView b.1 := by
  unfold deadlineEnd
  (repeat' split) <;> rfl

end Sys2Proof.Machine
end

section
/-! SUPPORT. Commits, protection, register writes and sweeps (files 09, 12, 15): MEAS_CELLS and the waiting commits stay (R65, R338). -/

namespace Sys2Proof.Machine

/-! ### What a commit does (file 12) -/

theorem cellView_withProt (f : Prot → Prot) (d : Dev) : cellView (withProt f d) = cellViewOf d.regs (f d.pr).commits := Prod.ext rfl rfl

theorem cellView_dropCell (n : Nat) (d : Dev) (os : List Nat) (h : ∀ o ∈ os, o ≠ R.measCells) :
    cellView (each (fun o d => setRegBit o (n - 1) false d) os (setReg (resOff .b n) 0x80 (setReg (resOff .a n) 0x80 d))) = cellView d := by
  refine (each_kept (view := cellView) (fun o ho e => cellView_setRegBit (h o ho) ..) _).trans ?_
  exact (cellView_setReg (add_ne_measCells (by decide) _) ..).trans (cellView_setReg (add_ne_measCells (by decide) _) ..)

theorem cellView_cellsCommit (old : Nat) (d : Dev) : cellView (cellsCommit old d) = cellView d := by
  have hdrop := fun n d => cellView_dropCell n d [R.cmpStatOv, R.cmpStatUv, R.measDisStat, R.measDisFault, R.measUncomp, R.measOwStat] (by decide)
  unfold cellsCommit
  simp only [↓cellView_balUpdate, ↓cellView_userAbort, ↓cellView_jobsAbort, ↓cellView_endTest, ↓cellView_each, ↓cellView_withBal,
    ↓cellView_updateTaps, ↓cellView_forgetCoef, ↓cellView_mk, cellView_fold, ↓cellView_gone, ↓cellView_ite, hdrop, ite_self, implies_true]

theorem cellView_lanesCommit (old : Dev) (g : LaneGroup) (d : Dev) : cellView (lanesCommit old g d) = cellView d := by
  unfold lanesCommit
  simp only [↓cellView_userAbort, ↓cellView_mk, cellView_fold, ↓cellView_ite, ite_self, ↓cellView_each, implies_true]

theorem cellView_driveCommit (d : Dev) : cellView (driveCommit d) = cellView d := by
  unfold driveCommit
  simp only [↓cellView_withBal, ↓cellView_endTest, ↓cellView_balUpdate, ↓cellView_updateTaps, ↓cellView_forgetCoef, ↓cellView_mk, cellView_fold,
    ↓cellView_each, implies_true]

theorem cellView_evtCommit (old : Dev) (s : Nat) (d : Dev) : cellView (evtCommit old s d) = cellView d := by
  unfold evtCommit
  dsimp only
  split
  · rfl
  · refine (cellView_each (fun i e => ?_) _ _).trans ?_
    · split <;> simp only [↓cellView_ite, ↓cellView_latch, ↓cellView_gone, ite_self]
    · simp only [↓cellView_ite, ↓cellView_withdraw, ↓cellView_reevaluate, ite_self]

theorem cellView_safeCommit (old : Dev) (mask : Nat) (d : Dev) : cellView (safeCommit old mask d) = cellView d := by
  unfold safeCommit
  simp only [↓cellView_post, ↓cellView_outOff, ↓cellView_ite, ite_self]

theorem cellView_streamStopped (reason h : Nat) (b : Both) : cellView (streamStopped reason h b).1 = cellView b.1 := by
  unfold streamStopped
  simp only [↓cellView_post, ↓cellView_mk, cellView_fold]

theorem cellView_streamsStopped (reason : Nat) (b : Both) : cellView (streamsStopped reason b).1 = cellView b.1 := by
  unfold streamsStopped
  simp only [↓cellView_streamStopped, ↓cellView_each_both, implies_true]

theorem cellView_ringsCommit (b : Both) : cellView (ringsCommit b).1 = cellView b.1 := by
  unfold ringsCommit
  rfl

theorem cellView_corrCommit (old d : Dev) : cellView (corrCommit old d) = cellView d := by
  unfold corrCommit
  simp only [↓cellView_mk, cellView_fold, ↓cellView_ite, ite_self, ↓cellView_each, implies_true]

theorem cellView_enCommit (was : Bool) (d : Dev) : cellView (enCommit was d) = cellView d := by
  unfold enCommit
  simp only [↓cellView_withCur, ↓cellView_ite, ite_self]

theorem cellView_commitEffects (old : Dev) (mask : Nat) (b : Both) : cellView (commitEffects old mask b).1 = cellView b.1 := by
  unfold commitEffects
  simp only [↓cellView_engineMoves, ↓cellView_bgJudge, ↓cellView_pairCommit, ↓cellView_keepConf, ↓cellView_updateTaps, ↓cellView_owCommit,
    ↓cellView_userAbort, ↓cellView_srcAbort, ↓cellView_idxAbort, ↓cellView_bcRestart, ↓cellView_curRestart, ↓cellView_srcChange,
      ↓cellView_wireCommit, ↓cellView_cellsCommit, ↓cellView_lanesCommit, ↓cellView_driveCommit, ↓cellView_evtCommit, ↓cellView_safeCommit,
        ↓cellView_streamsStopped, ↓cellView_ringsCommit, ↓cellView_corrCommit, ↓cellView_enCommit, ↓cellView_ite, ↓cellView_ite_fst, ite_self,
          ↓cellView_each, implies_true]

theorem cellView_parityFound (off : Nat) (d : Dev) : cellView (parityFound off d) = cellView d := by
  unfold parityFound
  simp (disch := decide) only [↓cellView_bump, ↓cellView_cfgFault]

theorem cellView_shadowCheck (mask : Nat) (d : Dev) : cellView (shadowCheck mask d) = cellView d := by
  unfold shadowCheck
  simp only [↓cellView_withProt, ↓cellView_parityFound, cellView_fold, ↓cellView_each, implies_true]

theorem cellView_answerAll (h status : Nat) (res : List Byte) (d : Dev) : cellView (answerAll h status res d) = cellView d := by
  unfold answerAll
  simp only [↓cellView_sendFinal, ↓cellView_finish, ↓cellView_mk, cellView_fold, ↓cellView_ite, ite_self]

theorem cellView_commitAnswerEnd (h : Nat) (b : Both) : cellView (commitAnswerEnd h b).1 = cellView b.1 := by
  unfold commitAnswerEnd
  (repeat' split) <;> rfl

/-! ### Register protection (file 12) -/

theorem cellView_parityGood (off : Nat) (d : Dev) : cellView (parityGood off d) = cellView d := by
  unfold parityGood
  simp only [↓cellView_withProt, cellView_fold]

theorem cellView_upsetShadows (l : List Nat) (d : Dev) : cellView (upsetShadows l d) = cellView d := by
  unfold upsetShadows
  simp only [↓cellView_withProt, cellView_fold]

theorem cellView_parityUse (l : List Nat) (d : Dev) : cellView (parityUse l d) = cellView d := by
  unfold parityUse
  simp only [↓cellView_withProt, ↓cellView_parityFound, cellView_fold, ↓cellView_each, implies_true]

theorem cellView_parityScan (bad : List Nat) (d : Dev) : cellView (parityScan bad d) = cellView d := by
  unfold parityScan
  simp only [↓cellView_withProt, ↓cellView_parityGood, ↓cellView_parityUse, cellView_fold, ↓cellView_ite, ite_self, ↓cellView_each, implies_true]

theorem cellView_setCfgSlot (i : Nat) (x : CfgSlot) (d : Dev) : cellView (setCfgSlot i x d) = cellView d := by
  unfold setCfgSlot
  (repeat' split) <;> simp only [↓cellView_withProt, cellView_fold]

theorem cellView_notStored (reason : Nat) (d : Dev) : cellView (notStored reason d) = cellView d := by
  unfold notStored
  simp only [↓cellView_post]

theorem cellView_cfgStoreBegin (d : Dev) : cellView (cfgStoreBegin d) = cellView d := by
  unfold cfgStoreBegin
  simp only [↓cellView_withProt, ↓cellView_notStored, cellView_fold, ↓cellView_ite, ite_self]

theorem cellView_cfgStoreKey (key : Word) (d : Dev) : cellView (cfgStoreKey key d) = cellView d := by
  unfold cfgStoreKey
  simp only [↓cellView_cfgStoreBegin, ↓cellView_ite, ite_self]

theorem cellView_cfgStep (x : CfgStore) (n : Nat) (d : Dev) : cellView (cfgStep x n d) = cellView d := by
  unfold cfgStep
  simp only [↓cellView_withProt, cellView_fold]

theorem cellView_cfgStoreEnd (d : Dev) : cellView (cfgStoreEnd d) = cellView d := by
  unfold cfgStoreEnd
  simp only [↓cellView_withProt, cellView_fold]

theorem cellView_cfgErase (i : Nat) (d : Dev) : cellView (cfgErase i d) = cellView d := by
  unfold cfgErase
  simp only [↓cellView_addWear, ↓cellView_setCfgSlot]

theorem cellView_cfgStored (x : CfgStore) (d : Dev) : cellView (cfgStored x d) = cellView d := by
  unfold cfgStored
  simp only [↓cellView_post, ↓cellView_cfgStoreEnd]

theorem cellView_cfgFail (x : CfgStore) (n : Nat) (d : Dev) : cellView (cfgFail x n d) = cellView d := by
  unfold cfgFail
  simp only [↓cellView_cfgStep]

theorem cellView_cfgStoreNext (ok : Bool) (x : CfgStore) (d : Dev) : cellView (cfgStoreNext ok x d) = cellView d := by
  unfold cfgStoreNext
  (repeat' split) <;> simp only [↓cellView_withProt, ↓cellView_setCfgSlot, ↓cellView_notStored, ↓cellView_cfgStep, ↓cellView_cfgStoreEnd,
    ↓cellView_cfgErase, ↓cellView_cfgStored, ↓cellView_cfgFail, cellView_fold, ↓cellView_ite, ite_self]

theorem cellView_cfgNvm (op : NvmOp) (ok : Bool) (d : Dev) : cellView (cfgNvm op ok d) = cellView d := by
  unfold cfgNvm
  (repeat' split) <;> simp only [↓cellView_withProt, ↓cellView_cfgErase, ↓cellView_cfgStoreNext, cellView_fold]

theorem cellView_revertNow (reason : Nat) (d : Dev) : cellView (revertNow reason d) = cellView d := by
  unfold revertNow
  simp only [↓cellView_setShadow, ↓cellView_post, ↓cellView_withProt, cellView_fold, ↓cellView_each, implies_true]

theorem cellView_windowClosed (was : Bool) (reason : Nat) (d : Dev) : cellView (windowClosed was reason d) = cellView d := by
  unfold windowClosed
  simp only [↓cellView_outOff, ↓cellView_withProt, ↓cellView_revertNow, cellView_fold, ↓cellView_ite, ite_self]

theorem cellView_closeLocal (reason : Nat) (d : Dev) : cellView (closeLocal reason d) = cellView d := by
  unfold closeLocal
  simp only [↓cellView_withProt, ↓cellView_windowClosed, cellView_fold, ↓cellView_ite, ite_self]

theorem cellView_svcSamples (samples : Nat) (d : Dev) : cellView (svcSamples samples d) = cellView d := by
  unfold svcSamples
  simp only [↓cellView_post, ↓cellView_withProt, cellView_fold, ↓cellView_ite, ite_self]

theorem cellView_svcExpire (d : Dev) : cellView (svcExpire d) = cellView d := by
  unfold svcExpire
  (repeat' split) <;> simp only [↓cellView_closeLocal]

theorem cellView_svcCloseWrite (v : Word) (d : Dev) : cellView (svcCloseWrite v d) = cellView d := by
  unfold svcCloseWrite
  simp only [↓cellView_closeLocal, ↓cellView_ite, ite_self]

theorem cellView_svcFromHead (seen : Bool) (d : Dev) : cellView (svcFromHead seen d) = cellView d := by
  unfold svcFromHead
  simp only [↓cellView_post, ↓cellView_withProt, ↓cellView_windowClosed, cellView_fold, ↓cellView_ite, ite_self]

theorem cellView_svcHeadLost (d : Dev) : cellView (svcHeadLost d) = cellView d := by
  unfold svcHeadLost
  simp only [↓cellView_withProt, ↓cellView_windowClosed, cellView_fold, ↓cellView_ite, ite_self]

/-! ### What a register write does (file 15) -/

theorem cellView_portRefused (m : Master) (b : Both) : cellView (portRefused m b).1 = cellView b.1 := by
  unfold portRefused
  (repeat' split) <;> simp (disch := decide) only [↓cellView_bump]

theorem cellView_refuseAlign (m : Master) (b : Both) : cellView (refuseAlign m b).1 = cellView b.1 := by
  unfold refuseAlign
  simp only [↓cellView_misaligned, ↓cellView_portRefused]

theorem cellView_refuseBusy (m : Master) (b : Both) : cellView (refuseBusy m b).1 = cellView b.1 := by
  unfold refuseBusy
  simp (disch := decide) only [↓cellView_bump, ↓cellView_portRefused]

theorem cellView_refusePriv (m : Master) (off : Nat) (p : Priv) (b : Both) : cellView (refusePriv m off p b).1 = cellView b.1 := by
  unfold refusePriv
  simp only [↓cellView_denied, ↓cellView_portRefused]

theorem cellView_chkCtrlWrite (n : Nat) (v : Word) (d : Dev) : cellView (chkCtrlWrite n v d) = cellView d := by
  unfold chkCtrlWrite
  simp only [↓cellView_ite, ↓cellView_setRegBit (chkStat_ne_measCells n), ↓cellView_setChk, ↓cellView_chkCompare, ↓cellView_chkRestart, ite_self]

theorem cellView_chkTrigger (n at0 : Nat) (v : Word) (d : Dev) : cellView (chkTrigger n at0 v d) = cellView d := by
  unfold chkTrigger
  (repeat' split) <;> simp only [↓cellView_chkFeed, ↓cellView_alvCheck, ↓cellView_chkCtrlWrite]

theorem cellView_sysResetWrite (v : Word) (d : Dev) : cellView (sysResetWrite v d) = cellView d := by
  unfold sysResetWrite
  simp only [↓cellView_mk, cellView_fold, ↓cellView_ite, ite_self]

theorem cellView_directWrite {off : Nat} (h : off ≠ R.measCells) (v : Word) (d : Dev) : cellView (directWrite off v d) = cellView d :=
  (cellView_parityGood ..).trans (cellView_setReg h ..)

theorem cellView_shadowWrite (off : Nat) (mask v : Word) (d : Dev) : cellView (shadowWrite off mask v d) = cellView d := by
  unfold shadowWrite
  simp only [↓cellView_swShadow, ↓cellView_withProt, cellView_fold, ↓cellView_ite, ite_self]

theorem cellView_denyAll (l : List Nat) (d : Dev) : cellView (denyAll l d) = cellView d := by
  unfold denyAll
  simp only [↓cellView_denied, ↓cellView_each, implies_true]

theorem cellView_regReadOp (h : Nat) (c : Desc) (b : Both) : cellView (regReadOp h c b).1 = cellView b.1 := by
  unfold regReadOp
  simp only [↓cellView_finish]

/-! ### Sample instants and sweeps (file 09) -/

theorem cellView_withSweep (f : Sweeps → Sweeps) (d : Dev) : cellView (withSweep f d) = cellView d := by
  unfold withSweep
  simp only [↓cellView_mk, cellView_fold]

theorem cellView_sweepsDone (d : Dev) : cellView (sweepsDone d) = cellView d := by
  unfold sweepsDone
  simp only [↓cellView_finish, ↓cellView_withSweep, ↓cellView_each, implies_true]

theorem cellView_setSlot (h p : Nat) (f : SweepSlot → SweepSlot) (d : Dev) : cellView (setSlot h p f d) = cellView d := by
  unfold setSlot
  simp only [↓cellView_withSweep]

theorem cellView_dropUnreachable (d : Dev) : cellView (dropUnreachable d) = cellView d := by
  unfold dropUnreachable
  simp only [↓cellView_withSweep, ↓cellView_sweepsDone]

theorem cellView_dropCut (d : Dev) : cellView (dropCut d) = cellView d := by
  unfold dropCut
  simp only [↓cellView_dropUnreachable, ↓cellView_ite, ite_self]

theorem cellView_dropLow (p : Nat) (d : Dev) : cellView (dropLow p d) = cellView d := by
  unfold dropLow
  simp only [↓cellView_withSweep, ↓cellView_sweepsDone]

theorem cellView_sweepData (p : Port) (f : Frame) (d : Dev) : cellView (sweepData p f d) = cellView d := by
  unfold sweepData
  (repeat' split) <;> simp only [↓cellView_sweepsDone, ↓cellView_setSlot, ↓cellView_ite, ite_self]

theorem cellView_sendSweep (h : Nat) (f0 f1 : List Byte) (fetched : Bool) (d : Dev) : cellView (sendSweep h f0 f1 fetched d) = cellView d := by
  unfold sendSweep
  simp only [↓cellView_enqueue]

theorem cellView_sweepTaken (h : Nat) (T t : Time) (soon : Bool) (d : Dev) : cellView (sweepTaken h T t soon d) = cellView d := by
  unfold sweepTaken
  simp only [↓cellView_withSweep, ↓cellView_sweepsDone, ↓cellView_setSlot, ↓cellView_sendSweep, ↓cellView_ite, ite_self]

theorem cellView_sampleNow (T : Time) (mode : Nat) (a b : List LaneSample) (cur : List CurSample) (raw : List CurRaw) (d : Dev) :
    cellView (sampleNow T mode a b cur raw d) = cellView d := by
  unfold sampleNow
  (repeat' split) <;> simp only [↓cellView_setReg, ↓cellView_writeLane, ↓cellView_writeCur, ↓cellView_curSamples, ↓cellView_ite, ite_self,
    ↓cellView_each, implies_true, ne_eq, not_false_eq_true, Nat.reduceEqDiff, R.curQsnapHi, R.curQsnapLo, R.measCells]

theorem cellView_requestedInstant (t req : Time) (a b : List LaneSample) (cur : List CurSample) (raw : List CurRaw) (d : Dev) :
    cellView (requestedInstant t req a b cur raw d) = cellView d := by
  unfold requestedInstant
  split
  · rfl
  · simp only [↓cellView_ite]
    split
    · refine (cellView_each (fun w e => ?_) _ _).trans ((cellView_withSweep ..).trans (cellView_sampleNow ..))
      split
      · exact cellView_sweepTaken ..
      · rfl
    · rfl

theorem cellView_want (T : Time) (h : Option Nat) (soon : Bool) (d : Dev) : cellView (want T h soon d) = cellView d := by
  unfold want
  simp only [↓cellView_withSweep]

theorem cellView_triggerRx (tr : Trigger) (d : Dev) : cellView (triggerRx tr d) = cellView d := by
  unfold triggerRx
  (repeat' split) <;> simp only [↓cellView_withSweep, ↓cellView_sendSweep, ↓cellView_want]

theorem cellView_sweepDeadline (h : Nat) (d : Dev) : cellView (sweepDeadline h d) = cellView d := by
  unfold sweepDeadline
  simp only [↓cellView_withSweep, ↓cellView_sweepsDone, ↓cellView_dropCut]

theorem cellView_sendTrigger (p : Port) (T : Time) (h first last : Nat) (retrig : Bool) (d : Dev) :
    cellView (sendTrigger p T h first last retrig d) = cellView d := by
  unfold sendTrigger
  simp only [↓cellView_enqueue]

theorem cellView_sweepOp (h : Nat) (c : Desc) (b : Both) : cellView (sweepOp h c b).1 = cellView b.1 := by
  unfold sweepOp
  simp only [↓cellView_finish, ↓cellView_withSweep, ↓cellView_sweepsDone, ↓cellView_want, ↓cellView_sendTrigger, ↓cellView_ite, ↓cellView_ite_fst,
    ite_self]

theorem cellView_takeFrame (p : Port) (f : Frame) (d : Dev) : cellView (takeFrame p f d) = cellView d := by
  unfold takeFrame
  simp only [↓cellView_setPosRec, ↓cellView_sweepData, ↓cellView_ite, ite_self]

end Sys2Proof.Machine
end

section
/-! SUPPORT. Streams, requests, the host port, power and the start (files 02, 09, 10, 15): MEAS_CELLS and the waiting commits stay (R65, R338). -/

namespace Sys2Proof.Machine

/-! ### Streams (file 10) -/

theorem cellView_withExec (f : Exec → Exec) (d : Dev) : cellView (withExec f d) = cellView d := by
  unfold withExec
  simp only [↓cellView_mk, cellView_fold]

theorem cellView_streamOpen (h : Nat) (c : Desc) (b : Both) : cellView (streamOpen h c b).2.1 = cellView b.1 := by
  unfold streamOpen
  (repeat' split) <;> simp only [↓cellView_finish]

theorem cellView_streamBegin (h : Nat) (c : Desc) (d : Dev) : cellView (streamBegin h c d) = cellView d := by
  unfold streamBegin
  simp only [↓cellView_finish, ↓cellView_withExec, ↓cellView_ite, ite_self]

theorem cellView_streamStartOp (h : Nat) (c : Desc) (b : Both) : cellView (streamStartOp h c b).1 = cellView b.1 := by
  unfold streamStartOp
  simp only [↓cellView_streamOpen, ↓cellView_streamBegin, ↓cellView_ite_fst, ite_self]

theorem cellView_setSource (x : StreamSrc) (d : Dev) : cellView (setSource x d) = cellView d := by
  unfold setSource
  simp only [↓cellView_withExec]

theorem cellView_streamFlush (x : StreamSrc) (d : Dev) : cellView (streamFlush x d) = cellView d := by
  unfold streamFlush
  simp only [↓cellView_enqueue, ↓cellView_setSource, ↓cellView_ite, ite_self]

theorem cellView_streamPut (x : StreamSrc) (data : List Byte) (d : Dev) : cellView (streamPut x data d) = cellView d := by
  unfold streamPut
  simp only [↓cellView_setSource, ↓cellView_streamFlush, ↓cellView_ite, ite_self]

theorem cellView_streamFirst (x : StreamSrc) (d : Dev) : cellView (streamFirst x d) = cellView d := by
  unfold streamFirst
  simp only [↓cellView_finish, ↓cellView_setSource, ↓cellView_ite, ite_self]

theorem cellView_streamRecord (h : Nat) (b : Both) : cellView (streamRecord h b).1 = cellView b.1 := by
  unfold streamRecord
  (repeat' split) <;> simp only [↓cellView_setSource, ↓cellView_streamPut, ↓cellView_streamFirst, ↓cellView_ite_fst, ite_self]

theorem cellView_streamDrained (k : Nat) (b : Both) : cellView (streamDrained k b).1 = cellView b.1 := by
  unfold streamDrained
  (repeat' split) <;> rfl

theorem cellView_streamFrameRx (f : StreamFrame) (b : Both) : cellView (streamFrameRx f b).1 = cellView b.1 := by
  unfold streamFrameRx
  (repeat' split) <;> simp only [↓cellView_streamDrained]

theorem cellView_streamStop (h : Nat) (c : Desc) (d : Dev) : cellView (streamStop h c d) = cellView d := by
  unfold streamStop
  (repeat' split) <;> simp only [↓cellView_finish, ↓cellView_withExec, ↓cellView_streamFlush]

theorem cellView_headStreamsEnd (reason : Nat) (gone : Nat → Bool) (b : Both) : cellView (headStreamsEnd reason gone b).1 = cellView b.1 := by
  unfold headStreamsEnd
  simp only [↓cellView_post, ↓cellView_each, implies_true]

/-! ### Commands over the ring (file 09) -/

theorem cellView_sendRequest (p h kind : Nat) (rest : List Byte) (d : Dev) : cellView (sendRequest p h kind rest d) = cellView d := by
  unfold sendRequest
  simp only [↓cellView_enqueue, ↓cellView_mk, cellView_fold, ↓cellView_ite, ite_self]

theorem cellView_sendBulk (p : Nat) (c : HeadCmd) (at0 : Nat) (b : Both) : cellView (sendBulk p c at0 b).1 = cellView b.1 := by
  unfold sendBulk
  (repeat' split) <;> simp only [↓cellView_enqueue]

theorem cellView_bulkNext (c : HeadCmd) (e : Nat × Nat) (b : Both) : cellView (bulkNext c e b).1 = cellView b.1 := by
  unfold bulkNext
  (repeat' split) <;> simp only [↓cellView_sendBulk]

theorem cellView_bulkFeed (b : Both) : cellView (bulkFeed b).1 = cellView b.1 := by
  unfold bulkFeed
  simp only [↓cellView_bulkNext, ↓cellView_ite_fst, ite_self, ↓cellView_each_both, implies_true]

theorem cellView_askWake (q h p : Nat) (d : Dev) : cellView (askWake q h p d) = cellView d := by
  unfold askWake
  simp only [↓cellView_sendRequest]

theorem cellView_driveTowards (h p : Nat) (d : Dev) : cellView (driveTowards h p d) = cellView d := by
  unfold driveTowards
  (repeat' split) <;> simp only [↓cellView_driveWake, ↓cellView_askWake]

theorem cellView_dispatchOne (c : HeadCmd) (b : Both) : cellView (dispatchOne c b).1 = cellView b.1 := by
  unfold dispatchOne
  (repeat' split) <;> simp only [↓cellView_streamOpen, ↓cellView_sendRequest, ↓cellView_bulkFeed, ↓cellView_driveTowards, ↓cellView_ite_fst,
    ite_self]

theorem cellView_dispatchAll (c : HeadCmd) (b : Both) : cellView (dispatchAll c b).1 = cellView b.1 := by
  unfold dispatchAll
  simp only [↓cellView_driveWake, ↓cellView_sendRequest, ↓cellView_bulkFeed, ↓cellView_ite, ↓cellView_ite_fst, ite_self, ↓cellView_each,
    implies_true]

theorem cellView_tableEnd (c : HeadCmd) (b : Both) : cellView (tableEnd c b).1 = cellView b.1 := by
  unfold tableEnd
  simp only [↓cellView_internalError, ↓cellView_uncorrectable, ↓cellView_each, implies_true]

theorem cellView_dispatch (h : Nat) (b : Both) : cellView (dispatch h b).1 = cellView b.1 := by
  unfold dispatch
  (repeat' split) <;> simp only [↓cellView_dispatchOne, ↓cellView_dispatchAll, ↓cellView_tableEnd]

theorem cellView_resend (h : Nat) (d : Dev) : cellView (resend h d) = cellView d := by
  unfold resend
  (repeat' split) <;> simp only [↓cellView_sendFinal]

theorem cellView_requestCmd (r : Request) (d : Dev) : cellView (requestCmd r d) = cellView d := by
  unfold requestCmd
  simp only [↓cellView_abortClosing, ↓cellView_sendAccept, ↓cellView_withExec, ↓cellView_resend, ↓cellView_ite, ite_self]

theorem cellView_requestWake (r : Request) (d : Dev) : cellView (requestWake r d) = cellView d := by
  unfold requestWake
  simp only [↓cellView_sendAccept, ↓cellView_driveWake, ↓cellView_withExec, ↓cellView_ite, ite_self]

theorem cellView_requestRx (r : Request) (d : Dev) : cellView (requestRx r d) = cellView d := by
  unfold requestRx
  (repeat' split) <;> simp only [↓cellView_resend, ↓cellView_requestCmd, ↓cellView_requestWake]

theorem cellView_bulkRx (h off : Nat) (data : List Byte) (d : Dev) : cellView (bulkRx h off data d) = cellView d := by
  unfold bulkRx
  simp only [↓cellView_fwArrived, ↓cellView_withExec, ↓cellView_ite, ite_self]

theorem cellView_wentLow (p : Nat) (b : Both) : cellView (wentLow p b).1 = cellView b.1 := by
  unfold wentLow
  simp only [↓cellView_setPosRec, ↓cellView_forgetLost, ↓cellView_dropLow, ↓cellView_headStreamsEnd]

theorem cellView_streamDrain (p : Nat) (c : HeadCmd) (res : List Byte) (b : Both) : cellView (streamDrain p c res b).1 = cellView b.1 := by
  unfold streamDrain
  (repeat' split) <;> rfl

theorem cellView_streamRefuse (p : Nat) (c : HeadCmd) (b : Both) : cellView (streamRefuse p c b).1 = cellView b.1 := by
  unfold streamRefuse
  simp only [↓cellView_sendRequest]

theorem cellView_finalAnswer (p h status : Nat) (c : HeadCmd) (res : List Byte) (b : Both) :
    cellView (finalAnswer p h status c res b).1 = cellView b.1 := by
  unfold finalAnswer
  simp only [↓cellView_wentLow, ↓cellView_streamDrain, ↓cellView_streamRefuse, ↓cellView_ite_fst, ite_self]

theorem cellView_responseRx (src : Nat) (r : Response) (b : Both) : cellView (responseRx src r b).1 = cellView b.1 := by
  unfold responseRx
  (repeat' split) <;> simp only [↓cellView_finalAnswer, ↓cellView_ite_fst, ite_self]

theorem cellView_acceptTimeout (h : Nat) (b : Both) : cellView (acceptTimeout h b).1 = cellView b.1 := by
  unfold acceptTimeout
  (repeat' split) <;> simp only [↓cellView_ite_fst, ite_self]

theorem cellView_startReported (p : Nat) (b : Both) : cellView (startReported p b).1 = cellView b.1 := by
  unfold startReported
  simp only [↓cellView_setPosRec, ↓cellView_headStreamsEnd, ↓cellView_each_both, implies_true]

theorem cellView_originSeen (e : EvRec) (d : Dev) : cellView (originSeen e d) = cellView d := by
  unfold originSeen
  simp only [↓cellView_mk, cellView_fold, ↓cellView_ite, ite_self]

theorem cellView_eventEffect (e : EvRec) (b : Both) : cellView (eventEffect e b).1 = cellView b.1 := by
  unfold eventEffect
  (repeat' split) <;> simp only [↓cellView_withRing, ↓cellView_bound, ↓cellView_dropCut, ↓cellView_headStreamsEnd, ↓cellView_startReported,
    ↓cellView_originSeen]

theorem cellView_eventRx (bytes : List Byte) (b : Both) : cellView (eventRx bytes b).1 = cellView b.1 := by
  unfold eventRx
  simp only [↓cellView_eventEffect, ↓cellView_mk, cellView_fold]

theorem cellView_noteLost (fresh all : List Nat) (d : Dev) : cellView (noteLost fresh all d) = cellView d := by
  unfold noteLost
  simp only [↓cellView_gone, ↓cellView_mk, cellView_fold, ↓cellView_each, implies_true]

theorem cellView_noteUnassigned (u : Bool) (d : Dev) : cellView (noteUnassigned u d) = cellView d := by
  unfold noteUnassigned
  simp only [↓cellView_occur, ↓cellView_withRing, ↓cellView_ite, ite_self]

theorem cellView_noteBreak (p : Port) (turned : Bool) (d : Dev) : cellView (noteBreak p turned d) = cellView d := by
  unfold noteBreak
  simp only [↓cellView_withRing, ↓cellView_placeBreak, ↓cellView_ite, ite_self]

theorem cellView_hbReturned (whole : Bool) (num : Nat) (fresh : List Nat) (d : Dev) : cellView (hbReturned whole num fresh d) = cellView d := by
  unfold hbReturned
  simp only [↓cellView_withRing, ↓cellView_hbOver, ↓cellView_ite, ite_self, ↓cellView_each, implies_true]

theorem cellView_headHeartbeat (p : Port) (hb : Heartbeat) (d : Dev) : cellView (headHeartbeat p hb d) = cellView d := by
  unfold headHeartbeat
  simp only [↓cellView_withRing, ↓cellView_noteAllUp, ↓cellView_dropCut, ↓cellView_noteLost, ↓cellView_noteUnassigned, ↓cellView_noteBreak,
    ↓cellView_hbReturned]

theorem cellView_ownSlot (hb : Heartbeat) (d : Dev) : cellView (ownSlot hb d).2 = cellView d := by
  unfold ownSlot
  simp only [↓cellView_withRing, ↓cellView_ite, ite_self]

theorem cellView_hbNews (hb : Heartbeat) (d : Dev) : cellView (hbNews hb d) = cellView d := by
  unfold hbNews
  simp only [↓cellView_gone, ↓cellView_svcFromHead, ↓cellView_mk, cellView_fold]

theorem cellView_passHeartbeat (p : Port) (hb : Heartbeat) (d : Dev) : cellView (passHeartbeat p hb d) = cellView d := by
  unfold passHeartbeat
  simp only [↓cellView_enqueue, ↓cellView_passOn, ↓cellView_ite, ite_self]

theorem cellView_heartbeatRx (p : Port) (hb : Heartbeat) (d : Dev) : cellView (heartbeatRx p hb d) = cellView d := by
  unfold heartbeatRx
  simp only [↓cellView_headHeartbeat, ↓cellView_ownSlot, ↓cellView_hbNews, ↓cellView_passHeartbeat, ↓cellView_ite, ite_self]

theorem cellView_requestAgain (c : HeadCmd) (p : Nat) (d : Dev) : cellView (requestAgain c p d) = cellView d := by
  unfold requestAgain
  simp only [↓cellView_sendRequest, ↓cellView_askWake, ↓cellView_ite, ite_self]

theorem cellView_castleCmd (c : HeadCmd) (d : Dev) : cellView (castleCmd c d) = cellView d := by
  unfold castleCmd
  simp only [↓cellView_sendRequest, ↓cellView_requestAgain, ↓cellView_ite, ite_self, ↓cellView_each, implies_true]

theorem cellView_castleSweep (c : Collect) (d : Dev) : cellView (castleSweep c d) = cellView d := by
  refine cellView_each (fun p e => ?_) _ _
  dsimp only
  split
  · rfl
  · exact cellView_sendTrigger ..

theorem cellView_castleUnreachable (b : Both) : cellView (castleUnreachable b).1 = cellView b.1 := by
  unfold castleUnreachable
  simp only [↓cellView_each_both, implies_true]

theorem cellView_castleWith (lo : Nat) (b : Both) : cellView (castleWith lo b).1 = cellView b.1 := by
  unfold castleWith
  simp only [↓cellView_castleRoute, ↓cellView_dropUnreachable, ↓cellView_headStreamsEnd, ↓cellView_castleCmd, ↓cellView_castleSweep,
    ↓cellView_castleUnreachable, ↓cellView_each, implies_true]

theorem cellView_secondPass (b : Both) : cellView (secondPass b).1 = cellView b.1 := by
  unfold secondPass
  simp only [↓cellView_withRing, ↓cellView_recognise, ↓cellView_sendEnum, ↓cellView_castleWith, ↓cellView_ite_fst, ite_self]

/-! ### The host port (file 15) -/

theorem cellView_portDone (out : List Byte) (err : Bool) (b : Both) : cellView (portDone out err b).1 = cellView b.1 := by
  unfold portDone
  rfl

theorem cellView_portFraming (out : List Byte) (b : Both) : cellView (portFraming out b).1 = cellView b.1 := by
  unfold portFraming
  simp (disch := decide) only [↓cellView_bump, ↓cellView_portDone]

theorem cellView_withExt {f : Both → Both} (h : ∀ b, cellView (f b).1 = cellView b.1) (op ext : Byte) (b : Both) :
    cellView (withExt op ext f b).1 = cellView b.1 := by
  unfold withExt
  simp only [↓cellView_ite_fst, ↓cellView_portFraming, ↓h, ite_self]

theorem cellView_knownOp {f : Both → Both} (h : ∀ b, cellView (f b).1 = cellView b.1) (op : Byte) (b : Both) :
    cellView (knownOp op f b).1 = cellView b.1 := by
  unfold knownOp
  simp only [↓cellView_ite_fst, ↓cellView_portFraming, ↓h, ite_self]

theorem cellView_portRange (out : List Byte) (b : Both) : cellView (portRange out b).1 = cellView b.1 := by
  unfold portRange
  simp (disch := decide) only [↓cellView_bump, ↓cellView_portDone]

theorem cellView_readWindow (addr n : Nat) (b : Both) : cellView (readWindow addr n b).2.2.1 = cellView b.1 := by
  unfold readWindow
  simp only [↓cellView_uncorrectable, ↓cellView_each, implies_true]

theorem cellView_readPiece (off size : Nat) (b : Both) : cellView (readPiece off size b).2.2.1 = cellView b.1 := by
  unfold readPiece
  (repeat' split) <;> simp only [↓cellView_misaligned]

theorem cellView_readAlias (addr size : Nat) (b : Both) : cellView (readAlias addr size b).2.2.1 = cellView b.1 := by
  unfold readAlias
  (repeat' split) <;> simp only [↓cellView_misaligned]

theorem cellView_readPieces {f : Nat → Nat → Both → List Byte × Bool × Both} (h : ∀ x y b, cellView (f x y b).2.2.1 = cellView b.1)
    (l : List (Nat × Nat)) (b : Both) : cellView (readPieces f l b).2.2.1 = cellView b.1 := by
  induction l generalizing b with
  | nil => rfl
  | cons p r ih => exact (ih _).trans (h ..)

theorem cellView_portRead (addr n : Nat) (b : Both) : cellView (portRead addr n b).1 = cellView b.1 := by
  have hreg : ∀ base x y b, cellView (readPiece (x - base) y b).2.2.1 = cellView b.1 := fun _ _ _ _ => cellView_readPiece ..
  unfold portRead
  split
  · exact cellView_portFraming ..
  · split
    · exact cellView_portRange ..
    · dsimp only
      split
      · exact (cellView_portDone ..).trans (cellView_readWindow ..)
      · exact (cellView_portDone ..).trans (cellView_readPieces (hreg _) ..)
      · exact (cellView_portDone ..).trans (cellView_readPieces cellView_readAlias ..)

theorem cellView_writeWindow (addr : Nat) (l : List Byte) (b : Both) : cellView (writeWindow addr l b).1 = cellView b.1 := by
  unfold writeWindow
  simp only [↓cellView_withMem]

/-! ### What a reset cuts off (file 02) -/

theorem cellView_withPw (f : Power → Power) (d : Dev) : cellView (withPw f d) = cellView d := by
  unfold withPw
  simp only [↓cellView_mk, cellView_fold]

/-! ### Supply, closing and wakes (file 02) -/

theorem cellView_nvmBusy (d : Dev) : cellView (nvmBusy d).2 = cellView d := by
  unfold nvmBusy
  simp only [↓cellView_freeBit, ↓cellView_ite_snd, ite_self]

theorem cellView_supplyWarn (d : Dev) : cellView (supplyWarn d) = cellView d := by
  unfold supplyWarn
  simp only [↓cellView_withPw, ↓cellView_nvmBusy, ↓cellView_ite, ite_self]

theorem cellView_storeTest (d : Dev) : cellView (storeTest d) = cellView d := by
  unfold storeTest
  (repeat' split) <;> simp only [↓cellView_post, ↓cellView_withBist, ↓cellView_appendRec, ↓cellView_each, implies_true]

theorem cellView_nvmResume (d : Dev) : cellView (nvmResume d) = cellView d := by
  unfold nvmResume
  simp only [↓cellView_mk, cellView_fold]

theorem cellView_supplyBack (d : Dev) : cellView (supplyBack d) = cellView d := by
  unfold supplyBack
  simp only [↓cellView_occurLogged, ↓cellView_writeDue, ↓cellView_withPw, ↓cellView_storeTest, ↓cellView_nvmResume, ↓cellView_ite, ite_self]

theorem cellView_shedLoad (d : Dev) : cellView (shedLoad d) = cellView d := by
  unfold shedLoad
  simp only [↓cellView_occur, ↓cellView_balUpdate, ↓cellView_withPw, ↓cellView_ite, ite_self]

theorem cellView_startHeld (j : HeldJob) (b : Both) : cellView (startHeld j b).1 = cellView b.1 := by
  unfold startHeld
  simp only [↓cellView_impBegin, ↓cellView_estBegin, ↓cellView_loadModel, ↓cellView_ite_fst, ite_self]

theorem cellView_endShed (b : Both) : cellView (endShed b).1 = cellView b.1 := by
  unfold endShed
  dsimp only
  (repeat' split) <;> simp only [↓cellView_withEng, ↓cellView_balUpdate, ↓cellView_shedReplay, ↓cellView_withPw, ↓cellView_startHeld,
    ↓cellView_each_both, implies_true]

theorem cellView_activeIdle (d : Dev) : cellView (activeIdle d) = cellView d := by
  unfold activeIdle
  simp only [↓cellView_withPw, ↓cellView_ite, ite_self]

theorem cellView_heldAbort (d : Dev) : cellView (heldAbort d) = cellView d := by
  unfold heldAbort
  simp only [↓cellView_finish, ↓cellView_withEng, ↓cellView_each, implies_true]

theorem cellView_beginClosing (target : PowerState) (b : Both) : cellView (beginClosing target b).1 = cellView b.1 := by
  unfold beginClosing
  simp only [↓cellView_post, ↓cellView_outOff, ↓cellView_jobsAbort, ↓cellView_dropAwake, ↓cellView_trackSave, ↓cellView_lifeSave,
    ↓cellView_summarySave, ↓cellView_streamsStopped, ↓cellView_withExec, ↓cellView_withPw, ↓cellView_heldAbort, ↓cellView_mk, cellView_fold,
      ↓cellView_ite, ↓cellView_ite_fst, ite_self]

theorem cellView_powerCheck (timeout : Bool) (b : Both) : cellView (powerCheck timeout b).1 = cellView b.1 := by
  unfold powerCheck
  simp only [↓cellView_beginClosing, ↓cellView_ite_fst, ite_self, ↓cellView_each_both, implies_true]

theorem cellView_powerLow (h : Nat) (c : Desc) (b : Both) : cellView (powerLow h c b).1 = cellView b.1 := by
  unfold powerLow
  simp only [↓cellView_finish, ↓cellView_beginClosing, ↓cellView_powerCheck, ↓cellView_ite_fst, ite_self]

theorem cellView_power (h : Nat) (c : Desc) (b : Both) : cellView (power h c b).1 = cellView b.1 := by
  unfold power
  simp only [↓cellView_finish, ↓cellView_userAbort, ↓cellView_withPw, ↓cellView_powerLow, ↓cellView_ite_fst, ite_self]

theorem cellView_closingDone (r : SelfTestRun) (b : Both) : cellView (closingDone r b).1 = cellView b.1 := by
  unfold closingDone
  dsimp only
  (repeat' split) <;> simp only [↓cellView_withBist, ↓cellView_gzEnter, ↓cellView_appendRec, ↓cellView_postResults, ↓cellView_runTest,
    ↓cellView_writeRepair, ↓cellView_withProt, ↓cellView_withPw, ↓cellView_mk, cellView_fold]

theorem cellView_relayWake (n s : Bool) (d : Dev) : cellView (relayWake n s d) = cellView d := by
  unfold relayWake
  (repeat' split) <;> simp only [↓cellView_driveWake]

theorem cellView_sleepSample (dt : Nat) (mv : List Int) (d : Dev) : cellView (sleepSample dt mv d) = cellView d := by
  unfold sleepSample
  simp only [↓cellView_elapse, ↓cellView_withPw, ↓cellView_ite, ite_self]

theorem cellView_sealOpened (first : Bool) (d : Dev) : cellView (sealOpened first d) = cellView d := by
  unfold sealOpened
  simp only [↓cellView_post, ↓cellView_withMem]

theorem cellView_sealRead (ohms : Nat) (d : Dev) : cellView (sealRead ohms d) = cellView d := by
  unfold sealRead
  simp only [↓cellView_withProt, cellView_fold]

/-! ### The start (file 02) -/

theorem cellView_startCounts (mode : Bool) (d : Dev) : cellView (startCounts mode d) = cellView d := by
  unfold startCounts
  simp only [↓cellView_withMem, ↓cellView_withPw, ↓cellView_mk, cellView_fold]

theorem cellView_discardCut (d : Dev) : cellView (discardCut d) = cellView d := by
  unfold discardCut
  (repeat' split) <;> simp only [↓cellView_post, ↓cellView_withMem]

theorem cellView_stillFailed (d : Dev) : cellView (stillFailed d) = cellView d := by
  unfold stillFailed
  simp only [↓cellView_latch, ↓cellView_ite, ite_self]

theorem cellView_startTest (r : SelfTestRun) (d : Dev) : cellView (startTest r d) = cellView d := by
  unfold startTest
  simp only [↓cellView_withBist, ↓cellView_runTest, ↓cellView_stillFailed]

theorem cellView_bankInvalid (b : Bool) (d : Dev) : cellView (bankInvalid b d) = cellView d := by
  unfold bankInvalid
  simp only [↓cellView_freeBit, ↓cellView_post]

theorem cellView_verified (b ok : Bool) (d : Dev) : cellView (verified b ok d) = cellView d := by
  unfold verified
  simp only [↓cellView_setBank, ↓cellView_ite, ite_self]

theorem cellView_bootFirmware (okA okB : Bool) (d : Dev) : cellView (bootFirmware okA okB d) = cellView d := by
  unfold bootFirmware
  simp only [↓cellView_freeBit, ↓cellView_withMem, ↓cellView_bankInvalid, ↓cellView_verified, ↓cellView_ite, ite_self]

theorem cellView_loadCharge (d : Dev) : cellView (loadCharge d) = cellView d := by
  unfold loadCharge
  split
  · rw [cellView_mk, cellView_fold]
    exact cellView_each (fun k e => cellView_setReg (add_ne_measCells (by decide) _) ..) ..
  · rfl

theorem cellView_excludeEngines (tested : Bool) (d : Dev) : cellView (excludeEngines tested d) = cellView d := by
  unfold excludeEngines
  simp only [↓cellView_withEng, ↓cellView_rebalance, ↓cellView_engineFail, ↓cellView_ite, ite_self, ↓cellView_each, implies_true]

theorem cellView_startPairs (l : List (Int × PairSeen)) (d : Dev) : cellView (startPairs l d) = cellView d := by
  unfold startPairs
  simp only [↓cellView_setRegBit, ↓cellView_post, ↓cellView_ite, ite_self, ↓cellView_each, implies_true, ne_eq, not_false_eq_true,
    Nat.reduceEqDiff, R.bistCmpFail, R.measCells]

theorem cellView_analogCheck (env : StartEnv) (d : Dev) : cellView (analogCheck env d) = cellView d := by
  unfold analogCheck
  simp only [↓cellView_bgTake, ↓cellView_owTest, ↓cellView_onOpen, ↓cellView_startPairs, ↓cellView_each, implies_true]

theorem cellView_sealAtWake (d : Dev) : cellView (sealAtWake d) = cellView d := by
  unfold sealAtWake
  simp only [↓cellView_withPw, ↓cellView_sealOpened, ↓cellView_ite, ite_self]

theorem cellView_startLanes (d : Dev) : cellView (startLanes d) = cellView d := by
  unfold startLanes
  simp only [↓cellView_mk, cellView_fold]

theorem cellView_keepTimes (was : Time) (b : Both) : cellView (keepTimes was b).1 = cellView b.1 := by
  unfold keepTimes
  simp only [↓cellView_mk, cellView_fold]

theorem cellView_ready (b : Both) : cellView (ready b).1 = cellView b.1 := by
  unfold ready
  simp only [↓cellView_post, ↓cellView_tick, ↓cellView_beginTraining, ↓cellView_withPw, ↓cellView_storeTest, ↓cellView_mk, cellView_fold,
    ↓cellView_ite, ↓cellView_ite_fst, ite_self]

theorem cellView_internalEnd (h : Nat) (b : Both) : cellView (internalEnd h b).1 = cellView b.1 := by
  unfold internalEnd
  (repeat' split) <;> simp only [↓cellView_finish, ↓cellView_withEng, ↓cellView_internalError]

theorem cellView_raiseMinsec (d : Dev) : cellView (raiseMinsec d) = cellView d := by
  unfold raiseMinsec
  simp only [↓cellView_withMem, ↓cellView_ite, ite_self]

theorem cellView_calWear (op : NvmOp) (d : Dev) : cellView (calWear op d) = cellView d := by
  unfold calWear
  (repeat' split) <;> simp only [↓cellView_addWear]

theorem cellView_nvmSectorsAfter (op : NvmOp) (bad : List Nat) (d : Dev) : cellView (nvmSectorsAfter op bad d) = cellView d := by
  unfold nvmSectorsAfter
  simp only [↓cellView_clearBad, ↓cellView_retire, ↓cellView_ite, ite_self, ↓cellView_each, implies_true]

theorem cellView_nvmDone (op : NvmOp) (ok : Bool) (bad : List Nat) (x : Option (List Byte)) (d : Dev) :
    cellView (nvmDone op ok bad x d) = cellView d := by
  unfold nvmDone
  (repeat' split) <;> simp only [↓cellView_calNvm, ↓cellView_refreshNext, ↓cellView_markDone, ↓cellView_fwNvm, ↓cellView_repairNvm,
    ↓cellView_cfgNvm, ↓cellView_raiseMinsec, ↓cellView_calWear, ↓cellView_nvmSectorsAfter]

theorem cellView_setIr (ir : Nat) (d : Dev) : cellView (setIr ir d) = cellView d := by
  unfold setIr
  simp only [↓cellView_outOff, ↓cellView_withBist, ↓cellView_beginTraining, ↓cellView_downIfUp, ↓cellView_mk, cellView_fold, ↓cellView_ite,
    ite_self]

theorem cellView_tapUpdate (ir : Nat) (cells : List Bool) (d : Dev) : cellView (tapUpdate ir cells d) = cellView d := by
  unfold tapUpdate
  simp only [↓cellView_withBist, ↓cellView_setIr, ↓cellView_ite, ite_self]

end Sys2Proof.Machine
end

section
/-! SUPPORT. NCELLS and the commits: snapshots, what a commit applies, what the configuration record loads (files 03 and 12, R65, R338). -/

namespace Sys2Proof.Machine

/-! ### The cell count as a property of the view -/

/-- A word of MEAS_CELLS whose NCELLS is at most 32, or which stands with its block at fault. -/
def SnapLegal (x : Snap) : Prop :=
  ∀ e ∈ x.words, e.1 = R.measCells → fld e.2 5 0 ≤ 32 ∨ blockNum R.measCells ∈ x.bad.map (fun r => blockNum r.1)

/-- A commit whose snapshot, where it has one, is legal. -/
def PendCommit.Legal (c : PendCommit) : Prop := ∀ x, c.snap = some x → SnapLegal x

theorem cellsLegal_iff (d : Dev) : d.cellsLegal ↔ ncells d ≤ 32 ∧ ∀ c ∈ d.pr.commits, c.Legal := Iff.rfl

theorem ncells_of_view {a b : Dev} (h : cellView b = cellView a) : ncells b = ncells a :=
  congrArg (fun v : Word × List PendCommit => fld v.1 5 0) h

theorem commits_of_view {a b : Dev} (h : cellView b = cellView a) : b.pr.commits = a.pr.commits := congrArg Prod.snd h

theorem cellsLegal_of_view {a b : Dev} (h : cellView b = cellView a) (ha : a.cellsLegal) : b.cellsLegal := by
  rw [cellsLegal_iff, ncells_of_view h, commits_of_view h]
  exact ha

/-- Commits that go leave the rest legal. -/
theorem cellsLegal_of_fewer {a b : Dev} (hn : ncells b = ncells a) (hc : ∀ c ∈ b.pr.commits, c ∈ a.pr.commits) (ha : a.cellsLegal) :
    b.cellsLegal := by
  obtain ⟨hnum, hsnap⟩ := (cellsLegal_iff a).1 ha
  exact ⟨hn ▸ hnum, fun c h => hsnap c (hc c h)⟩

theorem PendCommit.legal_of_none {c : PendCommit} (h : c.snap = none) : c.Legal := fun x hx => by rw [h] at hx; cases hx

theorem legal_each {α : Type} {P : α → Prop} {f : α → Both → Both} (h : ∀ x, P x → ∀ b, b.1.cellsLegal → (f x b).1.cellsLegal)
    (l : List α) (hl : ∀ x ∈ l, P x) (b : Both) (hb : b.1.cellsLegal) : (each f l b).1.cellsLegal := by
  induction l generalizing b with
  | nil => exact hb
  | cons x r ih => exact ih (fun y hy => hl y (.tail _ hy)) _ (h x (hl x (.head _)) b hb)

/-! ### Snapshots (R337, R338, R260) -/

/-- Words listed by offset: each word follows from its offset. -/
def WordsOf (w : Nat → Word) (mask : Nat) (l : List (Nat × Word)) : Prop :=
  ∀ e ∈ l, e.2 = w e.1 ∧ ∃ g, inMask mask g = true ∧ e.1 ∈ groupOffsets g

theorem wordsOf_snapshot (d : Dev) (mask : Nat) : WordsOf (shadow d) mask (snapshot d mask) := by
  intro e he
  obtain ⟨g, hg, he⟩ := List.mem_flatMap.1 he
  obtain ⟨o, ho, rfl⟩ := List.mem_map.1 he
  exact ⟨rfl, g, (List.mem_filter.1 hg).2, ho⟩

/-- The word that a reversion in wait leaves to an offset. -/
def revertedTo (d : Dev) (w : Nat → Word) (o : Nat) : Word := (revertedWord d (o, w o)).2

theorem revertedWord_fst (d : Dev) (e : Nat × Word) : (revertedWord d e).1 = e.1 := by
  unfold revertedWord
  split <;> rfl

theorem WordsOf.reverted {w : Nat → Word} {mask : Nat} {l : List (Nat × Word)} (h : WordsOf w mask l) (d : Dev) :
    WordsOf (revertedTo d w) mask (l.map (revertedWord d)) := by
  intro e he
  obtain ⟨x, hx, rfl⟩ := List.mem_map.1 he
  obtain ⟨hw, hg⟩ := h x hx
  rw [revertedWord_fst]
  exact ⟨by rw [revertedTo, ← hw], hg⟩

theorem wordsOf_localWords (d : Dev) (c : PendCommit) : ∃ w, WordsOf w c.mask (localWords d c) := by
  unfold localWords
  split
  · exact ⟨_, (wordsOf_snapshot d c.mask).reverted d⟩
  · exact ⟨_, wordsOf_snapshot d c.mask⟩

theorem wordsOf_dueWords (d : Dev) (mask : Nat) : ∃ w, WordsOf w mask (dueWords d mask) := by
  refine ⟨revertedTo d (shadowBefore d), fun e he => ?_⟩
  obtain ⟨x, hx, rfl⟩ := List.mem_map.1 he
  rw [revertedWord_fst]
  exact ⟨rfl, (wordsOf_snapshot d mask x hx).2⟩

theorem WordsOf.lookIn_eq {w : Nat → Word} {mask : Nat} {l : List (Nat × Word)} (h : WordsOf w mask l) (d : Dev) {e : Nat × Word} (he : e ∈ l) :
    lookIn d l e.1 = e.2 := by
  unfold lookIn
  split
  case h_1 x hx =>
    have hk : x.1 = e.1 := by simpa using List.find?_some hx
    rw [(h x (List.mem_of_find?_eq_some hx)).1, (h e he).1, hk]
  case h_2 hx => simpa using List.find?_eq_none.1 hx e he

/-! ### The check of NCELLS (R65, R338) -/

/-- MEAS_CELLS is a register of group 2 alone (Table MAP-4). -/
theorem group_of_measCells {g : Nat} (h : R.measCells ∈ groupOffsets g) : g = 2 := by
  obtain ⟨r, hr, ho⟩ := List.mem_flatMap.1 h
  obtain ⟨hrow, hg⟩ := List.mem_filter.1 hr
  have hall : ∀ r ∈ allRows, R.measCells ∈ r.offsets → r.group = 2 := by decide +kernel
  simp only [Bool.and_eq_true, decide_eq_true_eq] at hg
  exact hg.2 ▸ hall r hrow ho

theorem group2_bit {mask : Nat} (h : inMask mask 2 = true) : 0x04 &&& mask ≠ 0 := by
  intro h0
  have hb : (0x04 &&& mask).testBit 2 = true := by
    rw [Nat.testBit_and]
    exact Bool.and_eq_true_iff.2 ⟨rfl, h⟩
  rw [h0] at hb
  cases hb

theorem le_32_of_ncellsOk {head : Bool} {n : Nat} (h : ncellsOk head n = true) : n ≤ 32 := by
  cases head <;> simp only [ncellsOk, within, Bool.or_eq_true, Bool.and_eq_true, decide_eq_true_eq, if_true, Bool.false_eq_true, if_false] at h <;>
    omega

/-- The rule of NCELLS, of a role and a reading of the registers. -/
def cellsRule (head : Bool) (look : Nat → Word) : CfgRule := (R.measCells, 2, 0x04, ncellsOk head (fld (look R.measCells) 5 0))

theorem cellsRule_mem_meas (head : Bool) (look : Nat → Word) : cellsRule head look ∈ rulesMeas head look := by
  simp [rulesMeas, cellsRule]

theorem cellsRule_broken {b : Both} {mask : Nat} {look : Nat → Word} (hm : inMask mask 2 = true) (hn : 32 < fld (look R.measCells) 5 0) :
    cellsRule b.1.head look ∈ broken b mask look := by
  have hbad : ncellsOk b.1.head (fld (look R.measCells) 5 0) = false := by
    cases hok : ncellsOk b.1.head (fld (look R.measCells) 5 0)
    · rfl
    · exact absurd (le_32_of_ncellsOk hok) (by omega)
  have hmem : cellsRule b.1.head look ∈ cfgRules b look := by
    simp only [cfgRules, List.mem_append]
    exact .inl (.inl (.inl (.inl (.inl (.inl (.inl (.inr (cellsRule_mem_meas ..))))))))
  refine List.mem_filter.2 ⟨hmem, ?_⟩
  simp [cellsRule, hbad, group2_bit hm]

/-- Each block with a broken rule has its fault. -/
theorem blockFaults_block {l : List CfgRule} {r : CfgRule} (h : r ∈ l) : ∃ q ∈ blockFaults l, blockNum q.1 = blockNum r.1 := by
  obtain ⟨q, hq, hmin⟩ := Finset.exists_min_image (l.toFinset.filter (fun q => blockNum q.1 = blockNum r.1)) (fun q => toLex (q.1, q.2.1))
    ⟨r, by simp [h]⟩
  obtain ⟨hql, hblk⟩ := Finset.mem_filter.1 hq
  refine ⟨q, ?_, hblk⟩
  refine List.mem_dedup.2 (List.mem_filter.2 ⟨List.mem_toFinset.1 hql, List.all_eq_true.2 fun p hp => ?_⟩)
  by_cases hpb : blockNum p.1 = blockNum q.1
  · have hle := hmin p (Finset.mem_filter.2 ⟨List.mem_toFinset.2 hp, hpb.trans hblk⟩)
    rcases Prod.Lex.toLex_le_toLex.1 hle with hlt | ⟨heq, hle⟩
    · simp [show q.1 < p.1 from hlt]
    · simp [show q.1 = p.1 from heq, show q.2.1 ≤ p.2.1 from hle]
  · simp [hpb]

theorem snapLegal_of_wordsOf {w : Nat → Word} {mask : Nat} {l : List (Nat × Word)} (h : WordsOf w mask l) (b : Both) :
    SnapLegal ⟨l, snapFaults mask l b⟩ := by
  intro e he hk
  rcases Nat.lt_or_ge 32 (fld e.2 5 0) with hn | hn
  · right
    obtain ⟨-, g, hm, hg⟩ := h e he
    rw [hk] at hg
    rw [group_of_measCells hg] at hm
    rw [← h.lookIn_eq b.1 he, hk] at hn
    obtain ⟨q, hq, hblk⟩ := blockFaults_block (cellsRule_broken (b := b) hm hn)
    simp only [snapFaults, List.map_append, List.map_map, List.mem_append, List.mem_map]
    exact .inr ⟨q, hq, hblk⟩
  · exact .inl hn

theorem cellView_takeSnap (mask : Nat) (words : List (Nat × Word)) (b : Both) : cellView (takeSnap mask words b).2.1 = cellView b.1 :=
  (cellView_each (fun _ _ => cellView_cfgFault ..) ..).trans (cellView_shadowCheck ..)

/-! ### Commits that wait, and commits that apply -/

theorem legal_pushCommit {c : PendCommit} (hc : c.Legal) {b : Both} (hb : b.1.cellsLegal) : (pushCommit c b).1.cellsLegal := by
  obtain ⟨hn, hs⟩ := (cellsLegal_iff _).1 hb
  refine ⟨hn, fun x hx => ?_⟩
  rcases List.mem_append.1 hx with hx | hx
  · exact hs x hx
  · exact List.mem_singleton.1 hx ▸ hc

theorem legal_pushSnapped {w : Nat → Word} {mask : Nat} {l : List (Nat × Word)} (h : WordsOf w mask l) {b : Both} {c : PendCommit}
    (hc : c.snap = some (takeSnap mask l b).1) (hb : b.1.cellsLegal) : (pushCommit c (takeSnap mask l b).2).1.cellsLegal := by
  refine legal_pushCommit (fun x hx => ?_) (cellsLegal_of_view (cellView_takeSnap ..) hb)
  obtain rfl := Option.some.inj (hc.symm.trans hx)
  exact snapLegal_of_wordsOf h b

theorem ncells_takeWords {x : Snap} (hx : SnapLegal x) (d : Dev) (hd : ncells d ≤ 32) :
    ncells (takeWords (x.bad.map (fun r => blockNum r.1)) x.words d) ≤ 32 := by
  unfold takeWords
  have hlist : ∀ e ∈ x.words.reverse, e.1 = R.measCells → fld e.2 5 0 ≤ 32 ∨ blockNum R.measCells ∈ x.bad.map (fun r => blockNum r.1) :=
    fun e he => hx e (List.mem_reverse.1 he)
  revert hlist
  generalize x.words.reverse = l
  intro hlist
  induction l generalizing d with
  | nil => exact hd
  | cons e r ih =>
    refine ih _ ?_ (fun y hy => hlist y (.tail _ hy))
    beta_reduce
    split
    · exact hd
    · next hbad =>
      rw [ncells, regFld]
      change fld (reg (setReg e.1 e.2 d) R.measCells) 5 0 ≤ 32
      rw [reg_setReg]
      split
      · next hk => exact (hlist e (.head _) hk.symm).resolve_right (hk ▸ hbad)
      · exact hd

theorem commits_takeWords (bad : List Nat) (l : List (Nat × Word)) (d : Dev) : (takeWords bad l d).pr.commits = d.pr.commits := by
  refine each_fst (P := fun e : Dev => e.pr.commits = d.pr.commits) _ (fun e s hs => ?_) _ d rfl
  split
  · exact hs
  · exact hs

theorem legal_takeWords {x : Snap} (hx : SnapLegal x) {d : Dev} (hd : d.cellsLegal) :
    (takeWords (x.bad.map (fun r => blockNum r.1)) x.words d).cellsLegal := by
  obtain ⟨hn, hs⟩ := (cellsLegal_iff d).1 hd
  refine (cellsLegal_iff _).2 ⟨ncells_takeWords hx d hn, ?_⟩
  rw [commits_takeWords]
  exact hs

theorem cellView_clearFaults (p : Nat × Nat × Nat → Bool) (d : Dev) :
    cellView (withProt (fun q => { q with cfgFaults := q.cfgFaults.filter p }) d) = cellView d := cellView_withProt ..

theorem legal_applyCommit (c : PendCommit) {x : Snap} (hx : SnapLegal x) {b : Both} (hb : b.1.cellsLegal) : (applyCommit c x b).1.cellsLegal := by
  refine cellsLegal_of_view ?_ (legal_takeWords hx hb)
  unfold applyCommit
  dsimp only
  split <;> simp only [↓cellView_finish, ↓cellView_answerAll, ↓cellView_ite, ↓cellView_occur, ↓cellView_commitEffects, ↓cellView_clearFaults,
    ite_self]

theorem legal_commitNow (c : PendCommit) (hc : c.Legal) (b : Both) (hb : b.1.cellsLegal) : (commitNow c b).1.cellsLegal := by
  unfold commitNow
  split
  · next x hx => exact legal_applyCommit c (hc x hx) hb
  · obtain ⟨w, hw⟩ := wordsOf_dueWords b.1 c.mask
    exact legal_applyCommit c (snapLegal_of_wordsOf hw b) (cellsLegal_of_view (cellView_takeSnap ..) hb)

theorem legal_dropCommits {d : Dev} (hd : d.cellsLegal) (p : PendCommit → Bool) :
    (withProt (fun q => { q with commits := q.commits.filter p }) d).cellsLegal :=
  cellsLegal_of_fewer (a := d) rfl (fun _ h => (List.mem_filter.1 h).1) hd

theorem legal_applyDue {b : Both} (hb : b.1.cellsLegal) : (applyDue b).1.cellsLegal := by
  obtain ⟨-, hs⟩ := (cellsLegal_iff _).1 hb
  exact legal_each (P := PendCommit.Legal) legal_commitNow _ (fun c hc => hs c (List.mem_filter.1 hc).1) _ (legal_dropCommits hb _)

theorem legal_localCommit (mask : Nat) (src : CommitSource) (late : Nat) {b : Both} (hb : b.1.cellsLegal) :
    (localCommit mask src late b).1.cellsLegal := by
  unfold localCommit
  split
  · exact hb
  · dsimp only
    split
    · exact legal_pushCommit (PendCommit.legal_of_none rfl) hb
    · obtain ⟨w, hw⟩ := wordsOf_localWords b.1 (localPend 0 mask src late false b.1)
      exact legal_pushSnapped hw rfl hb

theorem legal_landCommit (aon : Bool) (c : PendCommit) (hc : c.Legal) (b : Both) (hb : b.1.cellsLegal) : (landCommit aon c b).1.cellsLegal := by
  unfold landCommit
  dsimp only
  split
  · exact legal_pushCommit hc hb
  · split
    · refine legal_pushCommit ?_ hb
      exact hc
    · split
      · refine legal_pushCommit ?_ hb
        exact hc
      · obtain ⟨w, hw⟩ := wordsOf_localWords b.1
          { c with waitM := false, waitA := false, due := BitVec.ofNat 64 (max c.due.toNat (ceil20 b.1.now.toNat)) }
        exact legal_pushSnapped hw rfl hb

theorem legal_landCommits (aon : Bool) {b : Both} (hb : b.1.cellsLegal) : (landCommits aon b).1.cellsLegal := by
  obtain ⟨hn, hs⟩ := (cellsLegal_iff _).1 hb
  exact legal_each (P := PendCommit.Legal) (legal_landCommit aon) _ hs _ ⟨hn, fun c hc => absurd hc List.not_mem_nil⟩

theorem legal_timedCommit (at0 mask h : Nat) {b : Both} (hb : b.1.cellsLegal) : (timedCommit at0 mask h b).1.cellsLegal := by
  unfold timedCommit
  dsimp only
  split
  · exact legal_pushCommit (PendCommit.legal_of_none rfl) hb
  · exact legal_applyDue (legal_pushCommit (PendCommit.legal_of_none rfl) hb)

theorem legal_timedLocal (at0 mask h : Nat) {b : Both} (hb : b.1.cellsLegal) : (timedLocal at0 mask h b).1.cellsLegal := by
  unfold timedLocal
  dsimp only
  split
  · exact legal_localCommit _ _ _ hb
  · exact legal_pushCommit (PendCommit.legal_of_none rfl) hb

theorem legal_commitFrame (at0 : Time) (mask h : Nat) {b : Both} (hb : b.1.cellsLegal) : (commitFrame at0 mask h b).1.cellsLegal := by
  unfold commitFrame
  split
  · exact hb
  · exact legal_timedCommit _ _ _ (cellsLegal_of_view (cellView_withProt ..) hb)

theorem legal_commitAll (h : Nat) (c : Desc) {b : Both} (hb : b.1.cellsLegal) : (commitAll h c b).1.cellsLegal :=
  legal_timedCommit _ _ _ (cellsLegal_of_view ((cellView_enqueue ..).trans (cellView_enqueue ..)) hb)

theorem legal_commitOp (h : Nat) (c : Desc) {b : Both} (hb : b.1.cellsLegal) : (commitOp h c b).1.cellsLegal := by
  unfold commitOp
  split
  · split
    · exact legal_commitAll h c hb
    · exact hb
  · split
    · exact legal_timedLocal _ _ _ hb
    · exact legal_localCommit _ _ _ hb

end Sys2Proof.Machine
end

section
/-! SUPPORT. NCELLS and the commits: the configuration record, register writes, resets, wakes and the start (files 02, 12 and 15, R65, R338). -/

namespace Sys2Proof.Machine

/-! ### The configuration record (R343) -/

theorem each_append {α σ : Type} (f : α → σ → σ) (l m : List α) (s : σ) : each f (l ++ m) s = each f m (each f l s) := by
  induction l generalizing s with
  | nil => rfl
  | cons x r ih => exact ih _

theorem reg_setBoth (off : Nat) (v : Word) (d : Dev) (r : Nat) : reg (setBoth off v d) r = if r = off then v else reg d r := reg_setReg ..

theorem lookIn_cons (d : Dev) (e : Nat × Word) (l : List (Nat × Word)) (off : Nat) :
    lookIn d (e :: l) off = if off = e.1 then e.2 else lookIn d l off := by
  unfold lookIn
  rw [List.find?_cons]
  by_cases h : off = e.1
  · simp [h]
  · simp [h, show (e.1 == off) = false from beq_eq_false_iff_ne.2 (Ne.symm h)]

/-- Words loaded last first leave each register with the first word of its offset. -/
theorem reg_loaded (l : List (Nat × Word)) (d : Dev) (off : Nat) : reg (each (fun e d => setBoth e.1 e.2 d) l.reverse d) off = lookIn d l off := by
  induction l with
  | nil => rfl
  | cons e r ih =>
    rw [List.reverse_cons, each_append, lookIn_cons, ← ih]
    exact reg_setBoth ..

theorem commits_loaded (l : List (Nat × Word)) (d : Dev) : (each (fun e d => setBoth e.1 e.2 d) l d).pr.commits = d.pr.commits :=
  each_fst (P := fun e : Dev => e.pr.commits = d.pr.commits) (fun e d => setBoth e.1 e.2 d) (fun _ _ hs => hs) l d rfl

theorem lookIn_of_absent {d : Dev} {l : List (Nat × Word)} {off : Nat} (h : l.any (fun e => e.1 == off) = false) : lookIn d l off = reg d off := by
  unfold lookIn
  split
  case h_1 x hx =>
    exact absurd (List.any_eq_true.2 ⟨x, List.mem_of_find?_eq_some hx, List.find?_some hx⟩) (Bool.eq_false_iff.1 h)
  case h_2 => rfl

/-- The words that the check of a record leaves hold NCELLS to 32. -/
theorem checkRecord_cells (d : Dev) (n : Nat) (vals : List (Nat × Word)) (hlen : vals.length ≤ n)
    (hin : (checkRecord d n vals).1.any (fun e => e.1 == R.measCells) = true) : fld (lookIn d (checkRecord d n vals).1 R.measCells) 5 0 ≤ 32 := by
  induction n generalizing vals with
  | zero =>
    obtain rfl := List.eq_nil_of_length_eq_zero (Nat.le_zero.1 hlen)
    cases hin
  | succ n ih =>
    rw [checkRecord] at hin ⊢
    split at hin
    · next hnone =>
      have hrule : cellsRule d.head (lookIn d vals) ∈ recordRules d.head (lookIn d vals) := by
        simp only [recordRules, List.mem_append]
        exact .inl (.inl (.inl (.inl (.inr (cellsRule_mem_meas ..)))))
      have hok := List.find?_eq_none.1 hnone _ hrule
      rw [show vals.any (fun e => e.1 == (cellsRule d.head (lookIn d vals)).1) = true from hin] at hok
      exact le_32_of_ncellsOk (by simpa [cellsRule] using hok)
    · next r hr =>
      have hfound := List.find?_some hr
      obtain ⟨-, hany⟩ := Bool.and_eq_true_iff.1 hfound
      obtain ⟨e, he, hk⟩ := List.any_eq_true.1 hany
      have hlt : (vals.filter (fun e => e.1 ≠ r.1)).length < vals.length :=
        List.length_filter_lt_length_iff_exists.2 ⟨e, he, by simpa using hk⟩
      exact ih _ (by omega) hin

theorem legal_loadEntries (r : CfgRec) {d : Dev} (hd : d.cellsLegal) : (loadEntries r d).cellsLegal := by
  unfold loadEntries
  refine cellsLegal_of_view (cellView_each (fun _ _ => cellView_cfgFault ..) ..) ?_
  generalize r.entries.filter (fun e => decide (e.1 ∈ recordOffsets)) = own
  have hf : (each (fun e d => cfgFault e.1 2 (groupOf e.1) true d) (r.entries.filter (fun e => decide (e.1 ∉ recordOffsets))) d).cellsLegal :=
    cellsLegal_of_view (cellView_each (fun _ _ => cellView_cfgFault ..) ..) hd
  revert hf
  generalize each (fun e d => cfgFault e.1 2 (groupOf e.1) true d) (r.entries.filter (fun e => decide (e.1 ∉ recordOffsets))) d = e
  intro he
  obtain ⟨hn, hs⟩ := (cellsLegal_iff e).1 he
  refine (cellsLegal_iff _).2 ⟨?_, ?_⟩
  · rw [ncells, regFld, reg_loaded]
    cases hin : (checkRecord e own.length own).1.any (fun e => e.1 == R.measCells)
    · rw [lookIn_of_absent hin]
      exact hn
    · exact checkRecord_cells e _ own (Nat.le_refl _) hin
  · rw [commits_loaded]
    exact hs

theorem legal_ite {p : Prop} [Decidable p] {a b : Dev} (ha : a.cellsLegal) (hb : b.cellsLegal) : (if p then a else b).cellsLegal := by
  split
  · exact ha
  · exact hb

theorem legal_withProt {f : Prot → Prot} (hf : ∀ p, (f p).commits = p.commits) {d : Dev} (hd : d.cellsLegal) : (withProt f d).cellsLegal := by
  refine cellsLegal_of_view ((cellView_withProt ..).trans ?_) hd
  rw [hf]
  exact cellView_fold d

theorem legal_loadRecord {d : Dev} (hd : d.cellsLegal) : (loadRecord d).cellsLegal := by
  have href : ∀ w e, e.cellsLegal → (setBoth R.protScrcRef w e).cellsLegal := fun w e => cellsLegal_of_view (cellView_setBoth (by decide) w e)
  have hload : ∀ r f e, (∀ p, (f p).commits = p.commits) → e.cellsLegal → (setBoth R.protScrcRef r.ref (loadEntries r (withProt f e))).cellsLegal :=
    fun r f e hf he => href _ _ (legal_loadEntries r (legal_withProt hf he))
  have hclear := legal_withProt (f := fun p => { p with recValid := false, storing := none, cfgCleanup := none }) (fun _ => rfl) hd
  unfold loadRecord
  dsimp only
  split
  · exact href _ _ hclear
  · exact legal_ite (hload _ _ _ (fun _ => rfl) hclear) (cellsLegal_of_view (cellView_notStored ..) (hload _ _ _ (fun _ => rfl) hclear))

/-! ### Register writes (R333 to R335, R350, R352) -/

theorem legal_revertDone {e : Both} (he : e.1.cellsLegal) :
    (match e.1.pr.revert with
    | some r => if e.1.pr.xM.isSome || e.1.pr.xA.isSome then e else (revertNow r e.1, e.2)
    | none => e).1.cellsLegal := by
  split
  · split
    · exact he
    · exact cellsLegal_of_view (cellView_revertNow ..) he
  · exact he

theorem legal_postedLand (aon : Bool) {b : Both} (hb : b.1.cellsLegal) : (postedLand aon b).1.cellsLegal := by
  have hland : ∀ w : Posted, (landCommits aon (withProt (fun p => if aon then { p with xA := none } else { p with xM := none })
      (swShadow w.off w.mask w.v b.1), b.2)).1.cellsLegal := fun w =>
    legal_landCommits aon (legal_withProt (by cases aon <;> exact fun _ => rfl) (cellsLegal_of_view (cellView_swShadow ..) hb))
  unfold postedLand
  generalize (if aon then b.1.pr.xA else b.1.pr.xM) = x
  cases x with
  | none => exact hb
  | some w => exact legal_revertDone (hland w)

theorem legal_trigger (off : Nat) (v : Word) {b : Both} (hb : b.1.cellsLegal) : (trigger off v b).1.cellsLegal := by
  unfold trigger
  dsimp only
  split
  · exact cellsLegal_of_view (cellView_sysResetWrite ..) hb
  split
  · exact legal_localCommit _ _ _ hb
  refine cellsLegal_of_view ?_ hb
  (repeat' split) <;> simp only [↓cellView_svcCloseWrite, ↓cellView_cfgStoreKey, ↓cellView_linkCmd, ↓cellView_eqBell, ↓cellView_sqBell,
    ↓cellView_cqBell, ↓cellView_outCmd, ↓cellView_safeResetWrite, ↓cellView_chkTrigger]

/-- MEAS_CELLS is a safety register (Table MAP-4). -/
theorem ne_measCells_of_cls {off : Nat} {r : RegRow} (h : regInfo off = some r) (hc : r.cls ≠ .safety) : off ≠ R.measCells := by
  rintro rfl
  have hrow : (regInfo R.measCells).elim true (fun r => decide (r.cls = .safety)) = true := by decide +kernel
  rw [h] at hrow
  exact hc (of_decide_eq_true hrow)

theorem legal_regTake {r : RegRow} {off : Nat} (h : regInfo off = some r) (mask v : Word) {b : Both} (hb : b.1.cellsLegal) :
    (regTake r off mask v b).1.cellsLegal := by
  unfold regTake
  dsimp only
  split
  case h_1 => exact cellsLegal_of_view (cellView_shadowWrite ..) hb
  case h_2 => exact cellsLegal_of_view (cellView_shadowWrite ..) hb
  case h_3 hc => exact cellsLegal_of_view (cellView_directWrite (ne_measCells_of_cls h (by simp [hc])) ..) hb
  case h_4 hc => exact cellsLegal_of_view (cellView_sumWrite (ne_measCells_of_cls h (by simp [hc])) ..) hb
  case h_5 => exact legal_trigger _ _ hb

theorem legal_regStore (m : Master) (off size : Nat) (v : Word) {b : Both} (hb : b.1.cellsLegal) : (regStore m off size v b).1.cellsLegal := by
  have halign : (refuseAlign m b).1.cellsLegal := cellsLegal_of_view (cellView_refuseAlign ..) hb
  have hbusy : (refuseBusy m b).1.cellsLegal := cellsLegal_of_view (cellView_refuseBusy ..) hb
  unfold regStore
  dsimp only
  split
  · split
    · exact hb
    · exact halign
  · next r hr =>
    split
    · exact halign
    split
    · exact hb
    split
    · exact hb
    · split
      · exact hbusy
      · exact legal_regTake hr _ _ hb
    · split
      · exact cellsLegal_of_view (cellView_refusePriv ..) hb
      split
      · exact hbusy
      · exact legal_regTake hr _ _ hb

theorem legal_masterStore (m : Master) (off size : Nat) (v : Word) {b : Both} (hb : b.1.cellsLegal) : (masterStore m off size v b).1.cellsLegal := by
  cases m with
  | hostPort =>
    unfold masterStore
    dsimp only
    split
    · exact legal_regStore _ _ _ _ hb
    · exact hb
  | belvedere => exact legal_regStore _ _ _ _ hb
  | executor => exact legal_regStore _ _ _ _ hb
  | engine => exact legal_regStore _ _ _ _ hb

theorem legal_aliasTake {r : RegRow} {off : Nat} (h : regInfo off = some r) (i : Nat) (on : Bool) {b : Both} (hb : b.1.cellsLegal) :
    (aliasTake r off i on b).1.cellsLegal := by
  unfold aliasTake
  dsimp only
  split
  · exact hb
  split
  · exact cellsLegal_of_view (cellView_refuseBusy ..) hb
  · exact legal_regTake h _ _ hb

theorem legal_aliasStore (addr size : Nat) (v : Word) {b : Both} (hb : b.1.cellsLegal) : (aliasStore addr size v b).1.cellsLegal := by
  unfold aliasStore
  generalize aliasBit addr = x
  obtain ⟨off, i⟩ := x
  split
  · exact cellsLegal_of_view (cellView_refuseAlign ..) hb
  dsimp only
  split
  · exact hb
  · next r hr =>
    split
    · exact hb
    split
    · exact hb
    · exact legal_aliasTake hr _ _ hb
    · split
      · exact legal_aliasTake hr _ _ hb
      split
      · exact hb
      · exact cellsLegal_of_view (cellView_refusePriv ..) hb

theorem legal_execWait (off : Nat) {b : Both} (hb : b.1.cellsLegal) : (execWait off b).1.cellsLegal := by
  unfold execWait
  split
  · exact legal_postedLand _ hb
  · exact hb

theorem legal_execStore (off : Nat) (v : Word) {b : Both} (hb : b.1.cellsLegal) : (execStore off v b).1.cellsLegal := by
  unfold execStore
  exact legal_regStore _ _ _ _ (legal_execWait off hb)

theorem legal_denied (h : Nat) (l : List Nat) {d : Dev} (hd : d.cellsLegal) : (finish h St.deniedWindow [] (denyAll l d)).cellsLegal :=
  cellsLegal_of_view ((cellView_finish ..).trans (cellView_denyAll ..)) hd

theorem legal_regWriteOp (h : Nat) (c : Desc) {b : Both} (hb : b.1.cellsLegal) : (regWriteOp h c b).1.cellsLegal := by
  unfold regWriteOp
  dsimp only
  split
  · exact legal_denied h _ hb
  · refine cellsLegal_of_view (cellView_finish ..) ?_
    exact legal_each (P := fun _ => True) (fun i _ e he => legal_execStore _ _ he) _ (fun _ _ => trivial) b hb

theorem legal_regModifyOp (h : Nat) (c : Desc) {b : Both} (hb : b.1.cellsLegal) : (regModifyOp h c b).1.cellsLegal := by
  unfold regModifyOp
  dsimp only
  split
  · exact legal_denied h _ hb
  · exact cellsLegal_of_view (cellView_finish ..) (legal_execStore _ _ (legal_execWait _ hb))

theorem legal_portWrite (addr : Nat) (data : List Byte) {b : Both} (hb : b.1.cellsLegal) : (portWrite addr data b).1.cellsLegal := by
  unfold portWrite
  split
  · exact cellsLegal_of_view (cellView_portFraming ..) hb
  split
  · exact cellsLegal_of_view (cellView_portRange ..) hb
  · refine cellsLegal_of_view (cellView_portDone ..) ?_
    split
    · exact cellsLegal_of_view (cellView_writeWindow ..) hb
    · exact legal_each (P := fun _ => True) (fun p _ e he => legal_regStore _ _ _ _ he) _ (fun _ _ => trivial) _ hb
    · exact legal_each (P := fun _ => True) (fun p _ e he => legal_aliasStore _ _ _ he) _ (fun _ _ => trivial) _ hb

/-! ### Ring time that steps (R256, R370) -/

theorem legal_noCommits {d e : Dev} (hn : ncells e = ncells d) (hc : e.pr.commits = []) (hd : d.cellsLegal) : e.cellsLegal :=
  cellsLegal_of_fewer hn (fun _ h => absurd (hc ▸ h) List.not_mem_nil) hd

theorem legal_dropTimed {d : Dev} (hd : d.cellsLegal) : (dropTimed d).cellsLegal :=
  legal_noCommits (d := d) rfl rfl hd

theorem legal_timeRestart (new : Time) {d : Dev} (hd : d.cellsLegal) : (timeRestart new d).cellsLegal := by
  refine cellsLegal_of_view ?_ (legal_dropTimed hd)
  unfold timeRestart
  simp only [↓cellView_occur, ↓cellView_mk, cellView_fold]

theorem legal_takeBeacon (t : Time) (p : Port) (b : Beacon) {d : Dev} (hd : d.cellsLegal) : (takeBeacon t p b d).cellsLegal := by
  unfold takeBeacon
  refine cellsLegal_of_view (cellView_withTime ..) ?_
  split
  · exact legal_timeRestart _ hd
  split
  · exact cellsLegal_of_view (cellView_timeStep ..) hd
  · exact hd

theorem legal_beaconRx (t : Time) (p : Port) (b : Beacon) {d : Dev} (hd : d.cellsLegal) : (beaconRx t p b d).cellsLegal := by
  unfold beaconRx
  split
  · exact hd
  · refine cellsLegal_of_view (cellView_sendBeaconOn ..) ?_
    have hmiss : ∀ n e, cellView e = cellView d → (countMissed n e).cellsLegal := fun n e he =>
      cellsLegal_of_view ((cellView_countMissed ..).trans he) hd
    have hin : cellView (if p = .north then withTime (fun x => { x with hopsN := some b.hops }) d else d) = cellView d := by
      simp only [↓cellView_ite, ↓cellView_withTime, ite_self]
    split
    · exact legal_takeBeacon _ _ _ (hmiss _ _ hin)
    · exact hmiss _ _ hin

end Sys2Proof.Machine
end

section
/-! SUPPORT. NCELLS and the commits: resets, wakes and the start (file 02, R65, R338). -/

namespace Sys2Proof.Machine

/-! ### Resets (R49, R50) -/

theorem mget_filter_out {α : Type} (f : Nat → α) {p : Nat × α → Bool} (l : List (Nat × α)) {k : Nat} (hk : ∀ v, p (k, v) = false) :
    mget f (l.filter p) k = f k := by
  induction l with
  | nil => rfl
  | cons e r ih =>
    rw [List.filter_cons]
    split
    · next hp =>
      have hne : k ≠ e.1 := by
        rintro rfl
        exact absurd (hk e.2) (by simp [hp])
      rw [mget, if_neg hne]
      exact ih
    · exact ih

/-- A reset leaves the device without cells and without commits. -/
theorem cellView_volatileReset (kept cold off : Bool) (d : Dev) : cellView (volatileReset kept cold off d) = (regReset R.measCells, []) := by
  have hregs : mget regReset (if kept then hostRegs d.regs else []) R.measCells = regReset R.measCells := by
    cases kept
    · rfl
    · exact mget_filter_out _ _ fun _ => rfl
  exact Prod.ext hregs rfl

theorem legal_volatileReset (kept cold off : Bool) (d : Dev) : (volatileReset kept cold off d).cellsLegal := by
  have hview := cellView_volatileReset kept cold off d
  have hn : ncells (volatileReset kept cold off d) = fld (regReset R.measCells) 5 0 :=
    congrArg (fun v : Word × List PendCommit => fld v.1 5 0) hview
  have hc : (volatileReset kept cold off d).pr.commits = [] := congrArg Prod.snd hview
  refine (cellsLegal_iff _).2 ⟨?_, fun c h => ?_⟩
  · rw [hn]
    decide +kernel
  · rw [hc] at h
    exact absurd h List.not_mem_nil

theorem legal_restart (b : Nat) (kept : Bool) (x : Both) : (restart b kept x).1.cellsLegal :=
  cellsLegal_of_view (cellView_withPw ..) (legal_volatileReset ..)

theorem legal_assertReset (b : Nat) (x : Both) : (assertReset b x).1.cellsLegal := legal_restart ..

theorem legal_causeReset (b : Nat) {x : Both} (hx : x.1.cellsLegal) : (causeReset b x).1.cellsLegal := by
  unfold causeReset
  split
  · exact legal_assertReset ..
  · exact hx

theorem legal_rstPulse (ns : Nat) {b : Both} (hb : b.1.cellsLegal) : (rstPulse ns b).1.cellsLegal := by
  have hfree : (freeBit b.1).2.cellsLegal := cellsLegal_of_view (cellView_freeBit ..) hb
  unfold rstPulse
  split
  · exact hb
  split
  · exact legal_causeReset _ hb
  dsimp only
  split
  · exact legal_causeReset _ hfree
  · exact hfree

/-! ### Wakes (R36, R41 to R48) -/

theorem legal_abortNow (src : Nat) (b : Both) : (abortNow src b).1.cellsLegal := legal_restart ..

theorem legal_wakeClosing (src : Nat) {b : Both} (hb : b.1.cellsLegal) : (wakeClosing src b).1.cellsLegal := by
  unfold wakeClosing
  split
  · exact legal_abortNow ..
  · exact cellsLegal_of_view (cellView_abortClosing ..) hb

theorem legal_closingComplete (r : SelfTestRun) {b : Both} (hb : b.1.cellsLegal) : (closingComplete r b).1.cellsLegal := by
  unfold closingComplete
  dsimp only
  split
  · exact hb
  split
  · split
    · exact legal_abortNow ..
    · exact hb
  split
  · exact cellsLegal_of_view (cellView_closingDone ..) hb
  · exact hb

theorem legal_wakeBy (src : Nat) (b : Both) : (wakeBy src b).1.cellsLegal := legal_restart ..

theorem legal_wakeAndDrive (src : Nat) (b : Both) : (wakeAndDrive src b).1.cellsLegal :=
  cellsLegal_of_view ((cellView_driveWake ..).trans (cellView_driveWake ..)) (legal_wakeBy ..)

theorem legal_elapse (dt : Nat) {d : Dev} (hd : d.cellsLegal) : (elapse dt d).cellsLegal := cellsLegal_of_view (cellView_elapse ..) hd

theorem legal_tick (t : Time) {d : Dev} (hd : d.cellsLegal) : (tick t d).cellsLegal := cellsLegal_of_view (cellView_tick ..) hd

theorem legal_wakePin (t : Time) (dt : Nat) {b : Both} (hb : b.1.cellsLegal) : (wakePin t dt b).1.cellsLegal := by
  unfold wakePin
  dsimp only
  split
  · split
    · exact legal_wakeAndDrive ..
    · exact legal_elapse dt hb
  split
  · split
    · exact legal_wakeClosing 1 (legal_tick t hb)
    · exact legal_tick t hb
  · exact hb

theorem legal_relayed (n s : Bool) {d : Dev} (hd : d.cellsLegal) : (relayWake n s d).cellsLegal := cellsLegal_of_view (cellView_relayWake ..) hd

theorem legal_iteBoth {p : Prop} [Decidable p] {a b : Both} (ha : a.1.cellsLegal) (hb : b.1.cellsLegal) : (if p then a else b).1.cellsLegal := by
  split
  · exact ha
  · exact hb

theorem legal_linkWake (t : Time) (dt : Nat) (n s : Bool) {b : Both} (hb : b.1.cellsLegal) : (linkWake t dt n s b).1.cellsLegal := by
  have hwoken : (if wakeEn (tick t b.1) 1 then wakeClosing 2 (tick t b.1, b.2) else (tick t b.1, b.2)).1.cellsLegal :=
    legal_iteBoth (legal_wakeClosing 2 (legal_tick t hb)) (legal_tick t hb)
  unfold linkWake
  extract_lets relay b1 b2
  refine legal_iteBoth (legal_iteBoth (legal_elapse dt hb) (legal_iteBoth ?_ ?_)) (legal_iteBoth (legal_iteBoth (legal_iteBoth ?_ hwoken) (legal_tick t hb)) hb)
  · exact legal_relayed n s (legal_wakeBy ..)
  · exact legal_relayed n s (legal_elapse dt hb)
  · exact legal_relayed n s hwoken

theorem legal_timerWake (dt : Nat) {b : Both} (hb : b.1.cellsLegal) : (timerWake dt b).1.cellsLegal := by
  unfold timerWake
  dsimp only
  split
  · split
    · exact legal_wakeAndDrive ..
    · exact legal_elapse dt hb
  · exact hb

theorem legal_sleepConfirm (mv : List Int) {b : Both} (hb : b.1.cellsLegal) : (sleepConfirm mv b).1.cellsLegal := by
  unfold sleepConfirm
  dsimp only
  split
  · split
    · exact cellsLegal_of_view (cellView_withPw ..) (legal_elapse 1 hb)
    · exact legal_wakeAndDrive ..
  · exact hb

theorem legal_sealTest (t : Time) (dt ohms : Nat) {b : Both} (hb : b.1.cellsLegal) : (sealTest t dt ohms b).1.cellsLegal := by
  have hread : ∀ d, d.cellsLegal → (sealRead ohms d).cellsLegal := fun d hd => cellsLegal_of_view (cellView_sealRead ..) hd
  unfold sealTest
  dsimp only
  split
  · split
    · exact legal_elapse dt hb
    split
    · exact legal_wakeAndDrive ..
    · exact hread _ (legal_elapse dt hb)
  split
  · split
    · exact legal_ite (cellsLegal_of_view (cellView_sealOpened ..) (hread _ (legal_tick t hb))) (hread _ (legal_tick t hb))
    · exact legal_tick t hb
  · exact hb

theorem legal_gazeboCycle (dt : Nat) (r : GazeboReading) {b : Both} (hb : b.1.cellsLegal) : (gazeboCycle dt r b).1.cellsLegal := by
  have hgz : ∀ g (d : Dev), d.cellsLegal → ({ d with ba := { d.ba with gz := g } } : Dev).cellsLegal := fun g d hd =>
    cellsLegal_of_view ((cellView_mk ..).trans (cellView_fold ..)) hd
  have hend : ∀ a c d, d.cellsLegal → (gzEnd a c d).cellsLegal := fun a c d hd => cellsLegal_of_view (cellView_gzEnd ..) hd
  have hseal : ∀ f d, d.cellsLegal → (withPw f (withProt (fun p => { p with sealLast := none }) d)).cellsLegal := fun f d hd =>
    cellsLegal_of_view (cellView_withPw ..) (legal_withProt (fun _ => rfl) hd)
  unfold gazeboCycle
  split
  · dsimp only
    split
    · exact legal_elapse dt hb
    split
    · exact hgz _ _ (legal_elapse dt hb)
    split
    · exact legal_wakeAndDrive ..
    · exact hseal _ _ (hend _ _ _ (hgz _ _ (legal_elapse dt hb)))
  · exact hb

theorem legal_wordRead (mem addr : Nat) (err : BitVec 79) (reader : Reader) {b : Both} (hb : b.1.cellsLegal) :
    (wordRead mem addr err reader b).1.cellsLegal := by
  have hdec : (decoded err b.1).2.cellsLegal := cellsLegal_of_view (cellView_decoded ..) hb
  have hmem : ∀ n, (memError mem addr n (decoded err b.1).2).cellsLegal := fun n => cellsLegal_of_view (cellView_memError ..) hdec
  unfold wordRead
  split
  · dsimp only
    split
    · exact hdec
    split
    · exact hmem _
    split
    · exact legal_assertReset ..
    split
    · exact hmem _
    · split <;> exact hmem _
    · split
      · exact cellsLegal_of_view (cellView_internalEnd ..) (hmem _)
      · exact hmem _
  · exact hb

/-! ### The start (Table PWR-4) -/

theorem legal_stepsBefore (env : StartEnv) {d : Dev} (hd : d.cellsLegal) : (sealAtWake (discardCut (startCounts env.mode d))).cellsLegal :=
  cellsLegal_of_view ((cellView_sealAtWake ..).trans ((cellView_discardCut ..).trans (cellView_startCounts ..))) hd

theorem legal_startTested (r : SelfTestRun) {d e : Dev} (hd : d.cellsLegal) (he : e.cellsLegal) (p : Bool) :
    (if p then stillFailed d else startTest r e).cellsLegal :=
  legal_ite (cellsLegal_of_view (cellView_stillFailed ..) hd) (cellsLegal_of_view (cellView_startTest ..) he)

theorem legal_booted (okA okB : Bool) (f : Bist → Bist) {d : Dev} (hd : d.cellsLegal) : (withBist f (bootFirmware okA okB d)).cellsLegal :=
  cellsLegal_of_view ((cellView_withBist ..).trans (cellView_bootFirmware ..)) hd

theorem legal_restored (b : Bool) {d : Dev} (hd : d.cellsLegal) :
    (startLanes (loadCharge (excludeEngines b (trackRestore d)))).cellsLegal :=
  cellsLegal_of_view ((cellView_startLanes ..).trans ((cellView_loadCharge ..).trans ((cellView_excludeEngines ..).trans (cellView_trackRestore ..)))) hd

theorem legal_startSteps (env : StartEnv) {d : Dev} (hd : d.cellsLegal) : (startSteps env d).cellsLegal := by
  have hbefore := legal_stepsBefore env hd
  unfold startSteps
  extract_lets sealed at' repaired ram tested booted loaded ready last
  have hat : ∀ a b d, d.cellsLegal → (at' a b d).cellsLegal := fun a b d hd => legal_tick _ hd
  have hram : ram.cellsLegal := hat _ _ _ (cellsLegal_of_view (cellView_applyRepair ..) (hat _ _ _ hbefore))
  have htested : tested.cellsLegal := legal_startTested env.test hram hram _
  have hbooted : booted.cellsLegal := legal_booted _ _ _ (hat _ _ _ htested)
  have hloaded : loaded.cellsLegal :=
    legal_loadRecord (cellsLegal_of_view ((cellView_selectSet ..).trans (cellView_refreshResume ..)) (legal_tick _ hbooted))
  have hlast : last.cellsLegal := legal_tick _ (legal_restored _ hloaded)
  exact legal_ite hlast (cellsLegal_of_view (cellView_analogCheck ..) hlast)

theorem legal_startRun (env : StartEnv) {b : Both} (hb : b.1.cellsLegal) : (startRun env b).1.cellsLegal := by
  unfold startRun
  split
  · refine legal_startSteps env ?_
    split
    · exact cellsLegal_of_view (cellView_keepTimes ..) hb
    · exact hb
  · exact hb

end Sys2Proof.Machine
end

section
/-! SUPPORT. NCELLS and the commits: what each command keeps (files 03 and 12, R65, R338). -/

namespace Sys2Proof.Machine

/-! ### Operations that keep the cell count lawful -/

/-- A device operation that keeps NCELLS at most 32, and its commits legal. -/
def KeepsCells (f : Dev → Dev) : Prop := ∀ d, d.cellsLegal → (f d).cellsLegal

/-- An operation on device and host port that does. -/
def KeepsCellsBoth (f : Both → Both) : Prop := ∀ b, b.1.cellsLegal → (f b).1.cellsLegal

/-- An outcome whose next state, where it has one, is lawful. -/
def NextLegal (o : Host.Outcome State Fault Refusal) : Prop := ∀ u, o = .next u → u.dev.cellsLegal

theorem keepsCells_of_view {f : Dev → Dev} (h : ∀ d, cellView (f d) = cellView d) : KeepsCells f := fun d => cellsLegal_of_view (h d)

theorem keepsCellsBoth_of_view {f : Both → Both} (h : ∀ b, cellView (f b).1 = cellView b.1) : KeepsCellsBoth f := fun b => cellsLegal_of_view (h b)

theorem keepsCells_when {p : Dev → Prop} [∀ d, Decidable (p d)] {f : Dev → Dev} (h : KeepsCells f) : KeepsCells (fun d => if p d then f d else d) :=
  fun d hd => legal_ite (h d hd) hd

theorem keepsCellsBoth_when {p : Both → Prop} [∀ b, Decidable (p b)] {f : Both →
    Both} (h : KeepsCellsBoth f) : KeepsCellsBoth (fun b => if p b then f b else b) :=
  fun b hb => legal_iteBoth (h b hb) hb

theorem legal_withExt {f : Both → Both} (h : KeepsCellsBoth f) {op ext : Byte} : KeepsCellsBoth (withExt op ext f) :=
  fun b hb => legal_iteBoth (cellsLegal_of_view (cellView_portFraming ..) hb) (h b hb)

/-- An opcode that acts on the table that BULK has brought, where it has. -/
theorem keepsCellsBoth_table {x : Both → Option (List Byte)} {f : List Byte → Dev → Dev} (h : ∀ l d, cellView (f l d) = cellView d) :
    KeepsCellsBoth (fun b => match x b with
      | some l => (f l b.1, b.2)
      | none => b) := fun b hb => by
  dsimp only
  split
  · exact cellsLegal_of_view (h ..) hb
  · exact hb

theorem legal_unbuffered (typ : Nat) {d : Dev} (hd : d.cellsLegal) : (unbufferAny typ d).cellsLegal :=
    cellsLegal_of_view (cellView_unbufferAny ..) hd

theorem legal_swReset {b : Both} (hb : b.1.cellsLegal) :
    (match b.1.pw.swReset with
    | some k => if passed (msT 10) k b.1.now then causeReset 4 b else b
    | none => b).1.cellsLegal := by
  split
  · exact legal_iteBoth (legal_causeReset _ hb) hb
  · exact hb

theorem cellView_saveDue (d : Dev) :
    cellView (match d.en.savedAt with
    | some x => if passed (600 * lsbPerSec) x d.now then trackSave d else d
    | none => trackSave d) = cellView d := by
  split <;> simp only [↓cellView_ite, ↓cellView_trackSave, ite_self]

theorem cellView_flushDue (h : Nat) (d : Dev) :
    cellView (match findSource d h with
    | some x => if msT 10 ≤ since x.t0 d.now ∧ !x.buf.isEmpty then streamFlush x d else d
    | none => d) = cellView d := by
  split <;> simp only [↓cellView_ite, ↓cellView_streamFlush, ite_self]

theorem cellView_eventWhen (p : Both → Prop) [∀ b, Decidable (p b)] (e : List Byte) (b : Both) :
    cellView (if p b then eventRx e b else b).1 = cellView b.1 := by
  split
  · exact cellView_eventRx ..
  · rfl

/-- EXIT_OCTAL, in octal mode or not. -/
theorem cellView_octalOff (b : Both) :
    cellView (if b.2.octal then portDone [] false (b.1, { b.2 with octal := false }) else portFraming [] b).1 = cellView b.1 := by
  split
  · exact cellView_portDone ..
  · exact cellView_portFraming ..

/-! ### The shapes of a command's next state -/

section
variable {s : State} (hs : s.dev.cellsLegal)
include hs

theorem nextLegal_actH {f : Both → Both} (h : KeepsCellsBoth f) : NextLegal (actH f s) := by
  intro u hu
  cases hu
  exact cellsLegal_of_view (cellView_settle _) (h _ hs)

theorem nextLegal_act {f : Dev → Dev} (h : KeepsCells f) : NextLegal (act f s) := nextLegal_actH hs fun _ hb => h _ hb

theorem nextLegal_actAt {t : Time} {f : Dev → Dev} (h : KeepsCells f) : NextLegal (actAt t f s) :=
  nextLegal_act hs fun _ hd => legal_ite (h _ (legal_tick t hd)) hd

theorem nextLegal_actAwake {t : Time} {f : Dev → Dev} (h : KeepsCells f) : NextLegal (actAwake t f s) :=
  nextLegal_act hs fun _ hd => legal_ite (legal_ite (h _ (legal_tick t hd)) (legal_tick t hd)) hd

theorem nextLegal_actBoth {t : Time} {f : Both → Both} (h : KeepsCellsBoth f) : NextLegal (actBoth t f s) :=
  nextLegal_actH hs fun b hb => legal_iteBoth (h (tick t b.1, b.2) (legal_tick t hb)) hb

theorem nextLegal_actHost {t : Time} {f : Both → Both} (h : KeepsCellsBoth f) : NextLegal (actHost t f s) :=
  nextLegal_actH hs fun b hb => legal_iteBoth (legal_iteBoth (h (tick t b.1, b.2) (legal_tick t hb)) (legal_tick t hb)) hb

theorem nextLegal_actReset {t : Time} {f : Both → Both} (h : KeepsCellsBoth f) : NextLegal (actReset t f s) :=
  nextLegal_actH hs fun _ hb => h _ (legal_iteBoth (legal_tick t hb) hb)

theorem nextLegal_actPort {f : Both → Both} (h : KeepsCellsBoth f) : NextLegal (actPort f s) :=
  nextLegal_actH hs (keepsCellsBoth_when h)

theorem nextLegal_actOp {op : Nat} {ok : Desc → Bool} {t : Time} {c : Desc} {f : Dev → Dev} (h : KeepsCells f) : NextLegal (actOp op ok t c f s) :=
  nextLegal_actAwake hs (keepsCells_when h)

theorem nextLegal_actOpH {op : Nat} {ok : Desc → Bool} {t : Time} {c : Desc} {f : Both → Both} (h : KeepsCellsBoth f) :
    NextLegal (actOpH op ok t c f s) :=
  nextLegal_actH hs fun b hb => legal_iteBoth (legal_iteBoth (h (tick t b.1, b.2) (legal_tick t hb)) (legal_tick t hb)) hb

end

/-! ### The commands -/

section
variable {s : State} (hs : s.dev.cellsLegal)
include hs

theorem nextLegal_execVstkPowerOn : NextLegal (execVstkPowerOn s) := by
  refine nextLegal_actH hs ?_
  exact fun _ _ => legal_assertReset ..

theorem nextLegal_execSupplyWarning (t : Time) : NextLegal (execSupplyWarning t s) :=
  nextLegal_actAt hs (keepsCells_of_view fun _ => cellView_supplyWarn ..)

theorem nextLegal_execSupplyWarningClear (t : Time) : NextLegal (execSupplyWarningClear t s) :=
  nextLegal_actAt hs (keepsCells_of_view fun _ => cellView_supplyBack ..)

theorem nextLegal_execSupplyLowShed (t : Time) : NextLegal (execSupplyLowShed t s) :=
  nextLegal_actAt hs (keepsCells_of_view fun _ => cellView_shedLoad ..)

theorem nextLegal_execShedEnd (t : Time) : NextLegal (execShedEnd t s) := nextLegal_actBoth hs (keepsCellsBoth_of_view fun _ => cellView_endShed ..)

theorem nextLegal_execBrownOutReset (t : Time) : NextLegal (execBrownOutReset t s) := by
  refine nextLegal_actReset hs ?_
  exact fun _ hb => legal_iteBoth hb (legal_assertReset ..)

theorem nextLegal_execRailReset (t : Time) (us : Nat) : NextLegal (execRailReset t us s) := by
  refine nextLegal_actReset hs ?_
  exact keepsCellsBoth_when fun _ hb => legal_causeReset _ hb

theorem nextLegal_execExternalReset (t : Time) (ns : Nat) : NextLegal (execExternalReset t ns s) :=
  nextLegal_actReset hs (fun _ hb => legal_rstPulse _ hb)

theorem nextLegal_execClockMonitorFault (t : Time) : NextLegal (execClockMonitorFault t s) :=
  nextLegal_actReset hs (fun _ hb => legal_causeReset _ hb)

theorem nextLegal_execLockstepMismatch (t : Time) :
    NextLegal (execLockstepMismatch t s) := nextLegal_actReset hs (fun _ hb => legal_causeReset _ hb)

theorem nextLegal_execThermalReset (t : Time) (celsius : Int) : NextLegal (execThermalReset t celsius s) := by
  refine nextLegal_actReset hs ?_
  exact keepsCellsBoth_when fun _ hb => legal_causeReset _ hb

theorem nextLegal_execSysReset (t : Time) (m : Master) (key : Word) : NextLegal (execSysReset t m key s) :=
  nextLegal_actBoth hs (fun _ hb => legal_masterStore _ _ _ _ hb)

theorem nextLegal_execSwResetExpire (t : Time) : NextLegal (execSwResetExpire t s) := by
  refine nextLegal_actReset hs ?_
  exact fun _ hb => legal_swReset hb

theorem nextLegal_execResetRelease (env : StartEnv) : NextLegal (execResetRelease env s) := nextLegal_actH hs (fun _ hb => legal_startRun _ hb)

theorem nextLegal_execStartComplete : NextLegal (execStartComplete s) := nextLegal_actH hs (keepsCellsBoth_of_view fun _ => cellView_ready ..)

theorem nextLegal_execActiveIdleTimeout (t : Time) : NextLegal (execActiveIdleTimeout t s) :=
  nextLegal_actAt hs (keepsCells_of_view fun _ => cellView_activeIdle ..)

theorem nextLegal_execClosingComplete (t : Time) (r : SelfTestRun) : NextLegal (execClosingComplete t r s) :=
  nextLegal_actBoth hs (fun _ hb => legal_closingComplete _ hb)

theorem nextLegal_execWakePin (t : Time) (dt : Nat) : NextLegal (execWakePin t dt s) := nextLegal_actH hs (fun _ hb => legal_wakePin _ _ hb)

theorem nextLegal_execLinkWake (t : Time) (dt : Nat) (nth sth : Bool) : NextLegal (execLinkWake t dt nth sth s) :=
  nextLegal_actH hs (fun _ hb => legal_linkWake _ _ _ _ hb)

theorem nextLegal_execWakeTimerExpire (dt : Nat) : NextLegal (execWakeTimerExpire dt s) := nextLegal_actH hs (fun _ hb => legal_timerWake _ hb)

theorem nextLegal_execSleepCmpSample (dt : Nat) (mv : List Int) : NextLegal (execSleepCmpSample dt mv s) :=
  nextLegal_act hs (keepsCells_of_view fun _ => cellView_sleepSample ..)

theorem nextLegal_execSleepCmpConfirm (mv : List Int) : NextLegal (execSleepCmpConfirm mv s) :=
  nextLegal_actH hs (fun _ hb => legal_sleepConfirm _ hb)

theorem nextLegal_execSealTest (t : Time) (dt ohms : Nat) : NextLegal (execSealTest t dt ohms s) :=
  nextLegal_actH hs (fun _ hb => legal_sealTest _ _ _ hb)

theorem nextLegal_execGazeboCycle (dt : Nat) (r : GazeboReading) : NextLegal (execGazeboCycle dt r s) :=
  nextLegal_actH hs (fun _ hb => legal_gazeboCycle _ _ hb)

theorem nextLegal_execLaneGridResult (t : Time) (g : LaneGroup) (own other : List LaneSample) : NextLegal (execLaneGridResult t g own other s) :=
  nextLegal_actAt hs (keepsCells_of_view fun _ => cellView_gridResult ..)

theorem nextLegal_execRequestedInstant (t req : Time) (a b : List LaneSample) (cur : CurNow) : NextLegal (execRequestedInstant t req a b cur s) :=
  nextLegal_actAwake hs (keepsCells_of_view fun _ => cellView_requestedInstant ..)

theorem nextLegal_execSyncInputEdge (t : Time) : NextLegal (execSyncInputEdge t s) := by
  refine nextLegal_actAwake hs ?_
  exact keepsCells_when (keepsCells_of_view fun _ => cellView_want ..)

theorem nextLegal_execComparatorTripConfirm (t : Time) (cell : Nat) (ov : Bool) (samples : Nat) (uv : Int) (standIn : Bool) :
    NextLegal (execComparatorTripConfirm t cell ov samples uv standIn s) :=
  nextLegal_actAt hs (keepsCells_of_view fun _ => cellView_cmpTrip ..)

theorem nextLegal_execComparatorTripRelease (t : Time) (cell : Nat) (ov : Bool) (samples : Nat) (uv : Int) :
    NextLegal (execComparatorTripRelease t cell ov samples uv s) :=
  nextLegal_actAt hs (keepsCells_of_view fun _ => cellView_cmpRelease ..)

theorem nextLegal_execOpenWireTest (t : Time) (tap : Nat) (dk dk1 : Int) : NextLegal (execOpenWireTest t tap dk dk1 s) :=
  nextLegal_actAt hs (keepsCells_of_view fun _ => cellView_openWire ..)

theorem nextLegal_execStepTestComplete (t : Time) (j : Nat) (e : CoefEst) (ma : Nat) : NextLegal (execStepTestComplete t j e ma s) :=
  nextLegal_actAwake hs (keepsCells_of_view fun _ => cellView_stepDone ..)

theorem nextLegal_execBalPwmEdge (t : Time) (j : Nat) (e : CoefEst) (ma : Nat) : NextLegal (execBalPwmEdge t j e ma s) :=
  nextLegal_actAwake hs (keepsCells_of_view fun _ => cellView_pwmEdge ..)

theorem nextLegal_execTrackingGap (t : Time) (j : Nat) : NextLegal (execTrackingGap t j s) :=
  nextLegal_actAwake hs (keepsCells_of_view fun _ => cellView_trackGap ..)

theorem nextLegal_execReliefSlotStart (t : Time) (slot : Nat) (r : List ReliefOutcome) : NextLegal (execReliefSlotStart t slot r s) :=
  nextLegal_actAt hs (keepsCells_of_view fun _ => cellView_slotStart ..)

theorem nextLegal_execCurrentGridResult (t : Time) (a b : CurSample) (raw : List CurRaw) : NextLegal (execCurrentGridResult t a b raw s) :=
  nextLegal_actAt hs (keepsCells_of_view fun _ => cellView_currentGrid ..)

theorem nextLegal_execCurrentLimitTrip (t : Time) (pos : Bool) (raw : List (Int × Int)) : NextLegal (execCurrentLimitTrip t pos raw s) :=
  nextLegal_actAt hs (keepsCells_of_view fun _ => cellView_limitTrip ..)

theorem nextLegal_execCurrentLimitRelease (t : Time) (pos : Bool) (raw : List (Int × Int)) : NextLegal (execCurrentLimitRelease t pos raw s) :=
  nextLegal_actAt hs (keepsCells_of_view fun _ => cellView_limitRelease ..)

theorem nextLegal_execCurrentFrameSend (t m0 : Time) (samples : List CurSample) : NextLegal (execCurrentFrameSend t m0 samples s) :=
  nextLegal_actAt hs (keepsCells_of_view fun _ => cellView_frameSend ..)

theorem nextLegal_execCurrentSamplesRx (t : Time) (src : Nat) (f : CurFrame) : NextLegal (execCurrentSamplesRx t src f s) := by
  refine nextLegal_actAt hs ?_
  exact keepsCells_of_view fun _ => (cellView_samplesRx ..).trans (cellView_unbufferAny ..)

theorem nextLegal_execAuxScan (t : Time) (codes : List (List Nat)) (m c : Int) : NextLegal (execAuxScan t codes m c s) :=
  nextLegal_actAwake hs (keepsCells_of_view fun _ => cellView_scan ..)

theorem nextLegal_execWirePresenceSearch (t : Time) (p : Nat) (r : WireReply) : NextLegal (execWirePresenceSearch t p r s) :=
  nextLegal_actAwake hs (keepsCells_of_view fun _ => cellView_wireSearch ..)

theorem nextLegal_execWireTransaction (t : Time) (p : Nat) (r : WireReply) : NextLegal (execWireTransaction t p r s) :=
  nextLegal_actAwake hs (keepsCells_of_view fun _ => cellView_wireRun ..)

theorem nextLegal_execWireSpuEnd (t : Time) (p : Nat) : NextLegal (execWireSpuEnd t p s) :=
  nextLegal_actAwake hs (keepsCells_of_view fun _ => cellView_spuEnd ..)

theorem nextLegal_execWireSpuOverload (t : Time) (p : Nat) : NextLegal (execWireSpuOverload t p s) :=
  nextLegal_actAwake hs (keepsCells_of_view fun _ => cellView_spuOverload ..)

theorem nextLegal_execEngineCheckpoint (t : Time) (engines : List Nat) (samples : List EngSample) :
    NextLegal (execEngineCheckpoint t engines samples s) :=
  nextLegal_actAwake hs (keepsCells_of_view fun _ => cellView_checkpoint ..)

theorem nextLegal_execEngineCheckpointMissed (t : Time) (k cause : Nat) : NextLegal (execEngineCheckpointMissed t k cause s) :=
  nextLegal_actAwake hs (keepsCells_of_view fun _ => cellView_checkpointMissed ..)

theorem nextLegal_execRebalanceReplayDone (t : Time) (cell : Nat) (samples : List EngSample) :
    NextLegal (execRebalanceReplayDone t cell samples s) :=
  nextLegal_actAwake hs (keepsCells_of_view fun _ => cellView_replayDone ..)

theorem nextLegal_execTrackerUpdate (t : Time) (samples : List EngSample) (load : List Nat) : NextLegal (execTrackerUpdate t samples load s) :=
  nextLegal_actAwake hs (keepsCells_of_view fun _ => cellView_trackerUpdate ..)

theorem nextLegal_execTrackerStateSave (t : Time) : NextLegal (execTrackerStateSave t s) := by
  refine nextLegal_actAwake hs ?_
  exact keepsCells_of_view cellView_saveDue

theorem nextLegal_execImpedanceStart (t : Time) (h : Nat) : NextLegal (execImpedanceStart t h s) :=
  nextLegal_actAwake hs (keepsCells_of_view fun _ => cellView_impStart ..)

theorem nextLegal_execExcitationPhase (t : Time) (h point : Nat) (odd : Bool) (sub : Nat) : NextLegal (execExcitationPhase t h point odd sub s) :=
  nextLegal_actAwake hs (keepsCells_of_view fun _ => cellView_excitePhase ..)

theorem nextLegal_execImpedanceEnd (t : Time) (h : Nat) (lines : List RippleStep) (spectra : List CellSpectra) (samples : List EngSample) :
    NextLegal (execImpedanceEnd t h lines spectra samples s) :=
  nextLegal_actAwake hs (keepsCells_of_view fun _ => cellView_impEnd ..)

theorem nextLegal_execEstimateEnd (t : Time) (h : Nat) (spectra : EstSpectra) : NextLegal (execEstimateEnd t h spectra s) :=
  nextLegal_actAwake hs (keepsCells_of_view fun _ => cellView_estEnd ..)

theorem nextLegal_execThermalManagerUpdate (t : Time) (r : List SwitchReading) : NextLegal (execThermalManagerUpdate t r s) := by
  refine nextLegal_actAwake hs ?_
  exact keepsCells_when (keepsCells_of_view fun _ => cellView_thermalUpdate ..)

theorem nextLegal_execBalTargetCheck (t : Time) (a : List LaneSample) : NextLegal (execBalTargetCheck t a s) :=
  nextLegal_actAwake hs (keepsCells_of_view fun _ => cellView_targetCheck ..)

theorem nextLegal_execBalOvercurrent (t : Time) (j ma us : Nat) : NextLegal (execBalOvercurrent t j ma us s) :=
  nextLegal_actAwake hs (keepsCells_of_view fun _ => cellView_overcurrent ..)

theorem nextLegal_execBalHoldExpire (t : Time) (j : Nat) : NextLegal (execBalHoldExpire t j s) :=
  nextLegal_actAwake hs (keepsCells_of_view fun _ => cellView_holdExpire ..)

theorem nextLegal_execBalTlimitExpire (t : Time) (j : Nat) : NextLegal (execBalTlimitExpire t j s) :=
  nextLegal_actAwake hs (keepsCells_of_view fun _ => cellView_limitExpire ..)

theorem nextLegal_execBurstRx (t : Time) (p : Port) (groups : List Nat) : NextLegal (execBurstRx t p groups s) := by
  refine nextLegal_actBoth hs ?_
  exact keepsCellsBoth_of_view fun _ => (cellView_bulkFeed ..).trans (cellView_burstRx ..)

theorem nextLegal_execFrameRx (t : Time) (p : Port) (groups : List Nat) : NextLegal (execFrameRx t p groups s) := by
  refine nextLegal_actAt hs ?_
  exact keepsCells_of_view (cellView_frameRx cellView_takeFrame _ _)

theorem nextLegal_execLineReclaim (t : Time) : NextLegal (execLineReclaim t s) :=
  nextLegal_actAt hs (keepsCells_of_view fun _ => cellView_reclaimLine ..)

theorem nextLegal_execTrainRateTimeout (t : Time) (p : Port) (groups : List Nat) : NextLegal (execTrainRateTimeout t p groups s) := by
  refine nextLegal_actAwake hs ?_
  exact keepsCells_when (keepsCells_of_view fun _ => cellView_rateFailed ..)

theorem nextLegal_execLinkUp (t : Time) (p : Port) (ex : List DlyStamps) : NextLegal (execLinkUp t p ex s) :=
  nextLegal_actAwake hs (keepsCells_of_view fun _ => cellView_linkUp ..)

theorem nextLegal_execTrainRetry (t : Time) (p : Port) : NextLegal (execTrainRetry t p s) := by
  refine nextLegal_actAwake hs ?_
  exact keepsCells_when (keepsCells_of_view fun _ => cellView_beginTraining ..)

theorem nextLegal_execHopDownTimeout (t : Time) (p : Port) : NextLegal (execHopDownTimeout t p s) := by
  refine nextLegal_actAwake hs ?_
  exact keepsCells_when (keepsCells_of_view fun _ => cellView_downIfUp ..)

theorem nextLegal_execLinkRetrain (t : Time) (v : Word) : NextLegal (execLinkRetrain t v s) :=
  nextLegal_actAt hs (keepsCells_of_view fun _ => cellView_linkCmd ..)

theorem nextLegal_execDelayExchange (t : Time) (p : Port) (e : DlyStamps) : NextLegal (execDelayExchange t p e s) :=
  nextLegal_actAwake hs (keepsCells_of_view fun _ => cellView_exchange ..)

theorem nextLegal_execFaultToneRepeat (t : Time) : NextLegal (execFaultToneRepeat t s) :=
  nextLegal_actAt hs (keepsCells_of_view fun _ => cellView_toneRepeat ..)

theorem nextLegal_execToneRx (t : Time) (p : Port) : NextLegal (execToneRx t p s) :=
  nextLegal_actAt hs (keepsCells_of_view fun _ => cellView_toneRx ..)

theorem nextLegal_execToneConfirm (t : Time) (p : Port) : NextLegal (execToneConfirm t p s) :=
  nextLegal_actAt hs (keepsCells_of_view fun _ => cellView_toneConfirm ..)

theorem nextLegal_execToneEnd (t : Time) (p : Port) : NextLegal (execToneEnd t p s) :=
  nextLegal_actAt hs (keepsCells_of_view fun _ => cellView_toneEnd ..)

theorem nextLegal_execToneHoldoffEnd (t : Time) : NextLegal (execToneHoldoffEnd t s) := by
  refine nextLegal_actAt hs ?_
  exact keepsCells_when (keepsCells_of_view fun _ => cellView_withTone ..)

theorem nextLegal_execToneLineRetake (t : Time) (p : Port) : NextLegal (execToneLineRetake t p s) :=
  nextLegal_actAt hs (keepsCells_of_view fun _ => cellView_lineRetake ..)

theorem nextLegal_execWakeStreamOnUp (t : Time) (p : Port) : NextLegal (execWakeStreamOnUp t p s) :=
  nextLegal_actAwake hs (keepsCells_of_view fun _ => cellView_wakeOnUp ..)

theorem nextLegal_execWakeStreamEnd (t : Time) : NextLegal (execWakeStreamEnd t s) := by
  refine nextLegal_act hs ?_
  exact fun _ hd => cellsLegal_of_view (cellView_wakeStreamEnd ..) (legal_ite (legal_tick _ hd) hd)

theorem nextLegal_execEnumRx (t : Time) (p : Port) (e : EnumMsg) : NextLegal (execEnumRx t p e s) := by
  refine nextLegal_actAt hs ?_
  exact keepsCells_of_view fun _ => (cellView_enumRx ..).trans (cellView_unbuffer ..)

theorem nextLegal_execEnumTimeout (t : Time) : NextLegal (execEnumTimeout t s) := by
  refine nextLegal_actBoth hs ?_
  exact keepsCellsBoth_when (keepsCellsBoth_of_view fun _ => cellView_secondPass ..)

theorem nextLegal_execBeaconSend (t : Time) : NextLegal (execBeaconSend t s) := by
  refine nextLegal_actAwake hs ?_
  exact keepsCells_when (keepsCells_of_view fun _ => cellView_beaconSend ..)

theorem nextLegal_execBeaconRx (t : Time) (p : Port) (b : Beacon) : NextLegal (execBeaconRx t p b s) := by
  refine nextLegal_actAt hs ?_
  exact fun _ hd => legal_beaconRx _ _ _ (cellsLegal_of_view (cellView_unbuffer ..) hd)

theorem nextLegal_execTimebaseHoldover (t : Time) : NextLegal (execTimebaseHoldover t s) :=
  nextLegal_actAt hs (keepsCells_of_view fun _ => cellView_holdover ..)

theorem nextLegal_execTimebaseLost (t : Time) : NextLegal (execTimebaseLost t s) :=
  nextLegal_actAt hs (keepsCells_of_view fun _ => cellView_timeLost ..)

theorem nextLegal_execHeartbeatSend (t : Time) : NextLegal (execHeartbeatSend t s) := by
  refine nextLegal_actAwake hs ?_
  exact keepsCells_when (keepsCells_of_view fun _ => cellView_heartbeatSend ..)

theorem nextLegal_execHeartbeatRx (t : Time) (p : Port) (hb : Heartbeat) : NextLegal (execHeartbeatRx t p hb s) := by
  refine nextLegal_actAt hs ?_
  exact keepsCells_of_view fun _ => (cellView_heartbeatRx ..).trans (cellView_unbuffer ..)

theorem nextLegal_execCommitFrameRx (t apply : Time) (mask h : Nat) : NextLegal (execCommitFrameRx t apply mask h s) := by
  refine nextLegal_actH hs ?_
  exact fun _ hb => legal_iteBoth (legal_iteBoth (legal_unbuffered _ (legal_tick _ hb)) (legal_commitFrame _ _ _ (legal_unbuffered _ (legal_tick _ hb)))) hb

theorem nextLegal_execCommitApply (t : Time) : NextLegal (execCommitApply t s) := by
  refine nextLegal_actH hs ?_
  exact fun _ hb => legal_iteBoth (legal_applyDue (legal_tick _ hb)) hb

theorem nextLegal_execSweepTriggerRx (t : Time) (p : Port) (tr : Trigger) : NextLegal (execSweepTriggerRx t p tr s) := by
  refine nextLegal_actAwake hs ?_
  exact keepsCells_of_view fun _ => (cellView_triggerRx ..).trans (cellView_unbuffer ..)

theorem nextLegal_execSweepHoldExpire (t : Time) (h : Nat) : NextLegal (execSweepHoldExpire t h s) := by
  refine nextLegal_actAt hs ?_
  exact keepsCells_of_view fun _ => cellView_withSweep ..

theorem nextLegal_execSweepDeadline (t : Time) (h : Nat) : NextLegal (execSweepDeadline t h s) :=
  nextLegal_actAt hs (keepsCells_of_view fun _ => cellView_sweepDeadline ..)

theorem nextLegal_execBreakDetectTimeout (t : Time) : NextLegal (execBreakDetectTimeout t s) := by
  refine nextLegal_actAwake hs ?_
  exact keepsCells_when (keepsCells_of_view fun _ => cellView_recognise ..)

theorem nextLegal_execCastle (t : Time) : NextLegal (execCastle t s) := by
  refine nextLegal_actBoth hs ?_
  exact keepsCellsBoth_when (keepsCellsBoth_of_view fun _ => cellView_castleWith ..)

theorem nextLegal_execRingRestore (t : Time) : NextLegal (execRingRestore t s) :=
  nextLegal_actAwake hs (keepsCells_of_view fun _ => cellView_ringRestore ..)

theorem nextLegal_execRequestRx (t : Time) (p : Port) (r : Request) : NextLegal (execRequestRx t p r s) := by
  refine nextLegal_actAt hs ?_
  exact keepsCells_of_view fun _ => (cellView_requestRx ..).trans (cellView_unbuffer ..)

theorem nextLegal_execResponseRx (t : Time) (src : Nat) (r : Response) : NextLegal (execResponseRx t src r s) := by
  refine nextLegal_actHost hs ?_
  exact keepsCellsBoth_of_view fun _ => (cellView_powerCheck ..).trans ((cellView_responseRx ..).trans (cellView_unbufferAny ..))

theorem nextLegal_execReqAcceptTimeout (t : Time) (h : Nat) : NextLegal (execReqAcceptTimeout t h s) :=
  nextLegal_actHost hs (keepsCellsBoth_of_view fun _ => cellView_acceptTimeout ..)

theorem nextLegal_execEventRx (t : Time) (e : List Byte) (p : Port) : NextLegal (execEventRx t e p s) := by
  refine nextLegal_actBoth hs ?_
  exact keepsCellsBoth_of_view fun _ => (cellView_eventWhen (fun b => (b.1.head && decide (e.length = 32)) = true) ..).trans (cellView_unbuffer ..)

theorem nextLegal_execBulkRx (t : Time) (h off : Nat) (data : List Byte) : NextLegal (execBulkRx t h off data s) := by
  refine nextLegal_actAt hs ?_
  exact keepsCells_of_view fun _ => (cellView_bulkRx ..).trans (cellView_unbufferAny ..)

theorem nextLegal_execStreamRecord (t : Time) (h : Nat) : NextLegal (execStreamRecord t h s) := by
  refine nextLegal_actBoth hs ?_
  exact keepsCellsBoth_when (keepsCellsBoth_of_view fun _ => cellView_streamRecord ..)

theorem nextLegal_execStreamFrameFlush (t : Time) (h : Nat) : NextLegal (execStreamFrameFlush t h s) := by
  refine nextLegal_actAwake hs ?_
  exact keepsCells_of_view (cellView_flushDue _)

theorem nextLegal_execStreamFrameRx (t : Time) (f : StreamFrame) : NextLegal (execStreamFrameRx t f s) := by
  refine nextLegal_actHost hs ?_
  exact keepsCellsBoth_of_view fun _ => (cellView_streamFrameRx ..).trans (cellView_unbufferAny ..)

theorem nextLegal_execReadStatus (x : StatusRead) : NextLegal (execReadStatus x s) := by
  refine nextLegal_actPort hs ?_
  exact keepsCellsBoth_of_view (cellView_knownOp (cellView_withExt (fun _ => cellView_portDone ..) _ _) _)

theorem nextLegal_execReadId (n : Nat) (ext : Byte) : NextLegal (execReadId n ext s) := by
  refine nextLegal_actPort hs ?_
  exact keepsCellsBoth_of_view (cellView_withExt (fun _ => cellView_portDone ..) _ _)

theorem nextLegal_execRead (addr n : Nat) (ext : Byte) : NextLegal (execRead addr n ext s) := by
  refine nextLegal_actPort hs ?_
  exact keepsCellsBoth_of_view (cellView_withExt (fun _ => cellView_portRead ..) _ _)

theorem nextLegal_execWrite (t : Time) (addr : Nat) (data : List Byte) (ext : Byte) : NextLegal (execWrite t addr data ext s) := by
  refine nextLegal_actHost hs ?_
  exact legal_withExt fun _ hb => legal_portWrite _ _ hb

theorem nextLegal_execEnterOctal : NextLegal (execEnterOctal s) := by
  refine nextLegal_actPort hs ?_
  exact fun _ hb => legal_iteBoth (cellsLegal_of_view (cellView_portFraming ..) hb) hb

theorem nextLegal_execExitOctal (ext : Byte) : NextLegal (execExitOctal ext s) := by
  refine nextLegal_actPort hs ?_
  exact keepsCellsBoth_of_view (cellView_withExt (fun b => cellView_octalOff b) _ _)

theorem nextLegal_execHcsLowIdle : NextLegal (execHcsLowIdle s) := by
  refine nextLegal_actPort hs ?_
  exact fun _ hb => hb

theorem nextLegal_execSqDoorbell (t : Time) (p : Nat) (tail : Word) : NextLegal (execSqDoorbell t p tail s) := by
  refine nextLegal_actHost hs ?_
  exact keepsCellsBoth_when (keepsCellsBoth_of_view fun _ => cellView_sqBell ..)

theorem nextLegal_execCommandDispatch (t : Time) (h : Nat) : NextLegal (execCommandDispatch t h s) := by
  refine nextLegal_actHost hs ?_
  exact keepsCellsBoth_of_view fun _ => (cellView_headOutputs ..).trans (cellView_dispatch ..)

theorem nextLegal_execCqHeadDoorbell (t : Time) (p : Nat) (head : Word) : NextLegal (execCqHeadDoorbell t p head s) := by
  refine nextLegal_actHost hs ?_
  exact keepsCellsBoth_when (keepsCellsBoth_of_view fun _ => cellView_cqBell ..)

theorem nextLegal_execEqHeadDoorbell (t : Time) (head : Word) : NextLegal (execEqHeadDoorbell t head s) :=
  nextLegal_actHost hs (keepsCellsBoth_of_view fun _ => cellView_eqBell ..)

theorem nextLegal_execCommandDeadline (t : Time) (h : Nat) : NextLegal (execCommandDeadline t h s) :=
  nextLegal_actHost hs (keepsCellsBoth_of_view fun _ => cellView_deadlineEnd ..)

theorem nextLegal_execIntTimeExpire (t : Time) (_ring : Nat) : NextLegal (execIntTimeExpire t _ring s) := by
  refine nextLegal_actHost hs ?_
  exact fun _ hb => hb

theorem nextLegal_execRegRead (t : Time) (h : Nat) (c : Desc) : NextLegal (execRegRead t h c s) :=
  nextLegal_actOpH hs (keepsCellsBoth_of_view fun _ => cellView_regReadOp ..)

theorem nextLegal_execRegWrite (t : Time) (h : Nat) (c : Desc) : NextLegal (execRegWrite t h c s) :=
  nextLegal_actOpH hs (fun _ hb => legal_regWriteOp _ _ hb)

theorem nextLegal_execRegModify (t : Time) (h : Nat) (c : Desc) : NextLegal (execRegModify t h c s) :=
  nextLegal_actOpH hs (fun _ hb => legal_regModifyOp _ _ hb)

theorem nextLegal_execCommit (t : Time) (h : Nat) (c : Desc) : NextLegal (execCommit t h c s) :=
  nextLegal_actOpH hs (fun _ hb => legal_commitOp _ _ hb)

theorem nextLegal_execSweep (t : Time) (h : Nat) (c : Desc) : NextLegal (execSweep t h c s) :=
  nextLegal_actOpH hs (keepsCellsBoth_of_view fun _ => cellView_sweepOp ..)

theorem nextLegal_execStreamStart (t : Time) (h : Nat) (c : Desc) : NextLegal (execStreamStart t h c s) :=
  nextLegal_actOpH hs (keepsCellsBoth_of_view fun _ => cellView_streamStartOp ..)

theorem nextLegal_execStreamStop (t : Time) (h : Nat) (c : Desc) : NextLegal (execStreamStop t h c s) :=
  nextLegal_actOp hs (keepsCells_of_view fun _ => cellView_streamStop ..)

theorem nextLegal_execBalPlan (t : Time) (h : Nat) (c : Desc) : NextLegal (execBalPlan t h c s) := by
  refine nextLegal_actOpH hs ?_
  exact keepsCellsBoth_table fun _ _ => cellView_balPlan ..

theorem nextLegal_execBalStop (t : Time) (h : Nat) (c : Desc) : NextLegal (execBalStop t h c s) := by
  refine nextLegal_actOp hs ?_
  exact keepsCells_of_view fun _ => (cellView_finish ..).trans (cellView_balStop ..)

theorem nextLegal_execImpedance (t : Time) (h : Nat) (c : Desc) : NextLegal (execImpedance t h c s) := by
  refine nextLegal_actOpH hs ?_
  exact keepsCellsBoth_table fun _ _ => cellView_impBegin ..

theorem nextLegal_execEstimate (t : Time) (h : Nat) (c : Desc) : NextLegal (execEstimate t h c s) :=
  nextLegal_actOpH hs (keepsCellsBoth_of_view fun _ => cellView_estBegin ..)

theorem nextLegal_execModelLoad (t : Time) (h : Nat) (c : Desc) : NextLegal (execModelLoad t h c s) := by
  refine nextLegal_actOpH hs ?_
  exact keepsCellsBoth_table fun _ _ => cellView_loadModel ..

theorem nextLegal_execHistRead (t : Time) (h : Nat) (c : Desc) : NextLegal (execHistRead t h c s) :=
  nextLegal_actOp hs (keepsCells_of_view fun _ => cellView_histRead ..)

theorem nextLegal_execHistMark (t : Time) (h : Nat) (c : Desc) : NextLegal (execHistMark t h c s) :=
  nextLegal_actOp hs (keepsCells_of_view fun _ => cellView_histMark ..)

theorem nextLegal_execCalRead (t : Time) (h : Nat) (c : Desc) : NextLegal (execCalRead t h c s) := by
  refine nextLegal_actOp hs ?_
  exact keepsCells_of_view fun _ => cellView_finish ..

theorem nextLegal_execCalStore (t : Time) (h : Nat) (c : Desc) : NextLegal (execCalStore t h c s) :=
  nextLegal_actOp hs (keepsCells_of_view fun _ => cellView_calStoreBegin ..)

theorem nextLegal_execCalUser (t : Time) (h : Nat) (c : Desc) : NextLegal (execCalUser t h c s) :=
  nextLegal_actOp hs (keepsCells_of_view fun _ => cellView_calUserBegin ..)

theorem nextLegal_execCalUserEnd (t : Time) (r : CalUserRun) : NextLegal (execCalUserEnd t r s) :=
  nextLegal_actAwake hs (keepsCells_of_view fun _ => cellView_calUserEnd ..)

theorem nextLegal_execWireXfer (t : Time) (h : Nat) (c : Desc) : NextLegal (execWireXfer t h c s) :=
  nextLegal_actOp hs (keepsCells_of_view fun _ => cellView_xferQueue ..)

theorem nextLegal_execSelftest (t : Time) (h : Nat) (c : Desc) (r : OnlineTest) : NextLegal (execSelftest t h c r s) :=
  nextLegal_actOp hs (keepsCells_of_view fun _ => cellView_selftest ..)

theorem nextLegal_execRepair (t : Time) (h : Nat) (c : Desc) (bad : List (Nat × Nat)) : NextLegal (execRepair t h c bad s) :=
  nextLegal_actOp hs (keepsCells_of_view fun _ => cellView_repairBegin ..)

theorem nextLegal_execRingEnum (t : Time) (h : Nat) (c : Desc) : NextLegal (execRingEnum t h c s) :=
  nextLegal_actOpH hs (keepsCellsBoth_of_view fun _ => cellView_enumBegin ..)

theorem nextLegal_execRingStatus (t : Time) (h : Nat) (c : Desc) : NextLegal (execRingStatus t h c s) := by
  refine nextLegal_actOp hs ?_
  exact keepsCells_of_view fun d => by simp only [↓cellView_ite, ↓cellView_finish, ite_self]

theorem nextLegal_execPower (t : Time) (h : Nat) (c : Desc) : NextLegal (execPower t h c s) :=
  nextLegal_actOpH hs (keepsCellsBoth_of_view fun _ => cellView_power ..)

theorem nextLegal_execFwUpdate (t : Time) (h : Nat) (c : Desc) : NextLegal (execFwUpdate t h c s) :=
  nextLegal_actOpH hs (keepsCellsBoth_of_view fun _ => cellView_fwBegin ..)

theorem nextLegal_execEcho (t : Time) (h : Nat) (c : Desc) : NextLegal (execEcho t h c s) := by
  refine nextLegal_actOpH hs ?_
  exact keepsCellsBoth_of_view fun _ => cellView_finish ..

theorem nextLegal_execSafetyCycle (t : Time) (serviced : Bool) (rbA rbB vstk : Nat) : NextLegal (execSafetyCycle t serviced rbA rbB vstk s) :=
  nextLegal_actAwake hs (keepsCells_of_view fun _ => cellView_safetyCycle ..)

theorem nextLegal_execSupervisorWatchdogExpire (t : Time) : NextLegal (execSupervisorWatchdogExpire t s) := by
  refine nextLegal_actAwake hs ?_
  exact keepsCells_when (keepsCells_of_view fun _ => cellView_watchdogExpire ..)

theorem nextLegal_execSafeReset (t : Time) (key : Word) : NextLegal (execSafeReset t key s) :=
  nextLegal_actAt hs (keepsCells_of_view fun _ => cellView_safeResetWrite ..)

theorem nextLegal_execSafeResetWindowEnd (t : Time) : NextLegal (execSafeResetWindowEnd t s) :=
  nextLegal_actAt hs (keepsCells_of_view fun _ => cellView_windowEnd ..)

theorem nextLegal_execOutputOn (t : Time) (a b : Bool) : NextLegal (execOutputOn t a b s) := by
  refine nextLegal_actH hs ?_
  exact fun _ hb => legal_iteBoth (cellsLegal_of_view ((cellView_headOutputs ..).trans (cellView_outCmd ..)) (legal_tick _ hb)) hb

theorem nextLegal_execOutputOff (t : Time) (a b : Bool) : NextLegal (execOutputOff t a b s) :=
  nextLegal_actAt hs (keepsCells_of_view fun _ => cellView_outCmd ..)

theorem nextLegal_execOutputOffTest (t : Time) (o : Out) : NextLegal (execOutputOffTest t o s) :=
  nextLegal_actAwake hs (keepsCells_of_view fun _ => cellView_offTest ..)

theorem nextLegal_execOutputOffTestEnd (t : Time) (o : Out) (mv : List Nat) : NextLegal (execOutputOffTestEnd t o mv s) :=
  nextLegal_actAwake hs (keepsCells_of_view fun _ => cellView_offTestEnd ..)

theorem nextLegal_execOutputStuck (t : Time) (o : Out) (mv us : Nat) : NextLegal (execOutputStuck t o mv us s) :=
  nextLegal_actAwake hs (keepsCells_of_view fun _ => cellView_outputStuck ..)

theorem nextLegal_execOutputOverload (t : Time) (o : Out) (limit : Bool) (mv vstk us : Nat) :
    NextLegal (execOutputOverload t o limit mv vstk us s) :=
  nextLegal_actAwake hs (keepsCells_of_view fun _ => cellView_outputOverload ..)

theorem nextLegal_execTestPulseCycle (t : Time) (before during : List Bool) : NextLegal (execTestPulseCycle t before during s) :=
  nextLegal_actAwake hs (keepsCells_of_view fun _ => cellView_testPulse ..)

theorem nextLegal_execInputFilterChange (t : Time) (ch : Nat) (level : Bool) (begun : Time) :
    NextLegal (execInputFilterChange t ch level begun s) :=
  nextLegal_actAwake hs (keepsCells_of_view fun _ => cellView_filterChange ..)

theorem nextLegal_execRegisterWrite (t : Time) (m : Master) (off size : Nat) (v : Word) : NextLegal (execRegisterWrite t m off size v s) :=
  nextLegal_actBoth hs (fun _ hb => legal_masterStore _ _ _ _ hb)

theorem nextLegal_execAliasWrite (t : Time) (addr size : Nat) (v : Word) : NextLegal (execAliasWrite t addr size v s) := by
  refine nextLegal_actHost hs ?_
  exact fun _ hb => legal_iteBoth (legal_aliasStore _ _ _ hb) hb

theorem nextLegal_execProtCommit (t : Time) (m : Master) (v : Word) : NextLegal (execProtCommit t m v s) :=
  nextLegal_actBoth hs (fun _ hb => legal_masterStore _ _ _ _ hb)

theorem nextLegal_execPostedWriteLand (t : Time) (aon : Bool) : NextLegal (execPostedWriteLand t aon s) :=
  nextLegal_actBoth hs (fun _ hb => legal_postedLand _ hb)

theorem nextLegal_execParityScan (t : Time) (x : ParitySeen) : NextLegal (execParityScan t x s) := by
  refine nextLegal_actAt hs ?_
  exact keepsCells_of_view fun _ => (cellView_parityScan ..).trans ((cellView_parityUse ..).trans (cellView_upsetShadows ..))

theorem nextLegal_execProtCfgStore (t : Time) (m : Master) (key : Word) : NextLegal (execProtCfgStore t m key s) :=
  nextLegal_actBoth hs (fun _ hb => legal_masterStore _ _ _ _ hb)

theorem nextLegal_execServiceWindowOpen (t : Time) (samples : Nat) : NextLegal (execServiceWindowOpen t samples s) :=
  nextLegal_actAwake hs (keepsCells_of_view fun _ => cellView_svcSamples ..)

theorem nextLegal_execServiceWindowTimeout (t : Time) : NextLegal (execServiceWindowTimeout t s) :=
  nextLegal_actAt hs (keepsCells_of_view fun _ => cellView_svcExpire ..)

theorem nextLegal_execProtSvcClose (t : Time) (v : Word) : NextLegal (execProtSvcClose t v s) :=
  nextLegal_actAt hs (keepsCells_of_view fun _ => cellView_svcCloseWrite ..)

theorem nextLegal_execSvcHeadTimeout (t : Time) : NextLegal (execSvcHeadTimeout t s) :=
  nextLegal_actAt hs (keepsCells_of_view fun _ => cellView_svcHeadLost ..)

theorem nextLegal_execBucketLeak (t : Time) (src inst : Nat) : NextLegal (execBucketLeak t src inst s) :=
  nextLegal_actAt hs (keepsCells_of_view fun _ => cellView_bucketLeak ..)

theorem nextLegal_execChkData (n bytes : Nat) (v : Word) : NextLegal (execChkData n bytes v s) := by
  refine nextLegal_act hs ?_
  exact keepsCells_of_view (cellView_onChk (fun d => by simp only [↓cellView_ite, ↓cellView_chkFeed, ite_self]) _)

theorem nextLegal_execChkRestart (n : Nat) : NextLegal (execChkRestart n s) := by
  refine nextLegal_act hs ?_
  exact keepsCells_of_view (cellView_onChk (cellView_chkRestart _) _)

theorem nextLegal_execChkCompare (t : Time) (n : Nat) : NextLegal (execChkCompare t n s) := by
  refine nextLegal_actAt hs ?_
  exact keepsCells_of_view (cellView_onChk (cellView_chkCompare _) _)

theorem nextLegal_execChkAlvSync (n : Nat) : NextLegal (execChkAlvSync n s) := by
  refine nextLegal_act hs ?_
  exact keepsCells_of_view (cellView_onChk (fun _ => (cellView_setRegBit (chkStat_ne_measCells _) ..).trans (cellView_setChk ..)) _)

theorem nextLegal_execChkAlv (t : Time) (n : Nat) (v : Word) : NextLegal (execChkAlv t n v s) := by
  refine nextLegal_actAt hs ?_
  exact keepsCells_of_view (cellView_onChk (cellView_alvCheck _ _) _)

theorem nextLegal_execSramScrub (t : Time) (mem addr : Nat) (err : BitVec 79) (reader : Reader) :
    NextLegal (execSramScrub t mem addr err reader s) := by
  refine nextLegal_actBoth hs ?_
  exact keepsCellsBoth_when fun _ hb => legal_wordRead _ _ _ _ hb

theorem nextLegal_execNvSweepSector (t : Time) (found : List (Nat × BitVec 79)) : NextLegal (execNvSweepSector t found s) :=
  nextLegal_actAwake hs (keepsCells_of_view fun _ => cellView_sweepSector ..)

theorem nextLegal_execNvmOperationDone (t : Time) (op : NvmOp) (x : NvmEnd) : NextLegal (execNvmOperationDone t op x s) := by
  refine nextLegal_actBoth hs ?_
  exact keepsCellsBoth_of_view fun _ => cellView_nvmDone ..

theorem nextLegal_execLifetimeRecord (t : Time) : NextLegal (execLifetimeRecord t s) := by
  refine nextLegal_actAwake hs ?_
  exact keepsCells_when (keepsCells_of_view fun _ => cellView_lifeSave ..)

theorem nextLegal_execSummaryCheckpoint (t : Time) : NextLegal (execSummaryCheckpoint t s) := by
  refine nextLegal_actAwake hs ?_
  exact keepsCells_when (keepsCells_of_view fun _ => cellView_summarySave ..)

theorem nextLegal_execSummaryClose (t : Time) : NextLegal (execSummaryClose t s) := by
  refine nextLegal_actAwake hs ?_
  exact keepsCells_when (keepsCells_of_view fun _ => cellView_closeSummary ..)

theorem nextLegal_execLaneStageTest (t : Time) (g : LaneGroup) (cell : Nat) (spareOk stageOk : Bool) :
    NextLegal (execLaneStageTest t g cell spareOk stageOk s) :=
  nextLegal_actAwake hs (keepsCells_of_view fun _ => cellView_laneStage ..)

theorem nextLegal_execCmpGroupTest (t : Time) (k : Nat) (pairs : List PairSeen) : NextLegal (execCmpGroupTest t k pairs s) := by
  refine nextLegal_actAwake hs ?_
  exact keepsCells_when (keepsCells_of_view fun _ => cellView_cmpBegin ..)

theorem nextLegal_execTapReset (t : Time) : NextLegal (execTapReset t s) := nextLegal_actAt hs (keepsCells_of_view fun _ => cellView_setIr ..)

theorem nextLegal_execTapUpdateIr (t : Time) (ir : Nat) (cells : List Bool) : NextLegal (execTapUpdateIr t ir cells s) :=
  nextLegal_actAt hs (keepsCells_of_view fun _ => cellView_tapUpdate ..)

theorem nextLegal_execClockLock (t : Time) (locked : Bool) : NextLegal (execClockLock t locked s) :=
  nextLegal_actAt hs (keepsCells_of_view fun _ => cellView_withPw ..)

theorem nextLegal_execBuckDropout (t : Time) : NextLegal (execBuckDropout t s) := by
  refine nextLegal_actAt hs ?_
  exact keepsCells_of_view fun _ => cellView_withPw ..

theorem nextLegal_execBuckDropoutEnd (t : Time) : NextLegal (execBuckDropoutEnd t s) := by
  refine nextLegal_actAt hs ?_
  exact keepsCells_of_view fun _ => cellView_withPw ..

theorem nextLegal_execPowerAckTimeout (t : Time) : NextLegal (execPowerAckTimeout t s) :=
  nextLegal_actHost hs (keepsCellsBoth_of_view fun _ => cellView_powerCheck ..)

theorem nextLegal_execCommitAnswerTimeout (t : Time) (h : Nat) : NextLegal (execCommitAnswerTimeout t h s) :=
  nextLegal_actHost hs (keepsCellsBoth_of_view fun _ => cellView_commitAnswerEnd ..)

theorem nextLegal_execResponseHoldExpire (t : Time) (h : Nat) : NextLegal (execResponseHoldExpire t h s) := by
  refine nextLegal_actAt hs ?_
  exact keepsCells_of_view fun _ => cellView_withExec ..

theorem nextLegal_execFaultToneBurstEnd (t : Time) : NextLegal (execFaultToneBurstEnd t s) :=
  nextLegal_actAt hs (keepsCells_of_view fun _ => cellView_toneBurstEnd ..)

theorem nextLegal_execTrainListenRate (t : Time) (p : Port) : NextLegal (execTrainListenRate t p s) :=
  nextLegal_actAwake hs (keepsCells_of_view fun _ => cellView_listenNext ..)

theorem nextLegal_execNvSweepStart (t : Time) : NextLegal (execNvSweepStart t s) :=
  nextLegal_actAwake hs (keepsCells_of_view fun _ => cellView_sweepStart ..)

end

theorem nextLegal_exec (i : Instr) {s : State} (hs : s.dev.cellsLegal) : NextLegal (exec i s) := by
  cases i with
  | vstkPowerOn => exact nextLegal_execVstkPowerOn hs
  | supplyWarning => exact nextLegal_execSupplyWarning hs _
  | supplyWarningClear => exact nextLegal_execSupplyWarningClear hs _
  | supplyLowShed => exact nextLegal_execSupplyLowShed hs _
  | shedEnd => exact nextLegal_execShedEnd hs _
  | brownOutReset => exact nextLegal_execBrownOutReset hs _
  | railReset => exact nextLegal_execRailReset hs _ _
  | externalReset => exact nextLegal_execExternalReset hs _ _
  | clockMonitorFault => exact nextLegal_execClockMonitorFault hs _
  | lockstepMismatch => exact nextLegal_execLockstepMismatch hs _
  | thermalReset => exact nextLegal_execThermalReset hs _ _
  | sysReset => exact nextLegal_execSysReset hs _ _ _
  | swResetExpire => exact nextLegal_execSwResetExpire hs _
  | resetRelease => exact nextLegal_execResetRelease hs _
  | startComplete => exact nextLegal_execStartComplete hs
  | activeIdleTimeout => exact nextLegal_execActiveIdleTimeout hs _
  | closingComplete => exact nextLegal_execClosingComplete hs _ _
  | wakePin => exact nextLegal_execWakePin hs _ _
  | linkWake => exact nextLegal_execLinkWake hs _ _ _ _
  | wakeTimerExpire => exact nextLegal_execWakeTimerExpire hs _
  | sleepCmpSample => exact nextLegal_execSleepCmpSample hs _ _
  | sleepCmpConfirm => exact nextLegal_execSleepCmpConfirm hs _
  | sealTest => exact nextLegal_execSealTest hs _ _ _
  | gazeboCycle => exact nextLegal_execGazeboCycle hs _ _
  | laneGridResult => exact nextLegal_execLaneGridResult hs _ _ _ _
  | requestedInstant => exact nextLegal_execRequestedInstant hs _ _ _ _ _
  | syncInputEdge => exact nextLegal_execSyncInputEdge hs _
  | comparatorTripConfirm => exact nextLegal_execComparatorTripConfirm hs _ _ _ _ _ _
  | comparatorTripRelease => exact nextLegal_execComparatorTripRelease hs _ _ _ _ _
  | openWireTest => exact nextLegal_execOpenWireTest hs _ _ _ _
  | stepTestComplete => exact nextLegal_execStepTestComplete hs _ _ _ _
  | balPwmEdge => exact nextLegal_execBalPwmEdge hs _ _ _ _
  | trackingGap => exact nextLegal_execTrackingGap hs _ _
  | reliefSlotStart => exact nextLegal_execReliefSlotStart hs _ _ _
  | currentGridResult => exact nextLegal_execCurrentGridResult hs _ _ _ _
  | currentLimitTrip => exact nextLegal_execCurrentLimitTrip hs _ _ _
  | currentLimitRelease => exact nextLegal_execCurrentLimitRelease hs _ _ _
  | currentFrameSend => exact nextLegal_execCurrentFrameSend hs _ _ _
  | currentSamplesRx => exact nextLegal_execCurrentSamplesRx hs _ _ _
  | auxScan => exact nextLegal_execAuxScan hs _ _ _ _
  | wirePresenceSearch => exact nextLegal_execWirePresenceSearch hs _ _ _
  | wireTransaction => exact nextLegal_execWireTransaction hs _ _ _
  | wireSpuEnd => exact nextLegal_execWireSpuEnd hs _ _
  | wireSpuOverload => exact nextLegal_execWireSpuOverload hs _ _
  | engineCheckpoint => exact nextLegal_execEngineCheckpoint hs _ _ _
  | engineCheckpointMissed => exact nextLegal_execEngineCheckpointMissed hs _ _ _
  | rebalanceReplayDone => exact nextLegal_execRebalanceReplayDone hs _ _ _
  | trackerUpdate => exact nextLegal_execTrackerUpdate hs _ _ _
  | trackerStateSave => exact nextLegal_execTrackerStateSave hs _
  | impedanceStart => exact nextLegal_execImpedanceStart hs _ _
  | excitationPhase => exact nextLegal_execExcitationPhase hs _ _ _ _ _
  | impedanceEnd => exact nextLegal_execImpedanceEnd hs _ _ _ _ _
  | estimateEnd => exact nextLegal_execEstimateEnd hs _ _ _
  | thermalManagerUpdate => exact nextLegal_execThermalManagerUpdate hs _ _
  | balTargetCheck => exact nextLegal_execBalTargetCheck hs _ _
  | balOvercurrent => exact nextLegal_execBalOvercurrent hs _ _ _ _
  | balHoldExpire => exact nextLegal_execBalHoldExpire hs _ _
  | balTlimitExpire => exact nextLegal_execBalTlimitExpire hs _ _
  | burstRx => exact nextLegal_execBurstRx hs _ _ _
  | frameRx => exact nextLegal_execFrameRx hs _ _ _
  | lineReclaim => exact nextLegal_execLineReclaim hs _
  | trainRateTimeout => exact nextLegal_execTrainRateTimeout hs _ _ _
  | linkUp => exact nextLegal_execLinkUp hs _ _ _
  | trainRetry => exact nextLegal_execTrainRetry hs _ _
  | hopDownTimeout => exact nextLegal_execHopDownTimeout hs _ _
  | linkRetrain => exact nextLegal_execLinkRetrain hs _ _
  | delayExchange => exact nextLegal_execDelayExchange hs _ _ _
  | faultToneRepeat => exact nextLegal_execFaultToneRepeat hs _
  | toneRx => exact nextLegal_execToneRx hs _ _
  | toneConfirm => exact nextLegal_execToneConfirm hs _ _
  | toneEnd => exact nextLegal_execToneEnd hs _ _
  | toneHoldoffEnd => exact nextLegal_execToneHoldoffEnd hs _
  | toneLineRetake => exact nextLegal_execToneLineRetake hs _ _
  | wakeStreamOnUp => exact nextLegal_execWakeStreamOnUp hs _ _
  | wakeStreamEnd => exact nextLegal_execWakeStreamEnd hs _
  | enumRx => exact nextLegal_execEnumRx hs _ _ _
  | enumTimeout => exact nextLegal_execEnumTimeout hs _
  | beaconSend => exact nextLegal_execBeaconSend hs _
  | beaconRx => exact nextLegal_execBeaconRx hs _ _ _
  | timebaseHoldover => exact nextLegal_execTimebaseHoldover hs _
  | timebaseLost => exact nextLegal_execTimebaseLost hs _
  | heartbeatSend => exact nextLegal_execHeartbeatSend hs _
  | heartbeatRx => exact nextLegal_execHeartbeatRx hs _ _ _
  | commitFrameRx => exact nextLegal_execCommitFrameRx hs _ _ _ _
  | commitApply => exact nextLegal_execCommitApply hs _
  | sweepTriggerRx => exact nextLegal_execSweepTriggerRx hs _ _ _
  | sweepHoldExpire => exact nextLegal_execSweepHoldExpire hs _ _
  | sweepDeadline => exact nextLegal_execSweepDeadline hs _ _
  | breakDetectTimeout => exact nextLegal_execBreakDetectTimeout hs _
  | castle => exact nextLegal_execCastle hs _
  | ringRestore => exact nextLegal_execRingRestore hs _
  | requestRx => exact nextLegal_execRequestRx hs _ _ _
  | responseRx => exact nextLegal_execResponseRx hs _ _ _
  | reqAcceptTimeout => exact nextLegal_execReqAcceptTimeout hs _ _
  | eventRx => exact nextLegal_execEventRx hs _ _ _
  | bulkRx => exact nextLegal_execBulkRx hs _ _ _ _
  | streamRecord => exact nextLegal_execStreamRecord hs _ _
  | streamFrameFlush => exact nextLegal_execStreamFrameFlush hs _ _
  | streamFrameRx => exact nextLegal_execStreamFrameRx hs _ _
  | readStatus => exact nextLegal_execReadStatus hs _
  | readId => exact nextLegal_execReadId hs _ _
  | read => exact nextLegal_execRead hs _ _ _
  | write => exact nextLegal_execWrite hs _ _ _ _
  | enterOctal => exact nextLegal_execEnterOctal hs
  | exitOctal => exact nextLegal_execExitOctal hs _
  | hcsLowIdle => exact nextLegal_execHcsLowIdle hs
  | sqDoorbell => exact nextLegal_execSqDoorbell hs _ _ _
  | commandDispatch => exact nextLegal_execCommandDispatch hs _ _
  | cqHeadDoorbell => exact nextLegal_execCqHeadDoorbell hs _ _ _
  | eqHeadDoorbell => exact nextLegal_execEqHeadDoorbell hs _ _
  | commandDeadline => exact nextLegal_execCommandDeadline hs _ _
  | intTimeExpire t ring => exact nextLegal_execIntTimeExpire hs t ring
  | regRead => exact nextLegal_execRegRead hs _ _ _
  | regWrite => exact nextLegal_execRegWrite hs _ _ _
  | regModify => exact nextLegal_execRegModify hs _ _ _
  | commit => exact nextLegal_execCommit hs _ _ _
  | sweep => exact nextLegal_execSweep hs _ _ _
  | streamStart => exact nextLegal_execStreamStart hs _ _ _
  | streamStop => exact nextLegal_execStreamStop hs _ _ _
  | balPlan => exact nextLegal_execBalPlan hs _ _ _
  | balStop => exact nextLegal_execBalStop hs _ _ _
  | impedance => exact nextLegal_execImpedance hs _ _ _
  | estimate => exact nextLegal_execEstimate hs _ _ _
  | modelLoad => exact nextLegal_execModelLoad hs _ _ _
  | histRead => exact nextLegal_execHistRead hs _ _ _
  | histMark => exact nextLegal_execHistMark hs _ _ _
  | calRead => exact nextLegal_execCalRead hs _ _ _
  | calStore => exact nextLegal_execCalStore hs _ _ _
  | calUser => exact nextLegal_execCalUser hs _ _ _
  | calUserEnd => exact nextLegal_execCalUserEnd hs _ _
  | wireXfer => exact nextLegal_execWireXfer hs _ _ _
  | selftest => exact nextLegal_execSelftest hs _ _ _ _
  | repair => exact nextLegal_execRepair hs _ _ _ _
  | ringEnum => exact nextLegal_execRingEnum hs _ _ _
  | ringStatus => exact nextLegal_execRingStatus hs _ _ _
  | power => exact nextLegal_execPower hs _ _ _
  | fwUpdate => exact nextLegal_execFwUpdate hs _ _ _
  | echo => exact nextLegal_execEcho hs _ _ _
  | safetyCycle => exact nextLegal_execSafetyCycle hs _ _ _ _ _
  | supervisorWatchdogExpire => exact nextLegal_execSupervisorWatchdogExpire hs _
  | safeReset => exact nextLegal_execSafeReset hs _ _
  | safeResetWindowEnd => exact nextLegal_execSafeResetWindowEnd hs _
  | outputOn => exact nextLegal_execOutputOn hs _ _ _
  | outputOff => exact nextLegal_execOutputOff hs _ _ _
  | outputOffTest => exact nextLegal_execOutputOffTest hs _ _
  | outputOffTestEnd => exact nextLegal_execOutputOffTestEnd hs _ _ _
  | outputStuck => exact nextLegal_execOutputStuck hs _ _ _ _
  | outputOverload => exact nextLegal_execOutputOverload hs _ _ _ _ _ _
  | testPulseCycle => exact nextLegal_execTestPulseCycle hs _ _ _
  | inputFilterChange => exact nextLegal_execInputFilterChange hs _ _ _ _
  | registerWrite => exact nextLegal_execRegisterWrite hs _ _ _ _ _
  | aliasWrite => exact nextLegal_execAliasWrite hs _ _ _ _
  | protCommit => exact nextLegal_execProtCommit hs _ _ _
  | postedWriteLand => exact nextLegal_execPostedWriteLand hs _ _
  | parityScan => exact nextLegal_execParityScan hs _ _
  | protCfgStore => exact nextLegal_execProtCfgStore hs _ _ _
  | serviceWindowOpen => exact nextLegal_execServiceWindowOpen hs _ _
  | serviceWindowTimeout => exact nextLegal_execServiceWindowTimeout hs _
  | protSvcClose => exact nextLegal_execProtSvcClose hs _ _
  | svcHeadTimeout => exact nextLegal_execSvcHeadTimeout hs _
  | bucketLeak => exact nextLegal_execBucketLeak hs _ _ _
  | chkData => exact nextLegal_execChkData hs _ _ _
  | chkRestart => exact nextLegal_execChkRestart hs _
  | chkCompare => exact nextLegal_execChkCompare hs _ _
  | chkAlvSync => exact nextLegal_execChkAlvSync hs _
  | chkAlv => exact nextLegal_execChkAlv hs _ _ _
  | sramScrub => exact nextLegal_execSramScrub hs _ _ _ _ _
  | nvSweepSector => exact nextLegal_execNvSweepSector hs _ _
  | nvmOperationDone => exact nextLegal_execNvmOperationDone hs _ _ _
  | lifetimeRecord => exact nextLegal_execLifetimeRecord hs _
  | summaryCheckpoint => exact nextLegal_execSummaryCheckpoint hs _
  | summaryClose => exact nextLegal_execSummaryClose hs _
  | laneStageTest => exact nextLegal_execLaneStageTest hs _ _ _ _ _
  | cmpGroupTest => exact nextLegal_execCmpGroupTest hs _ _ _
  | tapReset => exact nextLegal_execTapReset hs _
  | tapUpdateIr => exact nextLegal_execTapUpdateIr hs _ _ _
  | clockLock => exact nextLegal_execClockLock hs _ _
  | buckDropout => exact nextLegal_execBuckDropout hs _
  | buckDropoutEnd => exact nextLegal_execBuckDropoutEnd hs _
  | powerAckTimeout => exact nextLegal_execPowerAckTimeout hs _
  | commitAnswerTimeout => exact nextLegal_execCommitAnswerTimeout hs _ _
  | responseHoldExpire => exact nextLegal_execResponseHoldExpire hs _ _
  | faultToneBurstEnd => exact nextLegal_execFaultToneBurstEnd hs _
  | trainListenRate => exact nextLegal_execTrainListenRate hs _ _
  | nvSweepStart => exact nextLegal_execNvSweepStart hs _

/-- The reset state has no cells and no commits. -/
theorem legal_reset : State.reset.dev.cellsLegal := by
  refine ⟨by decide +kernel, fun c hc => absurd hc List.not_mem_nil⟩

/-- Settles O53: no operation of the model writes MEAS_CELLS or the waiting commits but the commits themselves, whose snapshots name a block
with a bad NCELLS at fault, the configuration record, whose check drops a bad NCELLS, and resets, which leave 0. -/
theorem stepKeepsCellCount : Obligations.StepKeepsCellCount := by
  refine ⟨fun s u hs hu => ?_, legal_reset⟩
  cases hq : s.pending with
  | nil =>
    simp only [step, hq, Host.Outcome.next.injEq] at hu
    exact hu ▸ hs
  | cons c rest =>
    simp only [step, hq] at hu
    exact nextLegal_exec c (s := { s with pending := rest }) hs u hu

end Sys2Proof.Machine
end

section
/-! SUPPORT. The relief rotation: a slot's turn, its reliefs and steps, and the check of a handover (file 04, R106 to R113, Table CAL-3). -/

namespace Sys2Proof.Machine

/-! ### A slot begins (R106 to R111, Table CAL-3) -/

/-- Off its turn a slot does not begin (R106). -/
theorem slotStart_off_turn {slot : Nat} {d : Dev} (h : slot ≠ d.ca.slotNext ∨ d.now.toNat < d.ca.slotDue.toNat) (l : List ReliefOutcome) :
    slotStart slot l d = d := by
  have hmay : slotMay slot d = false := by
    simp only [slotMay, Bool.and_eq_false_iff, decide_eq_false_iff_not]
    omega
  rw [slotStart, hmay]
  rfl

/-- The slots move on by one: the last one's reliefs have ended, and the lanes to leave out and the withdrawn spares are those of this slot. -/
def slotTurned (slot : Nat) (d : Dev) : Dev :=
  leaveOut slot { endSlot d with ca := { (endSlot d).ca with
    periods := if slot = 0 ∧ d.ca.slot = 16 then d.ca.periods + 1 else d.ca.periods
    slot := slot
    slotAt := d.ca.slotDue
    slotNext := (slot + 1) % 17
    slotDue := later d.ca.slotDue slotLen } }

/-- The lane that a spare relieves in a slot, where it relieves one. -/
def reliefOf (slot : Nat) (d : Dev) (o : ReliefOutcome) : Option (Nat × Nat) :=
  match slotUse d o.spare slot with
  | .relieve lane => some (lane, o.spare)
  | _ => none

/-- The slot that the present one is, with its reliefs, and its steps put among what is still to come. -/
def slotPlanned (slot : Nat) (l : List ReliefOutcome) (d : Dev) : Dev :=
  { d with ca := { d.ca with
      relief := l.filterMap (reliefOf slot d)
      fitted := []
      todo := (l.flatMap (slotSteps slot d)).foldr insertDue d.ca.todo } }

/-- At its turn a slot begins with the spares that there are, and what is due by now acts. -/
theorem slotStart_at_turn {slot : Nat} {d : Dev} (hs : slot = d.ca.slotNext) (hd : d.ca.slotDue.toNat ≤ d.now.toNat) (l : List ReliefOutcome) :
    slotStart slot l d =
      calRun d.now (slotPlanned slot (l.filter (fun o => decide (o.spare < 4))) (slotTurned slot d)) := by
  have hmay : slotMay slot d = true := by simp [slotMay, hd, ← hs]
  rw [slotStart, hmay]
  rfl

theorem kget_kset (m : List (Nat × Nat)) (k v i : Nat) : kget 0 (kset 0 m k v) i = if i = k then v else kget 0 m i := mget_mset ..

/-- Values changed at distinct keys, each once. -/
theorem kget_each_kset {f : Nat → Nat} {l : List (Nat × Nat)} (hn : (l.map Prod.fst).Nodup) (m : List (Nat × Nat)) (k : Nat) :
    kget 0 (each (fun r e => kset 0 e r.1 (f (kget 0 e r.1))) l m) k = if k ∈ l.map Prod.fst then f (kget 0 m k) else kget 0 m k := by
  split
  · next hk =>
    obtain ⟨x, hx, rfl⟩ := List.mem_map.1 hk
    refine each_at (view := fun e => kget 0 e x.1) hx hn (fun y _ hy e => ?_) fun e he => ?_
    · exact (kget_kset ..).trans (if_neg hy.symm)
    · exact ((kget_kset ..).trans (if_pos rfl)).trans (congrArg f he)
  · next hk =>
    refine each_kept (view := fun e => kget 0 e k) (fun y hy e => ?_) m
    exact (kget_kset ..).trans (if_neg fun h : k = y.1 => hk (h ▸ List.mem_map_of_mem hy))

/-- The lanes relieved in the slot that ended have taken two more epochs (R109). -/
theorem epoch_slotTurned {d : Dev} (hn : (d.ca.relief.map Prod.fst).Nodup) (slot lane : Nat) :
    kget 0 (slotTurned slot d).ca.epoch lane =
      if lane ∈ d.ca.relief.map Prod.fst then (kget 0 d.ca.epoch lane + 2) % 4 else kget 0 d.ca.epoch lane :=
  kget_each_kset (f := fun e => (e + 2) % 4) hn d.ca.epoch lane

theorem frame_slotPlanned (slot : Nat) (l : List ReliefOutcome) (d : Dev) : ChangesOnly [.ca] [] d (slotPlanned slot l (slotTurned slot d)) :=
  frame_ca ..

/-- Where all that is still to come lies ahead, nothing falls due. -/
theorem quietTill_of_forall {t : Time} {d : Dev} (h : ∀ x ∈ d.ca.todo, t.toNat < x.due.toNat) : QuietTill t d := by
  unfold QuietTill
  split
  · trivial
  · next x r hx => exact h x (by simp [hx])

/-- A slot that begins with nothing due is a step that only brings the calibration to that slot. -/
theorem exec_reliefSlotStart {s : State} {t : Time} {slot : Nat} {l : List ReliefOutcome} {d : Dev} (hd : d = tick t s.dev)
    (ha : d.awake = true) (calm : Calm d) (hf : ChangesOnly [.ca] [] d (slotStart slot l d)) :
    exec (.reliefSlotStart t slot l) s = .next { s with dev := slotStart slot l d } := by
  subst hd
  have hev := hf.1 .ev (by decide)
  have hex := hf.1 .ex (by decide)
  exact actAt_quiet t (slotStart slot l) s (running_of_awake (by simpa using ha)) ((congrArg Events.out hev).trans calm.1)
    ((congrArg Exec.done hex).trans calm.2)

/-! ### The steps of a relief (Table CAL-3) -/

theorem mem_insertDue (x y : CalDue) (l : List CalDue) : x ∈ insertDue y l ↔ x = y ∨ x ∈ l := by
  induction l with
  | nil => simp [insertDue]
  | cons z r ih =>
    rw [insertDue]
    split
    · simp
    · simp only [List.mem_cons, ih]
      tauto

theorem mem_foldr_insertDue (x : CalDue) (q l : List CalDue) : x ∈ q.foldr insertDue l ↔ x ∈ l ∨ x ∈ q := by
  induction q with
  | nil => simp
  | cons y r ih =>
    rw [List.foldr_cons, mem_insertDue, ih, List.mem_cons]
    tauto

theorem lt_of_mem_upFrom {lo n m : Nat} (h : m ∈ upFrom lo n) : m < lo + n := by
  induction n generalizing lo with
  | zero => cases h
  | succ n ih =>
    rcases List.mem_cons.1 h with rfl | hr
    · omega
    · have := ih hr
      omega

/-- With no lane left out, none at N and no spare withdrawn, a slot leaves out none (R112). -/
theorem out_slotTurned {d : Dev} (ho : d.ca.out = []) (hl : ∀ i < 68, lasting d 13 i = false) (slot : Nat) : (slotTurned slot d).ca.out = [] := by
  refine List.filter_eq_nil_iff.2 fun m hm => ?_
  have hlane : lasting d 13 m = false := hl m (by have := lt_of_mem_upFrom hm; omega)
  have hkept : (if slot = 0 then [] else d.ca.out) = [] := by rw [ho, ite_self]
  change ¬ (decide (m ∈ if slot = 0 then [] else d.ca.out) || lasting d 13 m) = true
  rw [hkept, hlane]
  simp

theorem wd_slotTurned {d : Dev} (hw : d.ca.wd = []) (slot : Nat) : (slotTurned slot d).ca.wd = [] := by
  change (if slot = 0 then d.ca.wd.filter _ else d.ca.wd) = []
  rw [hw, List.filter_nil, ite_self]

/-- A spare that is not withdrawn relieves the lane of its own list that is in use and not left out (R107, Table CAL-2). -/
theorem slotUse_relieve {d : Dev} {spare slot : Nat} (hslot : slot < 16) (hr : regBit d R.calCtrl 0 = true)
    (hc : laneCell (ownLane spare slot) ≤ ncells d) (ho : d.ca.out = []) (hw : d.ca.wd = []) :
    slotUse d spare slot = .relieve (ownLane spare slot) := by
  have hown : servedList d spare = spare := by simp [servedList, spareOut, hw]
  have hidle : ¬ (16 ≤ slot ∨ !regBit d R.calCtrl 0 ∨ ncells d < laneCell (ownLane spare slot)) := by simp [hr]; omega
  simp only [slotUse, hown, if_neg hidle, spareOut, hw, ho, List.not_mem_nil, decide_false, Bool.false_eq_true, if_false]

/-- Two times after the same one keep their order, where the clock does not wrap. -/
theorem later_le_later {t : Time} {m n : Nat} (ht : t.toNat < 2 ^ 63) (hm : m ≤ n) (hn : n < 2 ^ 63) : (later t m).toNat ≤ (later t n).toNat := by
  simp only [later, BitVec.toNat_ofNat]
  omega

/-- The four steps of a relief that begins at ring time t (Table CAL-3). -/
def reliefSteps (t : Time) (lane : Nat) (o : ReliefOutcome) : List CalDue :=
  [⟨later t (usT 10080), .checkIn lane o⟩, ⟨later t (usT 222000), .fit (some lane) o⟩, ⟨later t (usT 224000), .apply (some lane) o⟩,
    ⟨later t (usT 240080), .checkOut lane o⟩]

/-- The takeover's check comes first. -/
theorem reliefSteps_after {t : Time} (ht : t.toNat < 2 ^ 63) {lane : Nat} {o : ReliefOutcome} {x : CalDue} (hx : x ∈ reliefSteps t lane o) :
    (later t (usT 10080)).toNat ≤ x.due.toNat := by
  simp only [reliefSteps, List.mem_cons, List.not_mem_nil, or_false] at hx
  rcases hx with rfl | rfl | rfl | rfl <;> exact later_le_later ht (by decide) (by decide)

/-- A slot that begins with one spare, which relieves a lane. -/
theorem slotPlanned_relieve {d : Dev} {slot lane : Nat} {o : ReliefOutcome} (hu : slotUse d o.spare slot = .relieve lane) :
    slotPlanned slot [o] d = { d with ca := { d.ca with
      relief := [(lane, o.spare)], fitted := [], todo := (reliefSteps d.ca.slotAt lane o).foldr insertDue d.ca.todo } } := by
  simp [slotPlanned, reliefOf, slotSteps, reliefSteps, hu]

/-! ### The check of a handover (R111) -/

theorem fitS24_of_fits {z : Int} (hlo : -8388608 ≤ z) (hhi : z < 8388608) (d : Dev) : fitS 24 z d = (unsigned 24 z, d) := by
  have hfits : -(2 ^ (24 - 1) : Int) ≤ z ∧ z < (2 ^ (24 - 1) : Int) := by norm_num; exact ⟨hlo, hhi⟩
  rw [fitS, if_pos hfits]

/-- CAL_HO_LAST after the check of a step z. -/
def hoLast (lane dir : Nat) (z : Int) (d : Dev) : Word :=
  packW [(unsigned 24 z, 0), (lane, 24), (dir, 30), (b2n (decide (hoLimit d < z.natAbs)), 31)]

/-- A check within HO_LIMIT shows its step. -/
theorem handover_within {z : Int} (hlo : -8388608 ≤ z) (hhi : z < 8388608) {d : Dev} (hz : z.natAbs ≤ hoLimit d) (t : Time) (spare lane dir : Nat) :
    handover t spare lane dir z d = setReg R.calHoLast (hoLast lane dir z d) d := by
  have hgood : ¬ hoLimit d < z.natAbs := by omega
  simp [handover, fitS24_of_fits hlo hhi, hoLast, hgood]

/-- The step of a check is noted against its spare (R113). -/
def hoNoted (spare lane : Nat) (d : Dev) : Dev :=
  { d with ca := { d.ca with spareLanes := kset [] d.ca.spareLanes spare ((lane :: kget [] d.ca.spareLanes spare).take 255) } }

@[simp] theorem hoNoted_regs (spare lane : Nat) (d : Dev) : (hoNoted spare lane d).regs = d.regs := rfl
@[simp] theorem hoNoted_ev (spare lane : Nat) (d : Dev) : (hoNoted spare lane d).ev = d.ev := rfl

/-- A check beyond HO_LIMIT shows its step and counts for the lane and for the spare. -/
theorem handover_beyond {z : Int} (hlo : -8388608 ≤ z) (hhi : z < 8388608) {d : Dev} (hz : hoLimit d < z.natAbs) (t : Time) (spare lane dir : Nat) :
    handover t spare lane dir z d = withdraw (countOnly 13 (64 + spare) (occurAt t 13 lane 0x0601
      ([BitVec.ofNat 8 spare, BitVec.ofNat 8 dir] ++ leBytes 4 (unsigned 32 z)) (hoNoted spare lane (setReg R.calHoLast (hoLast lane dir z d) d)))) := by
  rw [handover, fitS24_of_fits hlo hhi]
  exact if_pos (decide_eq_true hz)

theorem frame_withdraw (d : Dev) : ChangesOnly [.ca] [] d (withdraw d) := .each _ (fun _ _ => .ite (frame_ca ..) (.refl ..)) _ _

/-- The levels that an occurrence at a given ring time leaves. -/
theorem lvl_occurAt (t : Time) (s i code : Nat) (data : List Byte) (d : Dev) :
    (occurAt t s i code data d).ev.lvl = kset 0 d.ev.lvl (bucketBase s + i) (satNat 255 (level d s i + 1)) := by
  unfold occurAt
  dsimp only
  split <;> split <;> simp [postTurn, countOcc, lvl_setLevel]

/-- The levels that an occurrence without an event leaves. -/
theorem lvl_countOnly (s i : Nat) (d : Dev) : (countOnly s i d).ev.lvl = kset 0 d.ev.lvl (bucketBase s + i) (satNat 255 (level d s i + 1)) := by
  unfold countOnly
  dsimp only
  split <;> simp [postTurn, lvl_setLevel]

/-- The register that a check shows. -/
theorem reg_calHoLast_handover {z : Int} (hlo : -8388608 ≤ z) (hhi : z < 8388608) (t : Time) (spare lane dir : Nat) (d : Dev) :
    reg (handover t spare lane dir z d) R.calHoLast = hoLast lane dir z d := by
  rcases Nat.lt_or_ge (hoLimit d) z.natAbs with hz | hz
  · rw [handover_beyond hlo hhi hz, (frame_withdraw _).2 _ (by simp), (frame_countOnly ..).2 _ (by decide), (frame_occurAt ..).2 _ (by decide),
      reg_congr (hoNoted_regs ..), reg_setReg_self]
  · rw [handover_within hlo hhi hz, reg_setReg_self]

/-- A check beyond HO_LIMIT is an occurrence of the lane's bucket. -/
theorem level_handover_beyond {z : Int} (hlo : -8388608 ≤ z) (hhi : z < 8388608) {d : Dev} (hz : hoLimit d < z.natAbs) (t : Time) (spare dir : Nat)
    {lane : Nat} (hl : lane < 64) : level (handover t spare lane dir z d) 13 lane = satNat 255 (level d 13 lane + 1) := by
  have hspare : bucketBase 13 + lane ≠ bucketBase 13 + (64 + spare) := by omega
  have hev : ∀ e, (withdraw e).ev = e.ev := fun e => (frame_withdraw e).1 .ev (by decide)
  rw [handover_beyond hlo hhi hz, level_congr (congrArg Events.lvl (hev _)), level, lvl_countOnly, kget_kset, if_neg hspare, lvl_occurAt, kget_kset,
    if_pos rfl, level, hoNoted_ev, setReg_ev, level]

/-! ### The rotation -/

/-- A slot that is not at its turn leaves the device (R106). -/
theorem exec_reliefSlotStart_off_turn {s : State} {t : Time} {slot : Nat} {d : Dev} (hd : d = tick t s.dev) (ha : d.awake = true) (calm : Calm d)
    (h : slot ≠ d.ca.slotNext ∨ d.now.toNat < d.ca.slotDue.toNat) (l : List ReliefOutcome) :
    exec (.reliefSlotStart t slot l) s = .next { s with dev := d } := by
  have hf : ChangesOnly [.ca] [] d (slotStart slot l d) := by rw [slotStart_off_turn h]; exact .refl ..
  rw [exec_reliefSlotStart hd ha calm hf, slotStart_off_turn h]

/-- A slot at its turn with nothing due is the slot as planned. -/
theorem exec_reliefSlotStart_at_turn {s : State} {t : Time} {slot : Nat} {l : List ReliefOutcome} {d : Dev} (hd : d = tick t s.dev) (ha : d.awake = true)
    (calm : Calm d) (hs : slot = d.ca.slotNext) (hdue : d.ca.slotDue.toNat ≤ d.now.toNat) (hl : ∀ o ∈ l, o.spare < 4)
    (hq : ∀ x ∈ (slotPlanned slot l (slotTurned slot d)).ca.todo, d.now.toNat < x.due.toNat) :
    exec (.reliefSlotStart t slot l) s = .next { s with dev := slotPlanned slot l (slotTurned slot d) } := by
  have hstart : slotStart slot l d = slotPlanned slot l (slotTurned slot d) := by
    rw [slotStart_at_turn hs hdue, List.filter_eq_self.2 (by simpa using hl), calRun_quiet (quietTill_of_forall hq)]
  have hf : ChangesOnly [.ca] [] d (slotStart slot l d) := by rw [hstart]; exact frame_slotPlanned ..
  rw [exec_reliefSlotStart hd ha calm hf, hstart]

/-- What is due acts once and nothing after it, where it leaves nothing to come. -/
theorem calRun_last {t : Time} {d : Dev} {x : CalDue} {r : List CalDue} (hx : d.ca.todo = x :: r) (hd : x.due.toNat ≤ t.toNat)
    (he : (calStep x { d with ca := { d.ca with todo := r } }).ca.todo = []) : calRun t d = calStep x { d with ca := { d.ca with todo := r } } := by
  have hstop : ∀ n e, e.ca.todo = [] → calRunN t n e = e := fun n e h => by cases n <;> simp only [calRunN, h]
  rw [calRun, hx, List.length_cons, Nat.add_right_comm, calRunN, hx]
  exact (if_pos hd).trans (hstop _ _ he)

/-- Settles O21: with nothing due a slot at its turn is the slot as planned, whose fields say the first clauses; an occurrence at the lane's bucket
and one at the spare's stand at different levels, so that a check beyond HO_LIMIT counts once for the lane. -/
theorem reliefSlotRotates : Obligations.ReliefSlotRotates := by
  unfold Obligations.ReliefSlotRotates
  refine ⟨fun s t slot o d hd ha calm _ => ⟨fun h l => exec_reliefSlotStart_off_turn hd ha calm h l, fun hs hdue hq => ⟨?_, ?_⟩⟩, ?_, ?_⟩
  · have hexec := exec_reliefSlotStart_at_turn (l := []) hd ha calm hs hdue (by simp) hq
    refine ⟨_, hexec, rfl, rfl, rfl, rfl, rfl, rfl, ?_, fun hn lane => epoch_slotTurned hn slot lane, frame_slotPlanned .., rfl⟩
    change (if slot = 0 ∧ d.ca.slot = 16 then d.ca.periods + 1 else d.ca.periods) = _
    split <;> next hperiod => simp [b2n, hperiod]
  · intro hspare hslot hrot hcell hout hlast hwd hnow hearly
    have hplan := slotPlanned_relieve (slotUse_relieve (d := slotTurned slot d) hslot hrot hcell (out_slotTurned hout hlast slot) (wd_slotTurned hwd slot))
    have htodo : ∀ x, x ∈ (slotPlanned slot [o] (slotTurned slot d)).ca.todo ↔
        x ∈ d.ca.todo ∨ x ∈ reliefSteps d.ca.slotDue (ownLane o.spare slot) o := fun x => by
      rw [hplan]
      exact mem_foldr_insertDue ..
    have hahead : ∀ x ∈ (slotPlanned slot [o] (slotTurned slot d)).ca.todo, d.now.toNat < x.due.toNat := fun x hx =>
      ((htodo x).1 hx).elim (hq x) fun h => hnow.trans_le (reliefSteps_after hearly h)
    have hexec := exec_reliefSlotStart_at_turn hd ha calm hs hdue (by simpa using hspare) hahead
    exact ⟨_, hexec, congrArg (·.ca.relief) hplan, htodo, frame_slotPlanned .., rfl⟩
  · exact fun t d x r hx hdue he => calRun_last hx hdue he
  · intro t spare lane dir z d hlo hhi hlane _
    refine ⟨reg_calHoLast_handover hlo hhi .., fun hz => ?_, fun hz => level_handover_beyond hlo hhi hz t spare dir hlane⟩
    rw [handover_within hlo hhi hz]
    exact frame_setReg ..

end Sys2Proof.Machine
end

section
/-! SUPPORT. CAL_STORE and CAL_USER at the ring time at which an online test completes the command of their handle (files 02, 04 and 14). -/

namespace Sys2Proof.Machine

/-! ### CAL_STORE and CAL_USER in a stack device whose SELFTEST of the same handle ends at their ring time (R251) -/

/-- CAL_STORE of a set of origin 1. -/
def storeUserSet : Desc := 0x51 :: 0 :: 1 :: List.replicate 13 0

/-- Under handle 7 it ends nothing in `groupTested`: the SELFTEST has ended there before it. -/
theorem groupTested_calStore {u : State} (hu : exec (.calStore groupTestEnd 7 storeUserSet) groupTested = .next u) :
    u.dev.ex.results = groupTestResults := by
  obtain rfl := Host.Outcome.next.inj hu
  decide +kernel

/-- Refutes O22 in its clause on CAL_STORE without a service window: `Finished` asks for DENIED_WINDOW under a handle that was held before ring
time passed. Where the SELFTEST of that handle ends at the same ring time, the result held is the SELFTEST's. -/
theorem not_calRecordsReadAndStored : ¬ Obligations.CalRecordsReadAndStored := by
  unfold Obligations.CalRecordsReadAndStored
  rintro ⟨-, hstore⟩
  obtain ⟨calm, -, -⟩ := groupTested_ended
  obtain ⟨u, hu, hwindow, -⟩ := hstore groupTested groupTestEnd 7 storeUserSet _ rfl (by decide +kernel) calm rfl (by decide)
  obtain ⟨hfin, -⟩ := hwindow (by decide +kernel)
  exact not_finished_of_groupTestResults rfl ⟨_, List.mem_singleton_self _, rfl⟩ (groupTested_calStore hu) (by decide) hfin

/-- CAL_USER of the lane gains of cell 1 at 3 V. -/
def adjustLaneGain : Desc := 0x52 :: 0 :: 0x103 :: 3000000 :: List.replicate 12 0

/-- Under handle 7 it ends nothing in `groupTested` either. -/
theorem groupTested_calUser {u : State} (hu : exec (.calUser groupTestEnd 7 adjustLaneGain) groupTested = .next u) :
    u.dev.ex.results = groupTestResults := by
  obtain rfl := Host.Outcome.next.inj hu
  decide +kernel

/-- Refutes O23 in its clause on CAL_USER refused: `Finished` asks for the refusal, here DENIED_WINDOW, under a handle that was held before ring
time passed. Where the SELFTEST of that handle ends at the same ring time, the result held is the SELFTEST's. -/
theorem not_calUserRuns : ¬ Obligations.CalUserRuns := by
  unfold Obligations.CalUserRuns
  intro h
  obtain ⟨calm, -, -⟩ := groupTested_ended
  obtain ⟨hbegin, -⟩ := h groupTested groupTestEnd 7 adjustLaneGain ⟨[], [], []⟩ _ rfl (by decide +kernel) calm
  obtain ⟨u, hu, hrefused, -⟩ := hbegin rfl (by decide)
  have hwindow : calUserRefusal 3 1 (tick groupTestEnd groupTested.dev) = some 0x11 := by decide +kernel
  obtain ⟨hfin, -⟩ := hrefused _ hwindow
  exact not_finished_of_groupTestResults rfl ⟨_, List.mem_singleton_self _, rfl⟩ (groupTested_calUser hu) (by decide) hfin

end Sys2Proof.Machine
end

section
/-! SUPPORT. WIRE_XFER in a stack device at the ring time at which an online test completes the command of its handle (files 05 and 14). -/

namespace Sys2Proof.Machine

/-- WIRE_XFER of port 0, without data. -/
def wireTransfer : Desc := 0x60 :: List.replicate 15 0

/-- Under handle 7 it ends nothing in `groupTested`: the SELFTEST has ended there before it. -/
theorem groupTested_wireXfer {u : State} (hu : exec (.wireXfer groupTestEnd 7 wireTransfer) groupTested = .next u) :
    u.dev.ex.results = groupTestResults := by
  obtain rfl := Host.Outcome.next.inj hu
  decide +kernel

/-- Refutes O31 in its clause on WIRE_XFER denied: `Finished` asks for DENIED_STATE, here of a port that is off, under a handle that was held
before ring time passed. Where the SELFTEST of that handle ends at the same ring time, the result held is the SELFTEST's. -/
theorem not_wireBusRuns : ¬ Obligations.WireBusRuns := by
  unfold Obligations.WireBusRuns
  rintro ⟨-, hxfer, -⟩
  obtain ⟨calm, -, -⟩ := groupTested_ended
  obtain ⟨u, hu, hdenied, -⟩ := hxfer groupTested groupTestEnd 7 wireTransfer 0 _ rfl (by decide +kernel) calm rfl (by decide) rfl
  have hoff : xferDenied wireTransfer (tick groupTestEnd groupTested.dev) = true := by decide +kernel
  obtain ⟨hfin, -⟩ := hdenied hoff
  exact not_finished_of_groupTestResults rfl ⟨_, List.mem_singleton_self _, rfl⟩ (groupTested_wireXfer hu) (by decide) hfin

end Sys2Proof.Machine
end

section
/-! SUPPORT. Current limit trips and their releases (files 05 and 11). -/

namespace Sys2Proof.Machine

theorem limitRun_none_iff (T : Nat) (raw : List (Int × Int)) (d : Dev) : limitRun T raw d = none ↔ raw.length < curDeglitch d := by
  unfold limitRun
  split
  · next h => simpa using h
  · next h => simpa using h

/-! ### Trips (R135, R311) -/

/-- One modulator has lain beyond the limit for the whole run. -/
def runBeyond (pos : Bool) (d : Dev) (l : List (Int × Int)) : Prop :=
  (∀ x ∈ l, 0 < beyondLimit pos d x.1) ∨ (∀ x ∈ l, 0 < beyondLimit pos d x.2)

theorem limitTrip_trips {pos : Bool} {T : Nat} {raw : List (Int × Int)} {d : Dev} {l : List (Int × Int)} (hl : limitRun T raw d = some l)
    (hon : curOn d = true) (hb : runBeyond pos d l) : limitTrip pos T raw d = latch 1 0 (setRegBit R.curStat (limBit pos) true d) := by
  unfold limitTrip
  rw [hl]
  exact if_pos (by simpa [hon, runBeyond] using hb)

theorem limitTrip_idle {pos : Bool} {T : Nat} {raw : List (Int × Int)} {d : Dev}
    (h : ∀ l, limitRun T raw d = some l → curOn d = true → ¬ runBeyond pos d l) : limitTrip pos T raw d = d := by
  unfold limitTrip
  split
  · next l hl =>
    refine if_neg fun hc => ?_
    obtain ⟨hon, hb⟩ : curOn d = true ∧ runBeyond pos d l := by simpa [runBeyond] using hc
    exact h l hl hon hb
  · rfl

theorem limBit_lt (pos : Bool) : limBit pos < 32 := by cases pos <;> decide

theorem limBit_not_ne (pos : Bool) : limBit (!pos) ≠ limBit pos := by cases pos <;> decide

/-- The safety state after a trip whose cause is new (R311). -/
theorem sf_limitLatch {d : Dev} (hn : (1, 0) ∉ d.sf.present) (pos : Bool) : (latch 1 0 (setRegBit R.curStat (limBit pos) true d)).sf =
    (d.sf.latched 1 0 d.rg.pos d.now).dropped (true, true) d.now := latch_sf (d := setRegBit R.curStat (limBit pos) true d) hn

theorem frame_limitLatch (pos : Bool) (d : Dev) :
    ChangesOnly latchParts [R.curStat, R.ringCnt, R.safeCnt, R.hostEvtLost] d (latch 1 0 (setRegBit R.curStat (limBit pos) true d)) :=
  (frame_setRegBit ..).mono.trans (frame_latch ..).mono

/-! ### Releases (R135) -/

/-- Both modulators have lain inside the limit by the hysteresis for the whole run. -/
def runInside (pos : Bool) (d : Dev) (l : List (Int × Int)) : Prop :=
  ∀ x ∈ l, beyondLimit pos d x.1 ≤ -(regFld d R.curLimCfg 15 12 * 10 ^ 13 : Int) ∧
    beyondLimit pos d x.2 ≤ -(regFld d R.curLimCfg 15 12 * 10 ^ 13 : Int)

/-- A release clears the direction's bit, and the cause is gone where the other one does not stand. -/
theorem limitRelease_releases {pos : Bool} {T : Nat} {raw : List (Int × Int)} {d : Dev} {l : List (Int × Int)} (hl : limitRun T raw d = some l)
    (hon : curOn d = true) (hi : runInside pos d l) : limitRelease pos T raw d =
      if regBit d R.curStat (limBit !pos) then setRegBit R.curStat (limBit pos) false d
      else gone 1 0 (setRegBit R.curStat (limBit pos) false d) := by
  have hown : regBit (setRegBit R.curStat (limBit pos) false d) R.curStat (limBit pos) = false := by
    rw [regBit_setRegBit _ _ _ _ _ (limBit_lt pos), if_pos rfl]
  have hother : regBit (setRegBit R.curStat (limBit pos) false d) R.curStat (limBit !pos) = regBit d R.curStat (limBit !pos) := by
    rw [regBit_setRegBit _ _ _ _ _ (limBit_lt pos), if_neg (limBit_not_ne pos)]
  unfold limitRelease
  rw [hl]
  refine (if_pos (by simpa [hon, runInside] using hi)).trans ?_
  cases hx : regBit d R.curStat (limBit !pos) <;> cases pos <;> simp_all [limBit]

theorem limitRelease_idle {pos : Bool} {T : Nat} {raw : List (Int × Int)} {d : Dev}
    (h : ∀ l, limitRun T raw d = some l → curOn d = true → ¬ runInside pos d l) : limitRelease pos T raw d = d := by
  unfold limitRelease
  split
  · next l hl =>
    refine if_neg fun hc => ?_
    obtain ⟨hon, hi⟩ : curOn d = true ∧ runInside pos d l := by simpa [runInside] using hc
    exact h l hl hon hi
  · rfl

theorem frame_limitRelease {pos : Bool} {T : Nat} {raw : List (Int × Int)} {d : Dev} {l : List (Int × Int)} (hl : limitRun T raw d = some l)
    (hon : curOn d = true) (hi : runInside pos d l) : ChangesOnly [.sf] [R.curStat] d (limitRelease pos T raw d) := by
  rw [limitRelease_releases hl hon hi]
  exact .ite (frame_setRegBit ..).mono ((frame_setRegBit ..).mono.trans (frame_gone ..).mono)

theorem regBit_limitRelease {pos : Bool} {T : Nat} {raw : List (Int × Int)} {d : Dev} {l : List (Int × Int)} (hl : limitRun T raw d = some l)
    (hon : curOn d = true) (hi : runInside pos d l) (j : Nat) :
    regBit (limitRelease pos T raw d) R.curStat j = (decide (j ≠ limBit pos) && regBit d R.curStat j) := by
  have hcleared : regBit (setRegBit R.curStat (limBit pos) false d) R.curStat j = (decide (j ≠ limBit pos) && regBit d R.curStat j) := by
    rw [regBit_setRegBit _ _ _ _ _ (limBit_lt pos)]
    split <;> simp_all
  rw [limitRelease_releases hl hon hi, ← hcleared]
  split
  · rfl
  · exact (frame_gone ..).regBit j

theorem sf_limitRelease {pos : Bool} {T : Nat} {raw : List (Int × Int)} {d : Dev} {l : List (Int × Int)} (hl : limitRun T raw d = some l)
    (hon : curOn d = true) (hi : runInside pos d l) : (limitRelease pos T raw d).sf = { d.sf with
      present := if regBit d R.curStat (limBit !pos) then d.sf.present else d.sf.present.filter (fun c => c ≠ (1, 0)) } := by
  rw [limitRelease_releases hl hon hi]
  split <;> rfl

/-! ### The statement -/

/-- Settles O28: a confirmed trip is the direction's bit and the latch of bit 1, a release clears the bit and looks at the other direction's. -/
theorem currentLimitTrips : Obligations.CurrentLimitTrips := by
  unfold Obligations.CurrentLimitTrips
  intro s t pos raw d hd hr calm
  have idle_trip : (∀ l, limitRun t.toNat raw d = some l → curOn d = true → ¬ runBeyond pos d l) →
      exec (.currentLimitTrip t pos raw) s = .next { s with dev := d } := fun h => actAt_idle _ hd hr calm (limitTrip_idle h)
  have idle_release : (∀ l, limitRun t.toNat raw d = some l → curOn d = true → ¬ runInside pos d l) →
      exec (.currentLimitRelease t pos raw) s = .next { s with dev := d } := fun h => actAt_idle _ hd hr calm (limitRelease_idle h)
  refine ⟨limitRun_none_iff .., fun h => ⟨idle_trip ?_, idle_release ?_⟩, fun l hl hon => ⟨fun hb => ?_, fun ha hb => ?_, fun hi => ?_, fun ho => ?_⟩⟩
  · intro l hl hon
    simp_all
  · intro l hl hon
    simp_all
  · have htrip := limitTrip_trips hl hon hb
    have hframe := frame_limitLatch pos d
    obtain ⟨u, hu, hp, hh⟩ := actAt_posted (s := s) (limitTrip pos t.toNat raw) hd hr (by rw [htrip, hframe.1 .ex (by decide), calm.2])
    rw [htrip] at hp
    have hsf : u.dev.sf = _ := hp.frame.1 .sf (by decide)
    refine ⟨u, hu, fun j => ?_, fun hn => hsf.trans (sf_limitLatch hn pos), fun hn => ?_, hframe.trans hp.frame.mono, hh⟩
    · rw [hp.frame.regBit j, (frame_latch ..).regBit j, regBit_setRegBit _ _ _ _ _ (limBit_lt pos)]
      split <;> simp_all
    · rw [hsf, latch_present (d := setRegBit R.curStat (limBit pos) true d) hn]
      rfl
  · refine idle_trip fun m hm _ hbeyond => ?_
    obtain rfl := Option.some.inj (hl.symm.trans hm)
    obtain ⟨x, hx, hxle⟩ := ha
    obtain ⟨y, hy, hyle⟩ := hb
    exact hbeyond.elim (fun h => absurd (h x hx) (by omega)) (fun h => absurd (h y hy) (by omega))
  · have hframe := frame_limitRelease hl hon hi
    exact ⟨_, actAt_calm _ hd hr (hframe.calm calm), regBit_limitRelease hl hon hi, sf_limitRelease hl hon hi, hframe, rfl⟩
  · refine idle_release fun m hm _ hinside => ?_
    obtain rfl := Option.some.inj (hl.symm.trans hm)
    obtain ⟨x, hx, hout⟩ := ho
    obtain ⟨ha, hb⟩ := hinside x hx
    omega

end Sys2Proof.Machine
end

section
/-! SUPPORT. Current sample frames: cast by their source, kept, counted or dropped by a receiver (file 05). -/

namespace Sys2Proof.Machine

/-! ### A frame is cast (R139 to R141) -/

theorem frameSend_idle {m0 : Time} {x : List CurSample} {d : Dev} (h : curOn d = false ∨ x.length ≠ 32 ∨ frameDue d m0 = false) :
    frameSend m0 x d = d := by
  refine if_neg fun hc => ?_
  simp only [Bool.and_eq_true, decide_eq_true_eq] at hc
  obtain ⟨⟨⟨hon, hlen⟩, hdue⟩, -⟩ := hc
  simp [hon, hlen, hdue] at h

/-- The frame of 32 results from m0 on. -/
def castFrame (m0 : Time) (x : List CurSample) (d : Dev) : CurFrame := ⟨m0, reg d R.curShunt, d.io.cu.seqTx, bcIdx d, (bcWords d m0 x).1⟩

/-- The device with the frame's last value, and the frame kept where the device uses its own stream (R139, R140). -/
def frameUsed (m0 : Time) (x : List CurSample) (d : Dev) : Dev :=
  let e := withCur (fun c => { c with goodBc := (bcWords d m0 x).2 }) d
  if ownSource e then keepFrame (castFrame m0 x d) e else e

/-- The same with the next sequence number. -/
def frameNoted (m0 : Time) (x : List CurSample) (d : Dev) : Dev :=
  withCur (fun c => { c with seqTx := (c.seqTx + 1) % 65536 }) (frameUsed m0 x d)

/-- What a frame kept leaves of the current channel (R140). -/
theorem cu_keepFrame (f : CurFrame) (d : Dev) : (keepFrame f d).io.cu = { d.io.cu with frames := lastN 16 (d.io.cu.frames ++ [f]) } := rfl

theorem frame_keepFrame (f : CurFrame) (d : Dev) : ChangesOnly [.io, .en] [] d (keepFrame f d) :=
  ((frame_withCur _ d).mono.trans (frame_withEng ..).mono).trans (frame_withEng ..).mono

theorem frame_frameUsed (m0 : Time) (x : List CurSample) (d : Dev) : ChangesOnly [.io, .en] [] d (frameUsed m0 x d) :=
  (frame_withCur _ d).mono.trans (.ite (frame_keepFrame ..) (.refl ..))

theorem frame_frameNoted (m0 : Time) (x : List CurSample) (d : Dev) : ChangesOnly [.io, .en] [] d (frameNoted m0 x d) :=
  (frame_frameUsed m0 x d).trans (frame_withCur ..).mono

theorem frameNoted_cu (m0 : Time) (x : List CurSample) (d : Dev) : (frameNoted m0 x d).io.cu.seqTx = (d.io.cu.seqTx + 1) % 65536 ∧
    (frameNoted m0 x d).io.cu.goodBc = (bcWords d m0 x).2 := by
  unfold frameNoted frameUsed
  dsimp only
  split <;> exact ⟨rfl, rfl⟩

theorem frameSend_sends {m0 : Time} {x : List CurSample} {d : Dev} (hon : curOn d = true) (hb : regBit d R.curCtrl 1 = true) (hlen : x.length = 32)
    (hdue : frameDue d m0 = true) (hpos : d.rg.pos ≤ 62) : frameSend m0 x d =
      queueSamples (ownFrame (frameNoted m0 x d) 0x3F 0x06 d.io.cu.seqTx (curPayload (castFrame m0 x d))) (frameNoted m0 x d) := by
  have hbcast : regBit (frameUsed m0 x d) R.curCtrl 1 = true := ((frame_frameUsed m0 x d).regBit 1).trans hb
  have hrg : (frameNoted m0 x d).rg = d.rg := (frame_frameNoted m0 x d).1 .rg (by decide)
  have hplaced : (frameNoted m0 x d).rg.pos ≤ 62 := by rwa [hrg]
  unfold frameSend
  rw [if_pos (by simp [hon, hb, hlen, hdue])]
  exact (if_pos hbcast).trans (if_pos hplaced)

/-- Queuing a frame at the south port leaves the north one. -/
theorem enqueue_south_ln (f : Frame) (d : Dev) : (enqueue .south f d).ln = d.ln := by
  unfold enqueue
  dsimp only
  split <;> rfl

/-- The device without its own unsent frames of samples (R141). -/
def ownDropped (d : Dev) : Dev := { d with ln := dropOwnSamples d.ln d.rg.pos, ls := dropOwnSamples d.ls d.rg.pos }

theorem frame_ownDropped (d : Dev) : ChangesOnly [.queues] [] d (ownDropped d) := by
  refine ⟨fun q hq => ?_, fun _ _ => rfl⟩
  cases q <;> simp_all [Part.same, ownDropped, dropOwnSamples, LinkPort.still]

theorem frame_queueSamples (f : Frame) (d : Dev) : ChangesOnly [.queues, .cyc] [R.ringCnt] d (queueSamples f d) := by
  have hnorth : ChangesOnly [.queues, .cyc] [R.ringCnt] d (enqueue .north f (ownDropped d)) :=
    (frame_ownDropped d).mono.trans (frame_enqueue ..)
  exact .ite (hnorth.trans (frame_enqueue ..)) hnorth

/-- The frame waits at the north port after what else waited there, where it finds room. -/
theorem queue_queueSamples {f : Frame} {d : Dev} (h : (dropOwnSamples d.ln d.rg.pos).queue.length < 32) :
    (queueSamples f d).ln.queue = (dropOwnSamples d.ln d.rg.pos).queue ++ [f] := by
  have hnorth : (enqueue .north f (ownDropped d)).ln.queue = (dropOwnSamples d.ln d.rg.pos).queue ++ [f] := by
    unfold enqueue
    exact congrArg (fun e : Dev => e.ln.queue) (if_pos h)
  unfold queueSamples
  dsimp only
  split
  · rw [enqueue_south_ln]
    exact hnorth
  · exact hnorth

theorem currentFrameSend_holds (s : State) (t m0 : Time) (x : List CurSample) (d : Dev) (hd : d = tick t s.dev) (hr : d.running = true)
    (calm : Calm d) :
    (curOn d = false ∨ x.length ≠ 32 ∨ frameDue d m0 = false → exec (.currentFrameSend t m0 x) s = .next { s with dev := d }) ∧
    (curOn d = true → regBit d R.curCtrl 1 = true → x.length = 32 → frameDue d m0 = true → d.rg.pos ≤ 62 →
      ∃ u, exec (.currentFrameSend t m0 x) s = .next u ∧ u.dev.io.cu.seqTx = (d.io.cu.seqTx + 1) % 65536 ∧
        u.dev.io.cu.goodBc = (bcWords d m0 x).2 ∧
        ((dropOwnSamples d.ln d.rg.pos).queue.length < 32 →
          ∃ f, u.dev.ln.queue = (dropOwnSamples d.ln d.rg.pos).queue ++ [f] ∧ f.dest = 0x3F ∧ f.typ = 0x06 ∧
            f.src = d.rg.pos ∧ f.seq = d.io.cu.seqTx % 256 ∧ f.pay = curPayload (castFrame m0 x d)) ∧
        ChangesOnly [.io, .en, .queues, .cyc] [R.ringCnt] d u.dev ∧ u.hst = s.hst) := by
  refine ⟨fun h => actAt_idle _ hd hr calm (frameSend_idle h), fun hon hb hlen hdue hpos => ?_⟩
  have hnoted := frame_frameNoted m0 x d
  have hrg : (frameNoted m0 x d).rg = d.rg := hnoted.1 .rg (by decide)
  have hln : (dropOwnSamples (frameNoted m0 x d).ln (frameNoted m0 x d).rg.pos).queue = (dropOwnSamples d.ln d.rg.pos).queue := by
    obtain ⟨hqueue, -⟩ := hnoted.1 .queues (by decide)
    rw [hrg, dropOwnSamples, dropOwnSamples, hqueue]
  obtain ⟨hseq, hgood⟩ := frameNoted_cu m0 x d
  have hsent := frame_queueSamples (ownFrame (frameNoted m0 x d) 0x3F 0x06 d.io.cu.seqTx (curPayload (castFrame m0 x d))) (frameNoted m0 x d)
  have hio : (queueSamples _ (frameNoted m0 x d)).io = _ := hsent.1 .io (by decide)
  have hframe : ChangesOnly [.io, .en, .queues, .cyc] [R.ringCnt] d (queueSamples _ (frameNoted m0 x d)) := hnoted.mono.trans hsent.mono
  rw [← frameSend_sends hon hb hlen hdue hpos] at hio hframe
  refine ⟨_, actAt_calm (frameSend m0 x) hd hr (hframe.calm calm), by rw [hio, hseq], by rw [hio, hgood], fun hroom => ?_, hframe, rfl⟩
  refine ⟨ownFrame (frameNoted m0 x d) 0x3F 0x06 d.io.cu.seqTx (curPayload (castFrame m0 x d)), ?_, rfl, rfl, congrArg Ring.pos hrg, rfl, rfl⟩
  rw [frameSend_sends hon hb hlen hdue hpos, queue_queueSamples (by rwa [hln]), hln]

/-! ### An event of a stack device leaves nothing for the host (R292) -/

theorem out_setLevel (s i n : Nat) (d : Dev) : (setLevel s i n d).ev.out = d.ev.out := by
  unfold setLevel
  dsimp only
  split
  · rfl
  · split <;> rfl

theorem out_sendEvent_stack {e : EvRec} {d : Dev} (hs : d.head = false) : (sendEvent e d).ev.out = d.ev.out := by
  unfold sendEvent
  rw [if_neg (by simp [hs])]
  split
  · exact congrArg Events.out ((frame_enqueueTurning ..).1 .ev (by decide))
  · rfl

theorem out_postAt_stack {t : Time} {code b10 src lv : Nat} {last record : Bool} {data : List Byte} {d : Dev} (hs : d.head = false) :
    (postAt t code b10 src lv last record data d).ev.out = d.ev.out := by
  have hlog : ∀ kind part pay e, e.head = false → e.ev.out = d.ev.out → ∀ r, (sendEvent r (logRec kind part pay e)).ev.out = d.ev.out :=
    fun kind part pay e he ho r => by rw [out_sendEvent_stack ((frame_logRec ..).head.trans he), logRec_ev, ho]
  unfold postAt
  dsimp only
  split
  · refine hlog _ _ _ _ ?_ ?_ _
    · exact hs
    · rfl
  · split <;> exact out_sendEvent_stack hs

theorem out_occur_stack {s i code : Nat} {data : List Byte} {d : Dev} (hs : d.head = false) : (occur s i code data d).ev.out = d.ev.out := by
  have hout : (countOcc s (setLevel s i (satNat 255 (level d s i + 1)) d)).ev.out = d.ev.out := out_setLevel ..
  have hhead : (countOcc s (setLevel s i (satNat 255 (level d s i + 1)) d)).head = false :=
    ((frame_countOcc ..).head.trans (frame_setLevel ..).head).trans hs
  unfold occur occurAt
  dsimp only
  split <;> split
  · rw [postTurn, out_postAt_stack hhead, hout]
  · rw [postTurn, out_postAt_stack ((frame_postAt ..).head.trans hhead), out_postAt_stack hhead, hout]
  · exact hout
  · rw [out_postAt_stack hhead, hout]

/-! ### A frame arrives (R140) -/

theorem frame_unbufferAny (typ : Nat) (d : Dev) : ChangesOnly [.north, .south] [] d (unbufferAny typ d) := by
  have hqueue : ∀ x : LinkPort, (x.take typ).queue = x.queue := fun x => by
    unfold LinkPort.take
    split <;> rfl
  unfold unbufferAny unbuffer
  split
  · exact (frame_setPort_queue (hqueue _)).mono
  · exact (frame_setPort_queue (hqueue _)).mono

/-- Without a job a change of the engine index ends nothing (R168). -/
theorem idxAbort_jobless {was : Nat} {d : Dev} (hi : d.en.imp = none) (he : d.en.est = none) : idxAbort was d = d := by
  have himp : impAbort 4 d = d := by simp only [impAbort, hi]
  have hest : estAbort 4 d = d := by simp only [estAbort, he]
  unfold idxAbort
  rw [jobsAbort, himp, hest, ite_self]

/-- Frames of a stack device's source that are missing before frame f. -/
def missedBefore (f : CurFrame) (d : Dev) : Nat :=
  match d.io.cu.seqRx with
  | some last => missedFrames last (f.seq % 65536)
  | none => 0

/-- A frame is kept, after as many missed ones. -/
def frameTaken (f : CurFrame) (lost : Nat) (d : Dev) : Dev :=
  keepFrame f (withCur (fun c => { c with
      seqRx := some (f.seq % 65536)
      absent := (((upFrom 1 (min lost 16)).map (fun k => (f.seq % 65536 + 65536 - k) % 65536)) ++ c.absent).take 16 })
    (setReg R.curRxStat (packW [(regFld d R.curRxStat 15 0 + lost, 0), (f.seq % 65536, 16)]) d))

theorem frame_frameTaken (f : CurFrame) (lost : Nat) (d : Dev) : ChangesOnly [.io, .en] [R.curRxStat] d (frameTaken f lost d) :=
  ((frame_setReg ..).mono.trans (frame_withCur ..).mono).trans (frame_keepFrame ..).mono

theorem takeSamples_repeated {f : CurFrame} {d : Dev} (h : d.io.cu.seqRx = some (f.seq % 65536)) : takeSamples f d = d := by
  unfold takeSamples
  exact if_pos h

/-- A value that fits into its field. -/
theorem fitU_of_fits {n : Nat} {z : Int} (h0 : 0 ≤ z) (h : z < 2 ^ n) (d : Dev) : fitU n z d = (z.toNat, d) := by
  unfold fitU
  exact if_pos ⟨h0, h⟩

theorem takeSamples_new {f : CurFrame} {d : Dev} (h : d.io.cu.seqRx ≠ some (f.seq % 65536))
    (hfit : regFld d R.curRxStat 15 0 + missedBefore f d < 65536) : takeSamples f d =
      if missedBefore f d = 0 then frameTaken f (missedBefore f d) d
      else occur 17 0 0x0903 (leBytes 2 (missedBefore f d) ++ leBytes 2 (f.seq % 65536)) (frameTaken f (missedBefore f d) d) := by
  unfold takeSamples
  refine (if_neg h).trans ?_
  extract_lets +onlyGivenNames n w
  have hn : missedBefore f d = n := by
    unfold missedBefore n
    cases d.io.cu.seqRx <;> rfl
  have hfits : fitU 16 ((fld w 15 0 : Int) + n) d = (regFld d R.curRxStat 15 0 + n, d) := by
    rw [hn, regFld] at hfit
    unfold w
    rw [fitU_of_fits (by omega) (by omega), ← Nat.cast_add, Int.toNat_natCast, regFld]
  rw [hfits, hn]
  rfl

/-- A frame of the CUR_SRC position at a stack device without a job. -/
theorem samplesRx_stack {src : Nat} {f : CurFrame} {d : Dev} (hs : d.head = false) (hsrc : src ≤ 62) (hpos : d.rg.pos ≤ 62) (hne : src ≠ d.rg.pos)
    (hcur : regFld d R.curSrc 5 0 = src) : samplesRx src f d = idxAbort (engIdx d) (takeSamples f d) := by
  have hnote : noteSource src f.idx d = d := if_neg (by simp [hs])
  refine (if_pos (by simp [hsrc, hpos, hne])).trans ?_
  simp only [hnote]
  exact if_pos hcur

/-- What a frame of the CUR_SRC position leaves (R140). -/
theorem frame_takeSamples_new {f : CurFrame} {d : Dev} (h : d.io.cu.seqRx ≠ some (f.seq % 65536))
    (hfit : regFld d R.curRxStat 15 0 + missedBefore f d < 65536) :
    ChangesOnly ([.io, .en] ++ evParts) [R.curRxStat, R.ringCnt] d (takeSamples f d) := by
  have htaken := (frame_frameTaken f (missedBefore f d) d).mono (qs := [.io, .en] ++ evParts) (us := [R.curRxStat, R.ringCnt])
  rw [takeSamples_new h hfit]
  exact .ite htaken (htaken.trans (frame_occur ..).mono)

/-- The bucket of missed frames after a frame of the CUR_SRC position. -/
theorem level_takeSamples_new {f : CurFrame} {d : Dev} (h : d.io.cu.seqRx ≠ some (f.seq % 65536))
    (hfit : regFld d R.curRxStat 15 0 + missedBefore f d < 65536) :
    level (takeSamples f d) 17 0 = if missedBefore f d = 0 then level d 17 0 else satNat 255 (level d 17 0 + 1) := by
  have hlevel : level (frameTaken f (missedBefore f d) d) 17 0 = level d 17 0 :=
    level_congr (congrArg Events.lvl ((frame_frameTaken ..).1 .ev (by decide))) 17 0
  rw [takeSamples_new h hfit]
  split
  · exact hlevel
  · rw [level_occur, hlevel]

/-- What else it leaves: CUR_RX_STAT, the frame, and its number. -/
theorem kept_takeSamples_new {f : CurFrame} {d : Dev} (h : d.io.cu.seqRx ≠ some (f.seq % 65536))
    (hfit : regFld d R.curRxStat 15 0 + missedBefore f d < 65536) :
    reg (takeSamples f d) R.curRxStat = packW [(regFld d R.curRxStat 15 0 + missedBefore f d, 0), (f.seq % 65536, 16)] ∧
    (takeSamples f d).io.cu.frames.getLast? = some f ∧ (takeSamples f d).io.cu.seqRx = some (f.seq % 65536) := by
  have hreg : reg (frameTaken f (missedBefore f d) d) R.curRxStat =
      packW [(regFld d R.curRxStat 15 0 + missedBefore f d, 0), (f.seq % 65536, 16)] := by
    rw [frameTaken, (frame_keepFrame ..).2 _ (by simp), (frame_withCur ..).2 _ (by simp), reg_setReg_self]
  have hlast : (frameTaken f (missedBefore f d) d).io.cu.frames.getLast? = some f := by
    rw [frameTaken, cu_keepFrame, lastN, List.drop_append_of_le_length (by rw [List.length_append, List.length_singleton]; omega),
      List.getLast?_concat]
  have hseq : (frameTaken f (missedBefore f d) d).io.cu.seqRx = some (f.seq % 65536) := by rw [frameTaken, cu_keepFrame, withCur_io]
  rw [takeSamples_new h hfit]
  split
  · exact ⟨hreg, hlast, hseq⟩
  · rw [(frame_occur ..).2 _ (by decide), show (occur ..).io = _ from (frame_occur ..).1 .io (by decide)]
    exact ⟨hreg, hlast, hseq⟩

/-- A frame of the CUR_SRC position posts nothing at a stack device. -/
theorem calm_takeSamples_new {f : CurFrame} {d : Dev} (h : d.io.cu.seqRx ≠ some (f.seq % 65536))
    (hfit : regFld d R.curRxStat 15 0 + missedBefore f d < 65536) (hs : d.head = false) (calm : Calm d) : Calm (takeSamples f d) := by
  have hframe := frame_frameTaken f (missedBefore f d) d
  have htaken : Calm (frameTaken f (missedBefore f d) d) := hframe.calm calm
  rw [takeSamples_new h hfit]
  split
  · exact htaken
  · exact ⟨(out_occur_stack (hframe.head.trans hs)).trans htaken.1, by rw [occur_ex]; exact htaken.2⟩

/-- No job begins (R168). -/
theorem jobless_takeSamples_new {f : CurFrame} {d : Dev} (h : d.io.cu.seqRx ≠ some (f.seq % 65536))
    (hfit : regFld d R.curRxStat 15 0 + missedBefore f d < 65536) (hi : d.en.imp = none) (he : d.en.est = none) :
    (takeSamples f d).en.imp = none ∧ (takeSamples f d).en.est = none := by
  have htaken : (frameTaken f (missedBefore f d) d).en.imp = none ∧ (frameTaken f (missedBefore f d) d).en.est = none := by
    simp [frameTaken, keepFrame, keepPack, noteFramed, hi, he]
  rw [takeSamples_new h hfit]
  split
  · exact htaken
  · rwa [show (occur ..).en = _ from (frame_occur ..).1 .en (by decide)]

theorem currentSamplesRx_holds (s : State) (t : Time) (src : Nat) (f : CurFrame) (d d' : Dev) (hd : d = tick t s.dev) (hd' : d' = unbufferAny 0x06 d)
    (hr : d.running = true) (hs : d.head = false) (calm : Calm d) (hsrc : src ≤ 62) (hpos : d.rg.pos ≤ 62) (hne : src ≠ d.rg.pos)
    (hcur : regFld d R.curSrc 5 0 = src) (hi : d.en.imp = none) (he : d.en.est = none) :
    (d.io.cu.seqRx = some (f.seq % 65536) → exec (.currentSamplesRx t src f) s = .next { s with dev := d' }) ∧
    (missedBefore f d + regFld d R.curRxStat 15 0 < 65536 → d.io.cu.seqRx ≠ some (f.seq % 65536) →
      ∃ u, exec (.currentSamplesRx t src f) s = .next u ∧
        reg u.dev R.curRxStat = packW [(regFld d R.curRxStat 15 0 + missedBefore f d, 0), (f.seq % 65536, 16)] ∧
        u.dev.io.cu.frames.getLast? = some f ∧ u.dev.io.cu.seqRx = some (f.seq % 65536) ∧
        level u.dev 17 0 = (if missedBefore f d = 0 then level d 17 0 else satNat 255 (level d 17 0 + 1)) ∧
        ChangesOnly ([.io, .en] ++ evParts) [R.curRxStat, R.ringCnt, R.hostEvtLost] d' u.dev ∧ u.hst = s.hst) := by
  have hun : ChangesOnly [.north, .south] [] d d' := hd' ▸ frame_unbufferAny 0x06 d
  have hio : d'.io = d.io := hun.1 .io (by decide)
  have hen : d'.en = d.en := hun.1 .en (by decide)
  have hrg : d'.rg = d.rg := hun.1 .rg (by decide)
  have hs' : d'.head = false := hun.head.trans hs
  have hreg : regFld d' R.curRxStat 15 0 = regFld d R.curRxStat 15 0 := by rw [regFld, hun.2 _ (by simp), regFld]
  have hmissed : missedBefore f d' = missedBefore f d := by rw [missedBefore, hio, missedBefore]
  have hlevel : level d' 17 0 = level d 17 0 := level_congr (congrArg Events.lvl (hun.1 .ev (by decide))) 17 0
  have hrun : ∀ e, takeSamples f d' = e → e.en.imp = none → e.en.est = none → Calm e →
      exec (.currentSamplesRx t src f) s = .next { s with dev := e } := fun e hte hei hee hcalm => by
    have hrx : samplesRx src f (unbufferAny 0x06 d) = e := by
      rw [← hd', samplesRx_stack hs' hsrc (by rwa [hrg]) (by rwa [hrg]) (by rw [regFld, hun.2 _ (by simp), ← regFld, hcur]), hte,
        idxAbort_jobless hei hee]
    have hact := actAt_calm (s := s) (fun d => samplesRx src f (unbufferAny 0x06 d)) hd hr (by rwa [hrx])
    rw [hrx] at hact
    exact hact
  refine ⟨fun h => ?_, fun hfit h => ?_⟩
  · exact hrun d' (takeSamples_repeated (by rwa [hio])) (by rwa [hen]) (by rwa [hen]) (hun.calm calm)
  · rw [← hio] at h
    rw [← hmissed, ← hreg, Nat.add_comm] at hfit
    obtain ⟨hji, hje⟩ := jobless_takeSamples_new h hfit (by rwa [hen]) (by rwa [hen])
    obtain ⟨hstat, hlast, hseq⟩ := kept_takeSamples_new h hfit
    refine ⟨_, hrun _ rfl hji hje (calm_takeSamples_new h hfit hs' (hun.calm calm)), ?_, hlast, hseq, ?_, (frame_takeSamples_new h hfit).mono, rfl⟩
    · rw [hstat, hreg, hmissed]
    · rw [level_takeSamples_new h hfit, hmissed, hlevel]

/-- Settles O29: the frame is cast as its sender noted it, and a receiver keeps it once, after counting what it missed. -/
theorem currentFramesCast : Obligations.CurrentFramesCast := by
  unfold Obligations.CurrentFramesCast
  refine ⟨currentFrameSend_holds, fun s t src f d d' hd hd' hr hs calm hsrc hpos hne hcur hi he => ?_⟩
  obtain ⟨hsame, hnew⟩ := currentSamplesRx_holds s t src f d d' hd hd' hr hs calm hsrc hpos hne hcur hi he
  refine ⟨hsame, fun lost hlost => ?_⟩
  obtain rfl : lost = missedBefore f d := by
    cases hq : d.io.cu.seqRx <;> simp [hlost, missedBefore, hq]
  exact hnew

end Sys2Proof.Machine
end

section
/-! SUPPORT. Current grid results: the result words and flags, and the charge (file 05). -/

namespace Sys2Proof.Machine

/-! ### A result (R130, R428) -/

theorem ovr_curEval (d : Dev) (t : Time) (chB : Bool) (x : CurSample) : (curEval d t chB x).ovr = true ↔
    curUnstable x.input = true ∨ curSum d chB t x < -0x7FFFFF ∨ 0x7FFFFF < curSum d chB t x ∨
      ∃ p ∈ x.parts, curOver (curCorrect d chB (t.toNat - p.age) p.raw.lo) = true ∨
        curOver (curCorrect d chB (t.toNat - p.age) p.raw.hi) = true := by
  change curOvr d chB t x = true ↔ _
  simp only [curOvr, Bool.or_eq_true, decide_eq_true_eq, List.any_eq_true, or_assoc]

theorem value_curEval {d : Dev} {t : Time} {chB : Bool} {x : CurSample} (h : curStale d.io.cu.since (curW d) t = false) :
    (curEval d t chB x).value = clampInt (-0x7FFFFF) 0x7FFFFF (curSum d chB t x) := by
  simp only [curEval, h, Bool.false_eq_true, if_false, curValue]

/-! ### What results leave of the charge (R131, R136) -/

/-- Parts that a grid instant of the current channel may change. -/
def curParts : List Part := [.io, .ca, .free] ++ latchParts

/-- Registers that its results may change. -/
def resultRegs : List Nat := [R.curResA, R.curResB, R.curStat, R.ringCnt, R.safeCnt]

/-- From device a to device b only results have been written: everything that the charge is reckoned from is as it was. -/
structure ResultsOnly (a b : Dev) : Prop where
  frame : ChangesOnly curParts resultRegs a b
  corrs : b.ca.was = a.ca.was
  rawTo : b.io.cu.rawTo = a.io.cu.rawTo
  qfrac : b.io.cu.qfrac = a.io.cu.qfrac

theorem ResultsOnly.refl (a : Dev) : ResultsOnly a a := ⟨.refl .., rfl, rfl, rfl⟩

theorem ResultsOnly.trans {a b c : Dev} (h : ResultsOnly a b) (k : ResultsOnly b c) : ResultsOnly a c :=
  ⟨h.frame.trans k.frame, k.corrs.trans h.corrs, k.rawTo.trans h.rawTo, k.qfrac.trans h.qfrac⟩

/-- An operation that concerns neither the current channel nor a correction. -/
theorem ChangesOnly.resultsOnly {ps : List Part} {rs : List Nat} {a b : Dev} (h : ChangesOnly ps rs a b) (hp : ps ⊆ curParts := by decide)
    (hr : rs ⊆ resultRegs := by decide) (hio : .io ∉ ps := by decide) (hca : .ca ∉ ps := by decide) : ResultsOnly a b := by
  have hi : b.io = a.io := h.1 .io hio
  have hc : b.ca = a.ca := h.1 .ca hca
  exact ⟨h.mono hp hr, by rw [hc], by rw [hi], by rw [hi]⟩

theorem resultsOnly_withCur {f : Cur → Cur} (hr : ∀ c, (f c).rawTo = c.rawTo) (hq : ∀ c, (f c).qfrac = c.qfrac) (d : Dev) :
    ResultsOnly d (withCur f d) := ⟨(frame_withCur f d).mono, rfl, hr _, hq _⟩

theorem resultsOnly_curFlagged (b : Bool) (d : Dev) : ResultsOnly d (curFlagged b d) := by
  have hframe := frame_curFlagged b d
  have hio : (curFlagged b d).io = d.io := hframe.1 .io (by decide)
  have hwas : (curFlagged b d).ca.was = d.ca.was := by
    unfold curFlagged
    split
    · split
      · exact userBad_was ..
      · rfl
    · rfl
  exact ⟨hframe.mono, hwas, by rw [hio], by rw [hio]⟩

theorem ResultsOnly.curOnAt {a b : Dev} (h : ResultsOnly a b) (T : Nat) : curOnAt b T = curOnAt a T := by
  have hme : b.me = a.me := h.frame.1 .me (by decide)
  simp only [Machine.curOnAt, confAt, hme, h.frame.regBit (off := R.curCtrl) 0]

theorem ResultsOnly.curCorrect {a b : Dev} (h : ResultsOnly a b) (T : Nat) (x : Int) : curCorrect b false T x = curCorrect a false T x := by
  have hcorr : ∀ r ∉ resultRegs, corrAt b T r = corrAt a T r := fun r hr => by simp only [corrAt, h.corrs, h.frame.2 r hr]
  simp only [Machine.curCorrect, curLayer, hcorr R.calIsaOff (by decide), hcorr R.calIsaGain (by decide), Bool.false_eq_true, if_false]

theorem ResultsOnly.charged {a b : Dev} (h : ResultsOnly a b) (T : Nat) (raw : List CurRaw) :
    charged b ((instantSamples b T raw).map (fun x => Machine.curCorrect b false x.1 x.2.a)) =
      charged a ((instantSamples a T raw).map (fun x => Machine.curCorrect a false x.1 x.2.a)) := by
  simp only [Machine.charged, instantSamples, qacc, h.frame.reg64 (lo := R.curQaccLo) (hi := R.curQaccHi), h.qfrac, h.rawTo, h.curOnAt, h.curCorrect]

/-! ### One channel's result (R132) -/

/-- The result register of a channel. -/
def resReg (chB : Bool) : Nat := if chB then R.curResB else R.curResA

/-- The bit of a channel's OVR in CUR_STAT. -/
def ovrBit (chB : Bool) : Nat := if chB then 2 else 1

/-- A channel's result written, before its OVR may count. -/
def resultWritten (chB : Bool) (r : CurResult) (d : Dev) : Dev :=
  curFlagged (r.ovr || r.supply) (setRegBit R.curStat (ovrBit chB) r.ovr (withCur (fun c =>
    if chB then { c with ovrB := r.ovr, goodB := if r.stale then c.goodB else r.value }
    else { c with ovrA := r.ovr, goodA := if r.stale then c.goodA else r.value }) (setReg (resReg chB) r.word d)))

theorem writeCur_cases (chB : Bool) (r : CurResult) (d : Dev) :
    writeCur chB r d = resultWritten chB r d ∨ writeCur chB r d = occur 16 (b2n chB) 0x0901 [] (resultWritten chB r d) := by
  by_cases h : (r.ovr && !(if chB then d.io.cu.ovrB else d.io.cu.ovrA)) = true
  · exact .inr (if_pos h)
  · exact .inl (if_neg h)

/-- After a result is written only an occurrence may follow. -/
theorem writeCur_after (chB : Bool) (r : CurResult) (d : Dev) : ChangesOnly evParts [R.ringCnt] (resultWritten chB r d) (writeCur chB r d) := by
  rcases writeCur_cases chB r d with h | h <;> rw [h]
  · exact .refl ..
  · exact frame_occur ..

theorem resultsOnly_writeCur (chB : Bool) (r : CurResult) (d : Dev) : ResultsOnly d (writeCur chB r d) := by
  have hword : ResultsOnly d (setReg (resReg chB) r.word d) := (frame_setReg ..).resultsOnly (by decide) (by cases chB <;> decide)
  have hnoted : ∀ e, ResultsOnly e (withCur (fun c =>
      if chB then { c with ovrB := r.ovr, goodB := if r.stale then c.goodB else r.value }
      else { c with ovrA := r.ovr, goodA := if r.stale then c.goodA else r.value }) e) :=
    resultsOnly_withCur (fun c => by cases chB <;> rfl) (fun c => by cases chB <;> rfl)
  exact (((hword.trans (hnoted _)).trans (frame_setRegBit ..).resultsOnly).trans (resultsOnly_curFlagged ..)).trans (writeCur_after ..).resultsOnly

theorem reg_writeCur (chB ch : Bool) (r : CurResult) (d : Dev) :
    reg (writeCur chB r d) (resReg ch) = if ch = chB then r.word else reg d (resReg ch) := by
  rw [(writeCur_after ..).2 _ (by cases ch <;> decide), resultWritten, (frame_curFlagged ..).2 _ (by simp),
    (frame_setRegBit ..).2 _ (by cases ch <;> decide), (frame_withCur ..).2 _ (by simp), reg_setReg]
  cases ch <;> cases chB <;> rfl

theorem regBit_writeCur (chB : Bool) (r : CurResult) (d : Dev) (j : Nat) :
    regBit (writeCur chB r d) R.curStat j = if j = ovrBit chB then r.ovr else regBit d R.curStat j := by
  rw [(writeCur_after ..).regBit j, resultWritten, (frame_curFlagged ..).regBit j, regBit_setRegBit _ _ _ _ _ (by cases chB <;> decide),
    (frame_withCur ..).regBit j, (frame_setReg ..).regBit j (by cases chB <;> decide)]

/-! ### The comparison of both channels (R134) -/

/-- From device a to device b only the disagreement of the channels has been marked, in bits 3 and 4 of CUR_STAT and by its run. -/
structure DisMarked (a b : Dev) : Prop where
  results : ResultsOnly a b
  frame : ChangesOnly [.io] [R.curStat] a b
  bits : ∀ j, j ≠ 3 → j ≠ 4 → regBit b R.curStat j = regBit a R.curStat j

theorem DisMarked.refl (a : Dev) : DisMarked a a := ⟨.refl a, .refl .., fun _ _ _ => rfl⟩

theorem DisMarked.trans {a b c : Dev} (h : DisMarked a b) (k : DisMarked b c) : DisMarked a c :=
  ⟨h.results.trans k.results, h.frame.trans k.frame, fun j h3 h4 => (k.bits j h3 h4).trans (h.bits j h3 h4)⟩

theorem disMarked_setRegBit {i : Nat} (hi : i = 3 ∨ i = 4) (x : Bool) (d : Dev) : DisMarked d (setRegBit R.curStat i x d) := by
  refine ⟨(frame_setRegBit ..).resultsOnly, (frame_setRegBit ..).mono, fun j h3 h4 => ?_⟩
  rw [regBit_setRegBit _ _ _ _ _ (by omega), if_neg (by omega)]

theorem disMarked_run (r : Option Time) (d : Dev) : DisMarked d (withCur (fun c => { c with disRun := r }) d) :=
  ⟨resultsOnly_withCur (f := fun c => { c with disRun := r }) (fun _ => rfl) (fun _ => rfl) d, (frame_withCur ..).mono, fun j _ _ => (frame_withCur ..).regBit j⟩

/-- A comparison marks, and may then bring the fault. -/
theorem curCompare_cases (T : Time) (a b : CurResult) (d : Dev) : ∃ e, DisMarked d e ∧ ChangesOnly latchParts latchRegs e (curCompare T a b d) := by
  unfold curCompare
  split
  · exact ⟨d, .refl d, .refl ..⟩
  · dsimp only
    have hmark := disMarked_setRegBit (.inl rfl) (curBeyond d a.value b.value) d
    have hrun := fun r => hmark.trans (disMarked_run r _)
    split
    · split
      · exact ⟨_, (hrun _).trans (disMarked_setRegBit (.inr rfl) ..), frame_occurFault ..⟩
      · exact ⟨_, hrun _, .refl ..⟩
    · exact ⟨_, (hrun _).trans (disMarked_setRegBit (.inr rfl) ..), .refl ..⟩

theorem resultsOnly_curCompare (T : Time) (a b : CurResult) (d : Dev) : ResultsOnly d (curCompare T a b d) := by
  obtain ⟨e, he, h⟩ := curCompare_cases T a b d
  exact he.results.trans h.resultsOnly

theorem regBit_curCompare {T : Time} {a b : CurResult} {d : Dev} {j : Nat} (h3 : j ≠ 3) (h4 : j ≠ 4) :
    regBit (curCompare T a b d) R.curStat j = regBit d R.curStat j := by
  obtain ⟨e, he, h⟩ := curCompare_cases T a b d
  rw [h.regBit j, he.bits j h3 h4]

theorem reg_curCompare (T : Time) (a b : CurResult) (ch : Bool) (d : Dev) : reg (curCompare T a b d) (resReg ch) = reg d (resReg ch) := by
  obtain ⟨e, he, h⟩ := curCompare_cases T a b d
  rw [h.2 _ (by cases ch <;> decide), he.frame.2 _ (by cases ch <;> decide)]

/-! ### A grid instant (R130 to R134) -/

/-- The results of an instant, reckoned as device o. -/
def resultsWritten (T : Time) (o : Dev) (a b : CurSample) (d : Dev) : Dev :=
  curCompare T (curEval o T false a) (curEval o T true b) (setRegBit R.curStat 0 ((curEval o T false a).stale || (curEval o T true b).stale)
    (writeCur true (curEval o T true b) (writeCur false (curEval o T false a) d)))

theorem resultsOnly_resultsWritten (T : Time) (o : Dev) (a b : CurSample) (d : Dev) : ResultsOnly d (resultsWritten T o a b d) :=
  (((resultsOnly_writeCur ..).trans (resultsOnly_writeCur ..)).trans (frame_setRegBit ..).resultsOnly).trans (resultsOnly_curCompare ..)

theorem reg_resultsWritten (T : Time) (o : Dev) (a b : CurSample) (d : Dev) :
    reg (resultsWritten T o a b d) R.curResA = (curEval o T false a).word ∧ reg (resultsWritten T o a b d) R.curResB = (curEval o T true b).word := by
  have hres : ∀ ch, reg (resultsWritten T o a b d) (resReg ch) =
      reg (writeCur true (curEval o T true b) (writeCur false (curEval o T false a) d)) (resReg ch) := fun ch => by
    rw [resultsWritten, reg_curCompare, (frame_setRegBit ..).2 _ (by cases ch <;> decide)]
  refine ⟨(hres false).trans ?_, (hres true).trans ?_⟩
  · rw [reg_writeCur, if_neg (by decide), reg_writeCur, if_pos rfl]
  · rw [reg_writeCur, if_pos rfl]

theorem regBit_resultsWritten (T : Time) (o : Dev) (a b : CurSample) (d : Dev) :
    regBit (resultsWritten T o a b d) R.curStat 0 = curStale o.io.cu.since (curW o) T ∧
    regBit (resultsWritten T o a b d) R.curStat 1 = curOvr o false T a ∧ regBit (resultsWritten T o a b d) R.curStat 2 = curOvr o true T b ∧
    regBit (resultsWritten T o a b d) R.curStat 7 = regBit d R.curStat 7 := by
  refine ⟨?_, ?_, ?_, ?_⟩ <;>
    rw [resultsWritten, regBit_curCompare (by decide) (by decide), regBit_setRegBit _ _ _ _ _ (by decide), regBit_writeCur, regBit_writeCur] <;>
    simp [ovrBit, curEval]

/-! ### The samples of an instant reach the charge (R136) -/

/-- The corrected samples that an instant brings device d. -/
def broughtSamples (d : Dev) (T : Nat) (raw : List CurRaw) : List Int := (instantSamples d T raw).map (fun x => curCorrect d false x.1 x.2.a)

/-- From device a to device b the samples of time T have reached the charge, its fraction, and QSAT, and count as brought. -/
structure ChargeAdded (T : Time) (raw : List CurRaw) (a b : Dev) : Prop where
  fraction : b.io.cu.qfrac = ((charged a (broughtSamples a T.toNat raw)).1 % qUnit).toNat
  charge : reg64 b R.curQaccLo R.curQaccHi = unsigned 64 ((charged a (broughtSamples a T.toNat raw)).1 / qUnit)
  saturated : regBit b R.curStat 7 = ((charged a (broughtSamples a T.toNat raw)).2 || regBit a R.curStat 7)
  brought : b.io.cu.rawTo.toNat = max a.io.cu.rawTo.toNat T.toNat

theorem cu_countOvrMs (l : List Nat) (d : Dev) :
    (countOvrMs l d).io.cu.qfrac = d.io.cu.qfrac ∧ (countOvrMs l d).io.cu.rawTo = d.io.cu.rawTo := by
  have h : ((countOvrMs l d).io.cu.qfrac, (countOvrMs l d).io.cu.rawTo) = (d.io.cu.qfrac, d.io.cu.rawTo) := by
    refine each_kept (view := fun e : Dev => (e.io.cu.qfrac, e.io.cu.rawTo)) (fun m _ e => ?_) d
    split
    · rfl
    · have hio : (fitU 32 ((reg e R.curOvrMs).toNat + 1) e).2.io = e.io := (frame_fitU ..).1 .io (by decide)
      generalize fitU 32 ((reg e R.curOvrMs).toNat + 1) e = x at *
      obtain ⟨v, f⟩ := x
      dsimp only at hio ⊢
      rw [setReg_io, withCur_io, hio]
  exact ⟨congrArg Prod.fst h, congrArg Prod.snd h⟩

theorem regBit_accumulate (l : List Int) (d : Dev) (j : Nat) : regBit (accumulate l d) R.curStat j =
    if j = 7 then (charged d l).2 || regBit d R.curStat 7 else regBit d R.curStat j := by
  have hset : ∀ f v, ChangesOnly [.io] [R.curQaccLo, R.curQaccHi] d (setReg64 R.curQaccLo R.curQaccHi v (withCur f d)) := fun f v =>
    ((frame_withCur f d).mono.trans (frame_setReg ..).mono).trans (frame_setReg ..).mono
  unfold accumulate
  dsimp only
  change regBit (if (charged d l).2 = true then _ else _) _ _ = _
  cases hsat : (charged d l).2
  · rw [if_neg (by decide), (hset ..).regBit j]
    split <;> simp_all
  · rw [if_pos rfl, regBit_setRegBit _ _ _ _ _ (by decide), (hset ..).regBit j]
    split <;> rfl

/-- What accumulation leaves of the current channel: the fraction. -/
theorem cu_accumulate (l : List Int) (d : Dev) : (accumulate l d).io.cu = { d.io.cu with qfrac := ((charged d l).1 % qUnit).toNat } := by
  unfold accumulate
  dsimp only
  split <;> rfl

/-- The samples up to T count as brought. -/
def samplesNoted (T : Nat) (d : Dev) : Dev :=
  withCur (fun c => { c with rawTo := if c.rawTo.toNat < T then BitVec.ofNat 64 T else c.rawTo }) d

theorem rawTo_samplesNoted (T : Time) (d : Dev) : (samplesNoted T.toNat d).io.cu.rawTo.toNat = max d.io.cu.rawTo.toNat T.toNat := by
  simp only [samplesNoted, withCur_io]
  split
  · rw [BitVec.ofNat_toNat, BitVec.setWidth_eq]
    omega
  · omega

theorem cu_curSamples (T : Nat) (raw : List CurRaw) (d : Dev) :
    (curSamples T raw d).io.cu.qfrac = ((charged d (broughtSamples d T raw)).1 % qUnit).toNat ∧
    (curSamples T raw d).io.cu.rawTo = (samplesNoted T d).io.cu.rawTo := by
  have hafter : ∀ l x ms e, (userSamples l (sumSamples x (countOvrMs ms e))).io.cu.qfrac = e.io.cu.qfrac ∧
      (userSamples l (sumSamples x (countOvrMs ms e))).io.cu.rawTo = e.io.cu.rawTo := fun l x ms e => by
    rw [show (userSamples ..).io = _ from (frame_userSamples ..).1 .io (by decide)]
    exact cu_countOvrMs ms e
  have hcharged : ∀ b l, charged (curFlagged b (samplesNoted T d)) l = charged d l := fun b l => by
    have hframe : ChangesOnly [.io, .ca] [] d (curFlagged b (samplesNoted T d)) :=
      (frame_withCur ..).mono.trans (frame_curFlagged ..).mono
    have hio : (curFlagged b (samplesNoted T d)).io = (samplesNoted T d).io := (frame_curFlagged ..).1 .io (by decide)
    rw [charged, qacc, hframe.reg64, hio, charged, qacc]
    rfl
  have hcu : ∀ b l, (accumulate l (curFlagged b (samplesNoted T d))).io.cu =
      { (samplesNoted T d).io.cu with qfrac := ((charged d l).1 % qUnit).toNat } := fun b l => by
    have hio : (curFlagged b (samplesNoted T d)).io = (samplesNoted T d).io := (frame_curFlagged ..).1 .io (by decide)
    rw [cu_accumulate, hcharged, hio]
  obtain ⟨hq, hr⟩ := hafter _ _ _ (accumulate (broughtSamples d T raw) (curFlagged _ (samplesNoted T d)))
  rw [hcu] at hq hr
  exact ⟨hq, hr⟩

theorem chargeAdded_curSamples (T : Time) (raw : List CurRaw) (d : Dev) : ChargeAdded T raw d (curSamples T.toNat raw d) := by
  obtain ⟨hq, hr⟩ := cu_curSamples T.toNat raw d
  refine ⟨hq, reg64_curSamples .., ?_, by rw [hr, rawTo_samplesNoted]⟩
  obtain ⟨e, he, heq, h⟩ := curSamples_cases T.toNat raw d
  rw [h.regBit 7, regBit_accumulate, if_pos rfl, charged, qacc, he.reg64, heq, he.regBit 7, ← qacc]
  rfl

/-- The samples leave every other bit of CUR_STAT. -/
theorem regBit_curSamples {T : Nat} {raw : List CurRaw} {d : Dev} {j : Nat} (hj : j ≠ 7) :
    regBit (curSamples T raw d) R.curStat j = regBit d R.curStat j := by
  obtain ⟨e, he, -, h⟩ := curSamples_cases T raw d
  rw [h.regBit j, regBit_accumulate, if_neg hj, he.regBit j]

/-- Results written before them change nothing of the charge. -/
theorem ChargeAdded.after {T : Time} {raw : List CurRaw} {a b c : Dev} (h : ChargeAdded T raw b c) (k : ResultsOnly a b)
    (h7 : regBit b R.curStat 7 = regBit a R.curStat 7) : ChargeAdded T raw a c := by
  obtain ⟨hf, hc, hs, hb⟩ := h
  have hcharged : charged b (broughtSamples b T.toNat raw) = charged a (broughtSamples a T.toNat raw) := k.charged ..
  rw [hcharged] at hf hc hs
  exact ⟨hf, hc, by rw [hs, h7], by rw [hb, k.rawTo]⟩

theorem ChargeAdded.posted {T : Time} {raw : List CurRaw} {a b c : Dev} (h : ChargeAdded T raw a b) (k : PostsOnly b c) : ChargeAdded T raw a c := by
  have hio : c.io = b.io := k.frame.1 .io (by decide)
  exact ⟨by rw [hio, h.fraction], by rw [k.frame.reg64, h.charge], by rw [k.frame.regBit 7, h.saturated], by rw [hio, h.brought]⟩

/-! ### The statement -/

/-- The channel is on, and T is an instant of its grid. -/
def atGrid (T : Time) (d : Dev) : Bool := curOn d && curOn (asOf T d) && onGrid (curP2 (regFld (asOf T d) R.curCtrl 6 4)) T

theorem currentGrid_late {T : Time} {a b : CurSample} {raw : List CurRaw} {d : Dev} (h : usT 20 < since T d.now) :
    currentGrid T a b raw d = d := if_neg (by simp [fresh, h])

theorem currentGrid_on {T : Time} {a b : CurSample} {raw : List CurRaw} {d : Dev} (h : since T d.now ≤ usT 20) (hon : atGrid T d = true) :
    currentGrid T a b raw d = curSamples T.toNat raw (resultsWritten T (asOf T d) a b d) :=
  (if_pos (by simp [fresh, h])).trans (congrArg (curSamples T.toNat raw) (if_pos hon))

theorem currentGrid_off {T : Time} {a b : CurSample} {raw : List CurRaw} {d : Dev} (h : since T d.now ≤ usT 20) (hoff : atGrid T d = false) :
    currentGrid T a b raw d = curSamples T.toNat raw d :=
  (if_pos (by simp [fresh, h])).trans (congrArg (curSamples T.toNat raw) (if_neg (Bool.eq_false_iff.1 hoff)))

/-- What the statement lets a grid instant change. -/
theorem frame_curInstant (T : Time) (raw : List CurRaw) {d e : Dev} (h : ResultsOnly d e) :
    ChangesOnly curParts (resultRegs ++ sampleRegs) d (curSamples T.toNat raw e) :=
  h.frame.mono.trans (frame_curSamples ..).mono

/-- An instant of the grid on time: both results, and the samples. -/
theorem currentGrid_results {s : State} {t : Time} {a b : CurSample} {raw : List CurRaw} {d : Dev} (hd : d = tick t s.dev) (hr : d.running = true)
    (calm : Calm d) (h : since t d.now ≤ usT 20) (hon : atGrid t d = true) : ∃ u, exec (.currentGridResult t a b raw) s = .next u ∧
      (reg u.dev R.curResA = (curEval (asOf t d) t false a).word ∧ reg u.dev R.curResB = (curEval (asOf t d) t true b).word ∧
        regBit u.dev R.curStat 0 = curStale (asOf t d).io.cu.since (curW (asOf t d)) t ∧
        regBit u.dev R.curStat 1 = curOvr (asOf t d) false t a ∧ regBit u.dev R.curStat 2 = curOvr (asOf t d) true t b) ∧
      ChargeAdded t raw d u.dev ∧ ChangesOnly curParts (resultRegs ++ sampleRegs ++ evRegs) d u.dev ∧ HostEvents s.hst u.hst := by
  have hf := currentGrid_on (a := a) (b := b) (raw := raw) h hon
  have hwritten := resultsOnly_resultsWritten t (asOf t d) a b d
  have hframe : ChangesOnly curParts (resultRegs ++ sampleRegs) d (currentGrid t a b raw d) := hf ▸ frame_curInstant t raw hwritten
  have hex : (currentGrid t a b raw d).ex = d.ex := hframe.1 .ex (by decide)
  obtain ⟨u, hu, hp, hev⟩ := actAt_posted (currentGrid t a b raw) hd hr (by rw [hex]; exact calm.2)
  refine ⟨u, hu, ?_, ?_, hframe.mono.trans hp.frame.mono, hev⟩
  · obtain ⟨ha, hb⟩ := reg_resultsWritten t (asOf t d) a b d
    obtain ⟨h0, h1, h2, -⟩ := regBit_resultsWritten t (asOf t d) a b d
    have hreg : ∀ r ∉ evRegs ++ sampleRegs, reg u.dev r = reg (resultsWritten t (asOf t d) a b d) r := fun r hmem => by
      rw [List.mem_append, not_or] at hmem
      rw [hp.frame.2 r hmem.1, hf, (frame_curSamples ..).2 r hmem.2]
    have hbit : ∀ j, j ≠ 7 → regBit u.dev R.curStat j = regBit (resultsWritten t (asOf t d) a b d) R.curStat j := fun j hj => by
      rw [hp.frame.regBit j, hf, regBit_curSamples hj]
    exact ⟨(hreg _ (by decide)).trans ha, (hreg _ (by decide)).trans hb, (hbit 0 (by decide)).trans h0, (hbit 1 (by decide)).trans h1,
      (hbit 2 (by decide)).trans h2⟩
  · have hcharge := (chargeAdded_curSamples t raw (resultsWritten t (asOf t d) a b d)).after hwritten (regBit_resultsWritten ..).2.2.2
    exact (hf ▸ hcharge).posted hp

/-- Another instant on time, or the channel off: the samples alone. -/
theorem currentGrid_samples {s : State} {t : Time} {a b : CurSample} {raw : List CurRaw} {d : Dev} (hd : d = tick t s.dev) (hr : d.running = true)
    (calm : Calm d) (h : since t d.now ≤ usT 20) (hoff : atGrid t d = false) :
    exec (.currentGridResult t a b raw) s = .next { s with dev := curSamples t.toNat raw d } := by
  have hf := currentGrid_off (a := a) (b := b) (raw := raw) h hoff
  rw [← hf]
  exact actAt_calm (currentGrid t a b raw) hd hr (hf ▸ (frame_curSamples t.toNat raw d).calm calm)

/-- Settles O27: a result is written at an instant of the grid only, and the samples reach the charge in both cases, since what is written before
them changes nothing that the charge is reckoned from. -/
theorem currentGridAccumulates : Obligations.CurrentGridAccumulates := by
  unfold Obligations.CurrentGridAccumulates
  refine ⟨fun d chB t x => ⟨ovr_curEval d t chB x, value_curEval⟩, ?_⟩
  intro s t a b raw d o hd ho hr calm
  subst ho
  refine ⟨fun late => actAt_idle _ hd hr calm (currentGrid_late late), fun h => ?_⟩
  cases hgrid : atGrid t d with
  | true =>
    obtain ⟨u, hu, hres, hcharge, hframe, hev⟩ := currentGrid_results (a := a) (b := b) (raw := raw) hd hr calm h hgrid
    obtain ⟨hfraction, hsum, hsat, hbrought⟩ := hcharge
    refine ⟨u, hu, fun _ _ _ => hres, fun hnot => ?_, ⟨hfraction, hsum, hsat, hbrought⟩, hframe.mono, hev⟩
    simp only [atGrid, Bool.and_eq_true] at hgrid
    simp [hgrid] at hnot
  | false =>
    have hframe := frame_curSamples t.toNat raw d
    obtain ⟨hfraction, hsum, hsat, hbrought⟩ := chargeAdded_curSamples t raw d
    refine ⟨_, currentGrid_samples hd hr calm h hgrid, fun h1 h2 h3 => ?_, fun _ => ?_, ⟨hfraction, hsum, hsat, hbrought⟩, hframe.mono, .refl _⟩
    · simp [atGrid, h1, h2, h3] at hgrid
    · exact ⟨hframe.2 _ (by decide), hframe.2 _ (by decide), fun j hj => regBit_curSamples (by omega), hframe.1 .sf (by decide),
        hframe.1 .ev (by decide), rfl⟩

end Sys2Proof.Machine
end

section
/-! SUPPORT. Auxiliary scans: the readings of a channel, the die sensors, and bit 2 (file 05). -/

namespace Sys2Proof.Machine

/-! ### Fields of a word, and values that fit (R142, R147) -/

theorem fld_low_packW {a : Nat} (b : Nat) (h : a < 65536) : fld (packW [(a, 0), (b, 16)]) 15 0 = a := by
  simp only [fld, packW, pack, BitVec.toNat_ofNat, Nat.shiftRight_zero]
  omega

theorem fld_high_packW {a b : Nat} (ha : a < 65536) (hb : b < 65536) : fld (packW [(a, 0), (b, 16)]) 31 16 = b := by
  simp only [fld, packW, pack, BitVec.toNat_ofNat, Nat.shiftRight_eq_div_pow]
  omega

theorem signed_unsigned16 {z : Int} (hlo : -32768 ≤ z) (hhi : z < 32768) : signed 16 (unsigned 16 z) = z := by
  unfold signed unsigned
  dsimp only
  split <;> simp only [Int.ofNat_eq_natCast] at * <;> omega

theorem fitS16_of_fits {z : Int} (hlo : -32768 ≤ z) (hhi : z < 32768) (d : Dev) : fitS 16 z d = (unsigned 16 z, d) := by
  have hfits : -(2 ^ (16 - 1) : Int) ≤ z ∧ z < (2 ^ (16 - 1) : Int) := by norm_num; exact ⟨hlo, hhi⟩
  rw [fitS, if_pos hfits]

theorem fitS_lt (n : Nat) (z : Int) (d : Dev) : (fitS n z d).1 < 2 ^ n := by
  unfold fitS
  split
  · exact unsigned_lt n z
  · exact Nat.mod_lt _ (Nat.two_pow_pos n)

theorem frame_fitS (n : Nat) (z : Int) (d : Dev) : ChangesOnly [.free] [] d (fitS n z d).2 := by
  unfold fitS
  split
  · exact .refl ..
  · exact frame_freeWord d

theorem meanCode_lt (l : List Nat) : meanCode l < 65536 := Nat.mod_lt _ (by decide)

/-! ### What an operation on one channel leaves of another -/

/-- Parts that a scan may change. -/
def scanParts : List Part := [.io, .en, .free] ++ latchParts

/-- Registers that a scan may change. -/
def scanRegs : List Nat := [R.auxStat, R.auxTdie, R.ringCnt, R.safeCnt, R.hostEvtLost] ++ (List.range 8).map (fun k => R.auxRes + 4 * k)

/-- The cause of channel k stands latched, with both outputs off. -/
def AuxLatched (k : Nat) (d : Dev) : Prop := (2, k) ∈ d.sf.causes ∧ d.outputsOff = true

/-- From device a to device b nothing of channel k has changed: its bits, its result, its counts and its cause. -/
structure Beside (k : Nat) (a b : Dev) : Prop where
  frame : ChangesOnly scanParts scanRegs a b
  bits : ∀ j, j = k ∨ j = 8 + k ∨ j = 16 + k → regBit b R.auxStat j = regBit a R.auxStat j
  result : reg b (R.auxRes + 4 * k) = reg a (R.auxRes + 4 * k)
  counts : auxChan b k = auxChan a k
  present : (2, k) ∈ b.sf.present ↔ (2, k) ∈ a.sf.present
  latched : AuxLatched k a → AuxLatched k b

theorem Beside.refl (k : Nat) (a : Dev) : Beside k a a := ⟨.refl .., fun _ _ => rfl, rfl, rfl, .rfl, id⟩

theorem Beside.trans {k : Nat} {a b c : Dev} (h : Beside k a b) (g : Beside k b c) : Beside k a c :=
  ⟨h.frame.trans g.frame, fun j hj => (g.bits j hj).trans (h.bits j hj), g.result.trans h.result, g.counts.trans h.counts,
    g.present.trans h.present, g.latched ∘ h.latched⟩

/-- Registers of a scan that belong to no channel. -/
def sharedRegs : List Nat := [R.auxTdie, R.ringCnt, R.safeCnt, R.hostEvtLost]

/-- The result of a channel is none of them. -/
theorem auxRes_not_mem_sharedRegs {k : Nat} (hk : k < 8) : R.auxRes + 4 * k ∉ sharedRegs := by
  simp only [sharedRegs, List.mem_cons, List.not_mem_nil, or_false, not_or]
  unfold R.auxRes R.auxTdie R.ringCnt R.safeCnt R.hostEvtLost
  omega

/-- Nor one that the limits change. -/
theorem auxRes_not_mem_limitRegs {k : Nat} (hk : k < 8) : R.auxRes + 4 * k ∉ [R.auxStat, R.ringCnt, R.safeCnt] := by
  simp only [List.mem_cons, List.not_mem_nil, or_false, not_or]
  unfold R.auxRes R.auxStat R.ringCnt R.safeCnt
  omega

theorem auxRes_ne_auxStat {k : Nat} (hk : k < 8) : R.auxRes + 4 * k ≠ R.auxStat := fun h =>
  auxRes_not_mem_limitRegs hk (h ▸ List.mem_cons_self)

theorem auxRes_mem_scanRegs {k : Nat} (hk : k < 8) : R.auxRes + 4 * k ∈ scanRegs :=
  List.mem_append_right _ (List.mem_map.2 ⟨k, List.mem_range.2 hk, rfl⟩)

/-- An operation that concerns neither the channels nor a cause. -/
theorem ChangesOnly.beside {ps : List Part} {rs : List Nat} {a b : Dev} {k : Nat} (h : ChangesOnly ps rs a b) (hk : k < 8)
    (hp : ps ⊆ scanParts := by decide) (hr : rs ⊆ sharedRegs := by decide) (hio : .io ∉ ps := by decide) (hsf : .sf ∉ ps := by decide) :
    Beside k a b := by
  have hi : b.io = a.io := h.1 .io hio
  have hs : b.sf = a.sf := h.1 .sf hsf
  refine ⟨h.mono hp (List.Subset.trans hr (by decide)), fun j _ => h.regBit j (fun hm => absurd (hr hm) (by decide)),
    h.2 _ (fun hm => auxRes_not_mem_sharedRegs hk (hr hm)), by rw [auxChan, hi, auxChan], by rw [hs], ?_⟩
  simp only [AuxLatched, Dev.outputsOff, hs, imp_self]

/-- A write of the inputs' state that leaves the channel's counts. -/
theorem beside_io {k : Nat} {m : Inputs} {d : Dev} (h : kget AuxChan.init m.aux k = auxChan d k) : Beside k d { d with io := m } :=
  ⟨(frame_io m d).mono, fun _ _ => rfl, rfl, h, .rfl, id⟩

theorem beside_setRegBit {k i : Nat} (hk : k < 8) (hi : i < 32) (h : i ≠ k ∧ i ≠ 8 + k ∧ i ≠ 16 + k) (b : Bool) (d : Dev) :
    Beside k d (setRegBit R.auxStat i b d) := by
  refine ⟨(frame_setRegBit ..).mono, fun j hj => ?_, reg_setReg_ne _ _ (auxRes_ne_auxStat hk), rfl, .rfl, id⟩
  rw [regBit_setRegBit _ _ _ _ _ hi, if_neg (by omega)]

theorem beside_setResult {k j : Nat} (hj : j < 8) (h : j ≠ k) (w : Word) (d : Dev) : Beside k d (setReg (R.auxRes + 4 * j) w d) := by
  refine ⟨(frame_setReg ..).mono (by simp) (by simpa using auxRes_mem_scanRegs hj), fun i _ => ?_, reg_setReg_ne _ _ (by omega), rfl, .rfl, id⟩
  exact (frame_setReg ..).regBit i (by simpa using (auxRes_ne_auxStat hj).symm)

theorem beside_counts {k j : Nat} (h : j ≠ k) (c : AuxChan) (d : Dev) :
    Beside k d { d with io := { d.io with aux := kset AuxChan.init d.io.aux j c } } := beside_io (mget_mset_ne _ _ _ h.symm)

theorem beside_gone {k j : Nat} (h : j ≠ k) (d : Dev) : Beside k d (gone 2 j d) := by
  refine ⟨(frame_gone ..).mono, fun _ _ => rfl, rfl, rfl, ?_, id⟩
  simp [gone, h.symm]

/-- A new latch of an auxiliary input stands among the causes, with both outputs off. -/
theorem latch_aux_sf {k : Nat} {d : Dev} (h : (2, k) ∉ d.sf.present) : AuxLatched k (latch 2 k d) := by
  have hsf := latch_sf h
  refine ⟨?_, ?_⟩
  · rw [hsf]
    simp [Safe.dropped, Safe.latched]
  · rw [Dev.outputsOff, hsf]
    simp [Safe.dropped, Safe.latched, latchOff, OutState.off]

theorem beside_latch {k j : Nat} (hk : k < 8) (h : j ≠ k) (d : Dev) : Beside k d (latch 2 j d) := by
  by_cases hj : (2, j) ∈ d.sf.present
  · rw [latch_present hj]
    exact .refl ..
  · have hframe := frame_latch 2 j d
    have hio : (latch 2 j d).io = d.io := hframe.1 .io (by decide)
    have hsf := latch_sf hj
    have hshared : latchRegs ⊆ sharedRegs := by decide
    refine ⟨hframe.mono, fun i _ => hframe.regBit i, hframe.2 _ fun hm => auxRes_not_mem_sharedRegs hk (hshared hm), ?_, ?_, ?_⟩
    · rw [auxChan, hio, auxChan]
    · rw [hsf]
      simp [Safe.dropped, Safe.latched, h.symm]
    · rintro ⟨hc, -⟩
      refine ⟨?_, (latch_aux_sf hj).2⟩
      rw [hsf]
      simp [Safe.dropped, Safe.latched, h.symm, hc]

/-! ### The operations of a channel -/

theorem frame_auxSummary (k : Nat) (v : Int) (d : Dev) : ChangesOnly [.hist] [] d (auxSummary k v d) := by
  refine ⟨fun q hq => ?_, fun _ _ => rfl⟩
  cases q <;> simp_all [Part.same, auxSummary, Mem.still]

theorem frame_tempOf (raw : Nat) (d : Dev) : ChangesOnly [.free] [] d (tempOf raw d).2 := by
  unfold tempOf
  split
  · exact frame_fitS ..
  · exact frame_fitS ..

theorem frame_auxOpenShort (k : Nat) (o s : Bool) (d : Dev) : ChangesOnly evParts [R.auxStat, R.ringCnt] d (auxOpenShort k o s d) := by
  have hbits : ChangesOnly evParts [R.auxStat, R.ringCnt] d (setRegBit R.auxStat (8 + k) s (setRegBit R.auxStat k o d)) :=
    (frame_setRegBit ..).mono.trans (frame_setRegBit ..).mono
  exact .ite (hbits.trans (frame_occur ..).mono) hbits

theorem reg_auxOpenShort {k : Nat} (hk : k < 8) (o s : Bool) (d : Dev) : reg (auxOpenShort k o s d) (R.auxRes + 4 * k) = reg d (R.auxRes + 4 * k) :=
  ((frame_auxOpenShort k o s d).mono (qs := evParts) (us := [R.auxStat, R.ringCnt, R.safeCnt])).2 _ (auxRes_not_mem_limitRegs hk)

theorem regBit_auxOpenShort {k : Nat} (hk : k < 8) (o s : Bool) (d : Dev) (j : Nat) : regBit (auxOpenShort k o s d) R.auxStat j =
    if j = 8 + k then s else if j = k then o else regBit d R.auxStat j := by
  have hbits : regBit (setRegBit R.auxStat (8 + k) s (setRegBit R.auxStat k o d)) R.auxStat j =
      if j = 8 + k then s else if j = k then o else regBit d R.auxStat j := by
    rw [regBit_setRegBit _ _ _ _ _ (by omega), regBit_setRegBit _ _ _ _ _ (by omega)]
  rw [← hbits]
  unfold auxOpenShort
  dsimp only
  split
  · exact (frame_occur ..).regBit j
  · rfl

theorem beside_auxOpenShort {k j : Nat} (hk : k < 8) (hj : j < 8) (h : j ≠ k) (o s : Bool) (d : Dev) : Beside k d (auxOpenShort j o s d) := by
  have hbits : Beside k d (setRegBit R.auxStat (8 + j) s (setRegBit R.auxStat j o d)) :=
    (beside_setRegBit hk (by omega) (by omega) ..).trans (beside_setRegBit hk (by omega) (by omega) ..)
  unfold auxOpenShort
  dsimp only
  split
  · exact hbits.trans ((frame_occur ..).beside hk)
  · exact hbits

/-- Do the limits of a channel guard anything (R146)? -/
def auxGuarded (k : Nat) (d : Dev) : Bool := !(decide ((auxLim d k).1 = 0x7FFF) && decide ((auxLim d k).2 = -0x8000))

/-- The counts of a channel after a scan (R146). -/
def auxCounts (k : Nat) (temp : Int) (bad : Bool) (d : Dev) : AuxChan where
  beyond := if (auxLim d k).1 < temp ∨ temp < (auxLim d k).2 then (auxChan d k).beyond + 1 else 0
  fault := if bad && auxGuarded k d then (auxChan d k).fault + 1 else 0
  inside := if temp ≤ (auxLim d k).1 - 128 ∧ (auxLim d k).2 + 128 ≤ temp ∧ !bad then (auxChan d k).inside + 1 else 0

/-- The device with the counts of a channel. -/
def auxCounted (k : Nat) (temp : Int) (bad : Bool) (d : Dev) : Dev :=
  { d with io := { d.io with aux := kset AuxChan.init d.io.aux k (auxCounts k temp bad d) } }

/-- The limits after a scan: a channel in fault is released, or one that is not latches. -/
theorem auxLimits_eq (k : Nat) (temp : Int) (bad : Bool) (d : Dev) : auxLimits k temp bad d =
    let e := auxCounted k temp bad d
    let n := auxCounts k temp bad d
    if regBit e R.auxStat (16 + k) then (if auxConfirm e ≤ n.inside then gone 2 k (setRegBit R.auxStat (16 + k) false e) else e)
    else if auxConfirm e ≤ n.beyond ∨ auxConfirm e ≤ n.fault then latch 2 k (setRegBit R.auxStat (16 + k) true e)
    else e := rfl

theorem frame_auxLimits (k : Nat) (temp : Int) (bad : Bool) (d : Dev) :
    ChangesOnly (.io :: latchParts) [R.auxStat, R.ringCnt, R.safeCnt] d (auxLimits k temp bad d) := by
  have hcounted : ChangesOnly (.io :: latchParts) [R.auxStat, R.ringCnt, R.safeCnt] d (auxCounted k temp bad d) := (frame_io ..).mono
  rw [auxLimits_eq]
  refine .ite (.ite ?_ hcounted) (.ite ?_ hcounted)
  · exact (hcounted.trans (frame_setRegBit ..).mono).trans (frame_gone ..).mono
  · exact (hcounted.trans (frame_setRegBit ..).mono).trans (frame_latch ..).mono

/-- The limits leave the bits of open and short. -/
theorem regBit_auxLimits {k : Nat} (hk : k < 8) (temp : Int) (bad : Bool) (d : Dev) {j : Nat} (hj : j ≠ 16 + k) :
    regBit (auxLimits k temp bad d) R.auxStat j = regBit d R.auxStat j := by
  have hset : ∀ b, regBit (setRegBit R.auxStat (16 + k) b (auxCounted k temp bad d)) R.auxStat j = regBit d R.auxStat j := fun b => by
    rw [regBit_setRegBit _ _ _ _ _ (by omega), if_neg hj]
    rfl
  rw [auxLimits_eq]
  dsimp only
  split
  · split
    · exact hset false
    · rfl
  · split
    · rw [(frame_latch ..).regBit j, hset true]
    · rfl

theorem beside_auxLimits {k j : Nat} (hk : k < 8) (hj : j < 8) (h : j ≠ k) (temp : Int) (bad : Bool) (d : Dev) :
    Beside k d (auxLimits j temp bad d) := by
  have hcounted : Beside k d (auxCounted j temp bad d) := beside_counts h ..
  have hset : ∀ b, Beside k d (setRegBit R.auxStat (16 + j) b (auxCounted j temp bad d)) := fun b =>
    hcounted.trans (beside_setRegBit hk (by omega) (by omega) ..)
  rw [auxLimits_eq]
  dsimp only
  split
  · split
    · exact (hset false).trans (beside_gone h _)
    · exact hcounted
  · split
    · exact (hset true).trans (beside_latch hk h _)
    · exact hcounted

/-- A channel that reads open or short for CONFIRM scans, its limits guarded, latches bit 2 (R146). -/
theorem auxLimits_latches {k : Nat} {temp : Int} {d : Dev} (hk : k < 8) (hg : auxGuarded k d = true) (hc : auxConfirm d ≤ (auxChan d k).fault + 1)
    (hb : regBit d R.auxStat (16 + k) = false) (hn : (2, k) ∉ d.sf.present) :
    regBit (auxLimits k temp true d) R.auxStat (16 + k) = true ∧ AuxLatched k (auxLimits k temp true d) := by
  have hfault : (auxCounts k temp true d).fault = (auxChan d k).fault + 1 := if_pos (by simp [hg])
  have hlatch : auxLimits k temp true d = latch 2 k (setRegBit R.auxStat (16 + k) true (auxCounted k temp true d)) :=
    (auxLimits_eq ..).trans ((if_neg (Bool.eq_false_iff.1 hb)).trans (if_pos (.inr (hfault ▸ hc))))
  rw [hlatch]
  refine ⟨?_, latch_aux_sf hn⟩
  rw [(frame_latch ..).regBit (16 + k), regBit_setRegBit _ _ _ _ _ (by omega), if_pos rfl]

/-! ### A channel, by its mode (R142 to R146) -/

/-- TEMP of a channel that reads a divider. -/
def auxTemp (mode raw : Nat) (d : Dev) : Nat × Dev :=
  if decide (65208 < raw) || decide (raw < 328) then (0x8000, d) else if mode = 3 then tempOf raw d else (0, d)

theorem frame_auxTemp (mode raw : Nat) (d : Dev) : ChangesOnly [.free] [] d (auxTemp mode raw d).2 := by
  unfold auxTemp
  split
  · exact .refl ..
  · split
    · exact frame_tempOf ..
    · exact .refl ..

/-- A channel before its conversions count: outside mode 3 its runs have ended. -/
def auxEntered (k : Nat) (d : Dev) : Dev := if auxMode d k = 3 then d else auxUnguarded k d

/-- A channel's own code, at value x (R143). -/
def auxRatio (k : Nat) (x : Nat × Dev) : Dev :=
  auxSummary k x.1 (setReg (R.auxRes + 4 * k) (BitVec.ofNat 32 x.1) (auxOpenShort k false false x.2))

/-- A divider's reading, at temperature x, before the limits (R144, R145). -/
def auxDivider (k mode raw : Nat) (x : Nat × Dev) : Dev :=
  auxSummary k (if mode = 3 then signed 16 x.1 else raw)
    (auxOpenShort k (decide (65208 < raw)) (decide (raw < 328)) (setReg (R.auxRes + 4 * k) (packW [(raw, 0), (x.1, 16)]) x.2))

theorem auxChannel_off {k : Nat} {d : Dev} (h : auxMode d k = 0) (conv : List Nat) :
    auxChannel k conv d = auxOpenShort k false false (auxEntered k d) := if_pos h

theorem auxChannel_ratio {k : Nat} {d : Dev} (h : auxMode d k = 1) (conv : List Nat) :
    auxChannel k conv d = auxRatio k (absCode (meanCode conv) (auxEntered k d)) := (if_neg (by omega)).trans (if_pos h)

theorem auxChannel_divider {k : Nat} {d : Dev} (h : 2 ≤ auxMode d k) (conv : List Nat) : auxChannel k conv d =
    let raw := meanCode conv
    let x := auxTemp (auxMode d k) raw (auxEntered k d)
    if auxMode d k = 3 then auxLimits k (signed 16 x.1) (decide (65208 < raw) || decide (raw < 328)) (auxDivider k (auxMode d k) raw x)
    else auxDivider k (auxMode d k) raw x := (if_neg (by omega)).trans (if_neg (by omega))

theorem frame_auxEntered (k : Nat) (d : Dev) : ChangesOnly [.io] [] d (auxEntered k d) := .ite (.refl ..) (frame_io ..)

/-- Registers that channel k may change. -/
def channelRegs (k : Nat) : List Nat := [R.auxStat, R.ringCnt, R.safeCnt, R.auxRes + 4 * k]

theorem channelRegs_subset {k : Nat} (hk : k < 8) : channelRegs k ⊆ scanRegs := by
  simp only [channelRegs, List.cons_subset, auxRes_mem_scanRegs hk, List.nil_subset, and_true]
  decide

theorem frame_auxRatio (k : Nat) (x : Nat × Dev) : ChangesOnly scanParts (channelRegs k) x.2 (auxRatio k x) :=
  (((frame_auxOpenShort ..).mono (by decide) (by simp [channelRegs])).trans ((frame_setReg ..).mono (by simp) (by simp [channelRegs]))).trans
    ((frame_auxSummary ..).mono (by decide) (by simp))

theorem frame_auxDivider (k mode raw : Nat) (x : Nat × Dev) : ChangesOnly evParts [R.auxRes + 4 * k, R.auxStat, R.ringCnt] x.2 (auxDivider k mode raw x) :=
  (((frame_setReg ..).mono (by simp) (by simp)).trans ((frame_auxOpenShort ..).mono (by decide) (by simp))).trans
    ((frame_auxSummary ..).mono (by decide) (by simp))

theorem frame_auxChannel (k : Nat) (conv : List Nat) (d : Dev) : ChangesOnly scanParts (channelRegs k) d (auxChannel k conv d) := by
  have hentered : ChangesOnly scanParts (channelRegs k) d (auxEntered k d) := (frame_auxEntered ..).mono (by decide) (by simp)
  have hdivider : ∀ raw, ChangesOnly scanParts (channelRegs k) d
      (auxDivider k (auxMode d k) raw (auxTemp (auxMode d k) raw (auxEntered k d))) := fun raw =>
    (hentered.trans ((frame_auxTemp ..).mono (by decide) (by simp))).trans ((frame_auxDivider ..).mono (by decide) (by simp [channelRegs]))
  obtain h | h | h : auxMode d k = 0 ∨ auxMode d k = 1 ∨ 2 ≤ auxMode d k := by omega
  · rw [auxChannel_off h]
    exact hentered.trans ((frame_auxOpenShort ..).mono (by decide) (by simp [channelRegs]))
  · rw [auxChannel_ratio h]
    exact (hentered.trans ((frame_fitU ..).mono (by decide) (by simp))).trans (frame_auxRatio ..)
  · rw [auxChannel_divider h]
    exact .ite ((hdivider _).trans ((frame_auxLimits ..).mono (by decide) (by simp [channelRegs]))) (hdivider _)

theorem beside_auxEntered {k j : Nat} (h : j ≠ k) (d : Dev) : Beside k d (auxEntered j d) := by
  unfold auxEntered
  split
  · exact .refl ..
  · exact beside_counts h ..

theorem beside_auxChannel {k j : Nat} (hk : k < 8) (hj : j < 8) (h : j ≠ k) (conv : List Nat) (d : Dev) : Beside k d (auxChannel j conv d) := by
  have hentered := beside_auxEntered h d
  have hdivider : ∀ raw, Beside k d (auxDivider j (auxMode d j) raw (auxTemp (auxMode d j) raw (auxEntered j d))) := fun raw =>
    (((hentered.trans ((frame_auxTemp ..).beside hk)).trans (beside_setResult hj h ..)).trans (beside_auxOpenShort hk hj h ..)).trans
      ((frame_auxSummary ..).beside hk)
  obtain hm | hm | hm : auxMode d j = 0 ∨ auxMode d j = 1 ∨ 2 ≤ auxMode d j := by omega
  · rw [auxChannel_off hm]
    exact hentered.trans (beside_auxOpenShort hk hj h ..)
  · rw [auxChannel_ratio hm]
    exact (((hentered.trans ((frame_fitU ..).beside hk)).trans (beside_auxOpenShort hk hj h ..)).trans (beside_setResult hj h ..)).trans
      ((frame_auxSummary ..).beside hk)
  · rw [auxChannel_divider hm]
    dsimp only
    split
    · exact (hdivider _).trans (beside_auxLimits hk hj h ..)
    · exact hdivider _

/-! ### What a channel reads (R143 to R146) -/

/-- The code of a channel in mode 1 with conversions of mean raw (R143). -/
def auxCode (raw : Nat) (d : Dev) : Int :=
  quot (((raw : Int) * 3000000 - signed 16 (regFld d R.calAuxOff 15 0) * 10 * 65536) * (10 ^ 8 + reg24 d R.calAuxGain)) (3000000 * 10 ^ 8)

/-- An NTC's temperature at conversions of mean raw (R145). -/
def auxNtc (raw : Nat) (d : Dev) : Option Int :=
  ntcTemp (regFld d R.auxNtcPull 15 0) (regFld d R.auxNtcCfg 15 0) (regFld d R.auxNtcCfg 31 16) raw

/-- Device u shows what channel k of device d reads with conversions of mean raw. -/
structure ChannelRead (k raw : Nat) (d u : Dev) : Prop where
  isOpen : regBit u R.auxStat k = (decide (2 ≤ auxMode d k) && decide (65208 < raw))
  isShort : regBit u R.auxStat (8 + k) = (decide (2 ≤ auxMode d k) && decide (raw < 328))
  off : auxMode d k = 0 → reg u (R.auxRes + 4 * k) = reg d (R.auxRes + 4 * k)
  ratio : auxMode d k = 1 → 0 ≤ auxCode raw d → auxCode raw d < 65536 → reg u (R.auxRes + 4 * k) = BitVec.ofInt 32 (auxCode raw d)
  divider : auxMode d k = 2 → 328 ≤ raw → raw ≤ 65208 → reg u (R.auxRes + 4 * k) = packW [(raw, 0), (0, 16)]
  faulty : 2 ≤ auxMode d k → raw < 328 ∨ 65208 < raw → reg u (R.auxRes + 4 * k) = packW [(raw, 0), (0x8000, 16)]
  ntc : ∀ z, auxMode d k = 3 → 328 ≤ raw → raw ≤ 65208 → auxNtc raw d = some z → -32768 ≤ z → z < 32768 →
    reg u (R.auxRes + 4 * k) = packW [(raw, 0), (unsigned 16 z, 16)]
  code : auxMode d k = 3 → regFld u (R.auxRes + 4 * k) 15 0 = raw
  latched : auxMode d k = 3 → raw < 328 ∨ 65208 < raw → auxGuarded k d = true → auxConfirm d ≤ (auxChan d k).fault + 1 →
    regBit d R.auxStat (16 + k) = false → (2, k) ∉ d.sf.present → regBit u R.auxStat (16 + k) = true ∧ AuxLatched k u

/-- What a scan leaves of a channel's limits. -/
theorem auxLim_of_scan {a b : Dev} {k : Nat} (h : ChangesOnly scanParts scanRegs a b) (hk : k < 8) : auxLim b k = auxLim a k := by
  have hmem : ∀ k < 8, R.auxTlim + 4 * k ∉ scanRegs := by decide
  simp only [auxLim, regFld, h.2 _ (hmem k hk)]

/-- What operations elsewhere leave a channel to read. -/
theorem ChannelRead.before {k raw : Nat} {d e u : Dev} (hk : k < 8) (h : Beside k d e) (hu : ChannelRead k raw e u) : ChannelRead k raw d u := by
  have hreg : ∀ r, r ∉ scanRegs → reg e r = reg d r := h.frame.2
  have hmode : auxMode e k = auxMode d k := by rw [auxMode, regFld, hreg _ (by decide), auxMode, regFld]
  have hcode : auxCode raw e = auxCode raw d := by simp only [auxCode, regFld, reg24, hreg R.calAuxOff (by decide), hreg R.calAuxGain (by decide)]
  have hntc : auxNtc raw e = auxNtc raw d := by simp only [auxNtc, regFld, hreg R.auxNtcPull (by decide), hreg R.auxNtcCfg (by decide)]
  have hguard : auxGuarded k e = auxGuarded k d := by rw [auxGuarded, auxLim_of_scan h.frame hk, auxGuarded]
  have hconfirm : auxConfirm e = auxConfirm d := by rw [auxConfirm, regFld, hreg _ (by decide), auxConfirm, regFld]
  obtain ⟨hopen, hshort, hoff, hratio, hdivider, hfaulty, hn, hc, hlatched⟩ := hu
  rw [hmode] at hopen hshort hoff hratio hdivider hfaulty hc hlatched
  rw [h.result] at hoff
  rw [hcode] at hratio
  rw [hguard, hconfirm, h.counts, h.bits _ (.inr (.inr rfl)), h.present] at hlatched
  simp only [hmode, hntc] at hn
  exact ⟨hopen, hshort, hoff, hratio, hdivider, hfaulty, hn, hc, hlatched⟩

/-- What operations elsewhere leave of a reading. -/
theorem ChannelRead.after {k raw : Nat} {d e u : Dev} (hu : ChannelRead k raw d e) (h : Beside k e u) : ChannelRead k raw d u := by
  obtain ⟨hopen, hshort, hoff, hratio, hdivider, hfaulty, hn, hc, hlatched⟩ := hu
  rw [← h.bits _ (.inl rfl)] at hopen
  rw [← h.bits _ (.inr (.inl rfl))] at hshort
  simp only [← h.result] at hoff hratio hdivider hfaulty hn
  rw [regFld, ← h.result] at hc
  refine ⟨hopen, hshort, hoff, hratio, hdivider, hfaulty, hn, hc, fun h1 h2 h3 h4 h5 h6 => ?_⟩
  obtain ⟨hbit, hl⟩ := hlatched h1 h2 h3 h4 h5 h6
  exact ⟨(h.bits _ (.inr (.inr rfl))).trans hbit, h.latched hl⟩

theorem reg_auxDivider {k : Nat} (hk : k < 8) (mode raw : Nat) (x : Nat × Dev) :
    reg (auxDivider k mode raw x) (R.auxRes + 4 * k) = packW [(raw, 0), (x.1, 16)] := by
  rw [auxDivider, (frame_auxSummary ..).2 _ (by simp), reg_auxOpenShort hk, reg_setReg_self]

theorem regBit_auxDivider {k : Nat} (hk : k < 8) (mode raw : Nat) (x : Nat × Dev) (j : Nat) : regBit (auxDivider k mode raw x) R.auxStat j =
    if j = 8 + k then decide (raw < 328) else if j = k then decide (65208 < raw) else regBit x.2 R.auxStat j := by
  rw [auxDivider, (frame_auxSummary ..).regBit j, regBit_auxOpenShort hk, (frame_setReg ..).regBit j (by simpa using (auxRes_ne_auxStat hk).symm)]

/-- A channel that reads no divider is neither open nor short, whatever it changes besides. -/
theorem channelRead_auxOpenShort {k : Nat} (hk : k < 8) (raw : Nat) {d e u : Dev} (hmode : auxMode d k < 2)
    (hu : ∀ j < 24, regBit u R.auxStat j = regBit (auxOpenShort k false false e) R.auxStat j)
    (hoff : auxMode d k = 0 → reg u (R.auxRes + 4 * k) = reg d (R.auxRes + 4 * k))
    (hratio : auxMode d k = 1 → 0 ≤ auxCode raw d → auxCode raw d < 65536 → reg u (R.auxRes + 4 * k) = BitVec.ofInt 32 (auxCode raw d)) :
    ChannelRead k raw d u := by
  refine ⟨?_, ?_, hoff, hratio, ?_, ?_, ?_, ?_, ?_⟩
  · rw [hu _ (by omega), regBit_auxOpenShort hk, if_neg (by omega), if_pos rfl]
    simp [hmode]
  · rw [hu _ (by omega), regBit_auxOpenShort hk, if_pos rfl]
    simp [hmode]
  all_goals omega

theorem channelRead_off {k : Nat} {d : Dev} (hk : k < 8) (h : auxMode d k = 0) (conv : List Nat) :
    ChannelRead k (meanCode conv) d (auxChannel k conv d) := by
  rw [auxChannel_off h]
  refine channelRead_auxOpenShort hk _ (by omega) (fun _ _ => rfl) (fun _ => ?_) (by omega)
  rw [reg_auxOpenShort hk, (frame_auxEntered ..).2 _ (by simp)]

theorem channelRead_ratio {k : Nat} {d : Dev} (hk : k < 8) (h : auxMode d k = 1) (conv : List Nat) :
    ChannelRead k (meanCode conv) d (auxChannel k conv d) := by
  have hcode : absCode (meanCode conv) (auxEntered k d) = fitU 16 (auxCode (meanCode conv) d) (auxEntered k d) := by
    have hreg := (frame_auxEntered k d).2
    simp only [absCode, auxCode, regFld, reg24, hreg _ List.not_mem_nil]
  rw [auxChannel_ratio h]
  refine channelRead_auxOpenShort (e := (absCode (meanCode conv) (auxEntered k d)).2) hk _ (by omega) (fun j _ => ?_) (by omega) fun _ h0 h1 => ?_
  · rw [auxRatio, (frame_auxSummary ..).regBit j, (frame_setReg ..).regBit j (by simpa using (auxRes_ne_auxStat hk).symm)]
  · obtain ⟨n, hn⟩ := Int.eq_ofNat_of_zero_le h0
    rw [auxRatio, (frame_auxSummary ..).2 _ (by simp), reg_setReg_self, hcode, fitU_of_fits h0 (by simpa using h1), hn]
    simp

/-- The temperature of a channel that reads a divider, by its mode. -/
theorem auxTemp_faulty {mode raw : Nat} (h : raw < 328 ∨ 65208 < raw) (d : Dev) : auxTemp mode raw d = (0x8000, d) :=
  if_pos (by simpa using h.symm)

theorem auxTemp_plain {raw : Nat} (hlo : 328 ≤ raw) (hhi : raw ≤ 65208) (d : Dev) : auxTemp 2 raw d = (0, d) :=
  (if_neg (by simp; omega)).trans (if_neg (by decide))

theorem auxTemp_ntc {raw : Nat} {z : Int} {d : Dev} (hlo : 328 ≤ raw) (hhi : raw ≤ 65208) (hz : auxNtc raw d = some z) (h0 : -32768 ≤ z)
    (h1 : z < 32768) : auxTemp 3 raw d = (unsigned 16 z, d) := by
  have htemp : tempOf raw d = fitS 16 z d := by
    unfold auxNtc at hz
    rw [tempOf, hz]
  exact (if_neg (by simp; omega)).trans ((if_pos rfl).trans (htemp.trans (fitS16_of_fits h0 h1 d)))

/-- A channel in mode 3 that is open or short for CONFIRM scans latches as its limits are judged: its reading before them leaves what they are judged
from. -/
theorem auxChannel_latches {k : Nat} {d : Dev} {conv : List Nat} (hk : k < 8) (hm : auxMode d k = 3)
    (hbad : meanCode conv < 328 ∨ 65208 < meanCode conv) (hg : auxGuarded k d = true) (hc : auxConfirm d ≤ (auxChan d k).fault + 1)
    (hb : regBit d R.auxStat (16 + k) = false) (hn : (2, k) ∉ d.sf.present) :
    regBit (auxChannel k conv d) R.auxStat (16 + k) = true ∧ AuxLatched k (auxChannel k conv d) := by
  have hentered : auxEntered k d = d := if_pos hm
  have hdivider := frame_auxDivider k 3 (meanCode conv) (0x8000, d)
  have hframe : ChangesOnly scanParts scanRegs d (auxDivider k 3 (meanCode conv) (0x8000, d)) :=
    hdivider.mono (by decide) (by simp only [List.cons_subset, auxRes_mem_scanRegs hk, true_and]; decide)
  have hio : (auxDivider k 3 (meanCode conv) (0x8000, d)).io = d.io := hdivider.1 .io (by decide)
  have hsf : (auxDivider k 3 (meanCode conv) (0x8000, d)).sf = d.sf := hdivider.1 .sf (by decide)
  have hfault : (decide (65208 < meanCode conv) || decide (meanCode conv < 328)) = true := by simpa using hbad.symm
  rw [auxChannel_divider (by omega)]
  simp only [hm, if_true, hentered, auxTemp_faulty hbad, hfault]
  refine auxLimits_latches hk ?_ ?_ ?_ (by rwa [hsf])
  · rwa [auxGuarded, auxLim_of_scan hframe hk, ← auxGuarded]
  · rwa [auxConfirm, regFld, hframe.2 _ (by decide), ← regFld, ← auxConfirm, auxChan, hio, ← auxChan]
  · rw [regBit_auxDivider hk, if_neg (by omega), if_neg (by omega)]
    exact hb

theorem channelRead_divider {k : Nat} {d : Dev} (hk : k < 8) (h : 2 ≤ auxMode d k) (conv : List Nat) :
    ChannelRead k (meanCode conv) d (auxChannel k conv d) := by
  have hresult : reg (auxChannel k conv d) (R.auxRes + 4 * k) =
      packW [(meanCode conv, 0), ((auxTemp (auxMode d k) (meanCode conv) (auxEntered k d)).1, 16)] := by
    rw [auxChannel_divider h]
    dsimp only
    split
    · rw [(frame_auxLimits ..).2 _ (auxRes_not_mem_limitRegs hk), reg_auxDivider hk]
    · rw [reg_auxDivider hk]
  have hbits : ∀ j, j ≠ 16 + k → regBit (auxChannel k conv d) R.auxStat j = if j = 8 + k then decide (meanCode conv < 328)
      else if j = k then decide (65208 < meanCode conv) else regBit (auxTemp (auxMode d k) (meanCode conv) (auxEntered k d)).2 R.auxStat j := by
    intro j hj
    rw [auxChannel_divider h]
    dsimp only
    split
    · rw [regBit_auxLimits hk _ _ _ hj, regBit_auxDivider hk]
    · rw [regBit_auxDivider hk]
  refine ⟨?_, ?_, by omega, by omega, fun hm hlo hhi => ?_, fun _ hbad => ?_, fun z hm hlo hhi hz h0 h1 => ?_, fun _ => ?_,
    fun hm hbad hg hc hb hn => auxChannel_latches hk hm hbad hg hc hb hn⟩
  · rw [hbits _ (by omega), if_neg (by omega), if_pos rfl]
    simp [h]
  · rw [hbits _ (by omega), if_pos rfl]
    simp [h]
  · rw [hresult, hm, auxTemp_plain hlo hhi]
  · rw [hresult, auxTemp_faulty hbad]
  · rw [hresult, hm, show auxEntered k d = d from if_pos hm, auxTemp_ntc hlo hhi hz h0 h1]
  · rw [regFld, hresult, fld_low_packW _ (meanCode_lt _)]

theorem channelRead_auxChannel {k : Nat} (hk : k < 8) (conv : List Nat) (d : Dev) : ChannelRead k (meanCode conv) d (auxChannel k conv d) := by
  obtain h | h | h : auxMode d k = 0 ∨ auxMode d k = 1 ∨ 2 ≤ auxMode d k := by omega
  · exact channelRead_off hk h conv
  · exact channelRead_ratio hk h conv
  · exact channelRead_divider hk h conv

/-! ### The die sensors (R147) -/

/-- A die sensor's reading, after CAL_TDIE_OFF. -/
def dieRead (m : Int) (d : Dev) : Int := m - signed 16 (regFld d R.calTdieOff 15 0)

theorem dieTemps_cases (m c : Int) (d : Dev) : ∃ e, ChangesOnly [.free, .hist] [] d e ∧ dieTemps m c d = setReg R.auxTdie
    (packW [((fitS 16 (dieRead m d) d).1, 0), ((fitS 16 (dieRead c d) (fitS 16 (dieRead m d) d).2).1, 16)]) e := by
  have hfit : ChangesOnly [.free, .hist] [] d (fitS 16 (dieRead c d) (fitS 16 (dieRead m d) d).2).2 :=
    (frame_fitS ..).mono.trans (frame_fitS ..).mono
  have hsumm : ∀ e s, ChangesOnly [.free, .hist] [] e { e with mm := { e.mm with summ := s } } := fun e s => by
    refine ⟨fun q hq => ?_, fun _ _ => rfl⟩
    cases q <;> simp_all [Part.same, Mem.still]
  exact ⟨_, hfit.trans (hsumm _ _), rfl⟩

/-- The sensors' fields where they fit (R147). -/
theorem regFld_dieTemps (m c : Int) (d : Dev) :
    (-32768 ≤ dieRead m d → dieRead m d < 32768 → signed 16 (regFld (dieTemps m c d) R.auxTdie 15 0) = dieRead m d) ∧
    (-32768 ≤ dieRead c d → dieRead c d < 32768 → signed 16 (regFld (dieTemps m c d) R.auxTdie 31 16) = dieRead c d) := by
  obtain ⟨e, -, he⟩ := dieTemps_cases m c d
  have hlow := fitS_lt 16 (dieRead m d) d
  rw [he, regFld, regFld, reg_setReg_self]
  refine ⟨fun h0 h1 => ?_, fun h0 h1 => ?_⟩
  · rw [fld_low_packW _ hlow, fitS16_of_fits h0 h1, signed_unsigned16 h0 h1]
  · rw [fld_high_packW hlow (fitS_lt ..), fitS16_of_fits h0 h1, signed_unsigned16 h0 h1]

theorem frame_dieTemps (m c : Int) (d : Dev) : ChangesOnly [.free, .hist] [R.auxTdie] d (dieTemps m c d) := by
  obtain ⟨e, hframe, he⟩ := dieTemps_cases m c d
  rw [he]
  exact hframe.mono.trans (frame_setReg ..).mono

/-! ### A scan (R143) -/

/-- The temperatures kept for CHAR leave the channels. -/
theorem frame_noteNtc (d : Dev) : ChangesOnly [.io, .en] [] d (noteNtc d) := (frame_io ..).mono.trans (frame_withEng ..).mono

theorem beside_noteNtc (k : Nat) (d : Dev) : Beside k d (noteNtc d) :=
  ⟨(frame_noteNtc d).mono, fun _ _ => rfl, rfl, rfl, .rfl, id⟩

/-- A loop between states that what it does to other elements relates: one state stands before an element, and what it does there comes before the
end. -/
theorem each_around {α σ : Type} {f : α → σ → σ} {r : σ → σ → Prop} (hrefl : ∀ a, r a a) (htrans : ∀ {a b c}, r a b → r b c → r a c) {l : List α}
    {x : α} (hx : x ∈ l) (hn : l.Nodup) (h : ∀ y ∈ l, y ≠ x → ∀ a, r a (f y a)) (a : σ) : ∃ b, r a b ∧ r (f x b) (each f l a) := by
  have hothers : ∀ m : List α, (∀ y ∈ m, ∀ a, r a (f y a)) → ∀ a, r a (each f m a) := fun m hm => by
    induction m with
    | nil => exact hrefl
    | cons y m ih => exact fun a => htrans (hm y (by simp) a) (ih (fun z hz => hm z (by simp [hz])) _)
  induction l generalizing a with
  | nil => cases hx
  | cons y l ih =>
    obtain ⟨hy, hn⟩ := List.nodup_cons.1 hn
    rcases List.mem_cons.1 hx with rfl | hx
    · exact ⟨a, hrefl a, hothers l (fun z hz => h z (by simp [hz]) (fun he => hy (he ▸ hz))) _⟩
    · obtain ⟨b, hab, hb⟩ := ih hx hn (fun z hz => h z (by simp [hz])) (f y a)
      exact ⟨b, htrans (h y (by simp) (fun he => hy (he ▸ hx)) a) hab, hb⟩

/-- The channels of a scan. -/
def channelsScanned (codes : List (List Nat)) (d : Dev) : Dev := each (fun k d => auxChannel k (codes.getD k []) d) (upFrom 0 8) d

theorem scan_due (codes : List (List Nat)) (m c : Int) {d : Dev} (h : scanDue d d.now.toNat = true) :
    scan codes m c d = noteNtc (setRegBit R.auxStat 24 true (dieTemps m c (channelsScanned codes d))) := if_pos h

theorem lt_of_mem_channels {k : Nat} (h : k ∈ upFrom 0 8) : k < 8 := by simpa using lt_of_mem_upFrom h

theorem frame_channelsScanned (codes : List (List Nat)) (d : Dev) : ChangesOnly scanParts scanRegs d (channelsScanned codes d) :=
  .each_mem (fun _ hk _ => (frame_auxChannel ..).mono (List.Subset.refl _) (channelRegs_subset (lt_of_mem_channels hk))) d

theorem frame_scan (codes : List (List Nat)) (m c : Int) {d : Dev} (h : scanDue d d.now.toNat = true) :
    ChangesOnly scanParts scanRegs d (scan codes m c d) := by
  rw [scan_due codes m c h]
  exact (((frame_channelsScanned ..).trans (frame_dieTemps ..).mono).trans (frame_setRegBit ..).mono).trans (frame_noteNtc ..).mono

/-- Each channel reads as if it were alone. -/
theorem channelRead_scan (codes : List (List Nat)) (m c : Int) {d : Dev} (h : scanDue d d.now.toNat = true) {k : Nat} (hk : k < 8) :
    ChannelRead k (meanCode (codes.getD k [])) d (scan codes m c d) := by
  have hmem : ∀ k < 8, k ∈ upFrom 0 8 := by decide
  obtain ⟨e, hbefore, hafter⟩ := each_around (f := fun k d => auxChannel k (codes.getD k []) d) (Beside.refl k) Beside.trans (hmem k hk) (by decide)
    (fun j hj hne d => beside_auxChannel hk (lt_of_mem_channels hj) hne _ d) d
  have hrest : Beside k (channelsScanned codes d) (scan codes m c d) := by
    rw [scan_due codes m c h]
    exact (((frame_dieTemps ..).beside hk).trans (beside_setRegBit hk (by decide) (by omega) ..)).trans (beside_noteNtc k _)
  exact .before hk hbefore ((channelRead_auxChannel hk _ e).after (hafter.trans hrest))

theorem regFld_scan_auxTdie (codes : List (List Nat)) (m c : Int) {d : Dev} (h : scanDue d d.now.toNat = true) :
    (-32768 ≤ dieRead m d → dieRead m d < 32768 → signed 16 (regFld (scan codes m c d) R.auxTdie 15 0) = dieRead m d) ∧
    (-32768 ≤ dieRead c d → dieRead c d < 32768 → signed 16 (regFld (scan codes m c d) R.auxTdie 31 16) = dieRead c d) := by
  have hread : ∀ z, dieRead z (channelsScanned codes d) = dieRead z d := fun z => by
    rw [dieRead, regFld, (frame_channelsScanned ..).2 _ (by decide), dieRead, regFld]
  have hreg : reg (scan codes m c d) R.auxTdie = reg (dieTemps m c (channelsScanned codes d)) R.auxTdie := by
    rw [scan_due codes m c h, (frame_noteNtc ..).2 _ (by decide), (frame_setRegBit ..).2 _ (by decide)]
  have hdie := regFld_dieTemps m c (channelsScanned codes d)
  rwa [hread, hread, regFld, regFld, ← hreg, ← regFld, ← regFld] at hdie

theorem regBit_scan_valid (codes : List (List Nat)) (m c : Int) {d : Dev} (h : scanDue d d.now.toNat = true) :
    regBit (scan codes m c d) R.auxStat 24 = true := by
  rw [scan_due codes m c h, (frame_noteNtc ..).regBit 24, regBit_setRegBit _ _ _ _ _ (by decide), if_pos rfl]

/-- Settles O30: a channel's reading changes nothing of another's, so each stands after the scan as it was read. -/
theorem auxScanReads : Obligations.AuxScanReads := by
  unfold Obligations.AuxScanReads
  intro s t codes m c d hd ha calm
  refine ⟨fun h => actAwake_idle _ hd ha calm (if_neg (Bool.eq_false_iff.1 h)), fun h => ?_⟩
  have hframe := frame_scan codes m c h
  have hex : (scan codes m c d).ex = d.ex := hframe.1 .ex (by decide)
  obtain ⟨u, hu, hp, hev⟩ := actAwake_posted (scan codes m c) hd ha (by rw [hex]; exact calm.2)
  obtain ⟨hmon, hctl⟩ := regFld_scan_auxTdie codes m c h
  have hfld : ∀ hi lo, regFld u.dev R.auxTdie hi lo = regFld (scan codes m c d) R.auxTdie hi lo := fun hi lo => by
    rw [regFld, hp.frame.2 _ (by decide), regFld]
  refine ⟨u, hu, fun k hk => ?_, ?_, ?_, ?_, hframe.trans (hp.frame.mono), hev⟩
  · obtain ⟨hopen, hshort, hoff, hratio, hdivider, hfaulty, hntc, hcode, hlatched⟩ :=
      (channelRead_scan codes m c h hk).after (hp.frame.beside hk)
    refine ⟨hopen, hshort, hoff, fun z hz => hz ▸ hratio, hdivider, hfaulty, hntc, hcode, fun hm hbad hlim => hlatched hm hbad ?_⟩
    by_contra hnot
    exact hlim (Prod.ext_iff.2 (by simpa [auxGuarded] using hnot))
  · rw [hfld]
    exact hmon
  · rw [hfld]
    exact hctl
  · rw [hp.frame.regBit 24]
    exact regBit_scan_valid codes m c h

end Sys2Proof.Machine
end

section
/-! SUPPORT. The engines' assignment and their failures (file 06): the register fields that name the engine of a cell, the FAILED map, and a cell that
is moved. -/

namespace Sys2Proof.Machine

/-! ### Bits of fields and of the FAILED map -/

theorem bit_mergeBits (mask old v : Word) (i : Nat) : bit (mergeBits mask old v) i = if bit mask i then bit v i else bit old i := by
  rw [bit, bit, bit, bit, mergeBits, BitVec.getLsbD_or, BitVec.getLsbD_and, BitVec.getLsbD_and, BitVec.getLsbD_not]
  by_cases hi : i < 32
  · rw [decide_eq_true hi]
    cases mask.getLsbD i <;> simp
  · simp [BitVec.getLsbD_of_ge _ i (Nat.le_of_not_lt hi)]

/-- A field of words that agree on its bits. -/
theorem fld_congr {v w : Word} {hi lo : Nat} (h : ∀ i, lo ≤ i → i ≤ hi → bit v i = bit w i) : fld v hi lo = fld w hi lo := by
  refine Nat.eq_of_testBit_eq fun i => ?_
  simp only [fld, Nat.testBit_mod_two_pow, Nat.testBit_shiftRight]
  by_cases hi' : i < hi + 1 - lo
  · have hbit := h (lo + i) (by omega) (by omega)
    rw [bit, bit] at hbit
    rw [BitVec.testBit_toNat, BitVec.testBit_toNat, hbit]
  · simp [hi']

theorem bit_setFld_zero {hi lo : Nat} (h : hi < 32) (hl : lo ≤ hi) (v i : Nat) :
    bit (setFld 0 hi lo v) i = (decide (lo ≤ i) && (decide (i ≤ hi) && v.testBit (i - lo))) := by
  rw [bit, ← BitVec.testBit_toNat, setFld_toNat _ _ _ _ h hl]
  change (0 / 2 ^ (hi + 1) * 2 ^ (hi + 1) + v % 2 ^ (hi + 1 - lo) * 2 ^ lo + 0 % 2 ^ lo).testBit i = _
  simp only [Nat.zero_div, Nat.zero_mul, Nat.zero_add, Nat.zero_mod, Nat.add_zero, Nat.testBit_mul_two_pow, Nat.testBit_mod_two_pow]
  by_cases hlo : lo ≤ i
  · congr 2
    exact decide_eq_decide.2 (by omega)
  · simp [hlo]

/-- A field of four bits that hardware writes is the value written, and a field beside it stays. -/
theorem fld_nibble_mergeBits {lo a k : Nat} (hlo : lo < 29) (ha : a = lo ∨ a + 3 < lo ∨ lo + 3 < a) (hk : k < 16) (w : Word) :
    fld (mergeBits (setFld 0 (lo + 3) lo 0xF) w (setFld 0 (lo + 3) lo k)) (a + 3) a = if a = lo then k else fld w (a + 3) a := by
  have hbit := bit_setFld_zero (show lo + 3 < 32 by omega) (Nat.le_add_right lo 3)
  split
  · next h =>
    subst h
    rw [fld_congr (w := setFld 0 (a + 3) a k), fld_setFld _ _ _ _ (by omega) (by omega), show a + 3 + 1 - a = 4 by omega]
    · exact Nat.mod_eq_of_lt hk
    intro i h1 h2
    have hmask : (0xF : Nat).testBit (i - a) = true := by
      have : i - a < 4 := by omega
      interval_cases i - a <;> rfl
    rw [bit_mergeBits, hbit, hmask, if_pos (by simp [h1, h2])]
  · next h =>
    refine fld_congr fun i h1 h2 => ?_
    have hmask : bit (setFld 0 (lo + 3) lo 0xF) i = false := by
      rw [hbit, Bool.and_eq_false_iff, Bool.and_eq_false_iff, decide_eq_false_iff_not, decide_eq_false_iff_not]
      omega
    rw [bit_mergeBits, hmask]
    rfl

/-- A clear bit of a map is set by adding its weight. -/
theorem bit_ofNat_add_two_pow {m k : Nat} (hk : k < 32) (h : bit (BitVec.ofNat 32 m) k = false) (j : Nat) :
    bit (BitVec.ofNat 32 (m + 2 ^ k)) j = (decide (j = k) || bit (BitVec.ofNat 32 m) j) := by
  have hsum : BitVec.ofNat 32 (m + 2 ^ k) = BitVec.ofNat 32 m ||| BitVec.twoPow 32 k := by
    rw [BitVec.ofNat_add, show BitVec.ofNat 32 (2 ^ k) = BitVec.twoPow 32 k from BitVec.eq_of_toNat_eq (BitVec.toNat_twoPow 32 k).symm]
    refine BitVec.add_eq_or_of_and_eq_zero _ _ ?_
    rw [BitVec.and_twoPow, show (BitVec.ofNat 32 m).getLsbD k = false from h]
    rfl
  rw [hsum, bit, bit, BitVec.getLsbD_or, BitVec.getLsbD_twoPow, Bool.or_comm]
  by_cases hj : j = k
  · simp [hj, hk]
  · simp [hj, Ne.symm hj]

/-! ### The engine of a cell (R164) -/

/-- Where no register changes, the cells have the engines they had. -/
theorem ChangesOnly.engineOf {ps : List Part} {a b : Dev} (h : ChangesOnly ps [] a b) (n : Nat) : engineOf b n = engineOf a n := by
  simp only [Machine.engineOf, regFld, h.2 _ List.not_mem_nil]

theorem ChangesOnly.servedBy {ps : List Part} {a b : Dev} (h : ChangesOnly ps [] a b) (k : Nat) : servedBy b k = servedBy a k := by
  simp only [Machine.servedBy, cellsUsed, h.ncells, h.engineOf]

theorem reg_hwStand (off : Nat) (mask v : Word) (d : Dev) (r : Nat) :
    reg (hwStand off mask v d) r = if r = off then mergeBits mask (reg d off) v else reg d r := reg_setReg ..

/-! ### A cell is moved (R164 to R166) -/

/-- The device as Belvedere assigns cell n to engine k. -/
def assigned (n k : Nat) (d : Dev) : Dev :=
  hwStand (R.engAssign0 + 4 * ((n - 1) / 8)) (setFld 0 (4 * ((n - 1) % 8) + 3) (4 * ((n - 1) % 8)) 0xF)
    (setFld 0 (4 * ((n - 1) % 8) + 3) (4 * ((n - 1) % 8)) k) d

theorem moveCell_some {n k : Nat} {d : Dev} (h : freeEngine d = some k) : moveCell n d = moved n (assigned n k d) := by
  unfold moveCell
  rw [h]
  rfl

/-- The cell assigned has its new engine, and no other cell changes its own. -/
theorem engineOf_assigned {n m k : Nat} (hn : 1 ≤ n) (hm : 1 ≤ m) (hk : k < 16) (d : Dev) :
    engineOf (assigned n k d) m = if m = n then k else engineOf d m := by
  rw [engineOf, regFld, assigned, reg_hwStand]
  by_cases hreg : (m - 1) / 8 = (n - 1) / 8
  · rw [if_pos (by rw [hreg]), fld_nibble_mergeBits (by omega) (by omega) hk, ← hreg]
    exact if_congr (by omega) rfl rfl
  · rw [if_neg (by omega), if_neg (fun h : m = n => hreg (h ▸ rfl))]
    rfl

theorem engineOf_moved (n m : Nat) (d : Dev) : engineOf (moved n d) m = engineOf d m := (frame_withEng ..).engineOf m

theorem mem_rebal_moved (n : Nat) (d : Dev) : n ∈ (moved n d).en.rebal := by
  change n ∈ if n ∈ d.en.rebal then d.en.rebal else d.en.rebal ++ [n]
  split
  · assumption
  · simp

theorem mem_upFrom {lo n m : Nat} : m ∈ upFrom lo n ↔ lo ≤ m ∧ m < lo + n := by
  induction n generalizing lo with
  | zero => simp [upFrom]
  | succ n ih =>
    rw [upFrom, List.mem_cons, ih]
    omega

/-- The engine that takes a cell is healthy, has room, and has the fewest cells of those that have (R166, log 46). -/
theorem freeEngine_some {d : Dev} {k : Nat} (h : freeEngine d = some k) :
    k < 16 ∧ engineFailed d k = false ∧ (servedBy d k).length < 8 ∧
      ∀ j < 16, engineFailed d j = false → (servedBy d j).length < 8 → (servedBy d k).length ≤ (servedBy d j).length := by
  have hmay : ∀ j, j ∈ (upFrom 0 16).filter (fun k => !engineFailed d k && decide ((servedBy d k).length < 8)) ↔
      j < 16 ∧ engineFailed d j = false ∧ (servedBy d j).length < 8 := fun j => by simp [mem_upFrom]
  obtain ⟨hk, hfailed, hroom⟩ := (hmay k).1 (List.mem_of_find?_eq_some h)
  refine ⟨hk, hfailed, hroom, fun j hj hjf hjr => ?_⟩
  have hleast : List.all _ _ = true := List.find?_some (p := fun k => List.all _ _) h
  exact of_decide_eq_true (List.all_eq_true.1 hleast j ((hmay j).2 ⟨hj, hjf, hjr⟩))

/-! ### An engine fails (R166) -/

theorem moveCell_failed (n : Nat) (d : Dev) : (moveCell n d).en.failed = d.en.failed := by
  unfold moveCell
  split <;> rfl

theorem moveCell_ev (n : Nat) (d : Dev) : (moveCell n d).ev = d.ev := by
  unfold moveCell
  split <;> rfl

/-- What no move of a cell changes, rebalancing does not. -/
theorem rebalance_kept {β : Type} {view : Dev → β} (h : ∀ n d, view (moveCell n d) = view d) (cells : List Nat) (d : Dev) :
    view (rebalance cells d) = view d := by
  unfold rebalance
  split
  · exact each_kept (fun n _ => h n) d
  · rfl

/-- Engine k is noted as failed, and a job with a cell of it as one that met a fault. -/
def failNoted (k : Nat) (d : Dev) : Dev :=
  withEng (fun e => { e with
    failed := e.failed + 2 ^ k
    imp := e.imp.map (fun j => if (maskCells j.mask).any (fun n => decide (n ∈ servedBy d k)) then { j with fault := true } else j) }) d

/-- The failure noted and counted. -/
def failCounted (k cause : Nat) (d : Dev) : Dev := occur 23 k 0x0E01 [BitVec.ofNat 8 cause] (failNoted k d)

theorem engineFail_healthy {k : Nat} {d : Dev} (hk : k < 16) (h : engineFailed d k = false) (cause : Nat) :
    engineFail k cause d = rebalance (servedBy d k) (failCounted k cause d) := if_pos (by simp [hk, h])

theorem engineFail_failed {k : Nat} {d : Dev} (h : engineFailed d k = true) (cause : Nat) : engineFail k cause d = d := if_neg (by simp [h])

theorem frame_failNoted (k : Nat) (d : Dev) : ChangesOnly [.en] [] d (failNoted k d) := frame_withEng ..

theorem frame_failCounted (k cause : Nat) (d : Dev) : ChangesOnly (.en :: evParts) [R.ringCnt] d (failCounted k cause d) :=
  (frame_failNoted k d).mono.trans (frame_occur ..).mono

theorem failCounted_en (k cause : Nat) (d : Dev) : (failCounted k cause d).en = (failNoted k d).en := (frame_occur ..).1 .en (by decide)

theorem engineFailed_congr {a b : Dev} (h : b.en.failed = a.en.failed) (k : Nat) : engineFailed b k = engineFailed a k := by
  rw [engineFailed, h, engineFailed]

theorem engineFailed_failNoted {k : Nat} {d : Dev} (hk : k < 16) (h : engineFailed d k = false) (j : Nat) :
    engineFailed (failNoted k d) j = (decide (j = k) || engineFailed d j) := bit_ofNat_add_two_pow (by omega) h j

/-- Of the engines the one that fails becomes a failed one. -/
theorem engineFailed_engineFail {k : Nat} {d : Dev} (hk : k < 16) (h : engineFailed d k = false) (cause j : Nat) :
    engineFailed (engineFail k cause d) j = (decide (j = k) || engineFailed d j) := by
  have hmap : (engineFail k cause d).en.failed = (failNoted k d).en.failed := by
    rw [engineFail_healthy hk h, rebalance_kept (view := fun e => e.en.failed) moveCell_failed, failCounted_en]
  rw [engineFailed_congr hmap, engineFailed_failNoted hk h]

theorem level_engineFail {k : Nat} {d : Dev} (hk : k < 16) (h : engineFailed d k = false) (cause : Nat) :
    level (engineFail k cause d) 23 k = satNat 255 (level d 23 k + 1) := by
  rw [engineFail_healthy hk h, level_congr (congrArg Events.lvl (rebalance_kept moveCell_ev ..)), failCounted, level_occur,
    (frame_failNoted k d).level]

/-- Without AUTO_REBALANCE the failure is noted and counted, and no cell moves. -/
theorem engineFail_stays {k : Nat} {d : Dev} (hk : k < 16) (h : engineFailed d k = false) (ha : regBit d R.engCtrl 1 = false) (cause : Nat) :
    engineFail k cause d = failCounted k cause d := by
  rw [engineFail_healthy hk h]
  exact if_neg (by rw [(frame_failCounted k cause d).regBit 1, ha]; simp)

/-- A cause of 3 needs an engine that serves a cell and whose checkpoint is late. -/
theorem checkpointMissed_fails {k cause : Nat} {d : Dev}
    (h : cause = 3 → servedBy d k ≠ [] ∧ msT 300 ≤ since (kget d.ca.laneAt d.en.wrote k) d.now) :
    checkpointMissed k cause d = engineFail k cause d := by
  unfold checkpointMissed
  split
  · next hc =>
    obtain ⟨hserves, hlate⟩ := h hc
    subst hc
    exact if_pos (by simp [hserves, ckptLate, hlate])
  · rfl

theorem checkpointMissed_idle {k cause : Nat} {d : Dev}
    (h : engineFailed d k = true ∨ (cause = 3 ∧ (servedBy d k = [] ∨ since (kget d.ca.laneAt d.en.wrote k) d.now < msT 300))) :
    checkpointMissed k cause d = d := by
  unfold checkpointMissed
  rcases h with hf | ⟨hc, hnot⟩
  · simp only [engineFail_failed hf, ite_self]
  · rw [if_pos hc]
    refine if_neg ?_
    rcases hnot with hnone | hearly
    · simp [hnone]
    · simp [ckptLate, hearly]

end Sys2Proof.Machine
end

section
/-! SUPPORT. The engines at work (file 06): what samples and a replay leave of the assignment, the checkpoints and the trackers of other cells, and
what a checkpoint writes. -/

namespace Sys2Proof.Machine

/-- Read after write in a map with one default. -/
theorem kget_after_kset {α : Type} [DecidableEq α] (c : α) (m : List (Nat × α)) (k : Nat) (v : α) (i : Nat) :
    kget c (kset c m k v) i = if i = k then v else kget c m i := mget_mset ..

/-! ### Work on samples (R160 to R165) -/

/-- What the engines hold besides jobs, samples and trackers: failures, checkpoints, and the replays that run. -/
def Eng.duty (e : Eng) : Nat × List (Nat × Time) × List (Nat × Ckpt) × List Nat := (e.failed, e.wrote, e.ckpt, e.rebal)

/-- From device a to device b the engines have worked on samples, and of the trackers only those of the cells in P have changed. -/
structure EnginesWork (P : Nat → Prop) (a b : Dev) : Prop where
  frame : ChangesOnly [.en, .free] [] a b
  duty : b.en.duty = a.en.duty
  track : ∀ m, ¬ P m → kget none b.en.track m = kget none a.en.track m

theorem EnginesWork.refl (P : Nat → Prop) (a : Dev) : EnginesWork P a a := ⟨.refl .., rfl, fun _ _ => rfl⟩

theorem EnginesWork.trans {P : Nat → Prop} {a b c : Dev} (h : EnginesWork P a b) (k : EnginesWork P b c) : EnginesWork P a c :=
  ⟨h.frame.trans k.frame, k.duty.trans h.duty, fun m hm => (k.track m hm).trans (h.track m hm)⟩

theorem EnginesWork.mono {P Q : Nat → Prop} {a b : Dev} (h : EnginesWork P a b) (hpq : ∀ m, P m → Q m) : EnginesWork Q a b :=
  ⟨h.frame, h.duty, fun m hm => h.track m fun hp => hm (hpq m hp)⟩

theorem EnginesWork.each {α : Type} {P : Nat → Prop} {f : α → Dev → Dev} {l : List α} (h : ∀ x ∈ l, ∀ d, EnginesWork P d (f x d)) (d : Dev) :
    EnginesWork P d (each f l d) := by
  induction l generalizing d with
  | nil => exact .refl ..
  | cons x r ih => exact (h x (by simp) d).trans (ih (fun y hy => h y (by simp [hy])) _)

/-- A change of the engines' fields that concerns neither duty nor trackers. -/
theorem enginesWork_withEng {P : Nat → Prop} {f : Eng → Eng} {d : Dev} (hd : (f d.en).duty = d.en.duty) (ht : (f d.en).track = d.en.track) :
    EnginesWork P d (withEng f d) := ⟨(frame_withEng f d).mono, hd, fun m _ => congrArg (kget none · m) ht⟩

theorem enginesWork_meanNtc (P : Nat → Prop) (d : Dev) : EnginesWork P d (meanNtc d).2 := by
  unfold meanNtc
  split
  · exact .refl ..
  · exact ⟨(frame_freeWord d).mono, rfl, fun _ _ => rfl⟩

theorem enginesWork_setTrack (n : Nat) (x : Track) (d : Dev) : EnginesWork (· = n) d (setTrack n x d) :=
  ⟨(frame_withEng ..).mono, rfl, fun m hm => (kget_after_kset none d.en.track n (some x) m).trans (if_neg hm)⟩

theorem enginesWork_gather (P : Nat → Prop) (g : GridSample) (d : Dev) : EnginesWork P d (gather g d) := by
  unfold gather
  split
  · exact .refl ..
  · exact enginesWork_withEng rfl rfl

theorem enginesWork_trackSample (g : GridSample) (d : Dev) : EnginesWork (· = g.cell) d (trackSample g d) := by
  unfold trackSample
  split
  · exact .refl ..
  · dsimp only
    split
    · exact enginesWork_setTrack ..
    · split
      · exact enginesWork_setTrack ..
      · split
        · exact (enginesWork_meanNtc ..).trans (enginesWork_setTrack ..)
        · exact enginesWork_setTrack ..

theorem enginesWork_engineTake (g : GridSample) (d : Dev) : EnginesWork (· = g.cell) d (engineTake g d) := by
  unfold engineTake
  split
  · exact (enginesWork_gather ..).trans (enginesWork_trackSample ..)
  · exact .refl ..

/-- The engines work through the samples at hand. -/
theorem enginesWork_engineRun (l : List EngSample) (d : Dev) : EnginesWork (fun _ => True) d (engineRun l d) := by
  unfold engineRun
  dsimp only
  refine .trans ?_ (enginesWork_withEng rfl rfl)
  refine (enginesWork_withEng (d := d) rfl rfl).trans (.each (fun g _ e => ?_) _)
  exact (enginesWork_engineTake g e).mono fun _ _ => trivial

theorem EnginesWork.failed {P : Nat → Prop} {a b : Dev} (h : EnginesWork P a b) : b.en.failed = a.en.failed := congrArg (·.1) h.duty

theorem EnginesWork.wrote {P : Nat → Prop} {a b : Dev} (h : EnginesWork P a b) : b.en.wrote = a.en.wrote := congrArg (·.2.1) h.duty

theorem EnginesWork.ckpt {P : Nat → Prop} {a b : Dev} (h : EnginesWork P a b) : b.en.ckpt = a.en.ckpt := congrArg (·.2.2.1) h.duty

theorem EnginesWork.rebal {P : Nat → Prop} {a b : Dev} (h : EnginesWork P a b) : b.en.rebal = a.en.rebal := congrArg (·.2.2.2) h.duty

theorem EnginesWork.now {P : Nat → Prop} {a b : Dev} (h : EnginesWork P a b) : b.now = a.now := h.frame.1 .now (by decide)

/-! ### Checkpoints (R163) -/

/-- From device a to device b engines have written checkpoints. -/
structure WritesCkpts (a b : Dev) : Prop where
  frame : ChangesOnly [.en] [] a b
  en : b.en = { a.en with wrote := b.en.wrote, ckpt := b.en.ckpt }

theorem WritesCkpts.refl (a : Dev) : WritesCkpts a a := ⟨.refl .., rfl⟩

theorem WritesCkpts.trans {a b c : Dev} (h : WritesCkpts a b) (k : WritesCkpts b c) : WritesCkpts a c :=
  ⟨h.frame.trans k.frame, k.en.trans (by rw [h.en])⟩

theorem WritesCkpts.each {α : Type} {f : α → Dev → Dev} (h : ∀ x d, WritesCkpts d (f x d)) (l : List α) (d : Dev) : WritesCkpts d (each f l d) :=
  each_fst (P := WritesCkpts d) f (fun x e he => he.trans (h x e)) l d (.refl d)

/-- A view that each element x of a list with P x brings to v, and every other one leaves, while checkpoints are written. -/
theorem each_writes {α β : Type} {f : α → Dev → Dev} (hf : ∀ x e, WritesCkpts e (f x e)) {view : Dev → β} {P : α → Prop} [DecidablePred P]
    {v : β} {d : Dev} (h : ∀ x e, WritesCkpts d e → view (f x e) = if P x then v else view e) (l : List α) :
    view (each f l d) = if ∃ x ∈ l, P x then v else view d := by
  have hall : ∀ e, WritesCkpts d e → view (each f l e) = if ∃ x ∈ l, P x then v else view e := by
    induction l with
    | nil => exact fun e _ => by simp [each]
    | cons x r ih =>
      intro e he
      rw [each, ih _ (he.trans (hf x e)), h x e he]
      by_cases hx : P x <;> simp [hx]
  exact hall d (.refl d)

section
variable {a b : Dev} (h : WritesCkpts a b)
include h

theorem WritesCkpts.now : b.now = a.now := h.frame.1 .now (by decide)

theorem WritesCkpts.rebal : b.en.rebal = a.en.rebal := by rw [h.en]

theorem WritesCkpts.imp : b.en.imp = a.en.imp := by rw [h.en]

theorem WritesCkpts.track : b.en.track = a.en.track := by rw [h.en]

theorem WritesCkpts.engineFailed (k : Nat) : engineFailed b k = engineFailed a k := engineFailed_congr (by rw [h.en]) k

theorem WritesCkpts.ckptNow (n : Nat) : ckptNow b n = ckptNow a n := by
  simp only [Machine.ckptNow, gotOf, h.now, h.imp, h.track]

end

/-- The checkpoint of one cell; a cell whose replay runs keeps its own. -/
def cellCkpt (n : Nat) (d : Dev) : Dev :=
  if n ∈ d.en.rebal then d else withEng (fun e => { e with ckpt := kset Ckpt.init e.ckpt n (ckptNow d n) }) d

theorem writesCkpts_cellCkpt (n : Nat) (d : Dev) : WritesCkpts d (cellCkpt n d) := by
  unfold cellCkpt
  split
  · exact .refl d
  · exact ⟨frame_withEng .., rfl⟩

theorem ckpt_cellCkpt (m n : Nat) (d : Dev) : kget Ckpt.init (cellCkpt m d).en.ckpt n =
    if m = n ∧ n ∉ d.en.rebal then ckptNow d n else kget Ckpt.init d.en.ckpt n := by
  unfold cellCkpt
  by_cases hn : m = n
  · subst hn
    split
    · next hm => simp [hm]
    · next hm =>
      rw [if_pos ⟨rfl, hm⟩]
      exact (kget_after_kset ..).trans (if_pos rfl)
  · rw [if_neg fun h : m = n ∧ _ => hn h.1]
    split
    · rfl
    · exact (kget_after_kset ..).trans (if_neg (Ne.symm hn))

/-- The cells of engine k have their checkpoints. -/
def cellsCkpt (k : Nat) (d : Dev) : Dev := each cellCkpt (servedBy d k) d

theorem writesCkpts_cellsCkpt (k : Nat) (d : Dev) : WritesCkpts d (cellsCkpt k d) := .each writesCkpts_cellCkpt ..

theorem wrote_cellsCkpt (k : Nat) (d : Dev) : (cellsCkpt k d).en.wrote = d.en.wrote :=
  each_kept (view := fun e : Dev => e.en.wrote) (fun n _ e => by unfold cellCkpt; split <;> rfl) d

theorem ckpt_cellsCkpt (k n : Nat) (d : Dev) : kget Ckpt.init (cellsCkpt k d).en.ckpt n =
    if n ∈ servedBy d k ∧ n ∉ d.en.rebal then ckptNow d n else kget Ckpt.init d.en.ckpt n := by
  have hall := each_writes writesCkpts_cellCkpt (view := fun e => kget Ckpt.init e.en.ckpt n) (P := fun m => m = n ∧ n ∉ d.en.rebal)
    (v := ckptNow d n) (d := d) (fun m e he => by rw [ckpt_cellCkpt, he.rebal, he.ckptNow]) (servedBy d k)
  exact hall.trans (if_congr (by simp) rfl rfl)

theorem writeCkpt_healthy {k : Nat} {d : Dev} (hk : k < 16) (h : engineFailed d k = false) :
    writeCkpt k d = withEng (fun e => { e with wrote := kset 0 e.wrote k (cellsCkpt k d).now }) (cellsCkpt k d) := if_pos (by simp [hk, h])

theorem writeCkpt_idle {k : Nat} {d : Dev} (h : ¬ (k < 16 ∧ engineFailed d k = false)) : writeCkpt k d = d := if_neg (by simpa using h)

theorem writesCkpts_writeCkpt (k : Nat) (d : Dev) : WritesCkpts d (writeCkpt k d) := by
  by_cases h : k < 16 ∧ engineFailed d k = false
  · rw [writeCkpt_healthy h.1 h.2]
    exact (writesCkpts_cellsCkpt k d).trans ⟨frame_withEng .., rfl⟩
  · rw [writeCkpt_idle h]
    exact .refl d

theorem wrote_writeCkpt (j k : Nat) (d : Dev) : kget 0 (writeCkpt j d).en.wrote k =
    if j = k ∧ k < 16 ∧ engineFailed d k = false then d.now else kget 0 d.en.wrote k := by
  by_cases h : j < 16 ∧ engineFailed d j = false
  · rw [writeCkpt_healthy h.1 h.2]
    refine (kget_after_kset ..).trans ?_
    rw [wrote_cellsCkpt, (writesCkpts_cellsCkpt j d).now]
    exact if_congr ⟨fun hk => ⟨hk.symm, hk ▸ h⟩, fun hk => hk.1.symm⟩ rfl rfl
  · rw [writeCkpt_idle h, if_neg]
    rintro ⟨rfl, hk⟩
    exact h hk

theorem ckpt_writeCkpt (k n : Nat) (d : Dev) : kget Ckpt.init (writeCkpt k d).en.ckpt n =
    if k < 16 ∧ engineFailed d k = false ∧ n ∈ servedBy d k ∧ n ∉ d.en.rebal then ckptNow d n else kget Ckpt.init d.en.ckpt n := by
  by_cases h : k < 16 ∧ engineFailed d k = false
  · obtain ⟨hk, hf⟩ := h
    rw [writeCkpt_healthy hk hf]
    refine (ckpt_cellsCkpt k n d).trans ?_
    simp [hk, hf]
  · rw [writeCkpt_idle h, if_neg fun ⟨hk, hf, _⟩ => h ⟨hk, hf⟩]

theorem writesCkpts_each (l : List Nat) (d : Dev) : WritesCkpts d (each writeCkpt l d) := .each writesCkpts_writeCkpt ..

/-- Each healthy engine of the list has written now. -/
theorem wrote_each_writeCkpt (l : List Nat) (d : Dev) (k : Nat) : kget 0 (each writeCkpt l d).en.wrote k =
    if k ∈ l ∧ k < 16 ∧ engineFailed d k = false then d.now else kget 0 d.en.wrote k := by
  have hall := each_writes writesCkpts_writeCkpt (view := fun e => kget 0 e.en.wrote k) (P := fun j => j = k ∧ k < 16 ∧ engineFailed d k = false)
    (v := d.now) (d := d) (fun j e he => by rw [wrote_writeCkpt, he.engineFailed, he.now]) l
  exact hall.trans (if_congr (by simp) rfl rfl)

/-- Each cell of those engines has its checkpoint, but one whose replay runs. -/
theorem ckpt_each_writeCkpt (l : List Nat) (d : Dev) (n : Nat) : kget Ckpt.init (each writeCkpt l d).en.ckpt n =
    if ∃ k ∈ l, k < 16 ∧ engineFailed d k = false ∧ n ∈ servedBy d k ∧ n ∉ d.en.rebal then ckptNow d n else kget Ckpt.init d.en.ckpt n :=
  each_writes writesCkpts_writeCkpt (view := fun e => kget Ckpt.init e.en.ckpt n)
    (P := fun k => k < 16 ∧ engineFailed d k = false ∧ n ∈ servedBy d k ∧ n ∉ d.en.rebal) (v := ckptNow d n) (d := d)
    (fun k e he => by rw [ckpt_writeCkpt, he.engineFailed, he.frame.servedBy, he.rebal, he.ckptNow]) l

/-! ### The end of a replay (R165) -/

theorem enginesWork_putGot (P : Nat → Prop) (n : Nat) (l : List (Nat × Gathered)) (d : Dev) : EnginesWork P d (putGot n l d) :=
  enginesWork_withEng rfl rfl

theorem enginesWork_loseSamples (P : Nat → Prop) (n : Nat) (l : List Nat) (d : Dev) : EnginesWork P d (loseSamples n l d) := by
  refine .each (fun T _ e => ?_) d
  split
  · exact enginesWork_putGot ..
  · exact .refl ..

/-- What the job had gathered of cell n is that of the cell's checkpoint again. -/
def gotLoaded (n : Nat) (d : Dev) : Dev := putGot n ((gotOf d n).map (fun p => (p.1, kget Gathered.init (ckptOf d n).got p.1))) d

/-- The checkpoint of cell n is loaded, and its replay is over. -/
def ckptLoaded (n : Nat) (d : Dev) : Dev :=
  withEng (fun e => { e with
    track := if (ckptOf d n).track.isNone then e.track else kset none e.track n (ckptOf d n).track
    rebal := e.rebal.filter (fun k => k ≠ n) }) (gotLoaded n d)

/-- Samples of cell n that lie after its checkpoint, and that the engines have worked through. -/
def toReplay (n : Nat) (c : Ckpt) (d : Dev) : List GridSample :=
  d.en.volts.filter (fun g => g.cell == n && decide (c.inst.toNat < g.inst.toNat) && decide (g.inst.toNat ≤ d.en.upTo.toNat))

/-- Cell n as it was lost and is replayed. -/
def replayed (n : Nat) (d : Dev) : Dev :=
  each engineTake (toReplay n (ckptOf d n) (loseSamples n (lostInstants d n) (ckptLoaded n d)))
    (loseSamples n (lostInstants d n) (ckptLoaded n d))

theorem replayDone_live {n : Nat} {d : Dev} (hn : n ∈ d.en.rebal) (hf : engineFailed d (engineOf d n) = false) (x : List EngSample) :
    replayDone n x d = if (lostInstants (engineRun x d) n).isEmpty then replayed n (engineRun x d)
      else occur 24 0 0x0E02 (BitVec.ofNat 8 n :: leBytes 4 (lostInstants (engineRun x d) n).length) (replayed n (engineRun x d)) :=
  if_pos (by simp [hn, hf])

theorem replayDone_idle {n : Nat} {d : Dev} (h : n ∉ d.en.rebal ∨ engineFailed d (engineOf d n) = true) (x : List EngSample) :
    replayDone n x d = d := if_neg (by rcases h with h | h <;> simp [h])

theorem rebal_ckptLoaded (n : Nat) (d : Dev) : (ckptLoaded n d).en.rebal = d.en.rebal.filter (fun k => k ≠ n) := rfl

theorem track_ckptLoaded {n m : Nat} (h : m ≠ n) (d : Dev) : kget none (ckptLoaded n d).en.track m = kget none d.en.track m := by
  unfold ckptLoaded withEng
  dsimp only
  split
  · rfl
  · exact (kget_after_kset ..).trans (if_neg h)

theorem frame_ckptLoaded (n : Nat) (d : Dev) : ChangesOnly [.en, .free] [] d (ckptLoaded n d) :=
  (enginesWork_putGot (fun _ => True) ..).frame.trans (frame_withEng ..).mono

/-- Lost samples and replayed ones concern the tracker of the cell alone. -/
theorem enginesWork_replayed (n : Nat) (d : Dev) : EnginesWork (· = n) (ckptLoaded n d) (replayed n d) := by
  refine (enginesWork_loseSamples ..).trans (.each (fun g hg e => ?_) _)
  obtain ⟨-, ⟨hcell, -⟩, -⟩ : g ∈ _ ∧ (g.cell = n ∧ _) ∧ _ := by simpa only [toReplay, List.mem_filter, Bool.and_eq_true, beq_iff_eq] using hg
  exact hcell ▸ enginesWork_engineTake g e

/-- From device a, where the engines have worked so far, the replay of cell n has ended in device b. -/
structure Replayed (n : Nat) (a b : Dev) : Prop where
  frame : ChangesOnly ([.en, .free] ++ evParts) [R.ringCnt] a b
  rebal : b.en.rebal = a.en.rebal.filter (fun k => k ≠ n)
  track : ∀ m, m ≠ n → kget none b.en.track m = kget none a.en.track m
  level : level b 24 0 = if lostInstants a n = [] then level a 24 0 else satNat 255 (level a 24 0 + 1)

theorem frame_replayed (n : Nat) (d : Dev) : ChangesOnly [.en, .free] [] d (replayed n d) :=
  (frame_ckptLoaded n d).trans (enginesWork_replayed n d).frame

theorem rebal_replayed (n : Nat) (d : Dev) : (replayed n d).en.rebal = d.en.rebal.filter (fun k => k ≠ n) :=
  (enginesWork_replayed n d).rebal.trans (rebal_ckptLoaded n d)

theorem track_replayed {n m : Nat} (h : m ≠ n) (d : Dev) : kget none (replayed n d).en.track m = kget none d.en.track m :=
  ((enginesWork_replayed n d).track m h).trans (track_ckptLoaded h d)

/-- Lost samples count where there are any. -/
theorem replayed_replayDone {n : Nat} {d : Dev} (hn : n ∈ d.en.rebal) (hf : engineFailed d (engineOf d n) = false) (x : List EngSample) :
    Replayed n (engineRun x d) (replayDone n x d) := by
  have hframe := frame_replayed n (engineRun x d)
  rw [replayDone_live hn hf]
  by_cases hl : lostInstants (engineRun x d) n = []
  · rw [if_pos (List.isEmpty_iff.2 hl)]
    exact ⟨hframe.mono, rebal_replayed .., fun m hm => track_replayed hm _, by rw [if_pos hl, hframe.level]⟩
  · rw [if_neg (by rwa [List.isEmpty_iff])]
    have hen : ∀ data e, (occur 24 0 0x0E02 data e).en = e.en := fun data e => (frame_occur ..).1 .en (by decide)
    refine ⟨hframe.mono.trans (frame_occur ..).mono, ?_, fun m hm => ?_, ?_⟩
    · rw [hen, rebal_replayed]
    · rw [hen, track_replayed hm]
    · rw [level_occur, hframe.level, if_neg hl]

theorem replayDone_ex (n : Nat) (x : List EngSample) (d : Dev) : (replayDone n x d).ex = d.ex := by
  by_cases h : n ∈ d.en.rebal ∧ engineFailed d (engineOf d n) = false
  · exact ((replayed_replayDone h.1 h.2 x).frame.1 .ex (by decide)).trans ((enginesWork_engineRun x d).frame.1 .ex (by decide))
  · rw [replayDone_idle ((not_and_or.1 h).imp_right eq_true_of_ne_false)]

/-! ### The statement -/

theorem engineCheckpoint_spec {s : State} {t : Time} {l : List Nat} {x : List EngSample} {d : Dev} (hd : d = tick t s.dev) (ha : d.awake = true)
    (calm : Calm d) :
    (d.now.toNat % msT 100 ≠ 0 → exec (.engineCheckpoint t l x) s = .next { s with dev := engineRun x d }) ∧
    (d.now.toNat % msT 100 = 0 → exec (.engineCheckpoint t l x) s = .next { s with dev := each writeCkpt l (engineRun x d) }) := by
  have hrun := enginesWork_engineRun x d
  refine ⟨fun h => ?_, fun h => ?_⟩
  · have heff : checkpoint l x d = engineRun x d := if_neg (by rwa [hrun.now])
    exact heff ▸ actAwake_calm (checkpoint l x) hd ha (heff ▸ hrun.frame.calm calm)
  · have heff : checkpoint l x d = each writeCkpt l (engineRun x d) := if_pos (by rwa [hrun.now])
    exact heff ▸ actAwake_calm (checkpoint l x) hd ha (heff ▸ (writesCkpts_each ..).frame.calm (hrun.frame.calm calm))

/-- Settles O32: checkpoints change nothing that decides whose they are, so each is that of the present; a failure sets the engine's bit of FAILED and
counts, and moving cells changes neither; what comes after a replay's cell left the list of replays concerns that cell alone. -/
theorem enginesFailAndMove : Obligations.EnginesFailAndMove := by
  unfold Obligations.EnginesFailAndMove
  refine ⟨?_, ?_, ?_, ?_⟩
  · intro s t l x d d' hd ha calm hd'
    subst hd'
    have hrun := enginesWork_engineRun x d
    have hfailed := engineFailed_congr hrun.failed
    have hserved := hrun.frame.servedBy
    have hw := writesCkpts_each l (engineRun x d)
    obtain ⟨hidle, hwrite⟩ := engineCheckpoint_spec (l := l) (x := x) hd ha calm
    refine ⟨hidle, fun h => ⟨_, hwrite h, fun k => ?_, fun k n hk h16 hf hn hr => ?_, fun n hn => ?_, hw.track, hw.imp, ?_, rfl⟩⟩
    · rw [wrote_each_writeCkpt, hfailed, hrun.now, hrun.wrote]
    · rw [ckpt_each_writeCkpt, if_pos ⟨k, hk, h16, by rwa [hfailed], by rwa [hserved], by rwa [hrun.rebal]⟩]
    · rw [ckpt_each_writeCkpt, if_neg, hrun.ckpt]
      rintro ⟨k, hk, -, -, hs, -⟩
      exact hn k hk (hserved k ▸ hs)
    · exact hrun.frame.trans hw.frame.mono
  · intro s t k cause d hd ha calm hk
    refine ⟨fun h => actAwake_idle (checkpointMissed k cause) hd ha calm (checkpointMissed_idle h), fun hf _ hc => ?_⟩
    have heff := checkpointMissed_fails hc
    obtain ⟨u, hu, hp, hev⟩ := actAwake_posted (checkpointMissed k cause) hd ha (by rw [heff, engineFail_ex]; exact calm.2)
    rw [heff] at hp
    have hen : u.dev.en = (engineFail k cause d).en := hp.frame.1 .en (by decide)
    refine ⟨u, hu, fun j => ?_, ?_, fun hauto => ?_, hev⟩
    · rw [engineFailed_congr (congrArg Eng.failed hen), engineFailed_engineFail hk hf]
    · rw [hp.level, level_engineFail hk hf]
    · rw [engineFail_stays hk hf hauto] at hp hen
      exact ⟨(frame_failCounted k cause d).mono.trans hp.frame.mono, by rw [hen, failCounted_en]; rfl⟩
  · intro d n k h1 h32 hfree
    obtain ⟨hk, hf, hroom, hleast⟩ := freeEngine_some hfree
    rw [moveCell_some hfree]
    refine ⟨hk, hf, hroom, hleast, ?_, mem_rebal_moved .., fun m hm _ hne => ?_⟩
    · rw [engineOf_moved, engineOf_assigned h1 h1 hk, if_pos rfl]
    · rw [engineOf_moved, engineOf_assigned h1 hm hk, if_neg hne]
  · intro s t n x d d' hd ha calm hd'
    subst hd'
    refine ⟨fun h => actAwake_idle (replayDone n x) hd ha calm (replayDone_idle h x), fun hn hf => ?_⟩
    have hrun := enginesWork_engineRun x d
    have hrep := replayed_replayDone hn hf x
    obtain ⟨u, hu, hp, hev⟩ := actAwake_posted (replayDone n x) hd ha (by rw [replayDone_ex]; exact calm.2)
    have hen : u.dev.en = (replayDone n x d).en := hp.frame.1 .en (by decide)
    refine ⟨u, hu, ?_, fun m hm => ?_, ?_, ?_, hev⟩
    · rw [hen, hrep.rebal, hrun.rebal]
    · rw [hen, hrep.track m hm]
    · rw [hp.level, hrep.level, hrun.frame.level]
    · exact (hrun.frame.mono.trans hrep.frame.mono).trans hp.frame.mono

end Sys2Proof.Machine
end

section
/-! SUPPORT. BAL_STOP in a stack device at the ring time at which an online test completes the command of its handle (files 07 and 14). -/

namespace Sys2Proof.Machine

/-- BAL_STOP of both plans. -/
def stopBothPlans : Desc := 0x21 :: 0 :: 2 :: List.replicate 13 0

/-- Under handle 7 it ends nothing in `groupTested`: the SELFTEST has ended there before it. -/
theorem groupTested_balStop {u : State} (hu : exec (.balStop groupTestEnd 7 stopBothPlans) groupTested = .next u) :
    u.dev.ex.results = groupTestResults := by
  obtain rfl := Host.Outcome.next.inj hu
  decide +kernel

/-- Refutes O24 in its clause on BAL_STOP: `Finished` asks for BAL_STOP's result, without bytes, under a handle that was held before ring time
passed. Where the SELFTEST of that handle ends at the same ring time, the result held is the SELFTEST's four bytes. -/
theorem not_balPlansInstallAndStop : ¬ Obligations.BalPlansInstallAndStop := by
  unfold Obligations.BalPlansInstallAndStop
  rintro ⟨-, hstop⟩
  obtain ⟨calm, -, -⟩ := groupTested_ended
  obtain ⟨u, hu, hfin, -⟩ := hstop groupTested groupTestEnd 7 stopBothPlans _ rfl (by decide +kernel) calm rfl (by decide)
  obtain ⟨-, hbytes⟩ := groupTested_finished hfin (groupTested_balStop hu)
  exact absurd hbytes (by decide)

end Sys2Proof.Machine
end

section
/-! SUPPORT. What the balancing block's update leaves of the plans, of the thermal manager's readings and of the cells' states (file 07). -/

namespace Sys2Proof.Machine

/-! ### What the update leaves (R82, R204, R209) -/

/-- The balancing block without its cells, step tests, K, power request and charge. -/
def Bal.still (b : Bal) : Bal :=
  { b with cells := [], test := none, voids := 0, voidTo := 0, tests := [], k := 0, pReq := 0, owed := [], qsub := [] }

/-- A cell without its mark of running. -/
def BalCell.unmarked (c : BalCell) : BalCell := { c with was := false }

/-- From device a to device b the balancing block's still fields, and what the plan keeps of every cell but its mark of running, are as they
were. -/
structure CellsKept (a b : Dev) : Prop where
  still : b.ba.still = a.ba.still
  cell : ∀ n, (balCell b n).unmarked = (balCell a n).unmarked

theorem CellsKept.trans {a b c : Dev} (h : CellsKept a b) (k : CellsKept b c) : CellsKept a c :=
  ⟨k.still.trans h.still, fun n => (k.cell n).trans (h.cell n)⟩

theorem CellsKept.of_ba {a b : Dev} (h : b.ba = a.ba) : CellsKept a b := ⟨by rw [h], fun n => by rw [balCell, h, ← balCell]⟩

theorem CellsKept.ite {p : Prop} [Decidable p] {a b c : Dev} (h : CellsKept a b) (k : CellsKept a c) :
    CellsKept a (if p then b else c) := by split <;> assumption

theorem CellsKept.each {α : Type} {f : α → Dev → Dev} (h : ∀ x d, CellsKept d (f x d)) (l : List α) (d : Dev) :
    CellsKept d (each f l d) := each_fst (P := CellsKept d) f (fun x e he => he.trans (h x e)) l d (.of_ba rfl)

/-- The mark of running is not among what is kept. -/
theorem cellsKept_mark (n : Nat) (w : BalCell → Bool) (d : Dev) : CellsKept d (withBal n (fun c => { c with was := w c }) d) :=
  ⟨rfl, fun k => by
    rw [balCell_withBal]
    split
    · next h => rw [h]; rfl
    · rfl⟩

theorem cellsKept_endTest (d : Dev) : CellsKept d (endTest d) := by
  unfold endTest
  split <;> exact ⟨rfl, fun _ => rfl⟩

theorem cellsKept_nextTest (d : Dev) : CellsKept d (nextTest d) := by
  obtain ⟨e, he, hn⟩ := nextTest_cases d
  have hend : CellsKept d e := by
    rcases he with rfl | rfl
    · exact .of_ba rfl
    · exact cellsKept_endTest d
  rcases hn with h | ⟨j, -, h⟩ <;> rw [h]
  · exact hend
  · exact hend.trans ⟨rfl, fun _ => rfl⟩

theorem cellsKept_setK (d : Dev) : CellsKept d (setK d) := by
  obtain ⟨e, k, q, data, he, h⟩ := setK_cases d
  have hk : CellsKept d (powered k q e) := (CellsKept.of_ba (he.1 .ba (by decide))).trans ⟨rfl, fun _ => rfl⟩
  rcases h with h | h <;> rw [h]
  · exact hk
  · exact hk.trans (.of_ba ((frame_occur ..).1 .ba (by decide)))

theorem cellsKept_balUpdate (d : Dev) : CellsKept d (balUpdate d) := by
  rcases balUpdate_cases d with ⟨-, h⟩ | ⟨-, h⟩ <;> rw [h]
  · exact (cellsKept_endTest d).trans (cellsKept_setK _)
  · have hmarks : CellsKept d (marksDown d) := .each (fun n e => .ite (cellsKept_mark n _ e) (.of_ba rfl)) _ _
    have hheld : CellsKept (marksDown d) (noteHeld (marksDown d)) := .of_ba ((frame_noteHeld _).1 .ba (by decide))
    exact ((hmarks.trans hheld).trans (cellsKept_nextTest _)).trans (cellsKept_setK _)

/-- What a command's update and events leave. -/
theorem PostsOnly.cellsKept {b u : Dev} (hp : PostsOnly (balUpdate b) u) : CellsKept b u :=
  (cellsKept_balUpdate b).trans (.of_ba hp.ba_updated)

section
variable {a b : Dev} (h : CellsKept a b)
include h

theorem CellsKept.plan : b.ba.plan = a.ba.plan := (congrArg Bal.plan h.still :)
theorem CellsKept.excite : b.ba.excite = a.ba.excite := (congrArg Bal.excite h.still :)
theorem CellsKept.planEntry (n : Nat) : planEntry b n = planEntry a n := by rw [Machine.planEntry, h.plan, ← Machine.planEntry]
theorem CellsKept.done (n : Nat) : (balCell b n).done = (balCell a n).done := (congrArg BalCell.done (h.cell n) :)
theorem CellsKept.exp (n : Nat) : (balCell b n).exp = (balCell a n).exp := (congrArg BalCell.exp (h.cell n) :)
theorem CellsKept.hold (n : Nat) : (balCell b n).hold = (balCell a n).hold := (congrArg BalCell.hold (h.cell n) :)
theorem CellsKept.stuck (n : Nat) : (balCell b n).stuck = (balCell a n).stuck := (congrArg BalCell.stuck (h.cell n) :)
theorem CellsKept.tested (n : Nat) : (balCell b n).tested = (balCell a n).tested := (congrArg BalCell.tested (h.cell n) :)
theorem CellsKept.hits (n : Nat) : (balCell b n).hits = (balCell a n).hits := (congrArg BalCell.hits (h.cell n) :)

end

/-! ### Cell states (Table BAL-3) -/

theorem ncells_lt (d : Dev) : ncells d < 64 := Nat.mod_lt _ (by decide)

/-- A configured cell that is neither done nor expired, and that the plan or a job covers, is HELD while its 10 s hold runs (R202). -/
theorem cellState_hold {d : Dev} {n : Nat} (hn : n ≠ 0 ∧ n ≤ ncells d) (hd : (balCell d n).done = false) (he : (balCell d n).exp = false)
    (hc : n ∈ d.ba.excite ∨ (planEntry d n).1 ≠ 0) (hh : (balCell d n).hold.isSome = true) : cellState d n = .held := by
  have hheld : heldCond d n = true := by simp [heldCond, hh]
  simp only [cellState, hd, he, hheld, Bool.false_eq_true, if_false, if_true]
  rw [if_neg (by omega)]
  split
  · rfl
  · next hx => rw [if_neg (hc.resolve_left hx)]

/-- A configured cell that is not done is EXPIRED once its limit has been reached. -/
theorem cellState_expired {d : Dev} {n : Nat} (hn : n ≠ 0 ∧ n ≤ ncells d) (hd : (balCell d n).done = false) (he : (balCell d n).exp = true) :
    cellState d n = .expired := by
  simp only [cellState, hd, he, Bool.false_eq_true, if_false, if_true]
  rw [if_neg (by omega)]

/-- A cell in RUN, HELD or EXCITE is configured, neither done nor expired, and covered by the plan or a job. -/
theorem live_of_cellState {d : Dev} {n : Nat} (h : cellState d n = .run ∨ cellState d n = .held ∨ cellState d n = .excite) :
    (n ≠ 0 ∧ n ≤ ncells d) ∧ (balCell d n).done = false ∧ (balCell d n).exp = false ∧
      (n ∈ d.ba.excite ∨ (planEntry d n).1 ≠ 0) := by
  unfold cellState at h
  dsimp only at h
  by_cases hn : n = 0 ∨ ncells d < n
  · simp [hn] at h
  cases hd : (balCell d n).done
  · cases he : (balCell d n).exp
    · by_cases hx : n ∈ d.ba.excite
      · exact ⟨by omega, rfl, rfl, .inl hx⟩
      · refine ⟨by omega, rfl, rfl, .inr fun hz => ?_⟩
        simp [hn, hd, he, hx, hz] at h
    · simp [hn, hd, he] at h
  · simp [hn, hd] at h

end Sys2Proof.Machine
end

section
/-! SUPPORT. Overcurrent, the 10 s hold, TLIMIT and tracking gaps of one balanced cell (file 07). -/

namespace Sys2Proof.Machine

/-! ### Overcurrent (R205) -/

/-- An overcurrent has charged the conduction so far, begun the hold and counted. -/
def tripped (j ma : Nat) (d : Dev) : Dev :=
  occur 26 (j - 1) 0x0C01 [] (withBal j (fun c => { c with hold := some d.now }) (charge j ma d))

/-- At N the cell is held until a new plan. -/
def trippedHeld (j ma : Nat) (d : Dev) : Dev :=
  if lasting (tripped j ma d) 26 (j - 1) then withBal j (fun c => { c with stuck := true }) (tripped j ma d) else tripped j ma d

theorem overcurrent_eq {j ma us : Nat} {d : Dev} (h1 : 1 ≤ j) (hk : j ≤ ncells d) (hint : extFet d = false) (hma : 450 < ma)
    (hus : 100 ≤ us) (hc : conducts d j = true) : overcurrent j ma us d = balUpdate (trippedHeld j ma d) := by
  refine if_pos ?_
  simp [h1, hk, hint, hma, hus, hc]

theorem overcurrent_idle {j ma us : Nat} {d : Dev} (h : ma ≤ 450 ∨ us < 100 ∨ extFet d = true ∨ conducts d j = false) :
    overcurrent j ma us d = d := by
  refine if_neg ?_
  simp only [Bool.and_eq_true, decide_eq_true_eq, Bool.not_eq_true']
  rintro ⟨⟨⟨⟨-, hint⟩, hma⟩, hus⟩, hc⟩
  simp [hint, hc] at h
  omega

theorem frame_tripped (j ma : Nat) (d : Dev) : ChangesOnly (.ba :: evParts) [qbalOff j, R.ringCnt] d (tripped j ma d) :=
  (((frame_charge ..).mono (by decide) (by simp)).trans ((frame_withBal ..).mono (by decide) (by simp))).trans
    ((frame_occur ..).mono (by decide) (by simp))

theorem frame_trippedHeld (j ma : Nat) (d : Dev) : ChangesOnly (.ba :: evParts) [qbalOff j, R.ringCnt] d (trippedHeld j ma d) :=
  .ite ((frame_tripped ..).trans ((frame_withBal ..).mono (by decide) (by simp))) (frame_tripped ..)

theorem ba_tripped (j ma : Nat) (d : Dev) :
    (tripped j ma d).ba = (withBal j (fun c => { c with hold := some d.now }) (charge j ma d)).ba := (frame_occur ..).1 .ba (by decide)

theorem still_trippedHeld (j ma : Nat) (d : Dev) : (trippedHeld j ma d).ba.still = d.ba.still := by
  have htrip : (tripped j ma d).ba.still = d.ba.still := by rw [ba_tripped]; rfl
  unfold trippedHeld
  split <;> exact htrip

/-- The bucket of balance overcurrent counts, for the switch alone. -/
theorem level_tripped (j ma : Nat) (d : Dev) : level (tripped j ma d) 26 (j - 1) = satNat 255 (level d 26 (j - 1) + 1) := by
  rw [tripped, level_occur]
  rfl

theorem lasting_tripped {j : Nat} (hj : j < 64) (ma : Nat) (d : Dev) :
    lasting (tripped j ma d) 26 (j - 1) = decide (bucketN d 26 ≤ satNat 255 (level d 26 (j - 1) + 1)) := by
  have hoff : evtCfgOff 26 ∉ [qbalOff j, R.ringCnt] := by
    simp only [List.mem_cons, List.not_mem_nil, or_false, not_or]
    unfold evtCfgOff qbalOff R.evtCfgSafe R.balQbal R.ringCnt
    omega
  rw [lasting, level_tripped, bucketN_congr 26 ((frame_tripped j ma d).2 _ hoff)]

/-- The cell after its overcurrent: the hold begins now, and at N it is stuck. -/
theorem balCell_trippedHeld {j : Nat} (hj : j < 64) (ma : Nat) (d : Dev) : balCell (trippedHeld j ma d) j = { balCell d j with
    hold := some d.now, stuck := (balCell d j).stuck || decide (bucketN d 26 ≤ satNat 255 (level d 26 (j - 1) + 1)) } := by
  have htrip : balCell (tripped j ma d) j = { balCell d j with hold := some d.now } := by
    rw [balCell, ba_tripped, ← balCell, balCell_withBal, if_pos rfl]
    rfl
  rw [← lasting_tripped hj ma d, trippedHeld]
  cases lasting (tripped j ma d) 26 (j - 1)
  · simp [htrip]
  · simp [balCell_withBal, htrip]

/-- The bucket's level after the update, which counts in that of DERATED alone. -/
theorem level_trippedHeld {j : Nat} (hj : j < 64) (ma : Nat) (d : Dev) :
    level (balUpdate (trippedHeld j ma d)) 26 (j - 1) = satNat 255 (level d 26 (j - 1) + 1) := by
  have hbase : bucketBase 26 + (j - 1) ≠ bucketBase 28 := by
    change 0x19F + (j - 1) ≠ 0x1DF
    omega
  have hheld : level (trippedHeld j ma d) 26 (j - 1) = level (tripped j ma d) 26 (j - 1) := by
    unfold trippedHeld
    split <;> rfl
  rw [level_balUpdate _ hbase, hheld, level_tripped]

/-! ### The end of a hold and of a time limit (R204, R205) -/

theorem holdExpire_eq {j : Nat} {f : Time} {d : Dev} (h : (balCell d j).hold = some f) : holdExpire j d =
    if 10 * lsbPerSec ≤ since f d.now then balUpdate (withBal j (fun c => { c with hold := none }) d) else d := by
  simp only [holdExpire, h]

theorem limitExpire_eq {j : Nat} {d : Dev} (hc : counting d j = true) (hl : tlimit d j ≤ (balCell d j).ran) :
    limitExpire j d = balUpdate (withBal j (fun c => { c with exp := true }) d) := if_pos (by simp [hc, hl])

/-- Running time counts in RUN and HELD alone (R204). -/
theorem cellState_of_counting {d : Dev} {n : Nat} (h : counting d n = true) : cellState d n = .run ∨ cellState d n = .held := by
  unfold counting at h
  split at h
  · next hs => exact .inl hs
  · next hs => exact .inr hs
  · simp at h

/-- A command that changes one cell and brings the update up to date. -/
theorem actAwake_cell {t : Time} {s : State} {d : Dev} (f : Dev → Dev) (j : Nat) (g : BalCell → BalCell) (hd : d = tick t s.dev)
    (ha : d.awake = true) (calm : Calm d) (hf : f d = balUpdate (withBal j g d)) :
    ∃ u, actAwake t f s = .next u ∧ CellsKept (withBal j g d) u.dev ∧
      ChangesOnly ([.ba, .free] ++ evParts) [R.ringCnt, R.hostEvtLost] d u.dev ∧ HostEvents s.hst u.hst := by
  obtain ⟨u, hu, hp, hh⟩ := actAwake_posted (s := s) f hd ha (by rw [hf, balUpdate_ex]; exact calm.2)
  rw [hf] at hp
  exact ⟨u, hu, hp.cellsKept, ((frame_withBal ..).mono.trans (frame_balUpdate _).mono).trans hp.frame.mono, hh⟩

/-! ### Tracking gaps (R200) -/

/-- The device with a tracking gap of switch j that starts at ring time a. -/
def gapped (j a : Nat) (d : Dev) : Dev := { d with ba := { d.ba with gaps := d.ba.gaps ++ [(j, BitVec.ofNat 64 a)] } }

/-- The ticks of the next period, which begins at `start`, at which a gap of switch j may begin. -/
def gapPlaces (d : Dev) (j start : Nat) : List Nat := (upFrom 0 207).filter (gapFits d j start)

theorem mem_gapPlaces {d : Dev} {j start g : Nat} : g ∈ gapPlaces d j start ↔ g < 207 ∧ gapFits d j start g = true := by
  simp [gapPlaces, mem_upFrom]

theorem trackGap_idle {j : Nat} {d : Dev} (h : cellState d j ≠ .run) : trackGap j d = d := if_neg (by simp [h])

/-- A switch that is due a gap takes a free one of the places that fit; where none fits only the free word is gone. -/
theorem trackGap_cases {j : Nat} {d : Dev} (hs : cellState d j = .run) (hw : dutyEff d j = 256) (ht : testsPending d = false)
    (he : 10 * lsbPerSec ≤ since (kget 0 d.me.estAt j) d.now) (hg : gapEdges d j = []) {start : Nat}
    (hstart : start = (d.now.toNat / pwmPeriod + 1) * pwmPeriod) :
    (gapPlaces d j start = [] ∧ trackGap j d = (freeWord d).2) ∨
    ∃ g ∈ gapPlaces d j start, trackGap j d = gapped j (start + g * pwmTick) (freeWord d).2 := by
  obtain ⟨⟨hn0, hnk⟩, -⟩ := live_of_cellState (.inl hs)
  have hdue : trackGap j d = match (gapPlaces d j start)[(freeWord d).1.toNat % (gapPlaces d j start).length]? with
      | some g => gapped j (start + g * pwmTick) (freeWord d).2
      | none => (freeWord d).2 := by
    subst hstart
    unfold trackGap
    have hcell : 1 ≤ j ∧ j ≤ ncells d := ⟨by omega, hnk⟩
    rw [if_pos (by simp only [hcell, hs, hw, ht, he, hg]; rfl)]
    rfl
  rw [hdue]
  cases hl : gapPlaces d j start with
  | nil => exact .inl ⟨rfl, rfl⟩
  | cons x r =>
    have hlt := Nat.mod_lt (freeWord d).1.toNat (show 0 < (x :: r).length by simp)
    rw [List.getElem?_eq_getElem hlt]
    exact .inr ⟨_, List.getElem_mem hlt, rfl⟩

theorem frame_gapped (j a : Nat) (d : Dev) : ChangesOnly [.ba] [] d (gapped j a d) := frame_ba ..

/-! ### The statement -/

section
variable {s : State} {t : Time} {j : Nat} {d : Dev} (hd : d = tick t s.dev) (ha : d.awake = true) (calm : Calm d)
include hd ha calm

theorem exec_balOvercurrent {ma us : Nat} (hint : extFet d = false) (hma : 450 < ma) (hus : 100 ≤ us)
    (hs : cellState d j = .run ∨ cellState d j = .excite) (hc : conducts d j = true) :
    ∃ u, exec (.balOvercurrent t j ma us) s = .next u ∧ cellState u.dev j = .held ∧ (balCell u.dev j).hold = some d.now ∧
      level u.dev 26 (j - 1) = satNat 255 (level d 26 (j - 1) + 1) ∧
      (balCell u.dev j).stuck = ((balCell d j).stuck || decide (bucketN d 26 ≤ satNat 255 (level d 26 (j - 1) + 1))) ∧
      ChangesOnly ([.ba, .free] ++ evParts) [qbalOff j, R.ringCnt, R.hostEvtLost] d u.dev ∧ HostEvents s.hst u.hst := by
  obtain ⟨⟨hn0, hnk⟩, hdone, hexp, hcov⟩ := live_of_cellState (hs.imp_right .inr)
  have hj : j < 64 := by have := ncells_lt d; omega
  have hframe := frame_trippedHeld j ma d
  have hf := overcurrent_eq (by omega) hnk hint hma hus hc
  obtain ⟨u, hu, hp, hh⟩ := actAwake_posted (s := s) (overcurrent j ma us) hd ha (by rw [hf, balUpdate_ex, hframe.1 .ex (by decide), calm.2])
  rw [hf] at hp
  have hkept := hp.cellsKept
  have hcell := balCell_trippedHeld hj ma d
  have hall : ChangesOnly ([.ba, .free] ++ evParts) [qbalOff j, R.ringCnt, R.hostEvtLost] d u.dev :=
    ((hframe.mono (by decide) (by simp)).trans ((frame_balUpdate _).mono (by decide) (by simp))).trans
      (hp.frame.mono (by decide) (by simp [evRegs]))
  have hcells : ncells u.dev = ncells d := hall.ncells (by unfold qbalOff R.balQbal R.measCells R.ringCnt R.hostEvtLost; simp; omega)
  have hstill : u.dev.ba.still = d.ba.still := hkept.still.trans (still_trippedHeld j ma d)
  have hplan : u.dev.ba.plan = d.ba.plan := (congrArg Bal.plan hstill :)
  have hexc : u.dev.ba.excite = d.ba.excite := (congrArg Bal.excite hstill :)
  have hhold : (balCell u.dev j).hold = some d.now := by rw [hkept.hold, hcell]
  refine ⟨u, hu, ?_, hhold, ?_, ?_, hall, hh⟩
  · refine cellState_hold (hcells ▸ ⟨hn0, hnk⟩) ?_ ?_ ?_ (by rw [hhold]; rfl)
    · rw [hkept.done, hcell, hdone]
    · rw [hkept.exp, hcell, hexp]
    · rwa [hexc, planEntry, hplan, ← planEntry]
  · rw [hp.level, level_trippedHeld hj]
  · rw [hkept.stuck, hcell]

theorem exec_balHoldExpire {f : Time} (hf : (balCell d j).hold = some f) (hl : 10 * lsbPerSec ≤ since f d.now) :
    ∃ u, exec (.balHoldExpire t j) s = .next u ∧ (balCell u.dev j).hold = none ∧
      (∀ n, n ≠ j → (balCell u.dev n).hold = (balCell d n).hold) ∧
      ChangesOnly ([.ba, .free] ++ evParts) [R.ringCnt, R.hostEvtLost] d u.dev ∧ HostEvents s.hst u.hst := by
  obtain ⟨u, hu, hkept, hframe, hh⟩ := actAwake_cell (s := s) (holdExpire j) j (fun c => { c with hold := none }) hd ha calm
    (by rw [holdExpire_eq hf, if_pos hl])
  refine ⟨u, hu, ?_, fun n hn => ?_, hframe, hh⟩
  · rw [hkept.hold, balCell_withBal, if_pos rfl]
  · rw [hkept.hold, balCell_withBal, if_neg hn]

theorem exec_balTlimitExpire (hc : counting d j = true) (hl : tlimit d j ≤ (balCell d j).ran) :
    ∃ u, exec (.balTlimitExpire t j) s = .next u ∧ cellState u.dev j = .expired ∧
      ChangesOnly ([.ba, .free] ++ evParts) [R.ringCnt, R.hostEvtLost] d u.dev ∧ HostEvents s.hst u.hst := by
  obtain ⟨hn, hdone, -, -⟩ := live_of_cellState ((cellState_of_counting hc).imp_right .inl)
  obtain ⟨u, hu, hkept, hframe, hh⟩ := actAwake_cell (s := s) (limitExpire j) j (fun c => { c with exp := true }) hd ha calm
    (limitExpire_eq hc hl)
  refine ⟨u, hu, cellState_expired (hframe.ncells ▸ hn) ?_ ?_, hframe, hh⟩
  · rw [hkept.done, balCell_withBal, if_pos rfl, hdone]
  · rw [hkept.exp, balCell_withBal, if_pos rfl]

theorem exec_trackingGap {start : Nat} (hstart : start = (d.now.toNat / pwmPeriod + 1) * pwmPeriod) (hs : cellState d j = .run)
    (hw : dutyEff d j = 256) (ht : testsPending d = false) (he : 10 * lsbPerSec ≤ since (kget 0 d.me.estAt j) d.now)
    (hg : gapEdges d j = []) :
    ∃ u, exec (.trackingGap t j) s = .next u ∧
      ((∀ g < 207, gapFits d j start g = false) → u.dev.ba = d.ba) ∧
      ((∃ g < 207, gapFits d j start g = true) → ∃ g < 207, gapFits d j start g = true ∧
        u.dev.ba = { d.ba with gaps := d.ba.gaps ++ [(j, BitVec.ofNat 64 (start + g * pwmTick))] }) ∧
      ChangesOnly [.ba, .free] [] d u.dev ∧ u.hst = s.hst := by
  have hfree := frame_freeWord d
  rcases trackGap_cases hs hw ht he hg hstart with ⟨hnone, hgap⟩ | ⟨g, hmem, hgap⟩
  · have hu := actAwake_calm (s := s) (trackGap j) hd ha (by rw [hgap]; exact hfree.calm calm)
    rw [hgap] at hu
    refine ⟨_, hu, fun _ => rfl, fun ⟨g, hlt, hfit⟩ => ?_, hfree.mono, rfl⟩
    have := mem_gapPlaces.2 ⟨hlt, hfit⟩
    simp [hnone] at this
  · have hframe : ChangesOnly [.ba, .free] [] d (gapped j (start + g * pwmTick) (freeWord d).2) := hfree.mono.trans (frame_gapped ..).mono
    have hu := actAwake_calm (s := s) (trackGap j) hd ha (by rw [hgap]; exact hframe.calm calm)
    rw [hgap] at hu
    obtain ⟨hlt, hfit⟩ := mem_gapPlaces.1 hmem
    exact ⟨_, hu, fun hno => absurd hfit (by simp [hno g hlt]), fun _ => ⟨g, hlt, hfit, rfl⟩, hframe, rfl⟩

end

/-- Settles O25: each event of a balanced cell by the lemma about its command. -/
theorem balanceCellEvents : Obligations.BalanceCellEvents := by
  unfold Obligations.BalanceCellEvents
  intro s t j ma us d hd ha calm
  refine ⟨fun _ _ hint hma hus hs hc => ?_, fun h => ?_, fun f hf hl => ?_, fun f hf hl => ?_, fun hc hl => ?_, fun h => ?_,
    fun start hstart hs hw ht he hg => ?_⟩
  · exact exec_balOvercurrent hd ha calm hint hma hus hs hc
  · exact actAwake_idle (overcurrent j ma us) hd ha calm (overcurrent_idle h)
  · exact exec_balHoldExpire hd ha calm hf hl
  · exact actAwake_idle (holdExpire j) hd ha calm (by rw [holdExpire_eq hf, if_neg (by omega)])
  · exact exec_balTlimitExpire hd ha calm hc hl
  · exact actAwake_idle (trackGap j) hd ha calm (trackGap_idle h)
  · exact exec_trackingGap hd ha calm hstart hs hw ht he hg

end Sys2Proof.Machine
end

section
/-! SUPPORT. The target check of the awake plan (file 07). -/

namespace Sys2Proof.Machine

/-! ### One cell's check (R203) -/

/-- What a result at or below TARGET, or above it, makes of a cell. -/
def BalCell.judged (hit : Bool) (c : BalCell) : BalCell :=
  { c with hits := if hit then c.hits + 1 else 0, done := c.done || decide (2 ≤ if hit then c.hits + 1 else 0) }

/-- TARGET of a cell, uV. -/
def targetUv (d : Dev) (n : Nat) : Int := 100 * ((planEntry d n).2.1 : Int)

/-- What a result makes of its cell: one with STALE, OVR, OW or SUPPLY is not a check. -/
def checkedBy (d0 : Dev) (n : Nat) (r : LaneResult) (c : BalCell) : BalCell :=
  if r.stale || r.ovr || r.ow || r.supply then c else c.judged (decide (r.value ≤ targetUv d0 n))

theorem checkedBy_at {d0 : Dev} {n : Nat} {r : LaneResult} (c : BalCell) (h : (r.stale || r.ovr || r.ow || r.supply) = false)
    (hv : r.value ≤ targetUv d0 n) : (checkedBy d0 n r c).hits = c.hits + 1 ∧ (checkedBy d0 n r c).done = (c.done || decide (1 ≤ c.hits)) := by
  simp [checkedBy, h, hv, BalCell.judged]

theorem checkedBy_above {d0 : Dev} {n : Nat} {r : LaneResult} (c : BalCell) (h : (r.stale || r.ovr || r.ow || r.supply) = false)
    (hv : targetUv d0 n < r.value) : (checkedBy d0 n r c).hits = 0 ∧ (checkedBy d0 n r c).done = c.done := by
  simp [checkedBy, h, not_le.2 hv, BalCell.judged]

theorem checkedBy_flagged {d0 : Dev} {n : Nat} {r : LaneResult} (c : BalCell) (h : (r.stale || r.ovr || r.ow || r.supply) = true) :
    checkedBy d0 n r c = c := if_pos h

theorem targetCell_eq {d0 : Dev} {x : LaneSample} (h : checked d0 x.cell = true) (t : Time) (d : Dev) : targetCell d0 t x d =
    let r := laneEval d0 .a t x
    if r.stale || r.ovr || r.ow || r.supply then writeLane .a x.cell r d
    else withBal x.cell (BalCell.judged (decide (r.value ≤ targetUv d0 x.cell))) (writeLane .a x.cell r d) := if_pos h

theorem ba_writeLane (g : LaneGroup) (cell : Nat) (r : LaneResult) (d : Dev) : (writeLane g cell r d).ba = d.ba :=
  (frame_writeLane ..).1 .ba (by decide)

/-- A check judges its own cell alone. -/
theorem balCell_targetCell {d0 : Dev} {x : LaneSample} (h : checked d0 x.cell = true) (t : Time) (d : Dev) (n : Nat) :
    balCell (targetCell d0 t x d) n =
      if n = x.cell then checkedBy d0 x.cell (laneEval d0 .a t x) (balCell d x.cell) else balCell d n := by
  have hsame : ∀ k, balCell (writeLane .a x.cell (laneEval d0 .a t x) d) k = balCell d k := fun k => by
    rw [balCell, ba_writeLane, ← balCell]
  rw [targetCell_eq h]
  dsimp only
  unfold checkedBy
  split
  · rw [hsame]
    split
    · next hn => rw [hn]
    · rfl
  · rw [balCell_withBal, hsame, hsame]

theorem targetCell_unchecked {d0 : Dev} {x : LaneSample} (h : checked d0 x.cell = false) (t : Time) (d : Dev) : targetCell d0 t x d = d :=
  if_neg (by simp [h])

theorem still_targetCell (d0 : Dev) (t : Time) (x : LaneSample) (d : Dev) : (targetCell d0 t x d).ba.still = d.ba.still := by
  cases h : checked d0 x.cell
  · rw [targetCell_unchecked h]
  · have hba := congrArg Bal.still (ba_writeLane .a x.cell (laneEval d0 .a t x) d)
    rw [targetCell_eq h]
    dsimp only
    split <;> exact hba

theorem frame_targetCell (d0 : Dev) (t : Time) (x : LaneSample) (d : Dev) :
    ChangesOnly (.me :: .ca :: .ba :: evParts) (laneRegs .a x.cell) d (targetCell d0 t x d) := by
  have hw : ChangesOnly (.me :: .ca :: .ba :: evParts) (laneRegs .a x.cell) d (writeLane .a x.cell (laneEval d0 .a t x) d) :=
    (frame_writeLane ..).mono (by decide) (List.Subset.refl _)
  exact .ite (.ite hw (hw.trans ((frame_withBal ..).mono (by decide) (by simp)))) (.refl ..)

theorem reg_targetCell_self {d0 : Dev} {x : LaneSample} (h : checked d0 x.cell = true) (hmax : x.cell ≤ 32) (t : Time) (d : Dev) :
    reg (targetCell d0 t x d) (resOff .a x.cell) = (laneEval d0 .a t x).word := by
  have hw := reg_writeLane_self (g := .a) (laneEval d0 .a t x) d hmax
  rw [targetCell_eq h]
  dsimp only
  split <;> exact hw

/-! ### The check of the plan -/

/-- The cells of a target check, in the device as it was. -/
def targetsChecked (t : Time) (a : List LaneSample) (d : Dev) : Dev := each (targetCell d t) (inUse d a) d

theorem targetCheck_eq {t : Time} {a : List LaneSample} {d : Dev} (h : t.toNat % checkEvery = 0) (hf : since t d.now ≤ usT 20) :
    targetCheck t a d = balUpdate (targetsChecked t a d) := if_pos (by simp [h, fresh, hf])

theorem still_targetsChecked (t : Time) (a : List LaneSample) (d : Dev) : (targetsChecked t a d).ba.still = d.ba.still :=
  each_kept (view := fun e : Dev => e.ba.still) (fun x _ e => still_targetCell d t x e) d

theorem frame_targetsChecked (t : Time) (a : List LaneSample) (d : Dev) : ChangesOnly (.me :: .ca :: .ba :: evParts)
    ([R.measUncomp, R.ringCnt] ++ a.map (fun x => resOff .a x.cell)) d (targetsChecked t a d) := by
  refine .each_mem (fun x hx e => (frame_targetCell ..).mono (List.Subset.refl _) ?_) d
  have hres : resOff .a x.cell ∈ a.map (fun x => resOff .a x.cell) := List.mem_map.2 ⟨x, (inUse_sublist d a).subset hx, rfl⟩
  simp [laneRegs, hres]

section
variable {t : Time} {a : List LaneSample} {d : Dev} (hn : (a.map LaneSample.cell).Nodup)
  (hin : ∀ x ∈ a, 1 ≤ x.cell ∧ x.cell ≤ ncells d ∧ x.cell ≤ 32) {x : LaneSample} (hx : x ∈ a) (hc : checked d x.cell = true)
include hn hin hx hc

/-- A checked cell shows the word of its own result. -/
theorem reg_targetsChecked : reg (targetsChecked t a d) (resOff .a x.cell) = (laneEval d .a t x).word := by
  obtain ⟨h1, hk, hmax⟩ := hin x hx
  refine each_at (view := fun e => reg e (resOff .a x.cell)) (key := LaneSample.cell) (mem_inUse.2 ⟨hx, h1, hk⟩)
    (hn.sublist ((inUse_sublist d a).map _)) (fun y hy hne e => (frame_targetCell ..).2 _ ?_) (fun e _ => reg_targetCell_self hc hmax t e)
  obtain ⟨hy1, -, -⟩ := hin y ((inUse_sublist d a).subset hy)
  rw [laneRegs, List.mem_cons, not_or]
  exact ⟨resOff_ne h1 hy1 hne.symm, resOff_not_mem hmax⟩

/-- And is judged by it once. -/
theorem balCell_targetsChecked :
    balCell (targetsChecked t a d) x.cell = checkedBy d x.cell (laneEval d .a t x) (balCell d x.cell) := by
  obtain ⟨h1, hk, -⟩ := hin x hx
  refine each_at (view := fun e => balCell e x.cell) (key := LaneSample.cell) (mem_inUse.2 ⟨hx, h1, hk⟩)
    (hn.sublist ((inUse_sublist d a).map _)) (fun y _ hne e => ?_) (fun e he => ?_)
  · cases hy : checked d y.cell
    · rw [targetCell_unchecked hy]
    · rw [balCell_targetCell hy, if_neg (Ne.symm hne)]
  · rw [balCell_targetCell hc, if_pos rfl, he]

end

/-- A target check leaves what the update makes of the checked cells. -/
theorem exec_balTargetCheck {s : State} {t : Time} {d : Dev} (hd : d = tick t s.dev) (ha : d.awake = true) (calm : Calm d)
    {a : List LaneSample} (ht : t.toNat % checkEvery = 0) (hf : since t d.now ≤ usT 20) :
    ∃ u, exec (.balTargetCheck t a) s = .next u ∧ PostsOnly (balUpdate (targetsChecked t a d)) u.dev ∧
      u.dev.ba.plan = d.ba.plan ∧ u.dev.sf = d.sf ∧
      ChangesOnly ([.me, .ba, .ca, .free] ++ evParts) ([R.measUncomp, R.ringCnt, R.hostEvtLost] ++ a.map (fun x => resOff .a x.cell)) d u.dev ∧
      HostEvents s.hst u.hst := by
  have hcells := frame_targetsChecked t a d
  have heq := targetCheck_eq (a := a) ht hf
  obtain ⟨u, hu, hp, hh⟩ := actAwake_posted (s := s) (targetCheck t a) hd ha (by rw [heq, balUpdate_ex, hcells.1 .ex (by decide), calm.2])
  rw [heq] at hp
  have hregs : [R.measUncomp, R.ringCnt] ++ a.map (fun x => resOff .a x.cell) ⊆
      [R.measUncomp, R.ringCnt, R.hostEvtLost] ++ a.map (fun x => resOff .a x.cell) :=
    List.append_subset.2 ⟨by simp, List.subset_append_right ..⟩
  have hall : ChangesOnly ([.me, .ba, .ca, .free] ++ evParts) ([R.measUncomp, R.ringCnt, R.hostEvtLost] ++ a.map (fun x => resOff .a x.cell))
      d u.dev := ((hcells.mono (by decide) hregs).trans ((frame_balUpdate _).mono (by decide) (by simp))).trans
        (hp.frame.mono (by decide) (by simp [evRegs]))
  exact ⟨u, hu, hp, hp.cellsKept.plan.trans (congrArg Bal.plan (still_targetsChecked t a d) :), hall.1 .sf (by decide), hall, hh⟩

end Sys2Proof.Machine
end

section
/-! SUPPORT. The thermal manager (file 07). -/

namespace Sys2Proof.Machine

/-! ### K (R209) -/

/-- K holds the dissipation of all RUN switches within what is available, and is 256 where that suffices. -/
theorem kOf_spec (forbid : Bool) (req : Nat) (avail : Int) : kOf forbid req avail ≤ 256 ∧
    (kOf forbid req avail : Int) * req ≤ 1024000000 * max avail 0 ∧
    (forbid = false → 0 < avail → (req : Int) ≤ 4000000 * avail → kOf forbid req avail = 256) := by
  unfold kOf
  split
  · next h =>
    refine ⟨by omega, by omega, fun hf ha => ?_⟩
    simp only [hf, Bool.false_or, decide_eq_true_eq] at h
    omega
  · next h =>
    have ha : 0 < avail := by
      simp only [Bool.or_eq_true, decide_eq_true_eq, not_or] at h
      omega
    split
    · exact ⟨by omega, by omega, fun _ _ _ => rfl⟩
    · next hr =>
      have hreq : (0 : Int) < req := by omega
      have hq : 0 ≤ 1024000000 * avail / (req : Int) := Int.ediv_nonneg (by omega) (by omega)
      have hlt : 1024000000 * avail / (req : Int) < 256 := Int.ediv_lt_of_lt_mul hreq (by omega)
      refine ⟨by omega, ?_, fun _ _ h => absurd h hr⟩
      rw [Int.toNat_of_nonneg hq, max_eq_left ha.le]
      exact Int.ediv_mul_le _ hreq.ne'

/-- In internal switch mode K is the factor of R209. -/
theorem k_setK {d : Dev} (h : extFet d = false) :
    (setK d).ba.k = kOf d.ba.forbid (pReqN d) ((d.ba.pMax64 : Int) - 64 * d.ba.pExc) := by
  have hk : ∀ (c : Prop) [Decidable c] (data : List Byte) (e : Dev), (if c then occur 28 0 0x0C03 data e else e).ba.k = e.ba.k :=
    fun c _ data e => by
      split
      · rw [(frame_occur ..).1 .ba (by decide)]
      · rfl
  unfold setK
  simp only [h, Bool.false_eq_true, if_false]
  exact hk ..

/-! ### What the power request depends on (R201, R209) -/

section
variable {a b : Dev} {ps : List Part} (h : CellsKept a b) (hf : ChangesOnly ps evRegs a b)
include h hf

/-- Events change no cell's state. -/
theorem CellsKept.cellState {n : Nat} (hn : n < 64) : cellState b n = cellState a n := by
  have hcoef : R.measBcoef + 4 * (n - 1) ∉ evRegs := by
    simp only [evRegs, List.mem_cons, List.not_mem_nil, or_false, not_or]
    unfold R.measBcoef R.ringCnt R.hostEvtLost
    omega
  have hheld : heldCond b n = heldCond a n := by
    simp only [heldCond, owCell, hf.regBit (off := R.measOwStat) _, hf.regBit (off := R.cmpStatUv) _, hf.regBit (off := R.measDisFault) _,
      h.hold, h.stuck]
  have hknown : coefKnown b n = coefKnown a n := by simp only [coefKnown, coef, hf.2 _ hcoef]
  simp only [Machine.cellState, hf.ncells, h.done, h.exp, h.excite, h.planEntry, h.tested, hheld, hknown]

theorem CellsKept.pReqN : pReqN b = pReqN a := by
  have hion : ∀ n, (balCell b n).ion = (balCell a n).ion := fun n => (congrArg BalCell.ion (h.cell n) :)
  have hron : ∀ n, (balCell b n).ron = (balCell a n).ron := fun n => (congrArg BalCell.ron (h.cell n) :)
  unfold Machine.pReqN cellsUsed
  rw [hf.ncells]
  congr 1
  refine List.map_congr_left fun n hn => ?_
  have hlt : n < 64 := by have := ncells_lt a; have := mem_upFrom.1 hn; omega
  rw [h.cellState hf hlt, hion, hron, h.planEntry]

end

/-! ### What the switches sense (R205, R211) -/

theorem frame_missing (n : Nat) (d : Dev) : ChangesOnly (.ba :: evParts) [R.ringCnt] d (missing n d) :=
  .ite ((frame_occur ..).mono.trans (frame_withBal ..).mono) (frame_occur ..).mono

theorem still_missing (n : Nat) (d : Dev) : (missing n d).ba.still = d.ba.still := by
  have hba : ∀ data, (occur 27 (n - 1) 0x0C02 data d).ba.still = d.ba.still := fun data =>
    congrArg Bal.still ((frame_occur ..).1 .ba (by decide))
  unfold missing
  dsimp only
  split <;> exact hba _

/-- What a switch that has conducted senses. -/
def sensedBy (r : SwitchReading) (d : Dev) : Dev :=
  if 0 < r.onMs then charge r.j r.ma (withBal r.j (fun c => { c with ion := some r.ma, ron := some r.mohm }) d) else d

/-- A reading of a configured cell is sensed, and its current may be found missing. -/
theorem takeReading_cases (r : SwitchReading) (d : Dev) :
    takeReading r d = d ∨ takeReading r d = sensedBy r d ∨ takeReading r d = missing r.j (sensedBy r d) := by
  unfold takeReading
  dsimp only
  split
  · split
    · exact .inr (.inr rfl)
    · exact .inr (.inl rfl)
  · exact .inl rfl

theorem frame_sensedBy (r : SwitchReading) (d : Dev) : ChangesOnly (.ba :: evParts) [R.ringCnt, qbalOff r.j] d (sensedBy r d) :=
  .ite (((frame_withBal ..).mono (by decide) (by simp)).trans ((frame_charge ..).mono (by decide) (by simp))) (.refl ..)

theorem still_sensedBy (r : SwitchReading) (d : Dev) : (sensedBy r d).ba.still = d.ba.still := by
  unfold sensedBy
  split <;> rfl

theorem frame_takeReading (r : SwitchReading) (d : Dev) : ChangesOnly (.ba :: evParts) [R.ringCnt, qbalOff r.j] d (takeReading r d) := by
  rcases takeReading_cases r d with h | h | h <;> rw [h]
  · exact .refl ..
  · exact frame_sensedBy r d
  · exact (frame_sensedBy r d).trans ((frame_missing ..).mono (by simp) (by simp))

theorem still_takeReading (r : SwitchReading) (d : Dev) : (takeReading r d).ba.still = d.ba.still := by
  rcases takeReading_cases r d with h | h | h <;> rw [h]
  · exact still_sensedBy r d
  · rw [still_missing, still_sensedBy]

/-- What all switches sense. -/
def sensed (l : List SwitchReading) (d : Dev) : Dev := each takeReading l d

theorem frame_sensed (l : List SwitchReading) (d : Dev) :
    ChangesOnly (.ba :: evParts) ([R.ringCnt] ++ l.map (fun r => qbalOff r.j)) d (sensed l d) := by
  refine .each_mem (fun r hr e => (frame_takeReading r e).mono (List.Subset.refl _) ?_) d
  have hmem : qbalOff r.j ∈ l.map (fun r => qbalOff r.j) := List.mem_map.2 ⟨r, hr, rfl⟩
  simp [hmem]

theorem still_sensed (l : List SwitchReading) (d : Dev) : (sensed l d).ba.still = d.ba.still :=
  each_kept (view := fun e : Dev => e.ba.still) (fun r _ e => still_takeReading r e) d

/-- The registers of the charge lie above those of the balancing block's configuration. -/
theorem not_mem_charged {r : Nat} {l : List SwitchReading} (hr : r < R.balQbal) : r ∉ [R.ringCnt] ++ l.map (fun r => qbalOff r.j) := by
  simp only [List.singleton_append, List.mem_cons, List.mem_map, not_or, not_exists, not_and]
  unfold qbalOff R.ringCnt
  unfold R.balQbal at *
  exact ⟨by omega, fun x _ hx => by omega⟩

/-- Sensing changes no register below those of the charge. -/
theorem reg_sensed (l : List SwitchReading) (d : Dev) {r : Nat} (hr : r < R.balQbal) : reg (sensed l d) r = reg d r :=
  (frame_sensed l d).2 r (not_mem_charged hr)

theorem regFld_sensed (l : List SwitchReading) (d : Dev) {r : Nat} (hi lo : Nat) (hr : r < R.balQbal) :
    regFld (sensed l d) r hi lo = regFld d r hi lo := by rw [regFld, reg_sensed l d hr, ← regFld]

theorem regBit_sensed (l : List SwitchReading) (d : Dev) {r : Nat} (i : Nat) (hr : r < R.balQbal) :
    regBit (sensed l d) r i = regBit d r i := by rw [regBit, reg_sensed l d hr, ← regBit]

theorem extFet_sensed (l : List SwitchReading) (d : Dev) : extFet (sensed l d) = extFet d := regBit_sensed l d 0 (by decide)

theorem tDie_sensed (l : List SwitchReading) (d : Dev) : tDie (sensed l d) = tDie d := by rw [tDie, regFld_sensed l d _ _ (by decide), ← tDie]

/-- The ambient channel is read from registers that sensing leaves. -/
theorem ambient_sensed (l : List SwitchReading) (d : Dev) : ambient (sensed l d) = ambient d := by
  have hres : R.auxRes + 4 * regFld d R.balTherm 2 0 < R.balQbal := by
    have hk : regFld d R.balTherm 2 0 < 8 := Nat.mod_lt _ (by decide)
    unfold R.auxRes R.balQbal
    omega
  unfold ambient auxMode
  dsimp only
  rw [regFld_sensed l d (r := R.balTherm) _ _ (by decide), regFld_sensed l d (r := R.auxCh) _ _ (by decide),
    regBit_sensed l d (r := R.balTherm) _ (by decide), regBit_sensed l d (r := R.auxStat) _ (by decide),
    regBit_sensed l d (r := R.auxStat) _ (by decide), regFld_sensed l d _ _ hres]

/-! ### The update (R208, R210) -/

/-- T_AMB: the ambient channel's temperature, else the estimate from the die and the dissipation of the last 100 ms (R208). -/
def ambientOf (l : List SwitchReading) (d : Dev) : Int := (ambient d).getD (ambientEst (reg d R.balTherm) (tDie d) (dissipation d l))

/-- The device with T_AMB, P_MAX and the forbid of an update (R208, R210). -/
def warmed (l : List SwitchReading) (d : Dev) : Dev :=
  { d with ba := { d.ba with
    diss := dissipation d l, tAmb := ambientOf l d, ambEst := (ambient d).isNone
    forbid := forbidden (reg d R.balTherm) d.ba.forbid (ambientOf l d) (tDie d)
    pMax64 := pMaxOf (regFld d R.balPcap 10 0) (ambientOf l d) } }

/-- A forbid that begins counts (R210). -/
def forbidNoted (was : Bool) (data : List Byte) (d : Dev) : Dev := if d.ba.forbid && !was then occur 29 0 0x0C04 data d else d

/-- The cells in RUN are marked for the next update (R205). -/
def remarked (d : Dev) : Dev := each (fun n d => withBal n (fun c => { c with was := decide (cellState d n = .run) }) d) (cellsUsed d) d

/-- The device as an update leaves it before its cells are brought up to date and K is set. -/
def managed (l : List SwitchReading) (data : List Byte) (d : Dev) : Dev :=
  forbidNoted (sensed l d).ba.forbid data (warmed l (sensed l d))

/-- In internal switch mode the update is: T_AMB, P_MAX and the forbid from what the switches sensed, then K. -/
theorem thermalUpdate_eq {l : List SwitchReading} {d : Dev} (hint : extFet (sensed l d) = false)
    (hlo : -32768 ≤ ambientOf l (sensed l d)) (hhi : ambientOf l (sensed l d) < 32768) :
    ∃ data, thermalUpdate l d = remarked (setK (balUpdate (managed l data d))) := by
  have hfets : chargeFets (each takeReading l d) = sensed l d := if_neg (by rw [← sensed, hint]; decide)
  unfold thermalUpdate
  simp only [hfets]
  rw [show (ambient (sensed l d)).getD (ambientEst (reg (sensed l d) R.balTherm) (tDie (sensed l d)) (dissipation (sensed l d) l)) =
    ambientOf l (sensed l d) from rfl, fitS16_of_fits hlo hhi]
  simp only [signed_unsigned16 hlo hhi]
  exact ⟨_, rfl⟩

theorem frame_warmed (l : List SwitchReading) (d : Dev) : ChangesOnly [.ba] [] d (warmed l d) := frame_ba ..

theorem frame_forbidNoted (was : Bool) (data : List Byte) (d : Dev) : ChangesOnly evParts [R.ringCnt] d (forbidNoted was data d) :=
  .ite (frame_occur ..) (.refl ..)

theorem frame_remarked (d : Dev) : ChangesOnly [.ba] [] d (remarked d) := .each _ (fun _ _ => frame_withBal ..) _ _

theorem cellsKept_remarked (d : Dev) : CellsKept d (remarked d) :=
  .each (fun n e => cellsKept_mark n (fun _ => decide (cellState e n = .run)) e) _ _

theorem k_remarked (d : Dev) : (remarked d).ba.k = d.ba.k := by
  refine each_kept (view := fun e : Dev => e.ba.k) (fun _ _ _ => ?_) d
  rfl

theorem ambientOf_sensed (l : List SwitchReading) (d : Dev) : ambientOf l (sensed l d) = ambientOf l d := by
  simp only [ambientOf, ambient_sensed, tDie_sensed, dissipation, extFet_sensed, reg_sensed l d (r := R.balTherm) (by decide)]

theorem frame_managed (l : List SwitchReading) (data : List Byte) (d : Dev) :
    ChangesOnly (.ba :: evParts) ([R.ringCnt] ++ l.map (fun r => qbalOff r.j)) d (managed l data d) :=
  ((frame_sensed l d).trans ((frame_warmed ..).mono (by decide) (by simp))).trans ((frame_forbidNoted ..).mono (by decide) (by simp))

theorem ba_managed (l : List SwitchReading) (data : List Byte) (d : Dev) : (managed l data d).ba = (warmed l (sensed l d)).ba :=
  (frame_forbidNoted ..).1 .ba (by decide)

/-- The thermal manager's readings after an update. -/
structure Managed (l : List SwitchReading) (a b : Dev) : Prop where
  tAmb : b.ba.tAmb = ambientOf l a
  pMax64 : b.ba.pMax64 = pMaxOf (regFld a R.balPcap 10 0) (ambientOf l a)
  forbid : b.ba.forbid = forbidden (reg a R.balTherm) a.ba.forbid (ambientOf l a) (tDie a)
  pExc : b.ba.pExc = a.ba.pExc
  plan : b.ba.plan = a.ba.plan

theorem managed_spec (l : List SwitchReading) (data : List Byte) (d : Dev) : Managed l d (managed l data d) := by
  have hstill := still_sensed l d
  have hpcap : regFld (sensed l d) R.balPcap 10 0 = regFld d R.balPcap 10 0 := regFld_sensed l d _ _ (by decide)
  have hforbid : (sensed l d).ba.forbid = d.ba.forbid := (congrArg Bal.forbid hstill :)
  constructor <;> rw [ba_managed]
  · exact ambientOf_sensed l d
  · simp only [warmed, hpcap, ambientOf_sensed]
  · simp only [warmed, hforbid, ambientOf_sensed, tDie_sensed, reg_sensed l d (r := R.balTherm) (by decide)]
  · exact (congrArg Bal.pExc hstill :)
  · exact (congrArg Bal.plan hstill :)

theorem Managed.of_still {l : List SwitchReading} {a b c : Dev} (h : Managed l a b) (k : c.ba.still = b.ba.still) : Managed l a c :=
  ⟨(congrArg Bal.tAmb k :).trans h.tAmb, (congrArg Bal.pMax64 k :).trans h.pMax64, (congrArg Bal.forbid k :).trans h.forbid,
    (congrArg Bal.pExc k :).trans h.pExc, (congrArg Bal.plan k :).trans h.plan⟩

/-- In internal switch mode an update brings the cells up to date and then sets K again, from the readings it has made. -/
theorem thermalUpdate_cases {l : List SwitchReading} {d : Dev} (hint : extFet d = false) (hlo : -32768 ≤ ambientOf l d)
    (hhi : ambientOf l d < 32768) : ∃ b, thermalUpdate l d = remarked (setK b) ∧ Managed l d b ∧ extFet b = false ∧
      ChangesOnly ([.ba, .free] ++ evParts) ([R.ringCnt] ++ l.map (fun r => qbalOff r.j)) d b := by
  obtain ⟨data, heq⟩ := thermalUpdate_eq (l := l) (d := d) (by rw [extFet_sensed, hint]) (by rwa [ambientOf_sensed])
    (by rwa [ambientOf_sensed])
  have hframe : ChangesOnly ([.ba, .free] ++ evParts) ([R.ringCnt] ++ l.map (fun r => qbalOff r.j)) d (balUpdate (managed l data d)) :=
    ((frame_managed l data d).mono (by decide) (by simp)).trans ((frame_balUpdate _).mono (by decide) (by simp))
  have hctrl : R.balCtrl ∉ [R.ringCnt] ++ l.map (fun r => qbalOff r.j) := not_mem_charged (by decide)
  refine ⟨_, heq, (managed_spec l data d).of_still (cellsKept_balUpdate _).still, ?_, hframe⟩
  rw [extFet, hframe.regBit 0 hctrl, ← extFet, hint]

/-! ### The statement -/

theorem exec_thermalManagerUpdate {s : State} {t : Time} {d : Dev} (hd : d = tick t s.dev) (ha : d.awake = true) (calm : Calm d)
    {l : List SwitchReading} (hint : extFet d = false) (ht : t.toNat % msT 100 = 0)
    (hf : since t d.now < msT 1) (hlo : -32768 ≤ ambientOf l d) (hhi : ambientOf l d < 32768) :
    ∃ u, exec (.thermalManagerUpdate t l) s = .next u ∧ Managed l d u.dev ∧
      u.dev.ba.k = kOf u.dev.ba.forbid (pReqN u.dev) ((u.dev.ba.pMax64 : Int) - 64 * d.ba.pExc) ∧ u.dev.sf = d.sf ∧
      ChangesOnly ([.ba, .free] ++ evParts) ([R.ringCnt, R.hostEvtLost] ++ l.map (fun r => qbalOff r.j)) d u.dev ∧
      HostEvents s.hst u.hst := by
  obtain ⟨b, heq, hmanaged, hext, hb⟩ := thermalUpdate_cases (l := l) hint hlo hhi
  have hupd : ChangesOnly ([.ba, .free] ++ evParts) [R.ringCnt] b (remarked (setK b)) :=
    (frame_setK b).mono.trans (frame_remarked _).mono
  have hrun : (if atMultiple (msT 100) t d then thermalUpdate l d else d) = remarked (setK b) := by
    rw [if_pos (by simp [atMultiple, ht, hf]), heq]
  obtain ⟨u, hu, hp, hh⟩ := actAwake_posted (s := s) (fun d => if atMultiple (msT 100) t d then thermalUpdate l d else d) hd ha
    (by rw [hrun, hupd.1 .ex (by decide), hb.1 .ex (by decide), calm.2])
  rw [hrun] at hp
  have hba : u.dev.ba = (remarked (setK b)).ba := hp.frame.1 .ba (by decide)
  have hkept : CellsKept b u.dev := ((cellsKept_setK b).trans (cellsKept_remarked _)).trans (.of_ba hba)
  have hpost : ChangesOnly ([.ba, .free] ++ evParts) evRegs b u.dev := hupd.mono.trans hp.frame.mono
  have hend := hmanaged.of_still hkept.still
  refine ⟨u, hu, hend, ?_, ?_, ?_, hh⟩
  · rw [hba, k_remarked, k_setK hext, ← hba, hkept.pReqN hpost, hend.forbid, hend.pMax64, hmanaged.forbid, hmanaged.pMax64, hmanaged.pExc]
  · exact (hpost.1 .sf (by decide)).trans (hb.1 .sf (by decide))
  · exact (hb.mono (by decide) (by simp)).trans (hpost.mono (by decide) (by simp [evRegs]))

/-- Settles O26: each cell of a check is judged once by its own result, and the update leaves T_AMB, P_MAX and the forbid, with K as `kOf` of
them. -/
theorem balanceSupervision : Obligations.BalanceSupervision := by
  unfold Obligations.BalanceSupervision
  refine ⟨fun s t a d hd ha calm hn hin => ⟨fun h => ?_, fun ht hf => ?_⟩, kOf_spec, fun s t l d hd ha calm hint ht hf hlo hhi => ?_⟩
  · exact actAwake_idle (targetCheck t a) hd ha calm (if_neg (by simp [h]))
  · obtain ⟨u, hu, hp, hplan, hsf, hall, hh⟩ := exec_balTargetCheck hd ha calm (a := a) ht hf
    refine ⟨u, hu, fun x hx hc => ?_, hplan, hsf, hall, hh⟩
    obtain ⟨-, -, hmax⟩ := hin x hx
    have hcell := balCell_targetsChecked (t := t) hn hin hx hc
    intro r
    rw [hp.reg_updated (resOff_not_mem hmax), hp.cellsKept.hits, hp.cellsKept.done, hcell]
    refine ⟨reg_targetsChecked hn hin hx hc, fun hst hov how hsu => ⟨checkedBy_at _ ?_, checkedBy_above _ ?_⟩, fun hbad => ?_⟩
    · simp [r, hst, hov, how, hsu]
    · simp [r, hst, hov, how, hsu]
    · rw [checkedBy_flagged]
      simpa [r, or_assoc] using hbad
  · obtain ⟨u, hu, hm, hk, hsf, hall, hh⟩ := exec_thermalManagerUpdate hd ha calm hint ht hf hlo hhi
    refine ⟨u, hu, hm.tAmb, ?_, ?_, hk, hm.plan, hsf, hall, hh⟩
    · rw [hm.tAmb, hm.pMax64]
      rfl
    · rw [hm.tAmb, hm.forbid]
      rfl

end Sys2Proof.Machine
end

section
/-! PROOF. The bytes of a frame and the characters of a burst read back (file 08, R220, R222, R223, R226 to R229, R232). -/

namespace Sys2Proof.Machine

/-! ### Bytes and check values -/

theorem leNat_leBytes {k v : Nat} (h : v < 256 ^ k) : leNat (leBytes k v) = v := by
  induction k generalizing v with
  | zero => simp_all [leBytes, leNat]
  | succ k ih =>
    have hrest : v / 256 < 256 ^ k := Nat.div_lt_of_lt_mul (by rwa [pow_succ'] at h)
    simp only [leBytes, leNat, ih hrest, BitVec.toNat_ofNat]
    omega

theorem crcResult_lt (w st x : Nat) (r : Bool) : crcResult w st r x < 2 ^ w := Nat.mod_lt _ (by positivity)

theorem toNat_ofNat_byte {n : Nat} (h : n < 256) : (BitVec.ofNat 8 n).toNat = n := Nat.mod_eq_of_lt h

/-! ### A frame's bytes (R226 to R229) -/

/-- The bytes of a header before its HCRC (Table LINK-4). -/
def headerBytes (p : Port) (alive : Nat) (f : Frame) : List Byte :=
  [BitVec.ofNat 8 (pack [(f.dest % 64, 0), (portIdx p, 6), (b2n f.loc, 7)]), BitVec.ofNat 8 (f.src % 64), BitVec.ofNat 8 f.typ,
    BitVec.ofNat 8 f.seq, BitVec.ofNat 8 (alive + 16 * f.stat)] ++ leBytes 2 f.pay.length

/-- A header with its HCRC. -/
def checkedHeader (p : Port) (alive : Nat) (f : Frame) : List Byte :=
  headerBytes p alive f ++ [BitVec.ofNat 8 (crc8h (headerBytes p alive f))]

theorem frameBytes_eq (p : Port) (alive : Nat) (f : Frame) : frameBytes p alive f =
    checkedHeader p alive f ++ (f.pay ++ leBytes 4 (crc32c (checkedHeader p alive f ++ f.pay))) := by
  simp only [frameBytes, checkedHeader, headerBytes, List.append_assoc]

theorem checkedHeader_length (p : Port) (alive : Nat) (f : Frame) : (checkedHeader p alive f).length = 8 := rfl

theorem frameBytes_length (p : Port) (alive : Nat) (f : Frame) : (frameBytes p alive f).length = 12 + f.pay.length := by
  simp only [frameBytes_eq, List.length_append, checkedHeader_length, leBytes_length]
  omega

theorem hdrLen_frameBytes {p : Port} {alive : Nat} {f : Frame} (h : f.pay.length ≤ 256) :
    hdrLen (frameBytes p alive f) = f.pay.length :=
  leNat_leBytes (k := 2) (by omega)

/-- The header and its payload are followed by their CRC-32C. -/
theorem take_frameBytes (p : Port) (alive : Nat) (f : Frame) :
    (frameBytes p alive f).take (8 + f.pay.length) = checkedHeader p alive f ++ f.pay := by
  rw [frameBytes_eq, ← List.append_assoc, List.take_left' (by simp [checkedHeader_length])]

theorem drop_frameBytes (p : Port) (alive : Nat) (f : Frame) :
    (frameBytes p alive f).drop (8 + f.pay.length) = leBytes 4 (crc32c (checkedHeader p alive f ++ f.pay)) := by
  rw [frameBytes_eq, ← List.append_assoc, List.drop_left' (by simp [checkedHeader_length])]

theorem headerOk_frameBytes {p : Port} {alive : Nat} {f : Frame} (hs : f.src ≤ 62) (hp : f.pay.length ≤ 256) :
    headerOk (frameBytes p alive f) = true := by
  have hcrc : crc8h (headerBytes p alive f) = ((frameBytes p alive f).getD 7 0).toNat :=
    (toNat_ofNat_byte (crcResult_lt 8 ..)).symm
  have hsrc : ((frameBytes p alive f).getD 1 0).toNat = f.src % 64 := toNat_ofNat_byte (by omega)
  have hhead : (frameBytes p alive f).take 7 = headerBytes p alive f := rfl
  simp only [headerOk, hhead, hsrc, hdrLen_frameBytes hp, frameBytes_length, Bool.and_eq_true, decide_eq_true_eq]
  exact ⟨⟨⟨by omega, hcrc⟩, hp⟩, by omega⟩

theorem crcOk_frameBytes {p : Port} {alive : Nat} {f : Frame} (hp : f.pay.length ≤ 256) : crcOk (frameBytes p alive f) = true := by
  have hcrc : crc32c (checkedHeader p alive f ++ f.pay) < 256 ^ 4 := crcResult_lt 32 ..
  simp only [crcOk, hdrLen_frameBytes hp, frameBytes_length, take_frameBytes, drop_frameBytes, leNat_leBytes hcrc, decide_true,
    Bool.and_self]

theorem frameOf_frameBytes {p : Port} {alive : Nat} {f : Frame} (ha : alive < 16) (hd : f.dest < 64) (hs : f.src ≤ 62) (ht : f.typ < 256)
    (hq : f.seq < 256) (hst : f.stat < 16) (hp : f.pay.length ≤ 256) :
    frameOf (frameBytes p alive f) = { f with turned := false, stamp := 0 } := by
  have hdir : portIdx p ≤ 1 := by cases p <;> decide
  have hloc : b2n f.loc ≤ 1 := by cases f.loc <;> decide
  have h0 : ((frameBytes p alive f).getD 0 0).toNat = f.dest + 64 * portIdx p + 128 * b2n f.loc := by
    refine (toNat_ofNat_byte ?_).trans ?_ <;> (simp only [pack]; omega)
  have h1 : ((frameBytes p alive f).getD 1 0).toNat = f.src % 64 := toNat_ofNat_byte (by omega)
  have h2 : ((frameBytes p alive f).getD 2 0).toNat = f.typ := toNat_ofNat_byte ht
  have h3 : ((frameBytes p alive f).getD 3 0).toNat = f.seq := toNat_ofNat_byte hq
  have h4 : ((frameBytes p alive f).getD 4 0).toNat = alive + 16 * f.stat := toNat_ofNat_byte (by omega)
  have hpay : ((frameBytes p alive f).drop 8).take f.pay.length = f.pay := by
    rw [frameBytes_eq, List.drop_left' (checkedHeader_length ..), List.take_left' rfl]
  simp only [frameOf, h0, h1, h2, h3, h4, hdrLen_frameBytes hp, hpay]
  congr 1
  · omega
  · cases f.loc
    · simp [b2n]
      omega
    · simp [b2n]
  · omega
  · omega

theorem alive_frameBytes {p : Port} {alive : Nat} {f : Frame} (ha : alive < 16) (hst : f.stat < 16) :
    ((frameBytes p alive f).getD 4 0).toNat % 16 = alive := by
  have h4 : ((frameBytes p alive f).getD 4 0).toNat = alive + 16 * f.stat := toNat_ofNat_byte (by omega)
  omega

/-! ### The line code (R220) -/

/-- The code tables give each byte a group that no other character has, at either disparity. -/
theorem groupSym_dataGroup (rd : Bool) (b : Byte) : groupSym rd (dataGroup rd b) = .data b := by
  have table : ∀ rd : Bool, ∀ n < 256, groupSym rd (dataGroup rd (BitVec.ofNat 8 n)) = .data (BitVec.ofNat 8 n) := by decide +kernel
  simpa using table rd b.toNat b.isLt

theorem groupSym_symGroup (rd : Bool) (c : Sym) : groupSym rd (symGroup rd c) = c := by
  cases c with
  | data b => exact groupSym_dataGroup rd b
  | ctl c => cases rd <;> cases c <;> decide +kernel
  | bad => cases rd <;> decide +kernel

/-- The disparity at which a receiver takes a group: that of a SYNC, else its own. -/
def groupRd (rd : Bool) (g : Nat) : Bool := if g = ctlGroup .sync then false else if g = 1023 - ctlGroup .sync then true else rd

/-- No byte has the group of a SYNC. -/
theorem groupRd_dataGroup (rd : Bool) (b : Byte) : groupRd rd (dataGroup rd b) = rd := by
  have table : ∀ rd : Bool, ∀ n < 256, groupRd rd (dataGroup rd (BitVec.ofNat 8 n)) = rd := by decide +kernel
  simpa using table rd b.toNat b.isLt

theorem groupRd_symGroup (rd : Bool) (c : Sym) : groupRd rd (symGroup rd c) = rd := by
  cases c with
  | data b => exact groupRd_dataGroup rd b
  | ctl c => cases rd <;> cases c <;> decide
  | bad => cases rd <;> decide

theorem decodeGroups_cons (rd : Bool) (g : Nat) (r : List Nat) : decodeGroups rd (g :: r) =
    (groupSym (groupRd rd g) g :: (decodeGroups (rdAfter 10 g (groupRd rd g)) r).1, (decodeGroups (rdAfter 10 g (groupRd rd g)) r).2) := rfl

/-- Characters are received as they were sent, and the receiver's disparity follows the transmitter's. -/
theorem decodeGroups_encodeSyms (rd : Bool) (l : List Sym) : decodeGroups rd (encodeSyms rd l).1 = (l, (encodeSyms rd l).2) := by
  induction l generalizing rd with
  | nil => rfl
  | cons c r ih => simp only [encodeSyms, decodeGroups_cons, groupRd_symGroup, groupSym_symGroup, ih]

/-! ### A burst's characters (R222, R223, R232) -/

theorem sof_not_mem_answerSyms (ans : Option (Bool × Nat × Nat)) : Sym.ctl .sof ∉ answerSyms ans := by
  rcases ans with _ | ⟨_ | _, a, b⟩ <;> simp [answerSyms]

/-- What a burst sends before the SOF of its frame. -/
def burstLead (b : Burst) : List Sym :=
  burstHead b.ls b.ans ++ (if b.train then List.replicate 60 (.ctl .train) else []) ++ (if b.mark then [.ctl .tmark] else [])

theorem burstSyms_frame {b : Burst} {l : List Byte} (h : b.frame = some l) : burstSyms b =
    burstLead b ++ .ctl .sof :: (l.map .data ++ [.ctl (if b.aborted then .abort else .eof), .ctl .turn]) := by
  simp [burstSyms, burstLead, h]

theorem sof_not_mem_burstLead (b : Burst) : Sym.ctl .sof ∉ burstLead b := by
  have hans := sof_not_mem_answerSyms b.ans
  simp only [burstLead, burstHead]
  cases b.train <;> cases b.mark <;> simp [hans]

/-- How a frame's characters end at a control character (R222, R231, R242). -/
def ctlEnd : Ctl → FrameEnd
  | .eof => .eof
  | .abort => .abort
  | .fault => .tone
  | _ => .other

/-- Frame characters after what holds no SOF are the frame's, up to the first control character. -/
theorem splitFrame_append {a : List Sym} (ha : Sym.ctl .sof ∉ a) (l : List Byte) (c : Ctl) (r : List Sym) :
    splitFrame (a ++ .ctl .sof :: (l.map .data ++ .ctl c :: r)) =
      ⟨a, l.map some, ctlEnd c⟩ := by
  have hne : ∀ x ∈ a, decide (x ≠ .ctl .sof) = true := fun x hx => decide_eq_true fun he => ha (he ▸ hx)
  have hdata : ∀ x ∈ l.map Sym.data, x.body.isSome = true := by simp [Sym.body]
  have hmap : (l.map Sym.data).filterMap Sym.body = l.map some := by
    induction l with
    | nil => rfl
    | cons x r ih => simp_all [Sym.body]
  unfold splitFrame
  simp only [List.takeWhile_append_of_pos hne, List.dropWhile_append_of_pos hne]
  have hend : (Sym.ctl c).body.isSome = false := rfl
  simp [List.takeWhile_append_of_pos hdata, List.dropWhile_append_of_pos hdata, hmap, hend]
  cases c <;> rfl

theorem readHead_burstSyms (b : Burst) : ∃ r, readHead (burstSyms b) = some ((BitVec.ofNat 8 b.ls).toNat, readAnswer (answerSyms b.ans ++ r)) := by
  simp only [burstSyms, burstHead, List.append_assoc, List.cons_append, List.nil_append, readHead]
  exact ⟨_, rfl⟩

theorem readAnswer_ack {src alive : Nat} (hs : src < 63) (ha : alive < 16) (r : List Sym) :
    readAnswer (answerSyms (some (true, src, alive + 16 * (15 - alive))) ++ r) = some ⟨none, src, alive⟩ := by
  have hbyte : (BitVec.ofNat 8 (alive + 16 * (15 - alive))).toNat = alive + 16 * (15 - alive) := toNat_ofNat_byte (by omega)
  have hsum : (alive + 16 * (15 - alive)) / 16 + alive = 15 := by omega
  have hlow : (alive + 16 * (15 - alive)) % 16 = alive := by omega
  simp only [answerSyms, if_true, List.cons_append, readAnswer, hbyte, hlow, hsum, toNat_ofNat_byte (show src < 256 by omega)]

theorem readAnswer_nak {reason src alive : Nat} (hr : reason < 16) (hs : src < 64) (ha : alive < 16) (r : List Sym) :
    readAnswer (answerSyms (some (false, src, alive + 16 * reason)) ++ r) = some ⟨some reason, src, alive⟩ := by
  have hbyte : (BitVec.ofNat 8 (alive + 16 * reason)).toNat = alive + 16 * reason := toNat_ofNat_byte (by omega)
  have hhigh : (alive + 16 * reason) / 16 = reason := by omega
  have hlow : (alive + 16 * reason) % 16 = alive := by omega
  simp only [answerSyms, Bool.false_eq_true, if_false, List.cons_append, readAnswer, hbyte, hhigh, hlow,
    toNat_ofNat_byte (show src < 256 by omega)]

/-- Settles O37: a frame's bytes field by field, characters by induction over them, and a burst by its parts. -/
theorem frameBytesReadBack : Obligations.FrameBytesReadBack := by
  unfold Obligations.FrameBytesReadBack
  refine ⟨fun p alive f ha hd hs ht hq hst hp => ?_, decodeGroups_encodeSyms, fun b l hl => ?_⟩
  · exact ⟨frameBytes_length p alive f, headerOk_frameBytes hs hp, crcOk_frameBytes hp, frameOf_frameBytes ha hd hs ht hq hst hp,
      alive_frameBytes ha hst⟩
  · obtain ⟨r, hr⟩ := readHead_burstSyms b
    rw [hr, burstSyms_frame hl, splitFrame_append (sof_not_mem_burstLead b)]
    refine ⟨rfl, by cases b.aborted <;> rfl, fun hls => ?_, fun src alive hs ha hans => ?_, fun reason src alive hre hs ha hans => ?_⟩
    · simp [toNat_ofNat_byte hls]
    · rw [hans, readAnswer_ack hs ha]
      rfl
    · rw [hans, readAnswer_nak hre hs ha]
      rfl

end Sys2Proof.Machine
end

section
/-! SUPPORT. Frames that join a queue, go out in a burst under way, or are passed on (file 08, R231, R248). -/

namespace Sys2Proof.Machine

/-! ### Queues (R248) -/

/-- A counter after a count, which saturates. -/
theorem regFld_bump_sat (off hi lo n : Nat) (d : Dev) (h : hi < 32 := by decide) (hl : lo ≤ hi := by decide) :
    regFld (bump off hi lo n d) off hi lo = satNat (2 ^ (hi + 1 - lo) - 1) (regFld d off hi lo + n) := by
  rw [regFld_bump off hi lo n d h hl, satNat]
  split <;> omega

theorem ChangesOnly.regFld {ps : List Part} {rs : List Nat} {a b : Dev} (h : ChangesOnly ps rs a b) {off : Nat} (hi lo : Nat)
    (ho : off ∉ rs := by decide) : regFld b off hi lo = regFld a off hi lo := by
  unfold Machine.regFld
  rw [h.2 _ ho]

theorem queued_enqueue (p : Port) (f : Frame) (d : Dev) : Queued d (enqueue p f d) p f := by
  unfold enqueue
  refine ⟨fun h => ?_, fun h => ?_⟩
  · rw [if_pos h, port_setPort]
  · rw [if_neg (by omega)]
    exact ⟨by cases p <;> rfl, regFld_bump_sat R.ringCnt 15 0 1 d⟩

/-- The other port's queue stays. -/
theorem port_enqueue_other (p : Port) (f : Frame) (d : Dev) : port (enqueue p f d) (otherPort p) = port d (otherPort p) := by
  unfold enqueue
  dsimp only
  split
  · exact port_setPort_other ..
  · cases p <;> rfl

/-! ### Cut-through (R231) -/

/-- The burst that a port is sending, with a copy of a frame in it. -/
def Burst.carry (b : Burst) (bytes : List Byte) (mark aborted : Bool) : Burst := { b with frame := some bytes, mark := mark, aborted := aborted }

/-- A copy that goes out in the burst of a port starts within 0.4 us of the header, and is outstanding unless it is aborted. -/
theorem cutSend_at {q : Port} {th : Nat} {f : Frame} {aborted : Bool} {d : Dev} {b : Burst} (hb : (port d q).sent = some b) :
    ∃ k : Nat, k ≤ 80 ∧ ∃ x : LinkPort, cutSend q th f aborted d = setPort q x (freeWord d).2 ∧
      x.sent = some (b.carry (frameBytes q (port d q).alive (departing d.head (th + k) f)) (decide (f.typ = 0x07)) aborted) ∧
      x.out = (if aborted then none else some f) ∧ x.queue = (port d q).queue ∧ x.alive = (port d q).alive := by
  have hfree : port (freeWord d).2 q = port d q := by cases q <;> rfl
  refine ⟨(freeWord d).1.toNat % 81, by omega, ?_⟩
  unfold cutSend
  simp only [hfree, hb]
  exact ⟨_, rfl, rfl, rfl, rfl, rfl⟩

/-- A port that is not sending takes no copy. -/
theorem cutSend_none {q : Port} {th : Nat} {f : Frame} {aborted : Bool} {d : Dev} (hb : (port d q).sent = none) :
    cutSend q th f aborted d = (freeWord d).2 := by
  have hfree : port (freeWord d).2 q = port d q := by cases q <;> rfl
  unfold cutSend
  simp only [hfree, hb]

theorem frame_cutSend (q : Port) (th : Nat) (f : Frame) (aborted : Bool) (d : Dev) :
    ChangesOnly [portPart q, .free] [] d (cutSend q th f aborted d) := by
  cases hb : (port d q).sent with
  | none =>
    rw [cutSend_none hb]
    exact (frame_freeWord d).mono (by cases q <;> decide)
  | some b =>
    obtain ⟨k, -, x, hx, -, -, hqueue, -⟩ := cutSend_at (th := th) (f := f) (aborted := aborted) hb
    have hfree : port (freeWord d).2 q = port d q := by cases q <;> rfl
    rw [hx]
    exact ((frame_freeWord d).mono (by cases q <;> decide)).trans
      ((frame_setPort_queue (by rw [hfree, hqueue])).mono (by cases q <;> decide))

theorem port_cutSend_other (q : Port) (th : Nat) (f : Frame) (aborted : Bool) (d : Dev) :
    port (cutSend q th f aborted d) (otherPort q) = port d (otherPort q) := by
  cases hb : (port d q).sent with
  | none =>
    rw [cutSend_none hb]
    cases q <;> rfl
  | some b =>
    obtain ⟨k, -, x, hx, -⟩ := cutSend_at (th := th) (f := f) (aborted := aborted) hb
    rw [hx, port_setPort_other]
    cases q <;> rfl

/-- Where cut-through is allowed the port is sending a burst without a frame. -/
theorem sent_of_cutThrough {d : Dev} {p q : Port} {th : Nat} (h : cutThrough d p q th = true) :
    ∃ b, (port d q).sent = some b ∧ b.frame = none := by
  simp only [cutThrough, Bool.and_eq_true, beq_iff_eq, Option.map_eq_some_iff] at h
  exact h.1.1.2

/-! ### Forwarding (R231, R248) -/

/-- A frame other than an EVENT goes on by the other port. -/
theorem forward_eq {th : Nat} {p : Port} {f : Frame} {d : Dev} (hf : f.typ ≠ 0x03) : forward th p f d =
    if cutThrough d p (otherPort p) th then cutSend (otherPort p) th f false d else enqueue (otherPort p) f d := by
  unfold forward
  rw [if_neg (by simp [hf])]

theorem frame_forward (th : Nat) (p : Port) (f : Frame) (d : Dev) :
    ChangesOnly [portPart (otherPort p), .free, .queues, .cyc] [R.ringCnt] d (forward th p f d) := by
  have hqueue : ∀ q g, ChangesOnly [portPart (otherPort p), .free, .queues, .cyc] [R.ringCnt] d (enqueue q g d) := fun q g =>
    (frame_enqueue ..).mono (by cases p <;> decide)
  exact .ite (.ite ((frame_bump ..).mono (by cases p <;> decide)) (hqueue _ _))
    (.ite ((frame_cutSend ..).mono (by cases p <;> decide)) (hqueue _ _))

/-- The port by which a frame came keeps all but its queue. -/
theorem still_forward (th : Nat) (p : Port) (f : Frame) (d : Dev) : (port (forward th p f d) p).still = (port d p).still :=
  (frame_forward th p f d).still p (by cases p <;> decide)

theorem passedOn_passOn {p : Port} {f : Frame} {d : Dev} (hf : f.typ ≠ 0x03) : PassedOn d (passOn p f d) p f := by
  unfold PassedOn passOn
  dsimp only
  rw [forward_eq hf]
  refine ⟨fun h => ?_, fun h => ?_⟩
  · rw [if_neg (by simp [h])]
    exact queued_enqueue ..
  · obtain ⟨b, hb, -⟩ := sent_of_cutThrough h
    obtain ⟨k, hk, x, hx, hsent, hout, hqueue, -⟩ := cutSend_at (th := (port d p).rxTh.toNat) (f := f) (aborted := false) hb
    rw [if_pos h, hx, port_setPort]
    exact ⟨hqueue, hout, _, k, hsent, hk, rfl, rfl⟩

theorem frame_passOn (p : Port) (f : Frame) (d : Dev) : ChangesOnly (.queues :: .cyc :: passParts) [R.ringCnt] d (passOn p f d) :=
  (frame_forward ..).mono (by cases p <;> decide)

theorem frame_sendOn (p : Port) (typ seq : Nat) (pay : List Byte) (d : Dev) :
    ChangesOnly (.queues :: .cyc :: passParts) [R.ringCnt] d (sendOn p typ seq pay d) := frame_passOn ..

/-- The port by which it came keeps its queue. -/
theorem port_passOn {p : Port} {f : Frame} {d : Dev} (hf : f.typ ≠ 0x03) : port (passOn p f d) p = port d p := by
  have hback : otherPort (otherPort p) = p := otherPort_otherPort p
  unfold passOn
  rw [forward_eq hf]
  split
  · have h := port_cutSend_other (otherPort p) (port d p).rxTh.toNat f false d
    rwa [hback] at h
  · have h := port_enqueue_other (otherPort p) f d
    rwa [hback] at h

end Sys2Proof.Machine
end

section
/-! PROOF. RING_ENUM and its frames: positions, routes, and the pass that ends at the head (file 09, R229, R231, R253, R254). -/

namespace Sys2Proof.Machine

/-! ### RING_ENUM (R253, R254) -/

/-- A command that ends at the head leaves the device as it was. -/
theorem endedState_head {s : State} {h status : Nat} {res : List Byte} {d : Dev} (calm : Calm d) (hh : d.head = true) :
    (endedState s h status res d).dev = d := by
  have hout : (finish h status res d).ev.out = [] := by rw [finish_out, calm.1]
  have hdone : ({ d.ex with done := [] } : Exec) = d.ex := by rw [← calm.2]
  rw [endedState, settle_dev hout, finish_head hh]
  simp only [hdone]

/-- The head with an enumeration begun. -/
def enumBegun (h : Nat) (d : Dev) : Dev := withRing (fun r => { r with enumH := some h, enumPass := 1, enumAt := d.now }) d

theorem enumBegin_busy {h : Nat} {d : Dev} {x : Hst} (hh : d.head = true)
    (hb : d.sw.collect ≠ [] ∨ d.rg.enumH ≠ none ∨ stackCommand x = true) : enumBegin h (d, x) = (finish h St.resourceBusy [] d, x) := by
  have hbusy : (!d.sw.collect.isEmpty || d.rg.enumH.isSome || stackCommand x) = true := by
    rcases hb with hb | hb | hb
    · simp [hb]
    · simp [Option.isSome_iff_ne_none.mpr hb]
    · simp [hb]
  simp [enumBegin, hh, hbusy]

theorem enumBegin_idle {h : Nat} {d : Dev} {x : Hst} (hh : d.head = true) (hc : d.sw.collect = []) (he : d.rg.enumH = none)
    (hs : stackCommand x = false) : enumBegin h (d, x) =
      if d.ln.st ≠ .up ∧ d.ls.st ≠ .up then (finish h St.ringBreak [] d, x) else (sendEnum .north ⟨1, 1, 0, false, []⟩ (enumBegun h d), x) := by
  simp [enumBegin, enumBegun, hh, hc, he, hs, LinkPort.isUp]

theorem exec_ringEnum {s : State} {t : Time} {h : Nat} {c : Desc} {d : Dev} (hd : d = tick t s.dev) (ha : d.awake = true)
    (hop : dOp c = 0x80) (hz : zeroFrom c 2 = true) : exec (.ringEnum t h c) s = .next { s with
      dev := (settle (enumBegin h (d, s.hst))).1
      hst := (settle (enumBegin h (d, s.hst))).2 } := by
  subst hd
  exact actOpH_next (ok := fun c => zeroFrom c 2) (enumBegin h) ha hop hz

/-- A RING_ENUM that ends as it begins. -/
theorem ended_ringEnum {s : State} {h status : Nat} {d : Dev} (hs : s.dev.head = true) (hh : d.head = true) (calm : Calm d) :
    Finished s (endedState s h status [] d) h status [] ∧ ChangesOnly [] [] d (endedState s h status [] d).dev := by
  rw [endedState_head calm hh]
  exact ⟨finished_endedState_head calm hs hh, .refl ..⟩

theorem ringEnum_begins {s : State} {t : Time} {h : Nat} {c : Desc} {d : Dev} (hd : d = tick t s.dev) (ha : d.awake = true) (calm : Calm d)
    (hh : d.head = true) (hop : dOp c = 0x80) (hz : zeroFrom c 2 = true) :
    ∃ u, exec (.ringEnum t h c) s = .next u ∧
      (d.sw.collect ≠ [] ∨ d.rg.enumH ≠ none ∨ stackCommand s.hst = true → Finished s u h 0x31 [] ∧ ChangesOnly [] [] d u.dev) ∧
      (d.sw.collect = [] → d.rg.enumH = none → stackCommand s.hst = false →
        (d.ln.st ≠ .up → d.ls.st ≠ .up → Finished s u h 0x21 [] ∧ ChangesOnly [] [] d u.dev) ∧
        (d.ln.st = .up ∨ d.ls.st = .up →
          u.dev.rg = { d.rg with enumH := some h, enumPass := 1, enumAt := d.now } ∧
          Queued d u.dev .north (allFrame 0 (statusNibble d) 0x09 0 [1, 1, 0, 0]) ∧
          ChangesOnly [.rg, .queues, .cyc] [R.ringCnt] d u.dev ∧ u.hst = s.hst)) := by
  have hs : s.dev.head = true := by rwa [hd, tick_head] at hh
  refine ⟨_, exec_ringEnum hd ha hop hz, fun hb => ?_, fun hc he hk => ⟨fun hn hso => ?_, fun hup => ?_⟩⟩
  · rw [enumBegin_busy hh hb]
    exact ended_ringEnum hs hh calm
  · rw [enumBegin_idle hh hc he hk, if_pos ⟨hn, hso⟩]
    exact ended_ringEnum hs hh calm
  · rw [enumBegin_idle hh hc he hk, if_neg (fun hdown => hup.elim hdown.1 hdown.2)]
    have hsent : ChangesOnly [.queues, .cyc] [R.ringCnt] (enumBegun h d) (sendEnum .north ⟨1, 1, 0, false, []⟩ (enumBegun h d)) :=
      frame_enqueue ..
    have hframe : ChangesOnly [.rg, .queues, .cyc] [R.ringCnt] d (sendEnum .north ⟨1, 1, 0, false, []⟩ (enumBegun h d)) :=
      ((frame_withRing ..).mono).trans hsent.mono
    rw [settle_calm (hframe.calm calm)]
    exact ⟨hsent.1 .rg (by decide), queued_enqueue (d := enumBegun h d) .north _, hframe, rfl⟩

/-! ### Positions and routes at a stack device (R253) -/

theorem enumFrame_typ (stat : Nat) (pay : List Byte) : (allFrame 0 stat 0x09 0 pay).typ ≠ 0x03 := by simp [allFrame]

theorem unbuffer_running (p : Port) (typ : Nat) (d : Dev) : (unbuffer p typ d).running = d.running := by cases p <;> rfl

theorem enumRx_route {p : Port} {e : EnumMsg} {d : Dev} (hh : d.head = false) (ho : e.op = 0x10) :
    enumRx p e d = sendOn p 0x09 0 (enumBytes e) (setRoute e.next d) := by
  simp [enumRx, hh, ho]

theorem enumRx_other {p : Port} {e : EnumMsg} {d : Dev} (hh : d.head = false) (h1 : e.op ≠ 1) (h2 : e.op ≠ 2) (h10 : e.op ≠ 0x10) :
    enumRx p e d = sendOn p 0x09 0 (enumBytes e) d := by
  simp [enumRx, hh, h1, h2, h10]

theorem enumRx_take {p : Port} {e : EnumMsg} {d : Dev} (hh : d.head = false) (ho : e.op = 1 ∨ e.op = 2) :
    enumRx p e d = takePosition p e d := by
  have h10 : e.op ≠ 0x10 := by omega
  simp [enumRx, hh, h10, ho]

theorem enumRx_head_idle {p : Port} {e : EnumMsg} {d : Dev} (hh : d.head = true) (h : e.op ≠ 1 ∨ p = .north ∨ d.rg.enumPass ≠ 1) :
    enumRx p e d = d := by
  have hback : ¬(e.op = 1 ∧ p = .south ∧ d.rg.enumPass = 1) := by
    rintro ⟨h1, rfl, hp⟩
    simp [h1, hp] at h
  simp [enumRx, hh, hback]

theorem enumRx_back {e : EnumMsg} {d : Dev} (hh : d.head = true) (ho : e.op = 1) (hp : d.rg.enumPass = 1) :
    enumRx .south e d = enumBack e d := by
  simp [enumRx, hh, ho, hp]

/-- The device at a position. -/
def placedAt (k : Nat) (d : Dev) : Dev := withRing (fun r => { r with pos := k }) d

theorem takePosition_placed {p : Port} {e : EnumMsg} {d : Dev} (h1 : 1 ≤ e.next) (h2 : e.next ≤ 62) : takePosition p e d =
    sendOn p 0x09 0 (enumBytes ⟨e.op, if e.op = 1 then e.next + 1 else e.next - 1, e.count + 1, e.overflow,
      e.entries ++ [(BitVec.ofNat 8 (rateByte d), BitVec.ofNat 8 (ncells d))]⟩) (placedAt e.next d) :=
  if_pos ⟨h1, h2⟩

theorem takePosition_unassigned {p : Port} {e : EnumMsg} {d : Dev} (h : e.next = 0 ∨ 62 < e.next) : takePosition p e d =
    sendOn p 0x09 0 (enumBytes ⟨e.op, e.next, e.count, true, e.entries⟩) (placedAt 0x3F d) :=
  if_neg (by omega)

/-- A device at a new position passes a frame on as it did before. -/
theorem sendOn_placedAt (p : Port) (k : Nat) (pay : List Byte) (d : Dev) :
    (sendOn p 0x09 0 pay (placedAt k d)).rg = { d.rg with pos := k } ∧
    PassedOn d (sendOn p 0x09 0 pay (placedAt k d)) p (allFrame 0 (port d p).rxStat 0x09 0 pay) ∧
    ChangesOnly (.rg :: .queues :: .cyc :: passParts) [R.ringCnt] d (sendOn p 0x09 0 pay (placedAt k d)) := by
  have hsent := frame_sendOn p 0x09 0 pay (placedAt k d)
  have hport : port (placedAt k d) p = port d p := by cases p <;> rfl
  refine ⟨hsent.1 .rg (by decide), ?_, ((frame_withRing ..).mono).trans hsent.mono⟩
  have hpass := passedOn_passOn (p := p) (f := allFrame 0 (port d p).rxStat 0x09 0 pay) (d := placedAt k d) (enumFrame_typ _ _)
  rw [sendOn, hport]
  cases p <;> exact hpass

/-- A port whose hop is not UP without the frames that waited for it. -/
def LinkPort.unstuck (x : LinkPort) : LinkPort := if x.isUp then x else { x with queue := [] }

theorem port_setRoute (b : Nat) (d : Dev) (p : Port) :
    port (setRoute b d) p = if b = 0x3F then port d p else (port d p).unstuck := by
  unfold setRoute
  dsimp only
  split
  · cases p <;> rfl
  · cases p <;> rfl

theorem setRoute_rg (b : Nat) (d : Dev) : (setRoute b d).rg = { d.rg with b := b, castled := decide (b ≠ 0x3F) } := by
  unfold setRoute
  dsimp only
  split <;> rfl

theorem unstuck_still (x : LinkPort) : x.unstuck.still = x.still := by
  unfold LinkPort.unstuck
  split <;> rfl

theorem frame_setRoute (b : Nat) (d : Dev) : ChangesOnly [.rg, .queues] [] d (setRoute b d) := by
  have hdrop : ∀ e, ChangesOnly [.rg, .queues] [] e (dropStuck e) := fun e => by
    refine ⟨fun q hq => ?_, fun _ _ => rfl⟩
    have hn : (dropStuck e).ln.still = e.ln.still := unstuck_still e.ln
    have hs : (dropStuck e).ls.still = e.ls.still := unstuck_still e.ls
    cases q with
    | north => exact hn
    | south => exact hs
    | queues => simp at hq
    | rg => simp at hq
    | _ => rfl
  exact .ite ((frame_withRing ..).mono) (((frame_withRing ..).mono).trans (hdrop _))

/-- OP 0x10: the route is taken, frames that waited for a hop that is not UP are discarded, and the frame goes on. -/
theorem sendOn_setRoute (p : Port) (e : EnumMsg) (d : Dev) :
    (sendOn p 0x09 0 (enumBytes e) (setRoute e.next d)).rg = { d.rg with b := e.next, castled := decide (e.next ≠ 0x3F) } ∧
    ((port d (otherPort p)).st = .up →
      PassedOn d (sendOn p 0x09 0 (enumBytes e) (setRoute e.next d)) p (allFrame 0 (port d p).rxStat 0x09 0 (enumBytes e))) ∧
    (e.next ≠ 0x3F → (port d p).st ≠ .up → (port (sendOn p 0x09 0 (enumBytes e) (setRoute e.next d)) p).queue = []) ∧
    ChangesOnly (.rg :: .queues :: .cyc :: passParts) [R.ringCnt] d (sendOn p 0x09 0 (enumBytes e) (setRoute e.next d)) := by
  have hroute := frame_setRoute e.next d
  have hsent := frame_sendOn p 0x09 0 (enumBytes e) (setRoute e.next d)
  have hown := hroute.still p (by cases p <;> decide)
  refine ⟨(hsent.1 .rg (by decide)).trans (setRoute_rg ..), fun hup => ?_, fun hb hst => ?_, hroute.mono.trans hsent.mono⟩
  · have hother : port (setRoute e.next d) (otherPort p) = port d (otherPort p) := by
      rw [port_setRoute, LinkPort.unstuck]
      simp [LinkPort.isUp, hup]
    have hstat : (port (setRoute e.next d) p).rxStat = (port d p).rxStat := (congrArg LinkPort.rxStat hown :)
    have hth : (port (setRoute e.next d) p).rxTh = (port d p).rxTh := (congrArg LinkPort.rxTh hown :)
    have hrate : (port (setRoute e.next d) p).rate = (port d p).rate := (congrArg LinkPort.rate hown :)
    have htn : (setRoute e.next d).tn = d.tn := hroute.1 .tn (by decide)
    have hcut : cutThrough (setRoute e.next d) p (otherPort p) (port d p).rxTh.toNat = cutThrough d p (otherPort p) (port d p).rxTh.toNat := by
      simp only [cutThrough, toneOn, hother, hrate, htn]
    have hpass := passedOn_passOn (p := p) (f := allFrame 0 (port d p).rxStat 0x09 0 (enumBytes e)) (d := setRoute e.next d) (enumFrame_typ _ _)
    rw [sendOn, hstat]
    simpa only [PassedOn, Queued, hth, hcut, hother, hroute.regFld (off := R.ringCnt) 15 0, hroute.head] using hpass
  · rw [sendOn, port_passOn (enumFrame_typ _ _), port_setRoute, if_neg hb, LinkPort.unstuck]
    simp [LinkPort.isUp, hst]

/-! ### The frame is back at the head (R253) -/

theorem mem_entryRecs {d : Dev} {l : List (Byte × Byte)} {k n : Nat} {x : Byte × Byte} (h : l[k]? = some x) :
    ∃ r, (k + n, r) ∈ entryRecs d n l ∧ r.rate = x.1.toNat % 16 ∧ r.ncells = x.2.toNat := by
  induction l generalizing k n with
  | nil => simp at h
  | cons y r ih =>
    cases k with
    | zero =>
      obtain rfl : y = x := by simpa using h
      exact ⟨(freshRec d n (y.1.toNat % 16) y.2.toNat).2, by simp [entryRecs, freshRec], rfl, rfl⟩
    | succ k =>
      obtain ⟨q, hmem, hrate, hcells⟩ := ih (n := n + 1) (by simpa using h)
      exact ⟨q, List.mem_cons_of_mem _ (by rwa [Nat.add_right_comm, Nat.add_assoc]), hrate, hcells⟩

/-- Causes that are no longer present stay latched. -/
theorem each_gone_eq (b : Nat) (l : List Nat) (d : Dev) : ∃ x : Safe, each (gone b) l d = { d with sf := x } ∧ x.causes = d.sf.causes := by
  induction l generalizing d with
  | nil => exact ⟨d.sf, rfl, rfl⟩
  | cons i r ih =>
    obtain ⟨x, hx, hcauses⟩ := ih (gone b i d)
    exact ⟨x, hx, hcauses⟩

theorem forgetLost_eq (d : Dev) : ∃ x : Safe, forgetLost d = { d with sf := x } ∧ x.causes = d.sf.causes := by
  obtain ⟨x, hx, hcauses⟩ := each_gone_eq 13 (d.sf.lost.filter (fun p => !enumerated d p || (posRec d p).low))
    { d with sf := { d.sf with lost := d.sf.lost.filter (fun p => decide (p ∉ d.sf.lost.filter (fun p => !enumerated d p || (posRec d p).low))) } }
  exact ⟨x, hx, hcauses⟩

/-- The ring as an enumeration leaves it (Table RING-3 step 3). -/
def Ring.enumerated (e : EnumMsg) (recs : List (Nat × PosRec)) (r : Ring) : Ring :=
  { r with
    recs := recs, n := e.next - 1, overflow := e.overflow, second := false, brk := false, lo := 0x3F, hi := 0x3F, loEv := false
    hiEv := false, inN := [], inS := [], enumPass := 3, b := 0x3F, castled := false }

/-- The status nibble does not depend on the ring, nor on anything of the safety functions but the latches. -/
theorem statusNibble_ring_safe (r : Ring) (x : Safe) (d : Dev) (h : x.causes = d.sf.causes) :
    statusNibble { d with rg := r, sf := x } = statusNibble d := by
  unfold statusNibble
  rw [show ({ d with rg := r, sf := x } : Dev).sf.causes = d.sf.causes from h]
  rfl

theorem enumBack_eq (e : EnumMsg) (d : Dev) : ∃ x : Safe, x.causes = d.sf.causes ∧ enumBack e d =
    enqueue .north (allFrame 0 (statusNibble d) 0x09 0 [0x10, 0x3F, 0, 0])
      { d with rg := d.rg.enumerated e (entryRecs d 1 e.entries), sf := x } := by
  obtain ⟨x, hx, hcauses⟩ := forgetLost_eq (withRing (fun r => { r with
    recs := entryRecs d 1 e.entries, n := e.next - 1, overflow := e.overflow, second := false, brk := false, lo := 0x3F, hi := 0x3F
    loEv := false, hiEv := false, inN := [], inS := [], enumPass := 3 }) d)
  refine ⟨x, hcauses, ?_⟩
  rw [← statusNibble_ring_safe (d.rg.enumerated e (entryRecs d 1 e.entries)) x d hcauses, enumBack, hx]
  rfl

theorem frame_ring_safe (r : Ring) (x : Safe) (d : Dev) : ChangesOnly [.rg, .sf] [] d { d with rg := r, sf := x } := by
  refine ⟨fun q hq => ?_, fun _ _ => rfl⟩
  cases q <;> simp_all [Part.same]

theorem enumBack_spec (e : EnumMsg) (d : Dev) :
    (enumBack e d).rg = d.rg.enumerated e (entryRecs d 1 e.entries) ∧
    Queued d (enumBack e d) .north (allFrame 0 (statusNibble d) 0x09 0 [0x10, 0x3F, 0, 0]) ∧
    ChangesOnly [.rg, .sf, .queues, .cyc] [R.ringCnt] d (enumBack e d) := by
  obtain ⟨x, -, hx⟩ := enumBack_eq e d
  rw [hx]
  have hsent := frame_enqueue .north (allFrame 0 (statusNibble d) 0x09 0 [0x10, 0x3F, 0, 0])
    { d with rg := d.rg.enumerated e (entryRecs d 1 e.entries), sf := x }
  have hqueued := queued_enqueue .north (allFrame 0 (statusNibble d) 0x09 0 [0x10, 0x3F, 0, 0])
    { d with rg := d.rg.enumerated e (entryRecs d 1 e.entries), sf := x }
  exact ⟨hsent.1 .rg (by decide), hqueued, ((frame_ring_safe ..).mono).trans hsent.mono⟩

/-! ### ENUM_RX -/

theorem frame_enumRx (p : Port) (e : EnumMsg) (d : Dev) :
    ChangesOnly (.rg :: .sf :: .queues :: .cyc :: passParts) [R.ringCnt] d (enumRx p e d) := by
  refine .ite (.ite (enumBack_spec e d).2.2.mono (.refl ..)) (.ite ?_ (.ite (.ite ?_ ?_) ?_))
  · exact (sendOn_setRoute p e d).2.2.2.mono
  · exact (sendOn_placedAt p _ _ d).2.2.mono
  · exact (sendOn_placedAt p _ _ d).2.2.mono
  · exact (frame_sendOn ..).mono

theorem exec_enumRx {s : State} {t : Time} {p : Port} {e : EnumMsg} {d : Dev} (hd : d = unbuffer p 0x09 (tick t s.dev))
    (hr : d.running = true) (calm : Calm d) : exec (.enumRx t p e) s = .next { s with dev := enumRx p e d } := by
  subst hd
  exact actAt_calm (fun d => enumRx p e (unbuffer p 0x09 d)) rfl (by rwa [unbuffer_running] at hr) ((frame_enumRx ..).calm calm)

/-- Settles O42: RING_ENUM by what stands in its way, ENUM_RX by role and OP. -/
theorem enumerationAssigns : Obligations.EnumerationAssigns := by
  unfold Obligations.EnumerationAssigns
  refine ⟨fun s t h c d hd ha calm hh hop hz => ringEnum_begins hd ha calm hh hop hz, fun s t p e d hd hr calm =>
    ⟨_, exec_enumRx hd hr calm, fun hh h => ⟨enumRx_head_idle hh h, rfl⟩, fun hh ho h1 h2 => ?_, fun hh ho hn => ?_, fun hh ho => ?_,
      fun hh h1 h2 h10 => ?_, fun hh ho hp hpass => ?_⟩⟩
  · rw [enumRx_take hh ho, takePosition_placed h1 h2]
    obtain ⟨hrg, hpassed, hframe⟩ := sendOn_placedAt p e.next _ d
    exact ⟨hrg, hpassed, hframe, rfl⟩
  · rw [enumRx_take hh ho, takePosition_unassigned hn]
    obtain ⟨hrg, hpassed, hframe⟩ := sendOn_placedAt p 0x3F _ d
    exact ⟨hrg, hpassed, hframe, rfl⟩
  · rw [enumRx_route hh ho]
    obtain ⟨hrg, hpassed, hqueue, hframe⟩ := sendOn_setRoute p e d
    exact ⟨hrg, hpassed, hqueue, hframe, rfl⟩
  · rw [enumRx_other hh h1 h2 h10]
    exact ⟨passedOn_passOn (enumFrame_typ _ _), frame_sendOn .., rfl⟩
  · subst hp
    rw [enumRx_back hh ho hpass]
    obtain ⟨hrg, hqueued, hframe⟩ := enumBack_spec e d
    rw [hrg]
    exact ⟨rfl, rfl, rfl, rfl, rfl, rfl, fun k x hx => mem_entryRecs hx, hqueued, hframe, rfl⟩

end Sys2Proof.Machine
end

section
/-! SUPPORT. The fault tone: bursts that repeat and end, holdoff, a tone that arrives, lasts and ends (file 08, R240 to R242, R245, R311). -/

namespace Sys2Proof.Machine

/-! ### Ports -/

/-- Both ports replaced but for their queues. -/
theorem frame_ports {x y : LinkPort} {d : Dev} (hx : x.queue = d.ln.queue) (hy : y.queue = d.ls.queue) :
    ChangesOnly [.north, .south] [] d { d with ln := x, ls := y } := by
  refine ⟨fun q hq => ?_, fun _ _ => rfl⟩
  cases q <;> simp_all [Part.same]

@[simp] theorem cutOff_toneTx (now : Time) (x : LinkPort) : (x.cutOff now).toneTx = x.toneTx := by
  unfold LinkPort.cutOff
  split
  · rfl
  · split <;> rfl

@[simp] theorem fallQuiet_queue (now : Time) (x : LinkPort) : (x.fallQuiet now).queue = x.queue := by
  unfold LinkPort.fallQuiet
  split <;> rfl

@[simp] theorem fallQuiet_rxTone (now : Time) (x : LinkPort) : (x.fallQuiet now).rxTone = x.rxTone := by
  unfold LinkPort.fallQuiet
  split <;> rfl

/-! ### Originating ends any forwarding (R241) -/

theorem endForward_eq (d : Dev) : endForward d = withTone (fun n => { n with fwd := none }) (unforwarded d) := rfl

theorem port_endForward (p : Port) (d : Dev) : port (endForward d) p = port (unforwarded d) p := by cases p <;> rfl

theorem endForward_tn (d : Dev) : (endForward d).tn = { d.tn with fwd := none } := by
  rw [endForward_eq, withTone_tn, (frame_unforwarded d).1 .tn (by decide)]

theorem frame_endForward (d : Dev) : ChangesOnly [.tn, .north, .south] [] d (endForward d) :=
  ((frame_unforwarded d).mono).trans ((frame_withTone ..).mono)

/-- The port that the device forwarded to falls quiet where it drives no burst of its own. -/
theorem unforwarded_fwd {p : Port} {d : Dev} (hf : d.tn.fwd = some p) (ht : (port d p).toneTx = false) :
    port (unforwarded d) p = (port d p).fellQuiet d.now := by
  simp [unforwarded, hf, ht, withPort]

/-! ### Bursts that repeat (R240) -/

theorem burstDue_iff {x : LinkPort} {now : Time} :
    x.burstDue now = true ↔ x.toneTx = false ∧ 0 < x.toneLeft ∧ passed (msT 1) x.toneFrom now = true := by
  simp [LinkPort.burstDue, and_assoc]

/-- The next burst of each port where it is due. -/
def repeated (d : Dev) : Dev := { d with ln := d.ln.repeatTone d.now, ls := d.ls.repeatTone d.now }

theorem port_repeated (p : Port) (d : Dev) : port (repeated d) p = (port d p).repeatTone d.now := by cases p <;> rfl

theorem repeatTone_due {now : Time} {x : LinkPort} (h : x.burstDue now = true) :
    x.repeatTone now = { x.cutOff now with toneTx := true, toneLeft := x.toneLeft - 1, toneFrom := now } := if_pos h

theorem repeatTone_idle {now : Time} {x : LinkPort} (h : x.burstDue now = false) : x.repeatTone now = x := if_neg (by simp [h])

theorem repeatTone_queue (now : Time) (x : LinkPort) : (x.repeatTone now).queue = x.queue := by
  unfold LinkPort.repeatTone
  split <;> simp

theorem frame_repeated (d : Dev) : ChangesOnly [.north, .south] [] d (repeated d) := frame_ports (repeatTone_queue ..) (repeatTone_queue ..)

/-- A burst is due on some port. -/
theorem toneRepeat_due {p : Port} {d : Dev} (h : (port d p).burstDue d.now = true) : toneRepeat d = endForward (repeated d) := by
  refine if_pos ?_
  cases p
  · simp [show d.ln.burstDue d.now = true from h]
  · simp [show d.ls.burstDue d.now = true from h]

theorem toneRepeat_idle {d : Dev} (h : ∀ p, (port d p).burstDue d.now = false) : toneRepeat d = d :=
  if_neg (by simp [show d.ln.burstDue d.now = false from h .north, show d.ls.burstDue d.now = false from h .south])

/-- The port whose burst begins. -/
theorem port_toneRepeat_due {p : Port} {d : Dev} (h : (port d p).burstDue d.now = true) : port (endForward (repeated d)) p =
    { (port d p).cutOff d.now with toneTx := true, toneLeft := (port d p).toneLeft - 1, toneFrom := d.now } := by
  have hport : port (repeated d) p = _ := (port_repeated p d).trans (repeatTone_due h)
  rw [port_endForward, unforwarded_port (.inr (by rw [hport])), hport]

/-- A port whose burst is not due stays, or falls quiet where the device forwarded to it. -/
theorem port_toneRepeat_idle {p : Port} {d : Dev} (h : (port d p).burstDue d.now = false) :
    (d.tn.fwd ≠ some p ∨ (port d p).toneTx = true → port (endForward (repeated d)) p = port d p) ∧
    (d.tn.fwd = some p → (port d p).toneTx = false → port (endForward (repeated d)) p = (port d p).fellQuiet d.now) := by
  have hport : port (repeated d) p = port d p := (port_repeated p d).trans (repeatTone_idle h)
  refine ⟨fun hs => ?_, fun hf ht => ?_⟩
  · rw [port_endForward, unforwarded_port (by rwa [hport]), hport]
  · rw [port_endForward, unforwarded_fwd (d := repeated d) hf (by rwa [hport]), hport]
    rfl

/-! ### Bursts that end (R240, R241) -/

theorem burstOver_iff {x : LinkPort} {now : Time} : x.burstOver now = true ↔ x.toneTx = true ∧ passed (usT 20) x.toneFrom now = true := by
  simp [LinkPort.burstOver]

/-- The bursts that are over have ended. -/
def burstsEnded (d : Dev) : Dev := { d with ln := d.ln.endTone d.now, ls := d.ls.endTone d.now }

theorem port_burstsEnded (p : Port) (d : Dev) : port (burstsEnded d) p = (port d p).endTone d.now := by cases p <;> rfl

theorem endTone_over {now : Time} {x : LinkPort} (h : x.burstOver now = true) : x.endTone now =
    if x.rxTone then { x with toneTx := false } else { x with toneTx := false, quietAt := some now, lineAt := now } := by
  unfold LinkPort.endTone LinkPort.fallQuiet
  rw [if_pos h]
  split <;> rfl

theorem endTone_idle {now : Time} {x : LinkPort} (h : x.burstOver now = false) : x.endTone now = x := if_neg (by simp [h])

theorem endTone_queue (now : Time) (x : LinkPort) : (x.endTone now).queue = x.queue := by
  unfold LinkPort.endTone
  split <;> simp

theorem endTone_toneTx (now : Time) (x : LinkPort) : (x.endTone now).toneTx = (x.toneTx && !x.burstOver now) := by
  cases h : x.burstOver now
  · simp [endTone_idle h]
  · rw [endTone_over h]
    split <;> simp

theorem frame_burstsEnded (d : Dev) : ChangesOnly [.north, .south] [] d (burstsEnded d) := frame_ports (endTone_queue ..) (endTone_queue ..)

/-- Holdoff begins. -/
def heldOff (d : Dev) : Dev := withTone (fun n => { n with hold := true, holdAt := d.now }) d

theorem port_heldOff (p : Port) (d : Dev) : port (heldOff d) p = port d p := by cases p <;> rfl

theorem toneBurstEnd_over {p : Port} {d : Dev} (h : (port d p).burstOver d.now = true) : toneBurstEnd d =
    if driving (burstsEnded d) then burstsEnded d else heldOff (burstsEnded d) := by
  refine if_pos ?_
  cases p
  · simp [show d.ln.burstOver d.now = true from h]
  · simp [show d.ls.burstOver d.now = true from h]

theorem toneBurstEnd_idle {d : Dev} (h : ∀ p, (port d p).burstOver d.now = false) : toneBurstEnd d = d :=
  if_neg (by simp [show d.ln.burstOver d.now = false from h .north, show d.ls.burstOver d.now = false from h .south])

theorem frame_toneBurstEnd (d : Dev) : ChangesOnly [.tn, .north, .south] [] d (toneBurstEnd d) :=
  .ite (.ite (frame_burstsEnded d).mono (((frame_burstsEnded d).mono).trans (frame_withTone ..).mono)) (.refl ..)

theorem port_toneBurstEnd {q : Port} {d : Dev} (h : (port d q).burstOver d.now = true) (p : Port) :
    port (toneBurstEnd d) p = (port d p).endTone d.now := by
  rw [toneBurstEnd_over h]
  split
  · exact port_burstsEnded ..
  · rw [port_heldOff, port_burstsEnded]

theorem toneBurstEnd_tn {q : Port} {d : Dev} (h : (port d q).burstOver d.now = true) : (toneBurstEnd d).tn =
    if (d.ln.toneTx && !d.ln.burstOver d.now) || (d.ls.toneTx && !d.ls.burstOver d.now) then d.tn
    else { d.tn with hold := true, holdAt := d.now } := by
  have hdrive : driving (burstsEnded d) = ((d.ln.toneTx && !d.ln.burstOver d.now) || (d.ls.toneTx && !d.ls.burstOver d.now)) := by
    rw [← endTone_toneTx, ← endTone_toneTx]
    rfl
  rw [toneBurstEnd_over h, hdrive]
  split <;> rfl

/-! ### A tone arrives (R241, R242) -/

/-- A port at which a FAULT character arrives. -/
def LinkPort.struck (now : Time) (x : LinkPort) : LinkPort :=
  { x.cutOff now with rxTone := true, rxAt := now, rxOk := false, quietAt := none, lineAt := now }

/-- A port to which the device begins to forward a tone. -/
def LinkPort.forwarding (now : Time) (x : LinkPort) : LinkPort := { x.cutOff now with quietAt := none }

/-- The device with a tone at a port. -/
def toneAt (p : Port) (d : Dev) : Dev := setPort p ((port d p).struck d.now) d

/-- The device that begins to forward out of a port. -/
def forwardTone (q : Port) (d : Dev) : Dev := setPort q ((port d q).forwarding d.now) (withTone (fun n => { n with fwd := some q }) d)

theorem driving_toneAt (p : Port) (d : Dev) : driving (toneAt p d) = driving d := by
  cases p <;> simp [toneAt, driving, setPort, port, LinkPort.struck]

theorem toneRx_eq (p : Port) (d : Dev) : toneRx p d =
    if driving d || d.tn.hold then toneAt p d
    else if (port d (otherPort p)).rxTone && decide (since (port d (otherPort p)).rxAt d.now ≤ usT 1) then
      withTone (fun n => { n with fwd := none }) (toneAt p d)
    else if d.tn.fwd.isNone then forwardTone (otherPort p) (toneAt p d)
    else toneAt p d := by
  rw [← driving_toneAt p d]
  cases p <;> rfl

theorem frame_toneAt (p : Port) (d : Dev) : ChangesOnly [.north, .south, .tn] [] d (toneAt p d) :=
  (frame_setPort_queue (x := (port d p).struck d.now) (cutOff_queue ..)).mono (by cases p <;> decide)

theorem frame_forwardTone (q : Port) (d : Dev) : ChangesOnly [.north, .south, .tn] [] d (forwardTone q d) := by
  refine ((frame_withTone ..).mono).trans ((frame_setPort_queue ?_).mono (by cases q <;> decide))
  cases q <;> exact cutOff_queue ..

theorem frame_toneRx (p : Port) (d : Dev) : ChangesOnly [.north, .south, .tn] [] d (toneRx p d) := by
  rw [toneRx_eq]
  exact .ite (frame_toneAt ..) (.ite ((frame_toneAt ..).trans (frame_withTone ..).mono)
    (.ite ((frame_toneAt ..).trans (frame_forwardTone ..)) (frame_toneAt ..)))

theorem port_toneAt (p : Port) (d : Dev) : port (toneAt p d) p = (port d p).struck d.now := port_setPort ..

theorem port_toneAt_other (p : Port) (d : Dev) : port (toneAt p d) (otherPort p) = port d (otherPort p) := port_setPort_other ..

theorem port_withTone (f : Tone → Tone) (d : Dev) (p : Port) : port (withTone f d) p = port d p := by cases p <;> rfl

/-- The port at which it arrives is cut off. -/
theorem port_toneRx (p : Port) (d : Dev) : port (toneRx p d) p = (port d p).struck d.now := by
  rw [toneRx_eq]
  split
  · exact port_toneAt ..
  · split
    · rw [port_withTone, port_toneAt]
    · split
      · have h := port_setPort_other (otherPort p) ((port (toneAt p d) (otherPort p)).forwarding (toneAt p d).now)
          (withTone (fun n => { n with fwd := some (otherPort p) }) (toneAt p d))
        rw [otherPort_otherPort, port_withTone, port_toneAt] at h
        exact h
      · exact port_toneAt ..

/-- A device that forwards already leaves its other port as it is. -/
theorem port_toneRx_other {p : Port} {d : Dev} (hf : d.tn.fwd ≠ none) : port (toneRx p d) (otherPort p) = port d (otherPort p) := by
  rw [toneRx_eq]
  split
  · exact port_toneAt_other ..
  · split
    · rw [port_withTone, port_toneAt_other]
    · rw [if_neg (by simpa using hf), port_toneAt_other]

theorem toneAt_tn (p : Port) (d : Dev) : (toneAt p d).tn = d.tn := setPort_tn ..

theorem toneRx_ignored {p : Port} {d : Dev} (h : driving d = true ∨ d.tn.hold = true) : (toneRx p d).tn = d.tn := by
  rw [toneRx_eq, if_pos (by simpa using h), toneAt_tn]

theorem toneRx_both {p : Port} {d : Dev} (hn : driving d = false) (hh : d.tn.hold = false)
    (hb : ((port d (otherPort p)).rxTone && decide (since (port d (otherPort p)).rxAt d.now ≤ usT 1)) = true) :
    (toneRx p d).tn = { d.tn with fwd := none } := by
  rw [toneRx_eq, if_neg (by simp [hn, hh]), if_pos hb, withTone_tn, toneAt_tn]

theorem toneRx_forwards {p : Port} {d : Dev} (hn : driving d = false) (hh : d.tn.hold = false)
    (hb : ((port d (otherPort p)).rxTone && decide (since (port d (otherPort p)).rxAt d.now ≤ usT 1)) = false) :
    (d.tn.fwd = none → (toneRx p d).tn = { d.tn with fwd := some (otherPort p) } ∧
      port (toneRx p d) (otherPort p) = (port d (otherPort p)).forwarding d.now) ∧
    (d.tn.fwd ≠ none → (toneRx p d).tn = d.tn) := by
  rw [toneRx_eq, if_neg (by simp [hn, hh]), if_neg (by simp [hb])]
  refine ⟨fun hf => ?_, fun hf => ?_⟩
  · rw [if_pos (by simp [hf]), forwardTone, port_setPort, setPort_tn, withTone_tn, toneAt_tn, port_toneAt_other]
    exact ⟨rfl, by rw [toneAt, setPort_now]⟩
  · rw [if_neg (by simpa using hf), toneAt_tn]

/-! ### The tone has lasted 2.0 us (R242, R311) -/

/-- The device that has confirmed and counted a tone. -/
def toneCounted (p : Port) (d : Dev) : Dev := bump R.linkToneCnt 15 0 1 (setPort p { port d p with rxOk := true } d)

theorem toneConfirm_eq {p : Port} {d : Dev} (h1 : (port d p).rxTone = true) (h2 : (port d p).rxOk = false)
    (h3 : usT 2 ≤ since (port d p).rxAt d.now) (h4 : toneIgnored d p = false) : toneConfirm p d = latch 3 0 (toneCounted p d) :=
  if_pos (by simp [h1, h2, h3, h4])

theorem toneConfirm_idle {p : Port} {d : Dev} (h : (port d p).rxTone = false ∨ (port d p).rxOk = true ∨
    since (port d p).rxAt d.now < usT 2 ∨ toneIgnored d p = true) : toneConfirm p d = d := by
  refine if_neg ?_
  rcases h with h | h | h | h
  · simp [h]
  · simp [h]
  · simp [Nat.not_le.mpr h]
  · simp [h]

theorem frame_toneCounted (p : Port) (d : Dev) : ChangesOnly [portPart p, .cyc] [R.linkToneCnt] d (toneCounted p d) :=
  ((frame_setPort_queue (by rfl)).mono (by cases p <;> decide)).trans ((frame_bump ..).mono (by cases p <;> decide))

theorem port_toneCounted (p : Port) (d : Dev) : port (toneCounted p d) p = { port d p with rxOk := true } := by
  cases p <;> rfl

theorem regFld_toneCounted (p : Port) (d : Dev) :
    regFld (toneCounted p d) R.linkToneCnt 15 0 = satNat 65535 (regFld d R.linkToneCnt 15 0 + 1) := by
  have h := regFld_bump_sat R.linkToneCnt 15 0 1 (setPort p { port d p with rxOk := true } d)
  rwa [(frame_setPort ..).regFld 15 0] at h

/-- A latch whose bit does not originate the tone leaves the ports and the tone. -/
theorem frame_latch_silent {b item : Nat} (hb : toneBit b = false) (d : Dev) :
    ChangesOnly (.sf :: evParts) latchRegs d (latch b item d) := by
  have hnote : ChangesOnly (.sf :: evParts) latchRegs d (latchNote b item d) := by
    refine ⟨fun q hq => ?_, fun _ _ => rfl⟩
    cases q <;> simp_all [Part.same, latchNote, evParts, Mem.still]
  unfold latch
  split
  · exact .refl ..
  · dsimp only
    rw [if_neg (by simp [hb])]
    exact (hnote.trans (frame_post ..).mono).trans (frame_faultReact ..).mono

/-- The safety state that a tone confirmed leaves where none was present before. -/
theorem sf_latchTone {d : Dev} (h : (3, 0) ∉ d.sf.present) : (3, 0) ∈ (latch 3 0 d).sf.causes ∧ (latch 3 0 d).sf.lastBit = 3 ∧
    (latch 3 0 d).sf.lastPos = 0x3F ∧ (latch 3 0 d).outputsOff = true := by
  simp [Dev.outputsOff, latch_sf h, Safe.dropped, Safe.latched, latchOff, OutState.off, latchPos]

/-! ### The tone ends (R241, R242, R245) -/

/-- A port at which the tone has ended. -/
def LinkPort.toneOver (now : Time) (x : LinkPort) : LinkPort := { x with rxTone := false, quietAt := some now, lineAt := now }

/-- The device once the tone at a port has ended, before forwarding stops. -/
def toneLeft (p : Port) (d : Dev) : Dev :=
  { setPort p ((port d p).toneOver d.now) d with sf := { d.sf with toneQuiet := d.now } }

/-- Forwarding out of the other port stops. -/
def forwardEnded (p : Port) (d : Dev) : Dev :=
  if d.tn.fwd = some (otherPort p) then quietFrom (otherPort p) (withTone (fun n => { n with fwd := none, hold := true, holdAt := d.now }) d) else d

/-- A tone that was too short is counted and posted. -/
def shortCounted (len : Nat) (d : Dev) : Dev := occur 34 0 0x1005 (leBytes 2 (len / 2)) (bump R.linkToneCnt 31 16 1 d)

/-- Is a tone that ends now too short to have been confirmed? -/
def shortTone (p : Port) (d : Dev) : Bool :=
  decide (since (port d p).rxAt d.now < usT 2) && !(port d p).rxOk && !toneIgnored d p

/-- The device whose tone has ended, counted where it was short. -/
def toneNoted (p : Port) (d : Dev) : Dev :=
  if shortTone p d then shortCounted (since (port d p).rxAt d.now) (forwardEnded p (toneLeft p d)) else forwardEnded p (toneLeft p d)

theorem toneEnd_eq {p : Port} {d : Dev} (h : (port d p).rxTone = true) : toneEnd p d =
    if !(toneNoted p d).ln.rxTone && !(toneNoted p d).ls.rxTone then gone 3 0 (toneNoted p d) else toneNoted p d := by
  refine (if_pos h).trans ?_
  cases p <;> rfl

theorem port_toneLeft (p : Port) (d : Dev) : port (toneLeft p d) p = (port d p).toneOver d.now := by cases p <;> rfl

theorem port_toneLeft_other (p : Port) (d : Dev) : port (toneLeft p d) (otherPort p) = port d (otherPort p) := by cases p <;> rfl

theorem toneLeft_tn (p : Port) (d : Dev) : (toneLeft p d).tn = d.tn := setPort_tn ..

theorem toneLeft_now (p : Port) (d : Dev) : (toneLeft p d).now = d.now := setPort_now ..

theorem frame_toneLeft (p : Port) (d : Dev) : ChangesOnly [.north, .south, .sf] [] d (toneLeft p d) := by
  have hport : ChangesOnly [.north, .south, .sf] [] d (setPort p ((port d p).toneOver d.now) d) :=
    (frame_setPort_queue (by rfl)).mono (by cases p <;> decide)
  refine hport.trans ⟨fun q hq => ?_, fun _ _ => rfl⟩
  cases q <;> simp_all [Part.same, toneLeft]

theorem frame_forwardEnded (p : Port) (d : Dev) : ChangesOnly [.north, .south, .tn] [] d (forwardEnded p d) := by
  have hquiet : ∀ q e, ChangesOnly [.north, .south, .tn] [] e (quietFrom q e) := fun q e =>
    (frame_setPort_queue (fallQuiet_queue ..)).mono (by cases q <;> decide)
  exact .ite (((frame_withTone ..).mono).trans (hquiet ..)) (.refl ..)

theorem forwardEnded_tn (p : Port) (d : Dev) : (forwardEnded p d).tn =
    if d.tn.fwd = some (otherPort p) then { d.tn with fwd := none, hold := true, holdAt := d.now } else d.tn := by
  unfold forwardEnded
  split
  · rw [quietFrom, withPort, setPort_tn]
    rfl
  · rfl

theorem port_forwardEnded (p : Port) (d : Dev) : port (forwardEnded p d) p = port d p := by
  unfold forwardEnded
  split
  · cases p <;> rfl
  · rfl

theorem rxTone_forwardEnded (p q : Port) (d : Dev) : (port (forwardEnded p d) q).rxTone = (port d q).rxTone := by
  by_cases h : q = p
  · rw [h, port_forwardEnded]
  · rw [eq_otherPort h]
    unfold forwardEnded
    split
    · rw [quietFrom, withPort, port_setPort, fallQuiet_rxTone]
      cases p <;> rfl
    · rfl

/-- What counting a short tone can change. -/
theorem frame_shortCounted (len : Nat) (d : Dev) : ChangesOnly evParts [R.linkToneCnt, R.ringCnt] d (shortCounted len d) :=
  ((frame_bump ..).mono).trans (frame_occur ..).mono

theorem regFld_shortCounted (len : Nat) (d : Dev) :
    regFld (shortCounted len d) R.linkToneCnt 31 16 = satNat 65535 (regFld d R.linkToneCnt 31 16 + 1) := by
  rw [shortCounted, (frame_occur ..).regFld 31 16]
  exact regFld_bump_sat R.linkToneCnt 31 16 1 d

/-- A field of 16 bits is within the bound of its counter. -/
theorem satNat_regFld_high (d : Dev) (off : Nat) : satNat 65535 (regFld d off 31 16 + 0) = regFld d off 31 16 := by
  have h : regFld d off 31 16 < 2 ^ (31 + 1 - 16) := Nat.mod_lt _ (by decide)
  rw [satNat, if_neg (by omega), Nat.add_zero]

theorem frame_toneNoted (p : Port) (d : Dev) :
    ChangesOnly (.north :: .south :: .tn :: .sf :: evParts) [R.linkToneCnt, R.ringCnt] d (toneNoted p d) := by
  have hleft : ChangesOnly (.north :: .south :: .tn :: .sf :: evParts) [R.linkToneCnt, R.ringCnt] d (forwardEnded p (toneLeft p d)) :=
    ((frame_toneLeft ..).mono).trans (frame_forwardEnded ..).mono
  exact .ite (hleft.trans (frame_shortCounted ..).mono) hleft

/-- What the end of a tone leaves, before the latch's cause is gone. -/
structure ToneGone (p : Port) (d b : Dev) : Prop where
  own : (port b p).rxTone = false ∧ (port b p).quietAt = some d.now ∧ (port b p).lineAt = d.now
  other : (port b (otherPort p)).rxTone = (port d (otherPort p)).rxTone
  tn : b.tn = if d.tn.fwd = some (otherPort p) then { d.tn with fwd := none, hold := true, holdAt := d.now } else d.tn
  sf : b.sf = { d.sf with toneQuiet := d.now }

theorem toneGone_forwardEnded (p : Port) (d : Dev) : ToneGone p d (forwardEnded p (toneLeft p d)) := by
  refine ⟨?_, ?_, ?_, (frame_forwardEnded ..).1 .sf (by decide)⟩
  · rw [port_forwardEnded, port_toneLeft]
    exact ⟨rfl, rfl, rfl⟩
  · rw [rxTone_forwardEnded, port_toneLeft_other]
  · rw [forwardEnded_tn, toneLeft_tn, toneLeft_now]

/-- What changes neither ports nor tone nor latches keeps it. -/
theorem ToneGone.still {p : Port} {ps : List Part} {rs : List Nat} {d b c : Dev} (h : ToneGone p d b) (k : ChangesOnly ps rs b c)
    (hn : .north ∉ ps := by decide) (hs : .south ∉ ps := by decide) (ht : .tn ∉ ps := by decide) (hf : .sf ∉ ps := by decide) :
    ToneGone p d c := by
  have hport : ∀ q, (port c q).still = (port b q).still := fun q => k.still q (by cases q <;> assumption)
  obtain ⟨⟨hrx, hquiet, hline⟩, hother, htn, hsf⟩ := h
  exact ⟨⟨(congrArg LinkPort.rxTone (hport p) :).trans hrx, (congrArg LinkPort.quietAt (hport p) :).trans hquiet,
    (congrArg LinkPort.lineAt (hport p) :).trans hline⟩, (congrArg LinkPort.rxTone (hport (otherPort p)) :).trans hother,
    (k.1 .tn ht).trans htn, (k.1 .sf hf).trans hsf⟩

theorem toneGone_toneNoted (p : Port) (d : Dev) : ToneGone p d (toneNoted p d) := by
  unfold toneNoted
  split
  · exact (toneGone_forwardEnded p d).still (frame_shortCounted ..)
  · exact toneGone_forwardEnded p d

theorem regFld_toneNoted (p : Port) (d : Dev) : regFld (toneNoted p d) R.linkToneCnt 31 16 =
    satNat 65535 (regFld d R.linkToneCnt 31 16 + if shortTone p d = true then 1 else 0) := by
  have hleft : regFld (forwardEnded p (toneLeft p d)) R.linkToneCnt 31 16 = regFld d R.linkToneCnt 31 16 := by
    rw [(frame_forwardEnded ..).regFld 31 16, (frame_toneLeft ..).regFld 31 16]
  unfold toneNoted
  split
  · rw [regFld_shortCounted, hleft]
  · rw [satNat_regFld_high, hleft]

/-- What the end of a tone leaves: the cause of the latch is gone once no port receives one. -/
theorem toneEnd_cases {p : Port} {d : Dev} (h : (port d p).rxTone = true) :
    ((port d (otherPort p)).rxTone = true ∧ toneEnd p d = toneNoted p d) ∨
    ((port d (otherPort p)).rxTone = false ∧ toneEnd p d = gone 3 0 (toneNoted p d)) := by
  obtain ⟨⟨hown, -, -⟩, hother, -, -⟩ := toneGone_toneNoted p d
  rw [toneEnd_eq h, ← hother]
  cases p
  · cases hs : (toneNoted .north d).ls.rxTone <;> simp_all [port, otherPort]
  · cases hs : (toneNoted .south d).ln.rxTone <;> simp_all [port, otherPort]

theorem frame_toneEnd {p : Port} {d : Dev} (h : (port d p).rxTone = true) :
    ChangesOnly (.north :: .south :: .tn :: .sf :: evParts) [R.linkToneCnt, R.ringCnt] d (toneEnd p d) := by
  rcases toneEnd_cases h with ⟨-, he⟩ | ⟨-, he⟩ <;> rw [he]
  · exact frame_toneNoted ..
  · exact (frame_toneNoted ..).trans (frame_gone ..).mono

end Sys2Proof.Machine
end

section
/-! SUPPORT. The wake stream ends, and the REQUESTs that asked for it (file 08, R243, R244; R296). -/

namespace Sys2Proof.Machine

/-! ### The stream ends on the ports -/

/-- A port on which the wake stream has ended. -/
def LinkPort.streamOver (rate : Nat) (now : Time) (x : LinkPort) : LinkPort :=
  if x.wakeRx then x.begun rate now else { x with wakeTx := false }

theorem wakeOverAt_eq (p : Port) (d : Dev) : wakeOverAt p d =
    if wakeOver d p then setPort p ((port d p).streamOver (startRate d p) d.now) d else d := by
  unfold wakeOverAt LinkPort.streamOver
  split
  · split <;> rfl
  · rfl

/-- The device whose streams that are over have ended. -/
def streamsOver (d : Dev) : Dev := wakeOverAt .south (wakeOverAt .north d)

theorem wakeOverAt_north (d : Dev) : ∃ y, wakeOverAt .north d = { d with ln := y } := by
  rw [wakeOverAt_eq]
  split
  · exact ⟨_, rfl⟩
  · exact ⟨d.ln, rfl⟩

theorem port_streamsOver (p : Port) (d : Dev) : port (streamsOver d) p =
    if wakeOver d p then (port d p).streamOver (startRate d p) d.now else port d p := by
  cases p
  · have hsouth : port (streamsOver d) .north = port (wakeOverAt .north d) .north := by
      rw [streamsOver, wakeOverAt_eq .south]
      split <;> rfl
    rw [hsouth, wakeOverAt_eq]
    split <;> rfl
  · obtain ⟨y, hy⟩ := wakeOverAt_north d
    rw [streamsOver, hy, wakeOverAt_eq]
    split
    · next h => rw [if_pos (show wakeOver d .south = true from h)]
                rfl
    · next h => rw [if_neg (show ¬wakeOver d .south = true from h)]
                rfl

theorem streamOver_wake (rate : Nat) (now : Time) (x : LinkPort) :
    (x.streamOver rate now).wakeTx = false ∧ (x.streamOver rate now).wakeRx = false := by
  unfold LinkPort.streamOver
  split
  · exact ⟨rfl, rfl⟩
  · next h => exact ⟨rfl, by simpa using h⟩

theorem streamOver_rx {rate : Nat} {now : Time} {x : LinkPort} (h : x.wakeRx = true) :
    training (x.streamOver rate now) = true ∧ (x.streamOver rate now).trial = rate := by
  rw [LinkPort.streamOver, if_pos h]
  exact ⟨rfl, rfl⟩

theorem streamOver_queue (rate : Nat) (now : Time) (x : LinkPort) : (x.streamOver rate now).queue = x.queue := by
  unfold LinkPort.streamOver
  split <;> rfl

theorem frame_wakeOverAt (p : Port) (d : Dev) : ChangesOnly [.north, .south] [] d (wakeOverAt p d) := by
  rw [wakeOverAt_eq]
  exact .ite ((frame_setPort_queue (streamOver_queue ..)).mono (by cases p <;> decide)) (.refl ..)

theorem frame_streamsOver (d : Dev) : ChangesOnly [.north, .south] [] d (streamsOver d) :=
  (frame_wakeOverAt ..).trans (frame_wakeOverAt ..)

/-! ### Commands that a stack device ends (R251) -/

/-- Handle h has ended with DONE at the device's time. -/
def EndedDone (h : Nat) (d : Dev) : Prop := ⟨h, St.done, [], d.now⟩ ∈ d.ex.results ∧ ∀ k ∈ d.ex.cmds, k.h ≠ h

/-- A stack device that holds the handle holds its result and no longer the command. -/
theorem finish_held {h : Nat} {d : Dev} (status : Nat) (res : List Byte) (hs : d.head = false) (hc : ∃ k ∈ d.ex.cmds, k.h = h) :
    (finish h status res d).ex.cmds = d.ex.cmds.filter (fun c => c.h ≠ h) ∧
    (finish h status res d).ex.results = d.ex.results.filter (fun r => r.h ≠ h) ++ [⟨h, status, res, d.now⟩] := by
  have hany : d.ex.cmds.any (fun k => k.h == h) = true := by simpa using hc
  simp only [finish, hs, hany, Bool.false_eq_true, if_false, if_true]
  rw [(frame_sendFinal ..).1 .ex (by decide)]
  exact ⟨rfl, rfl⟩

theorem finish_now (h status : Nat) (res : List Byte) (d : Dev) : (finish h status res d).now = d.now :=
  (frame_finish h status res d).1 .now (by decide)

/-- Another command that ends keeps what has ended. -/
theorem EndedDone.finish {h : Nat} {d : Dev} (hs : d.head = false) (k : EndedDone h d) (j : Nat) : EndedDone h (finish j St.done [] d) := by
  obtain ⟨hres, hcmds⟩ := k
  by_cases hheld : ∃ c ∈ d.ex.cmds, c.h = j
  · obtain ⟨hc, hr⟩ := finish_held St.done [] hs hheld
    have hne : h ≠ j := by
      obtain ⟨c, hmem, hcj⟩ := hheld
      exact fun e => hcmds c hmem (hcj.trans e.symm)
    rw [EndedDone, hc, hr, finish_now]
    exact ⟨List.mem_append_left _ (List.mem_filter.mpr ⟨hres, by simpa using hne⟩), fun c hm => hcmds c (List.mem_filter.mp hm).1⟩
  · rw [finish_unheld _ _ hs (by simpa using hheld)]
    exact ⟨hres, hcmds⟩

/-- A handle that is held or has ended has ended after its own end. -/
theorem endedDone_finish {h : Nat} {d : Dev} (hs : d.head = false) (k : (∃ c ∈ d.ex.cmds, c.h = h) ∨ EndedDone h d) :
    EndedDone h (finish h St.done [] d) := by
  rcases k with hheld | hend
  · obtain ⟨hc, hr⟩ := finish_held St.done [] hs hheld
    rw [EndedDone, hc, hr, finish_now]
    exact ⟨by simp, fun c hm => by simpa using (List.mem_filter.mp hm).2⟩
  · exact hend.finish hs h

/-- The end of any command leaves a handle held or ended. -/
theorem owed_finish {h : Nat} {d : Dev} (hs : d.head = false) (k : (∃ c ∈ d.ex.cmds, c.h = h) ∨ EndedDone h d) (j : Nat) :
    (∃ c ∈ (finish j St.done [] d).ex.cmds, c.h = h) ∨ EndedDone h (finish j St.done [] d) := by
  rcases k with hheld | hend
  · by_cases hj : j = h
    · subst hj
      exact .inr (endedDone_finish hs (.inl hheld))
    · left
      obtain ⟨c, hmem, hc⟩ := hheld
      by_cases hh : ∃ k ∈ d.ex.cmds, k.h = j
      · refine ⟨c, ?_, hc⟩
        rw [(finish_held St.done [] hs hh).1]
        exact List.mem_filter.mpr ⟨hmem, by simpa [hc] using Ne.symm hj⟩
      · rw [finish_unheld _ _ hs (by simpa using hh)]
        exact ⟨c, hmem, hc⟩
  · exact .inr (hend.finish hs j)

/-- The end of each command of a list. -/
def finishAll (l : List ExecCmd) (d : Dev) : Dev := each (fun c d => finish c.h St.done [] d) l d

theorem frame_finishAll (l : List ExecCmd) (d : Dev) : ChangesOnly [.ex, .queues, .cyc] [R.ringCnt] d (finishAll l d) :=
  .each _ (fun _ _ => frame_finish ..) _ _

theorem EndedDone.finishAll {h : Nat} (l : List ExecCmd) {d : Dev} (hs : d.head = false) (k : EndedDone h d) :
    EndedDone h (finishAll l d) := by
  induction l generalizing d with
  | nil => exact k
  | cons c r ih => exact ih ((head_congr (frame_finish ..)).trans hs) (k.finish hs c.h)

theorem endedDone_finishAll (l : List ExecCmd) {d : Dev} (hs : d.head = false)
    (hl : ∀ c ∈ l, (∃ k ∈ d.ex.cmds, k.h = c.h) ∨ EndedDone c.h d) : ∀ c ∈ l, EndedDone c.h (finishAll l d) := by
  induction l generalizing d with
  | nil => exact nofun
  | cons x r ih =>
    have hs' : (finish x.h St.done [] d).head = false := (head_congr (frame_finish ..)).trans hs
    intro c hc
    rcases List.mem_cons.mp hc with rfl | hc
    · exact (endedDone_finish hs (hl _ List.mem_cons_self)).finishAll r hs'
    · exact ih hs' (fun k hk => owed_finish hs (hl k (List.mem_cons_of_mem _ hk)) x.h) c hc

/-! ### WAKE_STREAM_END -/

/-- The commands without a descriptor. -/
def bareCmds (d : Dev) : List ExecCmd := d.ex.cmds.filter (fun c => c.d.isEmpty)

theorem wakeStreamEnd_eq (d : Dev) : wakeStreamEnd d =
    if (d.ln.wakeTx || d.ls.wakeTx) && !(streamsOver d).ln.wakeTx && !(streamsOver d).ls.wakeTx then
      finishAll (bareCmds (streamsOver d)) (streamsOver d)
    else streamsOver d := rfl

theorem frame_wakeStreamEnd (d : Dev) : ChangesOnly [.north, .south, .queues, .ex, .cyc] [R.ringCnt] d (wakeStreamEnd d) := by
  rw [wakeStreamEnd_eq]
  exact .ite (((frame_streamsOver d).mono).trans (frame_finishAll ..).mono) (frame_streamsOver d).mono

theorem still_wakeStreamEnd (p : Port) (d : Dev) : (port (wakeStreamEnd d) p).still = (port (streamsOver d) p).still := by
  rw [wakeStreamEnd_eq]
  split
  · exact (frame_finishAll ..).still p (by cases p <;> decide)
  · rfl

/-- Once no port drives a stream the commands that asked for one have ended. -/
theorem endedDone_wakeStreamEnd {d : Dev} (hs : d.head = false) (hdrove : d.ln.wakeTx = true ∨ d.ls.wakeTx = true)
    (hover : ∀ p, (port d p).wakeTx = true → wakeOver d p = true) {c : ExecCmd} (hc : c ∈ d.ex.cmds) (hd : c.d = []) :
    EndedDone c.h (wakeStreamEnd d) := by
  have hquiet : ∀ p, (port (streamsOver d) p).wakeTx = false := fun p => by
    rw [port_streamsOver]
    split
    · exact (streamOver_wake ..).1
    · next h => exact Bool.eq_false_iff.mpr fun ht => h (hover p ht)
  have hex : (streamsOver d).ex = d.ex := (frame_streamsOver d).1 .ex (by decide)
  rw [wakeStreamEnd_eq, if_pos (by simpa [show (streamsOver d).ln.wakeTx = false from hquiet .north,
    show (streamsOver d).ls.wakeTx = false from hquiet .south] using hdrove)]
  refine endedDone_finishAll _ ((head_congr (frame_streamsOver d)).trans hs) (fun k hk => .inl ⟨k, (List.mem_filter.mp hk).1, rfl⟩) c ?_
  exact List.mem_filter.mpr ⟨by rw [hex]; exact hc, by simp [hd]⟩

/-- A command on the device alone while the C-die runs. -/
theorem exec_wakeStreamEnd {s : State} {t : Time} {d : Dev} (hd : d = tick t s.dev) (hr : d.running = true) :
    exec (.wakeStreamEnd t) s = .next { s with
      dev := (settle (wakeStreamEnd d, s.hst)).1
      hst := (settle (wakeStreamEnd d, s.hst)).2 } := by
  subst hd
  have hrun : s.dev.running = true := by simpa using hr
  change execWakeStreamEnd t s = _
  simp only [execWakeStreamEnd, act, actH, hrun, if_true]

theorem wakeStreamEnd_spec {s : State} {t : Time} {d : Dev} (hd : d = tick t s.dev) (hr : d.running = true) (calm : Calm d) :
    ∃ u, exec (.wakeStreamEnd t) s = .next u ∧
      (∀ p : Port,
        (wakeOver d p = false → (port u.dev p).still = (port d p).still) ∧
        (wakeOver d p = true → (port u.dev p).wakeTx = false ∧ (port u.dev p).wakeRx = false ∧
          ((port d p).wakeRx = true → training (port u.dev p) = true ∧ (port u.dev p).trial = startRate d p))) ∧
      (d.head = false → (d.ln.wakeTx = true ∨ d.ls.wakeTx = true) → (∀ p : Port, (port d p).wakeTx = true → wakeOver d p = true) →
        ∀ c ∈ d.ex.cmds, c.d = [] → ⟨c.h, 0x00, [], d.now⟩ ∈ u.dev.ex.results ∧ ∀ k ∈ u.dev.ex.cmds, k.h ≠ c.h) ∧
      ChangesOnly [.north, .south, .queues, .ex, .cyc] [R.ringCnt] d u.dev := by
  have hout : (wakeStreamEnd d).ev.out = [] := by rw [(frame_wakeStreamEnd d).1 .ev (by decide), calm.1]
  have hsettle := frame_settle_ex (b := (wakeStreamEnd d, s.hst)) hout
  have hstill : ∀ p, (port (settle (wakeStreamEnd d, s.hst)).1 p).still = (port (streamsOver d) p).still := fun p =>
    (hsettle.still p (by cases p <;> decide)).trans (still_wakeStreamEnd p d)
  refine ⟨_, exec_wakeStreamEnd hd hr, fun p => ⟨fun hn => ?_, fun ho => ?_⟩, fun hs hdrove hover c hc hcd => ?_,
    (frame_wakeStreamEnd d).trans hsettle.mono⟩
  · rw [hstill, port_streamsOver, if_neg (by simp [hn])]
  · have hk := hstill p
    rw [port_streamsOver, if_pos ho] at hk
    obtain ⟨htx, hrx⟩ := streamOver_wake (startRate d p) d.now (port d p)
    refine ⟨(congrArg LinkPort.wakeTx hk :).trans htx, (congrArg LinkPort.wakeRx hk :).trans hrx, fun hw => ?_⟩
    obtain ⟨htr, hrate⟩ := streamOver_rx (rate := startRate d p) (now := d.now) hw
    exact ⟨(congrArg training hk :).trans htr, (congrArg LinkPort.trial hk :).trans hrate⟩
  · obtain ⟨hres, hcmds⟩ := endedDone_wakeStreamEnd hs hdrove hover hc hcd
    have hnow : (wakeStreamEnd d).now = d.now := (frame_wakeStreamEnd d).1 .now (by decide)
    rw [hnow] at hres
    rw [settle_ex]
    exact ⟨hres, hcmds⟩

end Sys2Proof.Machine
end

section
/-! PROOF. The fault tone and the wake stream. -/

namespace Sys2Proof.Machine

theorem exec_faultToneRepeat {s : State} {t : Time} {d : Dev} (hd : d = tick t s.dev) (hr : d.running = true) (calm : Calm d)
    (due : Port → Bool) (hdue : ∀ p, due p = true ↔ (port d p).toneTx = false ∧ 0 < (port d p).toneLeft ∧
      passed (msT 1) (port d p).toneFrom d.now = true) :
    ((∀ p, due p = false) → exec (.faultToneRepeat t) s = .next { s with dev := d }) ∧
    ((∃ p, due p = true) → ∃ u, exec (.faultToneRepeat t) s = .next u ∧ u.dev.tn = { d.tn with fwd := none } ∧
      (∀ p, due p = true → port u.dev p = { (port d p).cutOff d.now with
        toneTx := true, toneLeft := (port d p).toneLeft - 1, toneFrom := d.now }) ∧
      (∀ p, due p = false → d.tn.fwd ≠ some p ∨ (port d p).toneTx = true → port u.dev p = port d p) ∧
      (∀ p, due p = false → d.tn.fwd = some p → (port d p).toneTx = false →
        port u.dev p = { port d p with quietAt := some d.now, lineAt := d.now }) ∧
      ChangesOnly [.tn, .north, .south] [] d u.dev ∧ u.hst = s.hst) := by
  have hiff : ∀ p, due p = (port d p).burstDue d.now := fun p => Bool.eq_iff_iff.mpr ((hdue p).trans burstDue_iff.symm)
  simp only [hiff]
  refine ⟨fun h => actAt_idle toneRepeat hd hr calm (toneRepeat_idle h), fun ⟨q, hq⟩ => ?_⟩
  have heff : toneRepeat d = endForward (repeated d) := toneRepeat_due hq
  have hframe : ChangesOnly [.tn, .north, .south] [] d (toneRepeat d) := by
    rw [heff]
    exact ((frame_repeated d).mono).trans (frame_endForward ..)
  refine ⟨_, actAt_calm toneRepeat hd hr (hframe.calm calm), ?_, fun p hp => ?_, fun p hp hs => ?_, fun p hp hf ht => ?_, hframe, rfl⟩
  · rw [heff, endForward_tn]
    rfl
  · rw [heff]
    exact port_toneRepeat_due hp
  · rw [heff]
    exact (port_toneRepeat_idle hp).1 hs
  · rw [heff]
    exact (port_toneRepeat_idle hp).2 hf ht

theorem exec_faultToneBurstEnd {s : State} {t : Time} {d : Dev} (hd : d = tick t s.dev) (hr : d.running = true) (calm : Calm d)
    (ended : Port → Bool) (hended : ∀ p, ended p = true ↔ (port d p).toneTx = true ∧ passed (usT 20) (port d p).toneFrom d.now = true) :
    ((∀ p, ended p = false) → exec (.faultToneBurstEnd t) s = .next { s with dev := d }) ∧
    ((∃ p, ended p = true) → ∃ u, exec (.faultToneBurstEnd t) s = .next u ∧
      (∀ p, ended p = false → port u.dev p = port d p) ∧
      (∀ p, ended p = true → port u.dev p = if (port d p).rxTone then { port d p with toneTx := false }
        else { port d p with toneTx := false, quietAt := some d.now, lineAt := d.now }) ∧
      u.dev.tn = (if (d.ln.toneTx && !ended .north) || (d.ls.toneTx && !ended .south) then d.tn else { d.tn with hold := true, holdAt := d.now }) ∧
      ChangesOnly [.tn, .north, .south] [] d u.dev ∧ u.hst = s.hst) := by
  have hiff : ∀ p, ended p = (port d p).burstOver d.now := fun p => Bool.eq_iff_iff.mpr ((hended p).trans burstOver_iff.symm)
  simp only [hiff]
  refine ⟨fun h => actAt_idle toneBurstEnd hd hr calm (toneBurstEnd_idle h), fun ⟨q, hq⟩ => ?_⟩
  refine ⟨_, actAt_calm toneBurstEnd hd hr ((frame_toneBurstEnd d).calm calm), fun p hp => ?_, fun p hp => ?_, toneBurstEnd_tn hq,
    frame_toneBurstEnd d, rfl⟩
  · exact (port_toneBurstEnd hq p).trans (endTone_idle hp)
  · exact (port_toneBurstEnd hq p).trans (endTone_over hp)

/-- The effect of TONE_HOLDOFF_END. -/
def holdoffEnd (d : Dev) : Dev := if passed (usT 100) d.tn.holdAt d.now then withTone (fun n => { n with hold := false }) d else d

theorem exec_toneHoldoffEnd_eq (t : Time) (s : State) : exec (.toneHoldoffEnd t) s = actAt t holdoffEnd s := rfl

theorem exec_toneHoldoffEnd {s : State} {t : Time} {d : Dev} (hd : d = tick t s.dev) (hr : d.running = true) (calm : Calm d) :
    ∃ u, exec (.toneHoldoffEnd t) s = .next u ∧ u.dev.tn = { d.tn with hold := d.tn.hold && !passed (usT 100) d.tn.holdAt d.now } ∧
      ChangesOnly [.tn] [] d u.dev ∧ u.hst = s.hst := by
  have hframe : ChangesOnly [.tn] [] d (holdoffEnd d) := .ite (frame_withTone ..) (.refl ..)
  rw [exec_toneHoldoffEnd_eq]
  refine ⟨_, actAt_calm holdoffEnd hd hr (hframe.calm calm), ?_, hframe, rfl⟩
  cases hp : passed (usT 100) d.tn.holdAt d.now <;> simp [holdoffEnd, hp]

theorem exec_toneRx {s : State} {t : Time} {d : Dev} (hd : d = tick t s.dev) (hr : d.running = true) (calm : Calm d) (p : Port)
    (both : Bool) (hb : both = ((port d (otherPort p)).rxTone && decide (since (port d (otherPort p)).rxAt d.now ≤ usT 1))) :
    ∃ u, exec (.toneRx t p) s = .next u ∧
      port u.dev p = { (port d p).cutOff d.now with rxTone := true, rxAt := d.now, rxOk := false, quietAt := none, lineAt := d.now } ∧
      (driving d = true ∨ d.tn.hold = true → u.dev.tn = d.tn) ∧
      (driving d = false → d.tn.hold = false → both = true → u.dev.tn = { d.tn with fwd := none }) ∧
      (driving d = false → d.tn.hold = false → both = false →
        (d.tn.fwd = none → u.dev.tn = { d.tn with fwd := some (otherPort p) } ∧
          port u.dev (otherPort p) = { (port d (otherPort p)).cutOff d.now with quietAt := none }) ∧
        (d.tn.fwd ≠ none → u.dev.tn = d.tn)) ∧
      (d.tn.fwd ≠ none → port u.dev (otherPort p) = port d (otherPort p)) ∧
      ChangesOnly [.north, .south, .tn] [] d u.dev ∧ u.hst = s.hst := by
  subst hb
  exact ⟨_, actAt_calm (toneRx p) hd hr ((frame_toneRx p d).calm calm), port_toneRx p d, toneRx_ignored, toneRx_both, toneRx_forwards,
    port_toneRx_other, frame_toneRx p d, rfl⟩

theorem exec_toneConfirm {s : State} {t : Time} {d : Dev} (hd : d = tick t s.dev) (hr : d.running = true) (calm : Calm d) (p : Port) :
    ((port d p).rxTone = false ∨ (port d p).rxOk = true ∨ since (port d p).rxAt d.now < usT 2 ∨ toneIgnored d p = true →
      exec (.toneConfirm t p) s = .next { s with dev := d }) ∧
    ((port d p).rxTone = true → (port d p).rxOk = false → usT 2 ≤ since (port d p).rxAt d.now → toneIgnored d p = false →
      ∃ u, exec (.toneConfirm t p) s = .next u ∧
        regFld u.dev R.linkToneCnt 15 0 = satNat 65535 (regFld d R.linkToneCnt 15 0 + 1) ∧ (port u.dev p).rxOk = true ∧
        ((3, 0) ∉ d.sf.present → (3, 0) ∈ u.dev.sf.causes ∧ u.dev.sf.lastBit = 3 ∧ u.dev.sf.lastPos = 0x3F ∧
          u.dev.outputsOff = true) ∧
        u.dev.tn = d.tn ∧
        ChangesOnly (portPart p :: latchParts) (R.linkToneCnt :: R.safeCnt :: evRegs) d u.dev ∧ HostEvents s.hst u.hst) := by
  refine ⟨fun h => actAt_idle (toneConfirm p) hd hr calm (toneConfirm_idle h), fun h1 h2 h3 h4 => ?_⟩
  have heff := toneConfirm_eq h1 h2 h3 h4
  have hcount := frame_toneCounted p d
  have hlatch := frame_latch_silent (b := 3) (item := 0) (by decide) (toneCounted p d)
  have hframe : ChangesOnly (portPart p :: .cyc :: .sf :: evParts) (R.linkToneCnt :: latchRegs) d (toneConfirm p d) := by
    rw [heff]
    exact (hcount.mono (by cases p <;> decide)).trans (hlatch.mono (by cases p <;> decide))
  obtain ⟨u, hu, hpost, hhost⟩ := actAt_posted (s := s) (toneConfirm p) hd hr (by rw [hframe.1 .ex (by cases p <;> decide), calm.2])
  refine ⟨u, hu, ?_, ?_, fun hnew => ?_, ?_, (hframe.mono (by cases p <;> decide)).trans (hpost.frame.mono (by cases p <;> decide)), hhost⟩
  · rw [hpost.frame.regFld 15 0, heff, hlatch.regFld 15 0, regFld_toneCounted]
  · have hstill := hpost.frame.still p (by cases p <;> decide)
    rw [heff, hlatch.still p (by cases p <;> decide), port_toneCounted] at hstill
    exact congrArg LinkPort.rxOk hstill
  · have hsf : u.dev.sf = (latch 3 0 (toneCounted p d)).sf := by rw [hpost.frame.1 .sf (by decide), heff]
    have hpresent : (3, 0) ∉ (toneCounted p d).sf.present := by rwa [hcount.1 .sf (by cases p <;> decide)]
    rw [Dev.outputsOff, hsf]
    exact sf_latchTone hpresent
  · rw [hpost.frame.1 .tn (by decide), hframe.1 .tn (by cases p <;> decide)]

theorem exec_toneEnd {s : State} {t : Time} {d : Dev} (hd : d = tick t s.dev) (hr : d.running = true) (calm : Calm d) (p : Port) (len : Nat)
    (hl : len = since (port d p).rxAt d.now) (h : (port d p).rxTone = true) :
    ∃ u, exec (.toneEnd t p) s = .next u ∧ (port u.dev p).rxTone = false ∧ (port u.dev p).quietAt = some d.now ∧
      (port u.dev p).lineAt = d.now ∧ u.dev.sf.toneQuiet = d.now ∧
      u.dev.tn = (if d.tn.fwd = some (otherPort p) then { d.tn with fwd := none, hold := true, holdAt := d.now } else d.tn) ∧
      (regFld u.dev R.linkToneCnt 31 16 = satNat 65535 (regFld d R.linkToneCnt 31 16 +
        if len < usT 2 ∧ (port d p).rxOk = false ∧ toneIgnored d p = false then 1 else 0)) ∧
      ((port d (otherPort p)).rxTone = false → (3, 0) ∉ u.dev.sf.present) ∧
      u.dev.sf.causes = d.sf.causes ∧
      ChangesOnly (.north :: .south :: .tn :: .sf :: evParts) (R.linkToneCnt :: evRegs) d u.dev ∧
      HostEvents s.hst u.hst := by
  subst hl
  have hframe := frame_toneEnd h
  obtain ⟨u, hu, hpost, hhost⟩ := actAt_posted (s := s) (toneEnd p) hd hr (by rw [hframe.1 .ex (by decide), calm.2])
  obtain ⟨⟨hrx, hquiet, hline⟩, -, htn, hsf⟩ := toneGone_toneNoted p d
  have hgone : ChangesOnly [.sf] [] (toneNoted p d) (toneEnd p d) := by
    rcases toneEnd_cases h with ⟨-, he⟩ | ⟨-, he⟩ <;> rw [he]
    · exact .refl ..
    · exact (frame_gone ..).mono
  have hsafe : (toneEnd p d).sf.toneQuiet = (toneNoted p d).sf.toneQuiet ∧ (toneEnd p d).sf.causes = (toneNoted p d).sf.causes := by
    rcases toneEnd_cases h with ⟨-, he⟩ | ⟨-, he⟩ <;> rw [he] <;> exact ⟨rfl, rfl⟩
  have hstill : (port u.dev p).still = (port (toneNoted p d) p).still :=
    (hpost.frame.still p (by cases p <;> decide)).trans (hgone.still p (by cases p <;> decide))
  have husf : u.dev.sf = (toneEnd p d).sf := hpost.frame.1 .sf (by decide)
  refine ⟨u, hu, (congrArg LinkPort.rxTone hstill :).trans hrx, (congrArg LinkPort.quietAt hstill :).trans hquiet,
    (congrArg LinkPort.lineAt hstill :).trans hline, ?_, ?_, ?_, fun hother => ?_, ?_, hframe.mono.trans hpost.frame.mono, hhost⟩
  · rw [husf, hsafe.1, hsf]
  · rw [hpost.frame.1 .tn (by decide), hgone.1 .tn (by decide), htn]
  · rw [hpost.frame.regFld 31 16, hgone.regFld 31 16, regFld_toneNoted]
    simp only [shortTone, Bool.and_eq_true, decide_eq_true_eq, Bool.not_eq_true', and_assoc]
  · rcases toneEnd_cases h with ⟨hn, -⟩ | ⟨-, he⟩
    · exact absurd hn (by simp [hother])
    · rw [husf, he]
      exact fun hmem => by simpa using (List.mem_filter.mp hmem).2
  · rw [husf, hsafe.2, hsf]

/-- Settles O41: each command of the tone and the stream by the lemma about it. -/
theorem toneAndWakeStream : Obligations.ToneAndWakeStream := by
  unfold Obligations.ToneAndWakeStream
  intro s t d hd hr calm
  exact ⟨exec_faultToneRepeat hd hr calm, exec_faultToneBurstEnd hd hr calm, exec_toneHoldoffEnd hd hr calm, exec_toneRx hd hr calm,
    exec_toneConfirm hd hr calm, fun p h => actAt_idle (toneEnd p) hd hr calm (if_neg (by simp [h])),
    exec_toneEnd hd hr calm, wakeStreamEnd_spec hd hr calm⟩

end Sys2Proof.Machine
end

section
/-! SUPPORT. Link errors: what they count, and the hop that goes down at N (file 08, R222, R237, R245). -/

namespace Sys2Proof.Machine

/-! ### Two counters of a register -/

/-- A count in the low half leaves the high half. -/
theorem regFld_bump_high (off n : Nat) (d : Dev) : regFld (bump off 15 0 n d) off 31 16 = regFld d off 31 16 := by
  unfold regFld
  rw [reg_bump, if_pos rfl, addFld, fld_setFld_above _ 15 0 _ 31 16]

theorem satNat_satNat (hi a n : Nat) : satNat hi (satNat hi a + n) = satNat hi (a + n) := by
  have hmin : ∀ m, satNat hi m = min hi m := fun m => by
    unfold satNat
    split <;> omega
  rw [hmin, hmin, hmin]
  omega

theorem satNat_regFld_low (d : Dev) (off : Nat) : satNat 65535 (regFld d off 15 0 + 0) = regFld d off 15 0 := by
  have h : regFld d off 15 0 < 2 ^ (15 + 1 - 0) := Nat.mod_lt _ (by decide)
  rw [satNat, if_neg (by omega), Nat.add_zero]

/-! ### A bucket that reaches N -/

/-- The next occurrence makes the bucket of source s and item i lasting. -/
def turnsLasting (d : Dev) (s i : Nat) : Bool := !lasting d s i && decide (bucketN d s ≤ level d s i + 1)

theorem ChangesOnly.turnsLasting {ps : List Part} {rs : List Nat} {a b : Dev} (h : ChangesOnly ps rs a b) (s i : Nat)
    (hv : .ev ∉ ps := by decide) (hr : evtCfgOff s ∉ rs := by decide) : turnsLasting b s i = turnsLasting a s i := by
  rw [Machine.turnsLasting, lasting, h.level s i hv, bucketN_congr s (h.2 _ hr)]
  rfl

theorem lasting_occur (s i code : Nat) (data : List Byte) (d : Dev) (hs : evtCfgOff s ∉ [R.ringCnt] := by decide) :
    lasting (occur s i code data d) s i = decide (bucketN d s ≤ level d s i + 1) := by
  have hn : bucketN d s < 2 ^ (7 + 1 - 0) := Nat.mod_lt _ (by decide)
  rw [lasting, level_occur, bucketN_congr s ((frame_occur ..).2 _ hs), decide_eq_decide, satNat]
  split <;> omega

/-- A bucket reaches N by an occurrence. -/
theorem lasting_occur_new (s i code : Nat) (data : List Byte) (d : Dev) (hs : evtCfgOff s ∉ [R.ringCnt] := by decide) :
    (lasting (occur s i code data d) s i && !lasting d s i) = turnsLasting d s i := by
  rw [lasting_occur s i code data d hs, Bool.and_comm]
  rfl

/-! ### A hop taken down with a bound of its rate (R237) -/

theorem downIfUp_up {p : Port} {cause cap : Nat} {d : Dev} (h : (port d p).st = .up) : downIfUp p cause cap d = hopDown p cause cap d :=
  if_pos (by simp [LinkPort.isUp, h])

theorem frame_downIfUp (p : Port) (cause cap : Nat) (d : Dev) :
    ChangesOnly (portPart p :: .rg :: evParts) [R.ringCnt] d (downIfUp p cause cap d) := .ite (frame_hopDown ..) (.refl ..)

/-- A hop that goes down trains at its limit, or at the bound where that is slower. -/
theorem port_hopFallen_cap (p : Port) (cap : Nat) (d : Dev) :
    port (hopFallen p cap d) p = ((port d p).fallen cap).begun (max (rateLimit d p) cap) d.now := by
  cases p <;> simp [hopFallen, beginTraining_eq, startRate, port, setPort, withRing, rateLimit, regFld, reg, LinkPort.fallen]

/-- A port whose hop has gone down, but for its queue, does not depend on the queue before. -/
theorem still_begun_fallen {x y : LinkPort} (h : x.still = y.still) (cap rate : Nat) (now : Time) :
    ((x.fallen cap).begun rate now).still = ((y.fallen cap).begun rate now).still :=
  (congrArg (fun z : LinkPort => ((z.fallen cap).begun rate now).still) h :)

theorem lastAlive_hopDown (p : Port) (cause cap : Nat) (d : Dev) : (port (hopDown p cause cap d) p).lastAlive = (port d p).lastAlive := by
  have h := still_hopDown p cause cap d
  rw [port_hopFallen_cap] at h
  exact (congrArg LinkPort.lastAlive h :)

/-- A hop that goes down counts in its own bucket, and in that of breaks. -/
theorem level_hopDown_ne (p : Port) (cause cap : Nat) {s i : Nat} (d : Dev) (h : bucketBase s + i ≠ bucketBase 32 + portIdx p)
    (hb : bucketBase s + i ≠ bucketBase 35 + 0) : level (hopDown p cause cap d) s i = level d s i := by
  have hrec : ∀ e, level (recognise e) s i = level e s i := fun e => by
    unfold recognise
    split
    · rw [level_occur_ne _ _ _ hb]
      rfl
    · rfl
  have hbound : ∀ low k e, level (bound low k e) s i = level e s i := fun low k e => by
    rw [bound_eq]
    split
    · rw [hrec]
      rfl
    · rfl
  have hhop : ∀ e, level (hopBound p e) s i = level e s i := fun e => by cases p <;> exact hbound ..
  rw [hopDown_eq, hhop, level_occur_ne _ _ _ h, level_congr (congrArg Events.lvl (hopFallen_ev ..))]

/-! ### Link errors (R237, R245) -/

/-- The device that has counted a link error in its register. -/
def errCounted (p : Port) (cause : Nat) (d : Dev) : Dev :=
  match cause with
  | 1 => bump (cntOff p 0) 15 0 1 d
  | 2 => bump (cntOff p 2) 15 0 1 d
  | _ => bump (cntOff p 0) 31 16 1 d

/-- The register that counts a cause. -/
def errReg (p : Port) (cause : Nat) : Nat := if cause = 2 then cntOff p 2 else cntOff p 0

/-- The device that has counted and posted it. -/
def errNoted (p : Port) (cause : Nat) (d : Dev) : Dev := occur 30 (portIdx p) 0x1001 [BitVec.ofNat 8 cause] (errCounted p cause d)

theorem errReg_fresh (p : Port) (cause : Nat) : evtCfgOff 30 ≠ errReg p cause ∧ R.linkCtrl ≠ errReg p cause := by
  unfold errReg
  split <;> cases p <;> decide

theorem frame_errCounted (p : Port) (cause : Nat) (d : Dev) : ChangesOnly [.cyc] [errReg p cause] d (errCounted p cause d) := by
  match cause with
  | 0 => exact frame_bump (cntOff p 0) 31 16 1 d
  | 1 => exact frame_bump (cntOff p 0) 15 0 1 d
  | 2 => exact frame_bump (cntOff p 2) 15 0 1 d
  | n + 3 => exact (frame_bump (cntOff p 0) 31 16 1 d).mono (by decide) (by simp [errReg])

theorem linkError_eq (p : Port) (cause : Nat) (d : Dev) : linkError p cause d =
    if turnsLasting d 30 (portIdx p) then downIfUp p 5 (min 2 ((port d p).rate + 1)) (errNoted p cause d) else errNoted p cause d := by
  have hcount := frame_errCounted p cause d
  have hturn := lasting_occur_new 30 (portIdx p) 0x1001 [BitVec.ofNat 8 cause] (errCounted p cause d)
  rw [hcount.turnsLasting 30 _ (by decide) (by simpa using (errReg_fresh p cause).1)] at hturn
  have hstill : (port (errNoted p cause d) p).still = (port d p).still :=
    ((frame_occur ..).still p (by cases p <;> decide)).trans (hcount.still p (by cases p <;> decide))
  have hrate : (port (errNoted p cause d) p).rate = (port d p).rate := (congrArg LinkPort.rate hstill :)
  rw [← hturn, ← hrate]
  rfl

/-- What an error changes once it is counted. -/
theorem frame_linkError_counted (p : Port) (cause : Nat) (d : Dev) :
    ChangesOnly (portPart p :: .rg :: evParts) [R.ringCnt] (errCounted p cause d) (linkError p cause d) := by
  have hnote : ChangesOnly (portPart p :: .rg :: evParts) [R.ringCnt] (errCounted p cause d) (errNoted p cause d) :=
    (frame_occur ..).mono (by cases p <;> decide)
  rw [linkError_eq]
  exact .ite (hnote.trans (frame_downIfUp ..)) hnote

theorem frame_linkError (p : Port) (cause : Nat) (d : Dev) :
    ChangesOnly (portPart p :: .rg :: evParts) [errReg p cause, R.ringCnt] d (linkError p cause d) :=
  ((frame_errCounted p cause d).mono (by cases p <;> decide) (by simp)).trans ((frame_linkError_counted p cause d).mono (by simp) (by simp))

theorem still_errNoted (p : Port) (cause : Nat) (d : Dev) : (port (errNoted p cause d) p).still = (port d p).still :=
  ((frame_occur ..).still p (by cases p <;> decide)).trans ((frame_errCounted p cause d).still p (by cases p <;> decide))

/-- An error that does not reach N leaves the port but for its queue. -/
theorem still_linkError {p : Port} {cause : Nat} {d : Dev} (h : turnsLasting d 30 (portIdx p) = false) :
    (port (linkError p cause d) p).still = (port d p).still := by
  rw [linkError_eq, if_neg (by simp [h])]
  exact still_errNoted ..

/-- At N an UP hop trains at the next lower rate. -/
theorem still_linkError_down {p : Port} {cause : Nat} {d : Dev} (h : turnsLasting d 30 (portIdx p) = true) (hu : (port d p).st = .up) :
    (port (linkError p cause d) p).still = (((port d p).fallen (min 2 ((port d p).rate + 1))).begun
      (max (rateLimit d p) (min 2 ((port d p).rate + 1))) d.now).still := by
  have hstill := still_errNoted p cause d
  have hnow : (errNoted p cause d).now = d.now := ((frame_occur ..).1 .now (by decide)).trans ((frame_errCounted p cause d).1 .now (by decide))
  have hlimit : rateLimit (errNoted p cause d) p = rateLimit d p :=
    (rateLimit_congr (frame_occur ..) p).trans (rateLimit_congr (frame_errCounted p cause d) p (by simpa using (errReg_fresh p cause).2))
  rw [linkError_eq, if_pos h, downIfUp_up ((congrArg LinkPort.st hstill :).trans hu), still_hopDown, port_hopFallen_cap, hnow, hlimit]
  exact still_begun_fallen hstill ..

theorem lastAlive_linkError (p : Port) (cause : Nat) (d : Dev) : (port (linkError p cause d) p).lastAlive = (port d p).lastAlive := by
  have hnoted : (port (errNoted p cause d) p).lastAlive = (port d p).lastAlive := (congrArg LinkPort.lastAlive (still_errNoted p cause d) :)
  rw [linkError_eq, downIfUp]
  split
  · split
    · rw [lastAlive_hopDown, hnoted]
    · exact hnoted
  · exact hnoted

theorem level_linkError (p : Port) (cause : Nat) (d : Dev) :
    level (linkError p cause d) 30 (portIdx p) = satNat 255 (level d 30 (portIdx p) + 1) := by
  have hnote : level (errNoted p cause d) 30 (portIdx p) = satNat 255 (level d 30 (portIdx p) + 1) := by
    rw [errNoted, level_occur, (frame_errCounted p cause d).level]
  rw [linkError_eq, downIfUp]
  split
  · split
    · rw [level_hopDown_ne _ _ _ _ (by cases p <;> decide) (by cases p <;> decide), hnote]
    · exact hnote
  · exact hnote

/-- What an error leaves of a register is what counting it leaves. -/
theorem regFld_linkError (p q : Port) (cause k hi lo : Nat) (d : Dev) (hk : k < 3) :
    regFld (linkError p cause d) (cntOff q k) hi lo = regFld (errCounted p cause d) (cntOff q k) hi lo := by
  refine (frame_linkError_counted p cause d).regFld hi lo ?_
  simp only [List.mem_singleton]
  cases q <;> simp only [cntOff, R.linkCntN, R.linkCntS, R.ringCnt] <;> omega

/-! ### Code violations (R222, R245) -/

/-- The violations that a number of link errors of a port count. -/
def violations (p : Port) : Nat → Dev → Dev
  | 0, d => d
  | n + 1, d => violations p n (linkError p 3 d)

theorem countBad_eq (p : Port) (l : List Sym) (d : Dev) : countBad p l d = violations p (badCount l) d := by
  unfold countBad badCount
  generalize l.filter (fun c => decide (c = .bad)) = m
  induction m generalizing d with
  | nil => rfl
  | cons c r ih => exact ih _

theorem countBad_none {p : Port} {l : List Sym} {d : Dev} (h : badCount l = 0) : countBad p l d = d := by
  rw [countBad_eq, h]
  rfl

theorem frame_countBad (p : Port) (l : List Sym) (d : Dev) :
    ChangesOnly (portPart p :: .rg :: evParts) [cntOff p 0, R.ringCnt] d (countBad p l d) := by
  rw [countBad_eq]
  generalize badCount l = n
  induction n generalizing d with
  | zero => exact .refl ..
  | succ n ih => exact (frame_linkError p 3 d).trans (ih _)

theorem lastAlive_countBad (p : Port) (l : List Sym) (d : Dev) : (port (countBad p l d) p).lastAlive = (port d p).lastAlive := by
  rw [countBad_eq]
  generalize badCount l = n
  induction n generalizing d with
  | zero => rfl
  | succ n ih => rw [violations, ih, lastAlive_linkError]

/-- Every violation counts. -/
theorem regFld_countBad (p : Port) (l : List Sym) (d : Dev) :
    regFld (countBad p l d) (cntOff p 0) 31 16 = satNat 65535 (regFld d (cntOff p 0) 31 16 + badCount l) := by
  rw [countBad_eq]
  generalize badCount l = n
  induction n generalizing d with
  | zero => rw [satNat_regFld_high]; rfl
  | succ n ih =>
    have hone : regFld (linkError p 3 d) (cntOff p 0) 31 16 = satNat 65535 (regFld d (cntOff p 0) 31 16 + 1) := by
      rw [regFld_linkError p p 3 0 31 16 d (by decide)]
      exact regFld_bump_sat (cntOff p 0) 31 16 1 d
    rw [violations, ih, hone, satNat_satNat, Nat.add_assoc, Nat.add_comm 1 n]

end Sys2Proof.Machine
end

section
/-! SUPPORT. What the peer's burst says, and the burst that answers it (file 08, R223 to R225, R233, R234, R242). -/

namespace Sys2Proof.Machine

/-! ### The answer to the outstanding frame (R233, R234, R242) -/

/-- A port that is done with its outstanding frame. -/
def LinkPort.acked (x : LinkPort) : LinkPort := { x with out := none, retries := 0, again := false, alive := (x.alive + 1) % 16 }

theorem nextAlive_eq (p : Port) (d : Dev) : nextAlive p d = setPort p (port d p).acked d := rfl

/-- The device that has dropped its frame and counted it. -/
def dropNoted (p : Port) (f : Frame) (d : Dev) : Dev :=
  occur 31 (portIdx p) 0x1002 [BitVec.ofNat 8 f.typ, BitVec.ofNat 8 f.dest, BitVec.ofNat 8 f.src] (bump (cntOff p 1) 31 16 1 (nextAlive p d))

theorem frame_nextAlive (p : Port) (d : Dev) : ChangesOnly [portPart p] [] d (nextAlive p d) := frame_setPort_queue (by rfl)

theorem frame_dropCounted (p : Port) (d : Dev) :
    ChangesOnly [portPart p, .cyc] [cntOff p 1] d (bump (cntOff p 1) 31 16 1 (nextAlive p d)) :=
  ((frame_nextAlive p d).mono (by cases p <;> decide) (by simp)).trans ((frame_bump ..).mono (by cases p <;> decide) (by simp))

theorem dropFrame_eq (p : Port) (f : Frame) (d : Dev) : dropFrame p f d =
    if turnsLasting d 31 (portIdx p) then downIfUp p 2 0 (dropNoted p f d) else dropNoted p f d := by
  have hturn := lasting_occur_new 31 (portIdx p) 0x1002 [BitVec.ofNat 8 f.typ, BitVec.ofNat 8 f.dest, BitVec.ofNat 8 f.src]
    (bump (cntOff p 1) 31 16 1 (nextAlive p d))
  rw [(frame_dropCounted p d).turnsLasting 31 _ (by cases p <;> decide) (by cases p <;> decide)] at hturn
  rw [← hturn]
  rfl

theorem frame_dropNoted (p : Port) (f : Frame) (d : Dev) :
    ChangesOnly (portPart p :: .rg :: evParts) [cntOff p 1, R.ringCnt] d (dropNoted p f d) :=
  ((frame_dropCounted p d).mono (by cases p <;> decide) (by simp)).trans ((frame_occur ..).mono (by cases p <;> decide) (by simp))

theorem frame_dropFrame (p : Port) (f : Frame) (d : Dev) :
    ChangesOnly (portPart p :: .rg :: evParts) [cntOff p 1, R.ringCnt] d (dropFrame p f d) := by
  rw [dropFrame_eq]
  exact .ite ((frame_dropNoted p f d).trans ((frame_downIfUp ..).mono (by simp) (by simp))) (frame_dropNoted p f d)

theorem still_dropNoted (p : Port) (f : Frame) (d : Dev) : (port (dropNoted p f d) p).still = (port d p).acked.still := by
  rw [dropNoted, (frame_occur ..).still p (by cases p <;> decide), (frame_bump ..).still p (by cases p <;> decide), nextAlive_eq, port_setPort]

theorem regFld_dropFrame (p : Port) (f : Frame) (d : Dev) :
    regFld (dropFrame p f d) (cntOff p 1) 31 16 = satNat 65535 (regFld d (cntOff p 1) 31 16 + 1) := by
  have hnote : regFld (dropNoted p f d) (cntOff p 1) 31 16 = satNat 65535 (regFld d (cntOff p 1) 31 16 + 1) := by
    rw [dropNoted, (frame_occur ..).regFld 31 16 (by cases p <;> decide)]
    refine (regFld_bump_sat (cntOff p 1) 31 16 1 (nextAlive p d)).trans ?_
    rw [(frame_nextAlive p d).regFld 31 16 (by simp)]
    rfl
  rw [dropFrame_eq]
  split
  · rw [(frame_downIfUp ..).regFld 31 16 (by cases p <;> decide), hnote]
  · exact hnote

/-- A dropped frame: the next ALIVE, counted in its bucket, and at N the hop trains. -/
theorem dropFrame_port {p : Port} {f : Frame} {d : Dev} (hu : (port d p).st = .up) :
    (port (dropFrame p f d) p).alive = ((port d p).alive + 1) % 16 ∧ (port (dropFrame p f d) p).retries = 0 ∧
    level (dropFrame p f d) 31 (portIdx p) = satNat 255 (level d 31 (portIdx p) + 1) ∧
    (turnsLasting d 31 (portIdx p) = true → (port (dropFrame p f d) p).st = .training) := by
  have hstill := still_dropNoted p f d
  have hup : (port (dropNoted p f d) p).st = .up := (congrArg LinkPort.st hstill :).trans hu
  have hlevel : level (dropNoted p f d) 31 (portIdx p) = satNat 255 (level d 31 (portIdx p) + 1) := by
    rw [dropNoted, level_occur, (frame_dropCounted p d).level _ _ (by cases p <;> decide)]
  rw [dropFrame_eq]
  split
  · have hdown := still_hopDown p 2 0 (dropNoted p f d)
    rw [port_hopFallen_cap, still_begun_fallen hstill] at hdown
    rw [downIfUp_up hup]
    exact ⟨(congrArg LinkPort.alive hdown :), (congrArg LinkPort.retries hdown :),
      (level_hopDown_ne _ _ _ _ (by cases p <;> decide) (by cases p <;> decide)).trans hlevel, fun _ => (congrArg LinkPort.st hdown :)⟩
  · next h => exact ⟨(congrArg LinkPort.alive hstill :), (congrArg LinkPort.retries hstill :), hlevel, fun ht => absurd ht h⟩

theorem takeAnswer_idle {p : Port} {ans : Option Answer} {d : Dev} (h : (port d p).out = none ∨ (port d p).cut = true) :
    takeAnswer p ans d = d := by
  unfold takeAnswer
  rcases h with h | h
  · simp [h]
  · simp only [h, if_true]
    split <;> rfl

theorem takeAnswer_ack {p : Port} {f : Frame} {d : Dev} (ho : (port d p).out = some f) (hc : (port d p).cut = false) :
    takeAnswer p (some ⟨none, f.src, (port d p).alive⟩) d = nextAlive p d := by
  simp [takeAnswer, ho, hc]

theorem takeAnswer_busy {p : Port} {f : Frame} {d : Dev} (ho : (port d p).out = some f) (hc : (port d p).cut = false) :
    takeAnswer p (some ⟨some 1, f.src, (port d p).alive⟩) d = setPort p { port d p with again := true } d := by
  simp [takeAnswer, ho, hc]

/-- A port that sends its frame again, with a retry. -/
def LinkPort.retried (x : LinkPort) : LinkPort := { x with retries := x.retries + 1, again := true }

/-- Any other answer, or none, costs a retry, or the frame after the third. -/
theorem takeAnswer_miss {p : Port} {ans : Option Answer} {f : Frame} {d : Dev} (ho : (port d p).out = some f) (hc : (port d p).cut = false)
    (hack : ans ≠ some ⟨none, f.src, (port d p).alive⟩) (hbusy : ans ≠ some ⟨some 1, f.src, (port d p).alive⟩) :
    takeAnswer p ans d = if (port d p).retries < 3 then bump (cntOff p 1) 15 0 1 (setPort p (port d p).retried d) else dropFrame p f d := by
  unfold takeAnswer
  dsimp only
  split
  · next hn => exact absurd (ho.symm.trans hn) nofun
  · next g hg =>
    obtain rfl : f = g := Option.some.inj (ho.symm.trans hg)
    rw [if_neg (by simp [hc])]
    split
    · next hit => exact absurd (by simpa using hit) hack
    · next hit => exact absurd (by simpa using hit) hbusy
    · rfl

theorem frame_takeAnswer (p : Port) (ans : Option Answer) (d : Dev) :
    ChangesOnly (portPart p :: .rg :: evParts) [cntOff p 1, R.ringCnt] d (takeAnswer p ans d) := by
  have hport : ∀ x : LinkPort, x.queue = (port d p).queue → ChangesOnly (portPart p :: .rg :: evParts) [cntOff p 1, R.ringCnt] d (setPort p x d) :=
    fun x hx => (frame_setPort_queue hx).mono (by cases p <;> decide) (by simp)
  have hbump : ∀ e, ChangesOnly (portPart p :: .rg :: evParts) [cntOff p 1, R.ringCnt] e (bump (cntOff p 1) 15 0 1 e) := fun e =>
    (frame_bump ..).mono (by cases p <;> decide) (by simp)
  by_cases hidle : (port d p).out = none ∨ (port d p).cut = true
  · rw [takeAnswer_idle hidle]
    exact .refl ..
  · obtain ⟨ho, hc⟩ := not_or.mp hidle
    obtain ⟨f, hf⟩ := Option.ne_none_iff_exists'.mp ho
    have hc : (port d p).cut = false := by simpa using hc
    by_cases hack : ans = some ⟨none, f.src, (port d p).alive⟩
    · rw [hack, takeAnswer_ack hf hc]
      exact hport _ rfl
    · by_cases hbusy : ans = some ⟨some 1, f.src, (port d p).alive⟩
      · rw [hbusy, takeAnswer_busy hf hc]
        exact hport _ rfl
      · rw [takeAnswer_miss hf hc hack hbusy]
        exact .ite ((hport (port d p).retried rfl).trans (hbump _)) (frame_dropFrame ..)

/-! ### The burst that answers (R224, R225) -/

/-- What a burst is depends on its port but for what has come to it and the retries, the tone, and the device's role. -/
theorem BurstSent.of_still {a : Dev} {p : Port} {start : Time} {x y : LinkPort} (h : BurstSent a p start x) (k : y.still = x.still) :
    BurstSent a p start y := by
  have hfield : ∀ {α : Type} (f : LinkPort → α), (∀ z : LinkPort, f z.still = f z) → f y = f x := fun f hf => by rw [← hf, k, hf]
  obtain ⟨hdue, hfrom, hstay, hnone, hfirst, m, g, hg, hsent, hrest⟩ := h
  have hout := hfield LinkPort.out fun _ => rfl
  rw [BurstSent, hout, hfield LinkPort.ackDue fun _ => rfl, hfield LinkPort.ownFrom fun _ => rfl, hfield LinkPort.sent fun _ => rfl,
    hfield LinkPort.ownTo fun _ => rfl]
  exact ⟨hdue, hfrom, hstay, hnone, hfirst, m, g, hg, hsent, hrest⟩

/-- What a burst leaves of its port. -/
theorem sendBurst_keeps (p : Port) (start : Time) (d : Dev) :
    (port (sendBurst p start d) p).alive = (port d p).alive ∧ (port (sendBurst p start d) p).retries = (port d p).retries ∧
    (port (sendBurst p start d) p).burstAt = (port d p).burstAt ∧ (port (sendBurst p start d) p).peerLs = (port d p).peerLs := by
  cases ht : toneOn d p
  · rw [sendBurst_eq ht, port_setPort]
    exact ⟨rfl, rfl, rfl, rfl⟩
  · rw [sendBurst_tone ht]
    exact ⟨rfl, rfl, rfl, rfl⟩

theorem port_freeWord (p : Port) (d : Dev) : port (freeWord d).2 p = port d p := by cases p <;> rfl

theorem toneOn_freeWord (p : Port) (d : Dev) : toneOn (freeWord d).2 p = toneOn d p := by cases p <;> rfl

theorem answer_keeps (p : Port) (d : Dev) :
    (port (answerBurst sendBurst p d) p).alive = (port d p).alive ∧ (port (answerBurst sendBurst p d) p).retries = (port d p).retries ∧
    (port (answerBurst sendBurst p d) p).burstAt = (port d p).burstAt ∧ (port (answerBurst sendBurst p d) p).peerLs = (port d p).peerLs := by
  obtain ⟨k, -, -, hk⟩ := answerBurst_at sendBurst p d
  have h := sendBurst_keeps p (d.now + BitVec.ofNat 64 k) (freeWord d).2
  rwa [port_freeWord, ← hk] at h

theorem frame_answer (p : Port) (d : Dev) : ChangesOnly [portPart p, .queues, .ex, .free] [] d (answerBurst sendBurst p d) := by
  obtain ⟨k, -, -, hk⟩ := answerBurst_at sendBurst p d
  rw [hk]
  exact ((frame_freeWord d).mono (by cases p <;> decide)).trans ((frame_sendBurst ..).mono (by cases p <;> decide))

theorem answer_done (p : Port) (d : Dev) : (answerBurst sendBurst p d).ex.done = d.ex.done := by
  obtain ⟨k, -, -, hk⟩ := answerBurst_at sendBurst p d
  rw [hk, sendBurst_done]
  rfl

/-- The answer to TURN, without a tone on the line. -/
theorem burstSent_answer {p : Port} {d : Dev} (ht : toneOn d p = false) : ∃ k : Nat, 20 ≤ k ∧ k ≤ 40 ∧
    BurstSent d p (d.now + BitVec.ofNat 64 k) (port (answerBurst sendBurst p d) p) := by
  obtain ⟨k, hlo, hhi, hk⟩ := answerBurst_at sendBurst p d
  have hsent := burstSent_sendBurst (p := p) (start := d.now + BitVec.ofNat 64 k) (d := (freeWord d).2) (by rw [toneOn_freeWord, ht])
  rw [← hk] at hsent
  refine ⟨k, hlo, hhi, ?_⟩
  cases p <;> exact hsent

/-! ### A burst comes to an UP port (R223) -/

/-- A port that has taken a burst's characters, and its start where that was valid. -/
def LinkPort.tookBurst (rd : Bool) (line burst : Time) (ls : Nat) (x : LinkPort) : LinkPort :=
  { x with rxRd := rd, rxHead := none, rxBad := false, lineAt := line, burstAt := burst, peerLs := ls }

/-- The port with a burst's characters, before its start counts. -/
def charsTaken (p : Port) (groups : List Nat) (d : Dev) : Dev :=
  let r := decodeGroups (port d p).rxRd groups
  setPort p ((port d p).tookBurst r.2 (if r.1.all (fun c => decide (c = .bad)) then (port d p).lineAt else d.now) (port d p).burstAt (port d p).peerLs) d

/-- A valid start of a burst is noted. -/
def startNoted (p : Port) (start : Option (Nat × Option Answer)) (bad : Bool) (d : Dev) : Dev :=
  match start with
  | some (ls, _) => if !bad && lsFits d p ls then withPort p (fun x => { x with burstAt := d.now, peerLs := ls }) d else d
  | none => d

/-- What TURN brings: the start is noted, the answer taken, and a hop still UP answers with its burst. -/
def turnTaken (p : Port) (start : Option (Nat × Option Answer)) (bad : Bool) (d : Dev) : Dev :=
  let e := takeAnswer p (start.bind Prod.snd) (startNoted p start bad d)
  if (port e p).isUp then answerBurst sendBurst p e else e

theorem burstRx_up {p : Port} {groups : List Nat} {d : Dev} {x : LinkPort} {l : List Sym} (hx : port d p = x) (hu : x.st = .up)
    (hl : l = (decodeGroups x.rxRd groups).1) : burstRx p groups d =
      if l.getLast? = some (.ctl .turn) ∧ (port (countBad p l (charsTaken p groups d)) p).isUp = true then
        turnTaken p ((readHead l).orElse (fun _ => x.rxHead)) (x.rxBad || l.any (fun c => decide (c = .bad)))
          (countBad p l (charsTaken p groups d))
      else countBad p l (charsTaken p groups d) := by
  subst hx hl
  have ht : training (port d p) = false := by simp [training, hu]
  rw [burstRx, if_neg (by simp [ht]), if_pos (by simp [LinkPort.isUp, hu])]
  rfl

theorem frame_charsTaken (p : Port) (groups : List Nat) (d : Dev) : ChangesOnly [portPart p] [] d (charsTaken p groups d) :=
  frame_setPort_queue (by rfl)

theorem frame_startNoted (p : Port) (start : Option (Nat × Option Answer)) (bad : Bool) (d : Dev) :
    ChangesOnly [portPart p] [] d (startNoted p start bad d) := by
  unfold startNoted
  split
  · exact .ite (frame_setPort_queue (by rfl)) (.refl ..)
  · exact .refl ..

theorem frame_turnTaken (p : Port) (start : Option (Nat × Option Answer)) (bad : Bool) (d : Dev) :
    ChangesOnly (portPart p :: .rg :: .ex :: .free :: evParts) [cntOff p 1, R.ringCnt] d (turnTaken p start bad d) := by
  have htaken : ChangesOnly (portPart p :: .rg :: .ex :: .free :: evParts) [cntOff p 1, R.ringCnt] d
      (takeAnswer p (start.bind Prod.snd) (startNoted p start bad d)) :=
    ((frame_startNoted p start bad d).mono (by cases p <;> decide) (by simp)).trans
      ((frame_takeAnswer p (start.bind Prod.snd) (startNoted p start bad d)).mono (by cases p <;> decide) (by simp))
  exact .ite (htaken.trans ((frame_answer ..).mono (by cases p <;> decide) (by simp))) htaken

theorem turnTaken_done (p : Port) (start : Option (Nat × Option Answer)) (bad : Bool) (d : Dev) : (turnTaken p start bad d).ex.done = d.ex.done := by
  have htaken : (takeAnswer p (start.bind Prod.snd) (startNoted p start bad d)).ex = d.ex := by
    rw [(frame_takeAnswer ..).1 .ex (by cases p <;> decide), (frame_startNoted ..).1 .ex (by cases p <;> decide)]
  unfold turnTaken
  dsimp only
  split
  · rw [answer_done, htaken]
  · rw [htaken]

theorem frame_burstRx_up {p : Port} {groups : List Nat} {d : Dev} {x : LinkPort} (hx : port d p = x) (hu : x.st = .up) :
    ChangesOnly (portPart p :: .rg :: .ex :: .free :: evParts) [cntOff p 0, cntOff p 1, R.ringCnt] d (burstRx p groups d) ∧
    (burstRx p groups d).ex.done = d.ex.done := by
  have hcount : ChangesOnly (portPart p :: .rg :: evParts) [cntOff p 0, R.ringCnt] d
      (countBad p (decodeGroups x.rxRd groups).1 (charsTaken p groups d)) :=
    ((frame_charsTaken p groups d).mono (by cases p <;> decide) (by simp)).trans (frame_countBad ..)
  have hex : (countBad p (decodeGroups x.rxRd groups).1 (charsTaken p groups d)).ex = d.ex := hcount.1 .ex (by cases p <;> decide)
  rw [burstRx_up hx hu rfl]
  split
  · exact ⟨(hcount.mono (by cases p <;> decide) (by simp)).trans ((frame_turnTaken ..).mono (by simp) (by simp)), by rw [turnTaken_done, hex]⟩
  · exact ⟨hcount.mono (by cases p <;> decide) (by simp), by rw [hex]⟩

/-- Every violation counts. -/
theorem regFld_burstRx {p : Port} {groups : List Nat} {d : Dev} {x : LinkPort} {l : List Sym} (hx : port d p = x) (hu : x.st = .up)
    (hl : l = (decodeGroups x.rxRd groups).1) :
    regFld (burstRx p groups d) (cntOff p 0) 31 16 = satNat 65535 (regFld d (cntOff p 0) 31 16 + badCount l) := by
  have hcount : regFld (countBad p l (charsTaken p groups d)) (cntOff p 0) 31 16 = satNat 65535 (regFld d (cntOff p 0) 31 16 + badCount l) := by
    rw [regFld_countBad, (frame_charsTaken ..).regFld 31 16 (by simp)]
  rw [burstRx_up hx hu hl]
  split
  · rw [(frame_turnTaken ..).regFld 31 16 (by cases p <;> decide), hcount]
  · exact hcount

/-! ### The burst without a violation -/

/-- Characters that do not end with TURN pass no line. -/
theorem burstRx_mid {p : Port} {groups : List Nat} {d : Dev} {x : LinkPort} {l : List Sym} (hx : port d p = x) (hu : x.st = .up)
    (hl : l = (decodeGroups x.rxRd groups).1) (hb : badCount l = 0) (hm : l.getLast? ≠ some (.ctl .turn)) :
    burstRx p groups d = charsTaken p groups d := by
  rw [burstRx_up hx hu hl, if_neg (fun h => hm h.1), countBad_none hb]

theorem burstRx_turn {p : Port} {groups : List Nat} {d : Dev} {x : LinkPort} {l : List Sym} (hx : port d p = x) (hu : x.st = .up)
    (hl : l = (decodeGroups x.rxRd groups).1) (hb : badCount l = 0) (hm : l.getLast? = some (.ctl .turn)) :
    burstRx p groups d = turnTaken p ((readHead l).orElse (fun _ => x.rxHead)) x.rxBad (charsTaken p groups d) := by
  have hgood : l.any (fun c => decide (c = .bad)) = false := by simp [any_bad, hb]
  have hup : (port (charsTaken p groups d) p).isUp = true := by
    rw [charsTaken, port_setPort, hx]
    simp [LinkPort.tookBurst, LinkPort.isUp, hu]
  rw [burstRx_up hx hu hl, countBad_none hb, if_pos ⟨hm, hup⟩, hgood, Bool.or_false]

theorem setPort_setPort (p : Port) (x y : LinkPort) (d : Dev) : setPort p x (setPort p y d) = setPort p x d := by cases p <;> rfl

/-- The start's note makes a port that took the burst. -/
theorem startNoted_eq (p : Port) (groups : List Nat) (start : Option (Nat × Option Answer)) (bad : Bool) (d : Dev) :
    ∃ rd line burst ls, startNoted p start bad (charsTaken p groups d) = setPort p ((port d p).tookBurst rd line burst ls) d ∧
      ∀ v a, start = some (v, a) → bad = false → lsFits d p v = true → burst = d.now ∧ ls = v := by
  have hfit : ∀ v, lsFits (charsTaken p groups d) p v = lsFits d p v := fun v => by
    rw [lsFits, charsTaken, port_setPort]
    rfl
  obtain ⟨rd, line, hchars⟩ : ∃ rd line, charsTaken p groups d =
      setPort p ((port d p).tookBurst rd line (port d p).burstAt (port d p).peerLs) d := ⟨_, _, rfl⟩
  unfold startNoted
  split
  · next ls a =>
    rw [hfit]
    split
    · next h =>
      refine ⟨rd, line, d.now, ls, ?_, fun v b hv _ _ => ⟨rfl, congrArg Prod.fst (Option.some.inj hv)⟩⟩
      rw [withPort, hchars, port_setPort, setPort_now, setPort_setPort]
      rfl
    · next h =>
      refine ⟨_, _, _, _, hchars, fun v b hv hbad hls => absurd ?_ h⟩
      obtain rfl : ls = v := congrArg Prod.fst (Option.some.inj hv)
      simp [hbad, hls]
  · exact ⟨_, _, _, _, hchars, nofun⟩

theorem toneOn_setPort {p : Port} {x : LinkPort} {d : Dev} (hr : x.rxTone = (port d p).rxTone) (ht : x.toneTx = (port d p).toneTx) :
    toneOn (setPort p x d) p = toneOn d p := by
  rw [toneOn, port_setPort, setPort_tn, hr, ht]
  rfl

/-- What has come to a port and its retries do not show in its burst. -/
theorem burstSent_tookBurst {p : Port} {d : Dev} {x y : LinkPort} {start : Time} {rd : Bool} {line burst : Time} {ls : Nat}
    (h : BurstSent (setPort p (x.tookBurst rd line burst ls) d) p start y) : BurstSent (setPort p x d) p start y := by
  cases p <;> exact h

theorem setPort_port (p : Port) (d : Dev) : setPort p (port d p) d = d := by cases p <;> rfl

end Sys2Proof.Machine
end

section
/-! PROOF. Bursts settle the outstanding frame and send the port's own; a line is taken back (file 08). -/

namespace Sys2Proof.Machine

/-! ### The port's own burst after TURN -/

/-- Port p, which was z in device a, has sent the burst that answers TURN, and the device is b. -/
structure Answered (p : Port) (a : Dev) (z : LinkPort) (b : Dev) : Prop where
  alive : (port b p).alive = z.alive
  retries : (port b p).retries = z.retries
  sent : toneOn a p = false → ∃ k : Nat, 20 ≤ k ∧ k ≤ 40 ∧ BurstSent (setPort p z a) p (a.now + BitVec.ofNat 64 k) (port b p)

theorem Answered.of_still {p : Port} {a b c : Dev} {z : LinkPort} (h : Answered p a z b) (k : (port c p).still = (port b p).still) :
    Answered p a z c := by
  refine ⟨(congrArg LinkPort.alive k :).trans h.alive, (congrArg LinkPort.retries k :).trans h.retries, fun ht => ?_⟩
  obtain ⟨n, hlo, hhi, hsent⟩ := h.sent ht
  exact ⟨n, hlo, hhi, hsent.of_still k⟩

/-- A hop still UP after the answer was taken answers TURN. -/
theorem turnTaken_up {p : Port} {start : Option (Nat × Option Answer)} {bad : Bool} {d e : Dev}
    (he : takeAnswer p (start.bind Prod.snd) (startNoted p start bad d) = e) (hu : (port e p).st = .up) :
    turnTaken p start bad d = answerBurst sendBurst p e := by
  unfold turnTaken
  dsimp only
  rw [he, if_pos (by simp [LinkPort.isUp, hu])]

theorem answered_answer {p : Port} {a : Dev} {z : LinkPort} {rd : Bool} {line burst : Time} {ls : Nat} (hr : z.rxTone = (port a p).rxTone)
    (ht : z.toneTx = (port a p).toneTx) : Answered p a z (answerBurst sendBurst p (setPort p (z.tookBurst rd line burst ls) a)) := by
  obtain ⟨halive, hretries, -, -⟩ := answer_keeps p (setPort p (z.tookBurst rd line burst ls) a)
  rw [port_setPort] at halive hretries
  refine ⟨halive, hretries, fun htone => ?_⟩
  obtain ⟨k, hlo, hhi, hsent⟩ := burstSent_answer (p := p) (d := setPort p (z.tookBurst rd line burst ls) a)
    ((toneOn_setPort (x := z.tookBurst rd line burst ls) hr ht).trans htone)
  rw [setPort_now] at hsent
  exact ⟨k, hlo, hhi, burstSent_tookBurst hsent⟩

/-! ### What TURN does, by what the peer's burst said -/

section
variable {p : Port} {groups : List Nat} {d : Dev} {x : LinkPort} {l : List Sym}

/-- The port as TURN finds it, its start noted. -/
theorem turn_port (groups : List Nat) (start : Option (Nat × Option Answer)) (bad : Bool) (hx : port d p = x) :
    ∃ rd line burst ls, startNoted p start bad (charsTaken p groups d) = setPort p (x.tookBurst rd line burst ls) d ∧
      ∀ v a, start = some (v, a) → bad = false → lsFits d p v = true → burst = d.now ∧ ls = v := by
  subst hx
  exact startNoted_eq ..

/-- Without a frame that waits for the peer. -/
theorem turn_idle {start : Option (Nat × Option Answer)} {bad : Bool} (hx : port d p = x) (hu : x.st = .up) (h : x.out = none ∨ x.cut = true) :
    Answered p d x (turnTaken p start bad (charsTaken p groups d)) ∧
    ∀ v a, start = some (v, a) → bad = false → lsFits d p v = true →
      (port (turnTaken p start bad (charsTaken p groups d)) p).burstAt = d.now ∧
      (port (turnTaken p start bad (charsTaken p groups d)) p).peerLs = v := by
  obtain ⟨rd, line, burst, ls, hnote, hstart⟩ := turn_port groups start bad hx
  have heff := turnTaken_up (takeAnswer_idle (ans := start.bind Prod.snd) (by rw [hnote, port_setPort]; exact h))
    (by rw [hnote, port_setPort]; exact hu)
  rw [heff, hnote]
  refine ⟨answered_answer (by rw [hx]) (by rw [hx]), fun v a hs hb hls => ?_⟩
  obtain ⟨hburst, hpeer⟩ := hstart v a hs hb hls
  obtain ⟨-, -, hat, hpls⟩ := answer_keeps p (setPort p (x.tookBurst rd line burst ls) d)
  rw [port_setPort] at hat hpls
  exact ⟨hat.trans hburst, hpls.trans hpeer⟩

/-- An ACK. -/
theorem turn_ack {start : Option (Nat × Option Answer)} {bad : Bool} {f : Frame} (hx : port d p = x) (hu : x.st = .up) (ho : x.out = some f)
    (hc : x.cut = false) (ha : start.bind Prod.snd = some ⟨none, f.src, x.alive⟩) :
    Answered p d x.acked (turnTaken p start bad (charsTaken p groups d)) := by
  obtain ⟨rd, line, burst, ls, hnote, -⟩ := turn_port groups start bad hx
  have hport : port (startNoted p start bad (charsTaken p groups d)) p = x.tookBurst rd line burst ls := by rw [hnote, port_setPort]
  have htake := takeAnswer_ack (p := p) (f := f) (d := startNoted p start bad (charsTaken p groups d)) (by rw [hport]; exact ho)
    (by rw [hport]; exact hc)
  rw [hport, show (x.tookBurst rd line burst ls).alive = x.alive from rfl, ← ha, nextAlive_eq, hport, hnote, setPort_setPort, ← hnote] at htake
  rw [turnTaken_up htake (by rw [port_setPort]; exact hu)]
  exact answered_answer (z := x.acked) (by rw [hx]; rfl) (by rw [hx]; rfl)

/-- A busy peer. -/
theorem turn_busy {start : Option (Nat × Option Answer)} {bad : Bool} {f : Frame} (hx : port d p = x) (hu : x.st = .up) (ho : x.out = some f)
    (hc : x.cut = false) (ha : start.bind Prod.snd = some ⟨some 1, f.src, x.alive⟩) :
    Answered p d { x with again := true } (turnTaken p start bad (charsTaken p groups d)) := by
  obtain ⟨rd, line, burst, ls, hnote, -⟩ := turn_port groups start bad hx
  have hport : port (startNoted p start bad (charsTaken p groups d)) p = x.tookBurst rd line burst ls := by rw [hnote, port_setPort]
  have htake := takeAnswer_busy (p := p) (f := f) (d := startNoted p start bad (charsTaken p groups d)) (by rw [hport]; exact ho)
    (by rw [hport]; exact hc)
  rw [hport, show (x.tookBurst rd line burst ls).alive = x.alive from rfl, ← ha, hnote, setPort_setPort, ← hnote] at htake
  rw [turnTaken_up htake (by rw [port_setPort]; exact hu)]
  exact answered_answer (z := { x with again := true }) (by rw [hx]) (by rw [hx])

/-- Any other answer, or none. -/
theorem turn_miss {start : Option (Nat × Option Answer)} {bad : Bool} {f : Frame} (hx : port d p = x) (ho : x.out = some f)
    (hc : x.cut = false) (hack : start.bind Prod.snd ≠ some ⟨none, f.src, x.alive⟩) (hbusy : start.bind Prod.snd ≠ some ⟨some 1, f.src, x.alive⟩) :
    ∃ rd line burst ls, takeAnswer p (start.bind Prod.snd) (startNoted p start bad (charsTaken p groups d)) =
      if x.retries < 3 then setPort p (x.retried.tookBurst rd line burst ls) (bump (cntOff p 1) 15 0 1 d)
      else dropFrame p f (setPort p (x.tookBurst rd line burst ls) d) := by
  obtain ⟨rd, line, burst, ls, hnote, -⟩ := turn_port groups start bad hx
  have hport : port (startNoted p start bad (charsTaken p groups d)) p = x.tookBurst rd line burst ls := by rw [hnote, port_setPort]
  have htake := takeAnswer_miss (p := p) (f := f) (d := startNoted p start bad (charsTaken p groups d)) (by rw [hport]; exact ho)
    (by rw [hport]; exact hc) (by rw [hport]; exact hack) (by rw [hport]; exact hbusy)
  refine ⟨rd, line, burst, ls, ?_⟩
  rw [htake, hport, hnote, setPort_setPort]
  cases p <;> rfl

theorem turn_retry {start : Option (Nat × Option Answer)} {bad : Bool} {f : Frame} (hx : port d p = x) (hu : x.st = .up) (ho : x.out = some f)
    (hc : x.cut = false) (hack : start.bind Prod.snd ≠ some ⟨none, f.src, x.alive⟩) (hbusy : start.bind Prod.snd ≠ some ⟨some 1, f.src, x.alive⟩)
    (hn : x.retries < 3) :
    Answered p d x.retried (turnTaken p start bad (charsTaken p groups d)) ∧
    regFld (turnTaken p start bad (charsTaken p groups d)) (cntOff p 1) 15 0 = satNat 65535 (regFld d (cntOff p 1) 15 0 + 1) := by
  obtain ⟨rd, line, burst, ls, htake⟩ := turn_miss (groups := groups) (bad := bad) hx ho hc hack hbusy
  rw [if_pos hn] at htake
  have hbump : port (bump (cntOff p 1) 15 0 1 d) p = x := by
    rw [← hx]
    cases p <;> rfl
  rw [turnTaken_up htake (by rw [port_setPort]; exact hu)]
  have hans := answered_answer (p := p) (a := bump (cntOff p 1) 15 0 1 d) (z := x.retried) (rd := rd) (line := line) (burst := burst) (ls := ls)
    (by rw [hbump]; rfl) (by rw [hbump]; rfl)
  refine ⟨⟨hans.alive, hans.retries, fun ht => ?_⟩, ?_⟩
  · obtain ⟨k, hlo, hhi, hsent⟩ := hans.sent (by rw [← ht]; cases p <;> rfl)
    refine ⟨k, hlo, hhi, ?_⟩
    cases p <;> exact hsent
  · rw [(frame_answer ..).regFld 15 0 (by simp), (frame_setPort ..).regFld 15 0 (by simp)]
    exact regFld_bump_sat (cntOff p 1) 15 0 1 d

/-- After three retries. -/
theorem turn_drop {start : Option (Nat × Option Answer)} {bad : Bool} {f : Frame} (hx : port d p = x) (hu : x.st = .up) (ho : x.out = some f)
    (hc : x.cut = false) (hack : start.bind Prod.snd ≠ some ⟨none, f.src, x.alive⟩) (hbusy : start.bind Prod.snd ≠ some ⟨some 1, f.src, x.alive⟩)
    (hn : 3 ≤ x.retries) :
    (port (turnTaken p start bad (charsTaken p groups d)) p).alive = (x.alive + 1) % 16 ∧
    (port (turnTaken p start bad (charsTaken p groups d)) p).retries = 0 ∧
    regFld (turnTaken p start bad (charsTaken p groups d)) (cntOff p 1) 31 16 = satNat 65535 (regFld d (cntOff p 1) 31 16 + 1) ∧
    level (turnTaken p start bad (charsTaken p groups d)) 31 (portIdx p) = satNat 255 (level d 31 (portIdx p) + 1) ∧
    (turnsLasting d 31 (portIdx p) = true → (port (turnTaken p start bad (charsTaken p groups d)) p).st = .training) := by
  obtain ⟨rd, line, burst, ls, htake⟩ := turn_miss (groups := groups) (bad := bad) hx ho hc hack hbusy
  rw [if_neg (by omega)] at htake
  have hset := frame_setPort p (x.tookBurst rd line burst ls) d
  obtain ⟨halive, hretries, hlevel, hdown⟩ := dropFrame_port (p := p) (f := f) (d := setPort p (x.tookBurst rd line burst ls) d)
    (by rw [port_setPort]; exact hu)
  have hreg := regFld_dropFrame p f (setPort p (x.tookBurst rd line burst ls) d)
  rw [port_setPort] at halive
  rw [hset.level _ _ (by cases p <;> decide)] at hlevel
  rw [hset.turnsLasting _ _ (by cases p <;> decide) (by simp)] at hdown
  rw [hset.regFld 31 16 (by simp)] at hreg
  unfold turnTaken
  dsimp only
  rw [htake]
  split
  · next hup =>
    obtain ⟨ha, hr, -, -⟩ := answer_keeps p (dropFrame p f (setPort p (x.tookBurst rd line burst ls) d))
    have hans := frame_answer p (dropFrame p f (setPort p (x.tookBurst rd line burst ls) d))
    refine ⟨ha.trans halive, hr.trans hretries, (hans.regFld 31 16 (by simp)).trans hreg,
      (hans.level _ _ (by cases p <;> decide)).trans hlevel, fun ht => absurd (hdown ht) ?_⟩
    intro hst
    simp [LinkPort.isUp, hst] at hup
  · exact ⟨halive, hretries, hreg, hlevel, hdown⟩

end

/-! ### The host port of the head as its tables go on (R288) -/

/-- Between host ports a and b only the commands' progress differs. -/
def CmdsOnly (a b : Hst) : Prop := b = { a with cmds := b.cmds }

theorem CmdsOnly.trans {a b c : Hst} (h : CmdsOnly a b) (k : CmdsOnly b c) : CmdsOnly a c := by
  rw [CmdsOnly] at h k ⊢
  rw [k, h]

theorem CmdsOnly.refl (a : Hst) : CmdsOnly a a := rfl

theorem cmdsOnly_setCmd (k : HeadCmd) (x : Hst) : CmdsOnly x (setCmd k x) := rfl

/-- A table goes on by what its command has sent. -/
theorem cmdsOnly_bulkNext (c : HeadCmd) (e : Nat × Nat) (b : Both) : CmdsOnly b.2 (bulkNext c e b).2 := by
  have hsend : ∀ p at0, (sendBulk p c at0 b).2 = b.2 := fun p at0 => by
    unfold sendBulk
    split <;> rfl
  unfold bulkNext
  split
  · exact .refl _
  · split
    · exact .refl _
    · dsimp only
      rw [hsend]
      split
      · exact cmdsOnly_setCmd ..
      · exact .refl _

theorem cmdsOnly_bulkFeed (b : Both) : CmdsOnly b.2 (bulkFeed b).2 := by
  unfold bulkFeed
  split
  · refine each_fst (P := fun e : Both => CmdsOnly b.2 e.2) _ (fun c e he => ?_) _ _ (.refl _)
    exact each_fst (P := fun e : Both => CmdsOnly b.2 e.2) _ (fun _ _ h => h.trans (cmdsOnly_bulkNext ..)) _ _ he
  · exact .refl _

/-! ### BURST_RX at an UP port -/

theorem exec_burstRx_eq {t : Time} {p : Port} {groups : List Nat} {s : State} {d : Dev} (hd : d = tick t s.dev) (hr : d.running = true) :
    exec (.burstRx t p groups) s = .next { s with
      dev := (settle (bulkFeed (burstRx p groups d, s.hst))).1
      hst := (settle (bulkFeed (burstRx p groups d, s.hst))).2 } := by
  subst hd
  change execBurstRx t p groups s = _
  rw [execBurstRx, actBoth_next _ _ _ (by simpa using hr)]

/-- What its end leaves of the host port. -/
theorem hst_burstRx {e : Dev} {x : Hst} (he : e.ex.done = []) : ∃ c, HostEvents { x with cmds := c } (settle (bulkFeed (e, x))).2 := by
  have hcmds := cmdsOnly_bulkFeed (e, x)
  have hhost := settle_host (bulkFeed (e, x)) (by rw [(frame_bulkFeed (e, x)).1 .ex (by decide), he])
  rw [hcmds] at hhost
  exact ⟨_, hhost⟩

theorem exec_burstRx_up {s : State} {t : Time} {p : Port} {groups : List Nat} {x : LinkPort} {l : List Sym} {ans : Option Answer} {d : Dev}
    (hd : d = tick t s.dev) (hr : d.running = true) (calm : Calm d) (hx : port d p = x) (hu : x.st = .up)
    (hl : l = (decodeGroups x.rxRd groups).1) (ha : ans = ((readHead l).orElse (fun _ => x.rxHead)).bind Prod.snd) :
    ∃ u, exec (.burstRx t p groups) s = .next u ∧
      regFld u.dev (cntOff p 0) 31 16 = satNat 65535 (regFld d (cntOff p 0) 31 16 + badCount l) ∧
      (badCount l = 0 → l.getLast? ≠ some (.ctl .turn) → (port u.dev p).ownTo = x.ownTo ∧ (port u.dev p).out = x.out ∧
        (port u.dev p).retries = x.retries) ∧
      (badCount l = 0 → l.getLast? = some (.ctl .turn) →
        (∀ ls a, (readHead l).orElse (fun _ => x.rxHead) = some (ls, a) → x.rxBad = false → lsFits d p ls = true → x.out = none →
          (port u.dev p).burstAt = d.now ∧ (port u.dev p).peerLs = ls) ∧
        (∀ f, x.out = some f → x.cut = false → ans ≠ some ⟨none, f.src, x.alive⟩ → ans ≠ some ⟨some 1, f.src, x.alive⟩ →
          3 ≤ x.retries → (port u.dev p).alive = (x.alive + 1) % 16 ∧ (port u.dev p).retries = 0 ∧
            regFld u.dev (cntOff p 1) 31 16 = satNat 65535 (regFld d (cntOff p 1) 31 16 + 1) ∧
            level u.dev 31 (portIdx p) = satNat 255 (level d 31 (portIdx p) + 1) ∧
            (lasting d 31 (portIdx p) = false → bucketN d 31 ≤ level d 31 (portIdx p) + 1 → (port u.dev p).st = .training)) ∧
        (x.out = none ∨ x.cut = true → Answered p d x u.dev) ∧
        (∀ f, x.out = some f → x.cut = false →
          (ans = some ⟨none, f.src, x.alive⟩ → Answered p d x.acked u.dev) ∧
          (ans = some ⟨some 1, f.src, x.alive⟩ → Answered p d { x with again := true } u.dev) ∧
          (ans ≠ some ⟨none, f.src, x.alive⟩ → ans ≠ some ⟨some 1, f.src, x.alive⟩ → x.retries < 3 →
            Answered p d x.retried u.dev ∧
            regFld u.dev (cntOff p 1) 15 0 = satNat 65535 (regFld d (cntOff p 1) 15 0 + 1)))) ∧
      ChangesOnly (portPart p :: .rg :: .ex :: .free :: evParts) (cntOff p 0 :: cntOff p 1 :: evRegs) d u.dev ∧
      u.hst = { s.hst with win := u.hst.win, eq := u.hst.eq, cmds := u.hst.cmds, devAt := u.hst.devAt, devWrote := u.hst.devWrote } := by
  obtain ⟨hframe, hdone⟩ := frame_burstRx_up (groups := groups) hx hu
  have hdone : (burstRx p groups d).ex.done = [] := hdone.trans calm.2
  obtain ⟨hpost, hlvl⟩ := burstRx_posted (x := s.hst) hdone
  have hstill := hpost.still p (by cases p <;> decide)
  refine ⟨_, exec_burstRx_eq hd hr, ?_, fun hb hm => ?_, fun hb hm => ?_, ?_, ?_⟩
  · rw [hpost.regFld 31 16 (by cases p <;> decide), regFld_burstRx hx hu hl]
  · rw [burstRx_mid hx hu hl hb hm] at hstill ⊢
    have hchars : port (charsTaken p groups d) p = _ := port_setPort ..
    rw [hchars, hx] at hstill
    exact ⟨(congrArg LinkPort.ownTo hstill :), (congrArg LinkPort.out hstill :), (congrArg LinkPort.retries hstill :)⟩
  · rw [burstRx_turn hx hu hl hb hm] at hstill hpost hlvl ⊢
    subst ha
    refine ⟨fun ls a hs hbad hls ho => ?_, fun f ho hc hack hbusy hn => ?_, fun hi => (turn_idle hx hu hi).1.of_still hstill,
      fun f ho hc => ⟨fun hack => (turn_ack hx hu ho hc hack).of_still hstill, fun hbusy => (turn_busy hx hu ho hc hbusy).of_still hstill,
        fun hack hbusy hn => ?_⟩⟩
    · obtain ⟨hat, hpeer⟩ := (turn_idle (groups := groups) hx hu (.inl ho)).2 ls a hs hbad hls
      exact ⟨(congrArg LinkPort.burstAt hstill :).trans hat, (congrArg LinkPort.peerLs hstill :).trans hpeer⟩
    · obtain ⟨halive, hretries, hreg, hlevel, hdown⟩ := turn_drop (groups := groups) (bad := x.rxBad) hx hu ho hc hack hbusy hn
      refine ⟨(congrArg LinkPort.alive hstill :).trans halive, (congrArg LinkPort.retries hstill :).trans hretries,
        (hpost.regFld 31 16 (by cases p <;> decide)).trans hreg, (level_congr hlvl ..).trans hlevel, fun hlast hreach => ?_⟩
      exact (congrArg LinkPort.st hstill :).trans (hdown (by simp [turnsLasting, hlast, hreach]))
    · obtain ⟨hans, hreg⟩ := turn_retry (groups := groups) (bad := x.rxBad) hx hu ho hc hack hbusy hn
      exact ⟨hans.of_still hstill, (hpost.regFld 15 0 (by cases p <;> decide)).trans hreg⟩
  · exact (hframe.mono (by simp) (by simp [evRegs])).trans (hpost.mono (by cases p <;> decide) (by simp))
  · obtain ⟨c, hc⟩ := hst_burstRx (x := s.hst) hdone
    dsimp only
    rw [HostEvents] at hc
    rw [hc]

/-- The bursts that answer have one start for all that the peer may have said. -/
theorem answered_at {p : Port} {d b : Dev} {x : LinkPort} {ans : Option Answer} (hx : port d p = x) (hidle : x.out = none ∨ x.cut = true → Answered p d x b)
    (hout : ∀ f, x.out = some f → x.cut = false →
      (ans = some ⟨none, f.src, x.alive⟩ → Answered p d x.acked b) ∧
      (ans = some ⟨some 1, f.src, x.alive⟩ → Answered p d { x with again := true } b) ∧
      (ans ≠ some ⟨none, f.src, x.alive⟩ → ans ≠ some ⟨some 1, f.src, x.alive⟩ → x.retries < 3 →
        Answered p d x.retried b ∧ regFld b (cntOff p 1) 15 0 = satNat 65535 (regFld d (cntOff p 1) 15 0 + 1))) (ht : toneOn d p = false) :
    ∃ (k : Nat) (start : Time), 20 ≤ k ∧ k ≤ 40 ∧ start = d.now + BitVec.ofNat 64 k ∧
      (x.out = none ∨ x.cut = true → BurstSent d p start (port b p) ∧ (port b p).alive = x.alive ∧ (port b p).retries = x.retries) ∧
      (∀ f, x.out = some f → x.cut = false →
        (ans = some ⟨none, f.src, x.alive⟩ →
          BurstSent (setPort p { x with out := none, retries := 0, again := false, alive := (x.alive + 1) % 16 } d) p start (port b p) ∧
          (port b p).alive = (x.alive + 1) % 16 ∧ (port b p).retries = 0) ∧
        (ans = some ⟨some 1, f.src, x.alive⟩ →
          BurstSent (setPort p { x with again := true } d) p start (port b p) ∧ (port b p).retries = x.retries) ∧
        (ans ≠ some ⟨none, f.src, x.alive⟩ → ans ≠ some ⟨some 1, f.src, x.alive⟩ → x.retries < 3 →
          BurstSent (setPort p { x with again := true } d) p start (port b p) ∧ (port b p).retries = x.retries + 1 ∧
          regFld b (cntOff p 1) 15 0 = satNat 65535 (regFld d (cntOff p 1) 15 0 + 1))) := by
  by_cases hi : x.out = none ∨ x.cut = true
  · have h := hidle hi
    obtain ⟨k, hlo, hhi, hsent⟩ := h.sent ht
    rw [← hx, setPort_port] at hsent
    refine ⟨k, _, hlo, hhi, rfl, fun _ => ⟨hsent, h.alive, h.retries⟩, fun f ho hc => ?_⟩
    rcases hi with hi | hi
    · exact absurd (ho.symm.trans hi) nofun
    · exact absurd (hc.symm.trans hi) nofun
  · obtain ⟨ho, hc⟩ := not_or.mp hi
    obtain ⟨f, hf⟩ := Option.ne_none_iff_exists'.mp ho
    obtain ⟨hack, hbusy, hmiss⟩ := hout f hf (by simpa using hc)
    have hsame : ∀ g, x.out = some g → g = f := fun g hg => Option.some.inj (hg.symm.trans hf)
    by_cases h1 : ans = some ⟨none, f.src, x.alive⟩
    · have h := hack h1
      obtain ⟨k, hlo, hhi, hsent⟩ := h.sent ht
      refine ⟨k, _, hlo, hhi, rfl, fun h => absurd h hi, fun g hg _ => ?_⟩
      rw [hsame g hg]
      exact ⟨fun _ => ⟨hsent, h.alive, h.retries⟩, fun h2 => absurd (h1.symm.trans h2) (by simp), fun hn => absurd h1 hn⟩
    · by_cases h2 : ans = some ⟨some 1, f.src, x.alive⟩
      · have h := hbusy h2
        obtain ⟨k, hlo, hhi, hsent⟩ := h.sent ht
        refine ⟨k, _, hlo, hhi, rfl, fun h => absurd h hi, fun g hg _ => ?_⟩
        rw [hsame g hg]
        exact ⟨fun h1' => absurd h1' h1, fun _ => ⟨hsent, h.retries⟩, fun _ hn => absurd h2 hn⟩
      · by_cases hn : x.retries < 3
        · obtain ⟨h, hreg⟩ := hmiss h1 h2 hn
          obtain ⟨k, hlo, hhi, hsent⟩ := h.sent ht
          refine ⟨k, _, hlo, hhi, rfl, fun h => absurd h hi, fun g hg _ => ?_⟩
          rw [hsame g hg]
          refine ⟨fun h1' => absurd h1' h1, fun h2' => absurd h2' h2, fun _ _ _ => ⟨?_, h.retries, hreg⟩⟩
          cases p <;> exact hsent
        · refine ⟨20, _, by decide, by decide, rfl, fun h => absurd h hi, fun g hg _ => ?_⟩
          rw [hsame g hg]
          exact ⟨fun h1' => absurd h1' h1, fun h2' => absurd h2' h2, fun _ _ hn' => absurd hn' hn⟩

end Sys2Proof.Machine
end

section
/-! PROOF. A line that carries nothing is taken back, and one that the tone has left is retaken (file 08, R224, R236, R242). -/

namespace Sys2Proof.Machine

theorem exec_lineReclaim_eq (t : Time) (s : State) : exec (.lineReclaim t) s = actAt t reclaimLine s := rfl

theorem exec_toneLineRetake_eq (t : Time) (p : Port) (s : State) : exec (.toneLineRetake t p) s = actAt t (lineRetake p) s := rfl

theorem reclaimLine_idle {d : Dev} (h : (d.ln.st ≠ .up ∧ training d.ln = false) ∨ toneOn d .north = true ∨ d.ln.quiet d.now = false) :
    reclaimLine d = d := by
  unfold reclaimLine
  rcases h with ⟨hu, ht⟩ | ht | hq
  · simp [LinkPort.isUp, hu, ht]
  · rw [sendBurst_tone ht, trainBurst_tone ht]
    simp only [ite_self]
  · simp [hq]

theorem reclaimLine_up {d : Dev} (hu : d.ln.st = .up) (hq : d.ln.quiet d.now = true) : reclaimLine d = sendBurst .north d.now d := by
  simp [reclaimLine, LinkPort.isUp, hu, hq]

theorem reclaimLine_training {d : Dev} (ht : training d.ln = true) (hq : d.ln.quiet d.now = true) : reclaimLine d = trainBurst .north d.now d := by
  obtain ⟨hst, -⟩ : d.ln.st = .training ∧ d.ln.wakeRx = false := by simpa [training] using ht
  simp [reclaimLine, LinkPort.isUp, hst, ht, hq]

/-- Has the tone left the line of a port 2.0 us ago? -/
def LinkPort.leftQuiet (now : Time) (x : LinkPort) : Bool :=
  match x.quietAt with
  | some q => passed (usT 2) q now
  | none => false

theorem lineRetake_idle {d : Dev} (h : d.ln.st ≠ .up ∨ toneOn d .north = true ∨ d.ln.leftQuiet d.now = false) : lineRetake .north d = d := by
  cases hquiet : d.ln.quietAt with
  | none => simp only [lineRetake, port, hquiet]
  | some q =>
    simp only [LinkPort.leftQuiet, hquiet] at h
    simp only [lineRetake, port, hquiet]
    refine if_neg ?_
    rcases h with h | h | h
    · simp [LinkPort.isUp, h]
    · simp [h]
    · simp [h]

/-- The north port once the line is its own again. -/
def retaken (d : Dev) : Dev := { d with ln := { d.ln with quietAt := none } }

theorem lineRetake_due {d : Dev} (hu : d.ln.st = .up) (ht : toneOn d .north = false) (hq : d.ln.leftQuiet d.now = true) :
    lineRetake .north d = sendBurst .north d.now (retaken d) := by
  obtain ⟨q, hsome⟩ : ∃ q, d.ln.quietAt = some q := by
    cases h : d.ln.quietAt with
    | none => simp [LinkPort.leftQuiet, h] at hq
    | some q => exact ⟨q, rfl⟩
  rw [LinkPort.leftQuiet, hsome] at hq
  simp only [lineRetake, port, hsome]
  exact if_pos (by simp [LinkPort.isUp, hu, ht, hq])

theorem frame_retaken (d : Dev) : ChangesOnly [.north] [] d (retaken d) := frame_setPort_queue (p := .north) rfl

/-- A command whose effect is the north port's burst. -/
theorem actAt_sendBurst {t : Time} {s : State} {d e : Dev} (f : Dev → Dev) (hd : d = tick t s.dev) (hr : d.running = true) (calm : Calm d)
    (hf : f d = sendBurst .north d.now e) (he : ChangesOnly [.north] [] d e) (hsent : BurstSent d .north d.now (sendBurst .north d.now e).ln) :
    ∃ u, actAt t f s = .next u ∧ BurstSent d .north d.now u.dev.ln ∧ ChangesOnly [.north, .queues, .ex] [] d u.dev ∧ u.hst = s.hst := by
  have hframe : ChangesOnly [.north, .queues, .ex] [] d (f d) := by
    rw [hf]
    exact he.mono.trans (frame_sendBurst .north ..)
  have hcalm : Calm (f d) := by
    refine ⟨by rw [hframe.1 .ev (by decide), calm.1], ?_⟩
    rw [hf, sendBurst_done, he.1 .ex (by decide), calm.2]
  exact ⟨_, actAt_calm f hd hr hcalm, by rwa [hf], hframe, rfl⟩

theorem exec_lineReclaim {s : State} {t : Time} {d : Dev} (hd : d = tick t s.dev) (hr : d.running = true) (calm : Calm d) :
    ((d.ln.st ≠ .up ∧ training d.ln = false) ∨ toneOn d .north = true ∨ d.ln.quiet d.now = false →
      exec (.lineReclaim t) s = .next { s with dev := d }) ∧
    (training d.ln = true → toneOn d .north = false → d.ln.quiet d.now = true →
      ∃ u, exec (.lineReclaim t) s = .next u ∧ TrainSent d .north d.now u.dev.ln ∧ ChangesOnly [.north] [] d u.dev ∧ u.hst = s.hst) ∧
    (d.ln.st = .up → toneOn d .north = false → d.ln.quiet d.now = true →
      ∃ u, exec (.lineReclaim t) s = .next u ∧ BurstSent d .north d.now u.dev.ln ∧ ChangesOnly [.north, .queues, .ex] [] d u.dev ∧
        u.hst = s.hst) := by
  rw [exec_lineReclaim_eq]
  refine ⟨fun h => actAt_idle reclaimLine hd hr calm (reclaimLine_idle h), fun ht htone hq => ?_, fun hu htone hq =>
    actAt_sendBurst reclaimLine hd hr calm (reclaimLine_up hu hq) (.refl ..) (burstSent_sendBurst htone)⟩
  have hframe : ChangesOnly [.north] [] d (trainBurst .north d.now d) := frame_trainBurst .north ..
  refine ⟨_, actAt_calm reclaimLine hd hr ?_, ?_, ?_, rfl⟩ <;> rw [reclaimLine_training ht hq]
  · exact hframe.calm calm
  · exact trainSent_trainBurst htone
  · exact hframe

theorem exec_toneLineRetake {s : State} {t : Time} {d : Dev} (hd : d = tick t s.dev) (hr : d.running = true) (calm : Calm d) :
    (d.ln.st ≠ .up ∨ toneOn d .north = true ∨ d.ln.leftQuiet d.now = false →
      exec (.toneLineRetake t .north) s = .next { s with dev := d }) ∧
    (d.ln.st = .up → toneOn d .north = false → d.ln.leftQuiet d.now = true →
      ∃ u, exec (.toneLineRetake t .north) s = .next u ∧ BurstSent d .north d.now u.dev.ln ∧ ChangesOnly [.north, .queues, .ex] [] d u.dev ∧
        u.hst = s.hst) := by
  rw [exec_toneLineRetake_eq]
  exact ⟨fun h => actAt_idle (lineRetake .north) hd hr calm (lineRetake_idle h), fun hu htone hq =>
    actAt_sendBurst (lineRetake .north) hd hr calm (lineRetake_due hu htone hq) (frame_retaken d)
      (burstSent_sendBurst (p := .north) (d := retaken d) htone)⟩

/-- Settles O39: BURST_RX by what the peer said, and the two commands that take the line. -/
theorem burstsAlternate : Obligations.BurstsAlternate := by
  unfold Obligations.BurstsAlternate
  refine ⟨fun s t p groups x l ans d hd hr calm hx hu hl ha => ?_, fun s t c due d hd hr calm h => ?_⟩
  · obtain ⟨u, hexec, hreg, hmid, hturn, hframe, hhst⟩ := exec_burstRx_up hd hr calm hx hu hl ha
    refine ⟨u, hexec, hreg, hmid, fun hb hm => ?_, hframe, hhst⟩
    obtain ⟨hstart, hdrop, hidle, hout⟩ := hturn hb hm
    exact ⟨hstart, hdrop, answered_at hx hidle hout⟩
  · rcases h with ⟨rfl, rfl⟩ | ⟨rfl, rfl⟩
    · obtain ⟨hidle, htrain, hup⟩ := exec_lineReclaim hd hr calm
      refine ⟨fun h => hidle (h.imp_left fun h => ⟨h.1, h.2.resolve_right fun hc => hc rfl⟩), fun ht _ => htrain ht, hup⟩
    · obtain ⟨hidle, hup⟩ := exec_toneLineRetake hd hr calm
      exact ⟨fun h => hidle (h.imp_left And.left), fun _ hc => Instr.noConfusion hc, hup⟩

end Sys2Proof.Machine
end

section
/-! SUPPORT. A frame that has come: its characters, its answer, its copy, and what consumes it (file 08, R222, R229 to R235; file 09, R246, R248). -/

namespace Sys2Proof.Machine

/-! ### Characters without a violation (R222, R226) -/

theorem badCount_eq_zero {l : List Sym} : badCount l = 0 ↔ Sym.bad ∉ l := by
  simp only [badCount, List.length_eq_zero_iff, List.filter_eq_nil_iff, decide_eq_true_eq]
  exact ⟨fun h hm => h _ hm rfl, fun h c hc e => h (e ▸ hc)⟩

/-- A violation inside a frame is one of its characters. -/
theorem bad_mem_of_splitFrame {l : List Sym} (h : none ∈ (splitFrame l).body) : Sym.bad ∈ l := by
  obtain ⟨c, hmem, hc⟩ := List.mem_filterMap.mp h
  have hbad : c = .bad := by cases c <;> simp_all [Sym.body]
  have hrest := (List.takeWhile_sublist _).mem hmem
  exact hbad ▸ (List.dropWhile_sublist _).mem (List.mem_of_mem_drop hrest)

/-- Without a violation every character of the body is a byte. -/
theorem splitFrame_clean {l : List Sym} (h : badCount l = 0) : (splitFrame l).body.all Option.isSome = true := by
  have hn : none ∉ (splitFrame l).body := fun hm => badCount_eq_zero.mp h (bad_mem_of_splitFrame hm)
  refine List.all_eq_true.mpr fun c hc => ?_
  cases c with
  | none => exact absurd hc hn
  | some b => rfl

theorem take_clean {body : List (Option Byte)} (h : body.all Option.isSome = true) (n : Nat) : (body.take n).all Option.isSome = true :=
  List.all_eq_true.mpr fun c hc => List.all_eq_true.mp h c (List.mem_of_mem_take hc)

theorem bytes_length {body : List (Option Byte)} (h : body.all Option.isSome = true) : (body.filterMap id).length = body.length := by
  induction body with
  | nil => rfl
  | cons c r ih =>
    obtain ⟨hc, hr⟩ : c.isSome = true ∧ r.all Option.isSome = true := by simpa using h
    obtain ⟨b, rfl⟩ := Option.isSome_iff_exists.mp hc
    simpa using ih hr

theorem headerOk_length {b : List Byte} (h : headerOk b = true) : 8 ≤ b.length := by
  simp only [headerOk, Bool.and_eq_true, decide_eq_true_eq] at h
  exact h.1.1.1

/-- The header of a frame of valid characters had come with the character after which all but seven were still to come. -/
theorem headerTime_clean {p : Port} {body : List (Option Byte)} {d : Dev} (hc : body.all Option.isSome = true)
    (hh : headerOk (body.filterMap id) = true) : headerTime p body d = headerAt d.now (port d p).rate (body.length - 7) := by
  have hlen := headerOk_length hh
  rw [bytes_length hc] at hlen
  rw [headerTime, show body.length - 8 + 1 = body.length - 7 by omega]

/-! ### The answer due (R232) -/

/-- A port with an answer due. -/
def LinkPort.answers (ans : Bool × Nat × Nat) (x : LinkPort) : LinkPort := { x with ackDue := some ans }

theorem setAnswer_ack (p : Port) (src alive : Nat) (d : Dev) :
    setAnswer p none src alive d = setPort p ((port d p).answers (true, src, alive + 16 * (15 - alive))) d := rfl

theorem setAnswer_nak (p : Port) (r src alive : Nat) (d : Dev) :
    setAnswer p (some r) src alive d = setPort p ((port d p).answers (false, src, alive + 16 * r)) d := rfl

/-! ### The copy of a frame that is not good (R231) -/

/-- Does the copy of a frame end with ABORT? -/
def copyAborts (p : Port) (th : Nat) (f : Frame) (d : Dev) : Bool :=
  !f.loc && !(decide (d.rg.pos ≤ 62) && (decide (f.dest = d.rg.pos) || decide (f.src = d.rg.pos))) &&
    (decide (f.typ ≠ 0x04) || triggerOn d p f) && cutThrough d p (otherPort p) th

theorem endCopy_eq (p : Port) (body : List (Option Byte)) (d : Dev) : endCopy p body d =
    if begun p body d && copyAborts p (headerTime p body d) (frameOf (body.filterMap id)) d then
      cutSend (otherPort p) (headerTime p body d) (frameOf (body.filterMap id)) true d
    else d := by
  unfold endCopy
  cases begun p body d <;> rfl

theorem frame_endCopy (p : Port) (body : List (Option Byte)) (d : Dev) :
    ChangesOnly [portPart (otherPort p), .free] [] d (endCopy p body d) := by
  rw [endCopy_eq]
  exact .ite (frame_cutSend ..) (.refl ..)

theorem port_endCopy (p : Port) (body : List (Option Byte)) (d : Dev) : port (endCopy p body d) p = port d p := by
  have h := port_cutSend_other (otherPort p) (headerTime p body d) (frameOf (body.filterMap id)) true d
  rw [otherPort_otherPort] at h
  rw [endCopy_eq]
  split
  · exact h
  · rfl

/-- A frame other than a BEACON departs as it is. -/
theorem departing_plain {f : Frame} (h : f.typ ≠ 0x07) (head : Bool) (at' : Nat) : departing head at' f = f := if_pos h

/-! ### What a frame's check finds (R229, R232 to R235) -/

/-- The source that a refusal names: that of a valid header. -/
def answerSrc (body : List (Option Byte)) : Nat :=
  if (body.take 8).all Option.isSome && headerOk (body.filterMap id) then ((body.filterMap id).getD 1 0).toNat % 64 else 0x3F

/-- ALIVE of a frame's bytes. -/
def frameAlive (body : List (Option Byte)) : Nat := ((body.filterMap id).getD 4 0).toNat % 16

/-- The device that refuses a frame in its next burst. -/
def refused (p : Port) (body : List (Option Byte)) (d : Dev) : Dev := setAnswer p (some 0) (answerSrc body) (frameAlive body) (endCopy p body d)

theorem port_refused (p : Port) (body : List (Option Byte)) (d : Dev) :
    port (refused p body d) p = (port d p).answers (false, answerSrc body, frameAlive body) := by
  rw [refused, setAnswer_nak, port_setPort, port_endCopy, Nat.mul_zero, Nat.add_zero]

theorem frame_refused (p : Port) (body : List (Option Byte)) (d : Dev) : ChangesOnly [.north, .south, .free] [] d (refused p body d) :=
  ((frame_endCopy ..).mono (by cases p <;> decide)).trans ((frame_setPort_queue (by rfl)).mono (by cases p <;> decide))

theorem answerSrc_clean {body : List (Option Byte)} (h : body.all Option.isSome = true) : answerSrc body =
    if headerOk (body.filterMap id) = true then ((body.filterMap id).getD 1 0).toNat % 64 else 0x3F := by
  rw [answerSrc, take_clean h, Bool.true_and]

/-- A port that has accepted a frame. -/
def LinkPort.accepts (src alive : Nat) (x : LinkPort) : LinkPort :=
  { x with ackDue := some (true, src, alive + 16 * (15 - alive)), lastAlive := some alive }

section
variable {take : Port → Frame → Dev → Dev} {p : Port} {fin : FrameEnd} {body : List (Option Byte)} {d : Dev}

theorem checkFrame_violated (h : body.all Option.isSome = false) : checkFrame take p fin body d = refused p body d := if_pos (by simp [h])

theorem frameCause_zero {b : List Byte} (h : frameCause b = 0) : headerOk b = true ∧ crcOk b = true := by
  unfold frameCause at h
  cases hh : headerOk b <;> cases hc : crcOk b <;> simp_all

/-- A frame whose header or CRC fails is refused, and its cause counts. -/
theorem checkFrame_bad (hc : body.all Option.isSome = true) (h : frameCause (body.filterMap id) ≠ 0) :
    checkFrame take p fin body d = linkError p (frameCause (body.filterMap id)) (refused p body d) := by
  unfold checkFrame
  dsimp only
  rw [if_neg (by simp [hc]), take_clean hc, Bool.true_and]
  unfold frameCause at h ⊢
  cases hh : headerOk (body.filterMap id)
  · rw [refused, answerSrc, take_clean hc, hh]
    rfl
  · cases hk : crcOk (body.filterMap id)
    · rw [refused, answerSrc, take_clean hc, hh]
      rfl
    · exact absurd (by rw [hh, hk]; rfl) h

/-- What a frame with a good header and CRC brings. -/
theorem checkFrame_sound (hc : body.all Option.isSome = true) (h : frameCause (body.filterMap id) = 0) :
    checkFrame take p fin body d =
      if fin ≠ .eof then refused p body d
      else if (port d p).lastAlive = some (frameAlive body) then
        bump (cntOff p 2) 31 16 1 (setAnswer p none (frameOf (body.filterMap id)).src (frameAlive body) d)
      else if 4 ≤ (port d p).rxBuf.length then setAnswer p (some 1) (frameOf (body.filterMap id)).src (frameAlive body) d
      else deliver take (headerTime p body d) p (frameOf (body.filterMap id))
        (setPort p ((port d p).accepts (frameOf (body.filterMap id)).src (frameAlive body)) d) := by
  obtain ⟨hh, hk⟩ := frameCause_zero h
  have hsrc : answerSrc body = (frameOf (body.filterMap id)).src := by
    rw [answerSrc_clean hc, if_pos hh]
    rfl
  have hacc : setPort p ((port d p).accepts (frameOf (body.filterMap id)).src (frameAlive body)) d =
      withPort p (fun x => { x with lastAlive := some (frameAlive body) })
        (setAnswer p none (frameOf (body.filterMap id)).src (frameAlive body) d) := by
    rw [withPort, setAnswer_ack, port_setPort, setPort_setPort]
    rfl
  rw [hacc, refused, ← hsrc, answerSrc, take_clean hc, hh]
  unfold checkFrame
  dsimp only
  rw [if_neg (by simp [hc]), take_clean hc, hh, if_neg (by decide), if_neg (by rw [hk]; decide)]
  simp only [decide_eq_true_eq]
  rfl

end

/-! ### What takes a frame (R229, R230, R246) -/

theorem frame_setPosRec (k : Nat) (r : PosRec) (d : Dev) : ChangesOnly [.rg] [] d (setPosRec k r d) :=
  frame_withRing (fun g => { g with recs := g.recs.map (fun e => if e.1 = k then (k, r) else e) }) d

theorem frame_sweepData (p : Port) (f : Frame) (d : Dev) : ChangesOnly sweepParts [R.ringCnt] d (sweepData p f d) := by
  unfold sweepData
  split
  · exact .refl ..
  · exact .ite (.refl ..) (((frame_withSweep ..).mono).trans (frame_sweepsDone ..))

/-- What the consumer of a frame may change. -/
def takeParts : List Part := .rg :: sweepParts

theorem frame_headRec (f : Frame) (d : Dev) :
    ChangesOnly takeParts [R.ringCnt] d (if f.src = 0 then d else setPosRec f.src { posRec d f.src with nib := f.stat } d) :=
  .ite (.refl ..) (frame_setPosRec ..).mono

theorem frame_takeFrame (p : Port) (f : Frame) (d : Dev) : ChangesOnly takeParts [R.ringCnt] d (takeFrame p f d) :=
  .ite (.ite ((frame_headRec f d).trans (frame_sweepData ..).mono) (frame_headRec f d)) (.refl ..)

/-- A port without its queue and its receive buffer. -/
def LinkPort.core (x : LinkPort) : LinkPort := { x with queue := [], rxBuf := [] }

theorem core_of_still {x y : LinkPort} (h : x.still = y.still) : x.core = y.core := (congrArg LinkPort.core h :)

theorem port_buffer {p : Port} {th : Nat} {f : Frame} {d : Dev} (h : unbuffered f = false) :
    port (buffer p th f d) p = { port d p with rxBuf := (port d p).rxBuf ++ [⟨f.typ, f.stat, BitVec.ofNat 64 th⟩] } := by
  rw [buffer, if_neg (by simp [h]), withPort, port_setPort]

theorem frame_buffer (p : Port) (th : Nat) (f : Frame) (d : Dev) : ChangesOnly [portPart p] [] d (buffer p th f d) :=
  .ite (.refl ..) (frame_setPort_queue (by rfl))

theorem core_buffer (p : Port) (th : Nat) (f : Frame) (d : Dev) : (port (buffer p th f d) p).core = (port d p).core := by
  cases h : unbuffered f
  · rw [port_buffer h]
    rfl
  · rw [buffer, if_pos h]

/-- What a frame at its end may change. -/
def deliverParts : List Part := .north :: .south :: .free :: takeParts

theorem consume_error {th : Nat} {p : Port} {f : Frame} {d : Dev} (h : payloadOk f = false) :
    consume takeFrame th p f d = bump R.linkDataErr 15 0 1 d := if_pos (by simp [h])

/-- The LINK_TEST that comes back. -/
def testBack (f : Frame) (d : Dev) : Frame := ⟨0, true, d.rg.pos % 63, 0x10, f.seq, statusNibble d, f.pay, false, 0⟩

theorem consume_test {th : Nat} {p : Port} {f : Frame} {d : Dev} (hk : payloadOk f = true) (ht : f.typ = 0x10) (hl : f.loc = true) :
    consume takeFrame th p f d = enqueue p (testBack f d) d := by
  rw [consume, if_neg (by simp [hk]), if_pos ht, if_pos hl]
  rfl

theorem consume_taken {th : Nat} {p : Port} {f : Frame} {d : Dev} (hk : payloadOk f = true) (ht : f.typ ≠ 0x10) :
    consume takeFrame th p f d = takeFrame p f (buffer p th f d) := by
  rw [consume, if_neg (by simp [hk]), if_neg ht]

theorem frame_consume (th : Nat) (p : Port) (f : Frame) (d : Dev) :
    ChangesOnly deliverParts [R.ringCnt, R.linkDataErr] d (consume takeFrame th p f d) :=
  .ite (frame_bump ..).mono (.ite (.ite (frame_enqueue ..).mono (.refl ..))
    (((frame_buffer ..).mono (by cases p <;> decide)).trans (frame_takeFrame ..).mono))

theorem core_consume (th : Nat) (p : Port) (f : Frame) (d : Dev) : (port (consume takeFrame th p f d) p).core = (port d p).core := by
  have hstill : ∀ {ps rs} {a b : Dev}, ChangesOnly ps rs a b → portPart p ∉ ps → (port b p).core = (port a p).core := fun h hp =>
    core_of_still (h.still p hp)
  unfold consume
  split
  · exact hstill (frame_bump ..) (by cases p <;> decide)
  · split
    · split
      · exact hstill (frame_enqueue ..) (by cases p <;> decide)
      · rfl
    · rw [hstill (frame_takeFrame ..) (by cases p <;> decide), core_buffer]

/-! ### Delivery (R246, R248, R264) -/

/-- A broadcast is consumed here as well. -/
def shared (th : Nat) (p : Port) (f : Frame) (d : Dev) : Dev :=
  if f.dest = 0x3F ∧ (decide (d.rg.pos ≤ 62) = true ∨ f.typ = 0x07 ∨ f.typ = 0x09) then consume takeFrame th p f d else d

/-- A frame that goes on from here, or ends. -/
def goOn (th : Nat) (p : Port) (f : Frame) (d : Dev) : Dev :=
  if f.dest = 0x3F ∧ selfForwarded f then d
  else if f.typ = 0x04 then (if triggerOn d p f then forward th p f d else d)
  else forward th p f d

theorem deliver_eq (th : Nat) (p : Port) (f : Frame) (d : Dev) : deliver takeFrame th p f d =
    if f.loc || (decide (d.rg.pos ≤ 62) && decide (f.dest = d.rg.pos)) then consume takeFrame th p f d
    else if decide (d.rg.pos ≤ 62) && decide (f.src = d.rg.pos) then d
    else goOn th p f (shared th p f d) := rfl

theorem frame_goOn (th : Nat) (p : Port) (f : Frame) (d : Dev) : ChangesOnly deliverParts [R.ringCnt, R.linkDataErr] d (goOn th p f d) := by
  have hfwd : ChangesOnly deliverParts [R.ringCnt, R.linkDataErr] d (forward th p f d) := (frame_forward ..).mono (by cases p <;> decide)
  exact .ite (.refl ..) (.ite (.ite hfwd (.refl ..)) hfwd)

theorem frame_deliver (th : Nat) (p : Port) (f : Frame) (d : Dev) :
    ChangesOnly deliverParts [R.ringCnt, R.linkDataErr] d (deliver takeFrame th p f d) := by
  rw [deliver_eq]
  exact .ite (frame_consume ..) (.ite (.refl ..) (ChangesOnly.trans (.ite (frame_consume ..) (.refl ..)) (frame_goOn ..)))

/-- What becomes of a frame leaves its port but for the queue and the receive buffer. -/
theorem core_deliver (th : Nat) (p : Port) (f : Frame) (d : Dev) : (port (deliver takeFrame th p f d) p).core = (port d p).core := by
  have hshared : (port (shared th p f d) p).core = (port d p).core := by
    unfold shared
    split
    · exact core_consume ..
    · rfl
  have hpass : ∀ e, (port (goOn th p f e) p).core = (port e p).core := fun e => by
    have hfwd := core_of_still (still_forward th p f e)
    unfold goOn
    split
    · rfl
    · split
      · split
        · exact hfwd
        · rfl
      · exact hfwd
  rw [deliver_eq]
  split
  · exact core_consume ..
  · split
    · rfl
    · rw [hpass, hshared]

/-- A frame for this position is consumed. -/
theorem deliver_here {th : Nat} {p : Port} {f : Frame} {d : Dev} (h : f.loc = true ∨ (d.rg.pos ≤ 62 ∧ f.dest = d.rg.pos)) :
    deliver takeFrame th p f d = consume takeFrame th p f d := by
  rw [deliver_eq]
  refine if_pos ?_
  rcases h with h | ⟨hp, hd⟩
  · simp [h]
  · simp [hp, hd]

/-- One for another position goes on. -/
theorem deliver_on {th : Nat} {p : Port} {f : Frame} {d : Dev} (hl : f.loc = false) (hd : f.dest ≠ d.rg.pos) (hs : f.src ≠ d.rg.pos)
    (hb : f.dest ≠ 0x3F) (h4 : f.typ ≠ 0x04) : deliver takeFrame th p f d = forward th p f d := by
  simp [deliver_eq, goOn, shared, hl, hd, hs, hb, h4]

end Sys2Proof.Machine
end

section
/-! PROOF. A frame that arrives is left, refused and counted, acknowledged, passed on or returned (file 08, R222, R229 to R235, R242; file 09, R246, R248). -/

namespace Sys2Proof.Machine

/-! ### The end of a command while the C-die runs -/

/-- From state s a command whose effect left device e has ended in state u. -/
structure Ends (s u : State) (e : Dev) : Prop where
  frame : ChangesOnly [.cyc, .ev, .ex] [R.hostEvtLost] e u.dev
  posted : e.ex.done = [] → PostsOnly e u.dev ∧ HostEvents s.hst u.hst
  quiet : Calm e → u.dev = e ∧ u.hst = s.hst

theorem actAt_ends {t : Time} {s : State} {d : Dev} (f : Dev → Dev) (hd : d = tick t s.dev) (hr : d.running = true) :
    ∃ u, actAt t f s = .next u ∧ Ends s u (f d) := by
  subst hd
  refine ⟨_, actAt_next t f s (by simpa using hr), frame_settle (f (tick t s.dev), s.hst), fun h =>
    ⟨posted_settle (b := (f (tick t s.dev), s.hst)) h, settle_host (f (tick t s.dev), s.hst) h⟩, fun calm => ?_⟩
  rw [settle_calm calm]
  exact ⟨rfl, rfl⟩

theorem Ends.still {s u : State} {e : Dev} (h : Ends s u e) (p : Port) : (port u.dev p).still = (port e p).still :=
  h.frame.still p (by cases p <;> decide)

/-! ### FRAME_RX by how the frame ended -/

/-- A port that has taken a frame's characters. -/
def LinkPort.tookFrame (rd : Bool) (line : Time) (head : Option (Nat × Option Answer)) (bad : Bool) (x : LinkPort) : LinkPort :=
  { x with rxRd := rd, lineAt := line, rxHead := head, rxBad := bad }

/-- What a frame does once its characters are taken and its violations counted. -/
def frameEnded (p : Port) (c : FrameChars) (d : Dev) : Dev :=
  if (port d p).isUp then
    match c.fin with
    | .tone => d
    | .abort => endCopy p c.body d
    | _ => checkFrame takeFrame p c.fin c.body d
  else d

theorem frameRx_eq {p : Port} {groups : List Nat} {x : LinkPort} {l : List Sym} {c : FrameChars} {d : Dev} (hx : port d p = x) (hu : x.st = .up)
    (hl : l = (decodeGroups x.rxRd groups).1) (hc : c = splitFrame l) (hs : Sym.ctl .sof ∈ l) :
    frameRx takeFrame p groups d = frameEnded p c (countBad p (if c.fin = .tone then c.head else l)
      (setPort p (x.tookFrame (decodeGroups x.rxRd groups).2 d.now ((readHead c.head).orElse (fun _ => x.rxHead))
        (x.rxBad || c.head.any (fun z => decide (z = .bad)))) d)) := by
  subst hx hl hc
  have hall : (decodeGroups (port d p).rxRd groups).1.all (fun s => decide (s = .bad)) = false := by
    rw [Bool.eq_false_iff]
    exact fun h => absurd (List.all_eq_true.mp h _ hs) (by decide)
  have hmem : decide (Sym.ctl .sof ∉ (decodeGroups (port d p).rxRd groups).1) = false := by simpa using hs
  have hend : ∀ (c : FrameChars) (e : Dev), frameEnded p c e = if (!(port e p).isUp) = true then e
      else match c.fin with
        | .tone => e
        | .abort => endCopy p c.body e
        | _ => checkFrame takeFrame p c.fin c.body e := fun c e => by
    unfold frameEnded
    cases (port e p).isUp <;> rfl
  unfold frameRx
  rw [if_pos (by simp [LinkPort.isUp, hu]), hend]
  dsimp only
  rw [hall, hmem, Bool.or_false]
  rfl

section
variable {p : Port} {c : FrameChars} {d : Dev}

theorem frameEnded_tone (h : c.fin = .tone) : frameEnded p c d = d := by
  rw [frameEnded, h]
  split <;> rfl

theorem frameEnded_abort (hu : (port d p).st = .up) (h : c.fin = .abort) : frameEnded p c d = endCopy p c.body d := by
  rw [frameEnded, if_pos (by simp [LinkPort.isUp, hu]), h]

theorem frameEnded_check (hu : (port d p).st = .up) (ha : c.fin ≠ .abort) (ht : c.fin ≠ .tone) :
    frameEnded p c d = checkFrame takeFrame p c.fin c.body d := by
  rw [frameEnded, if_pos (by simp [LinkPort.isUp, hu])]
  split
  · next h => exact absurd h ht
  · next h => exact absurd h ha
  · rfl

theorem frameEnded_down (hu : (port d p).st ≠ .up) : frameEnded p c d = d := if_neg (by simp [LinkPort.isUp, hu])

end

/-! ### Violations (R222) -/

theorem frameCause_cases (b : List Byte) : frameCause b = 0 ∨ frameCause b = 1 ∨ frameCause b = 2 := by
  unfold frameCause
  split
  · exact .inr (.inr rfl)
  · split
    · exact .inr (.inl rfl)
    · exact .inl rfl

/-- A header or CRC error leaves the count of violations. -/
theorem regFld_errCounted_code {cause : Nat} (p : Port) (d : Dev) (h : cause = 1 ∨ cause = 2) :
    regFld (errCounted p cause d) (cntOff p 0) 31 16 = regFld d (cntOff p 0) 31 16 := by
  rcases h with rfl | rfl
  · exact regFld_bump_high ..
  · exact (frame_bump (cntOff p 2) 15 0 1 d).regFld 31 16 (by cases p <;> decide)

theorem regFld_errCounted_crc {cause : Nat} (p : Port) (d : Dev) (h : cause = 1 ∨ cause = 2) :
    regFld (errCounted p cause d) (cntOff p 0) 15 0 = satNat 65535 (regFld d (cntOff p 0) 15 0 + if cause = 1 then 1 else 0) := by
  rcases h with rfl | rfl
  · exact regFld_bump_sat (cntOff p 0) 15 0 1 d
  · exact ((frame_bump (cntOff p 2) 15 0 1 d).regFld 15 0 (by cases p <;> decide)).trans (satNat_regFld_low d (cntOff p 0)).symm

theorem regFld_errCounted_header {cause : Nat} (p : Port) (d : Dev) (h : cause = 1 ∨ cause = 2) :
    regFld (errCounted p cause d) (cntOff p 2) 15 0 = satNat 65535 (regFld d (cntOff p 2) 15 0 + if cause = 2 then 1 else 0) := by
  rcases h with rfl | rfl
  · exact ((frame_bump (cntOff p 0) 15 0 1 d).regFld 15 0 (by cases p <;> decide)).trans (satNat_regFld_low d (cntOff p 2)).symm
  · exact regFld_bump_sat (cntOff p 2) 15 0 1 d

theorem frame_setAnswer (p : Port) (nak : Option Nat) (src alive : Nat) (d : Dev) : ChangesOnly [portPart p] [] d (setAnswer p nak src alive d) :=
  frame_setPort_queue (by rfl)

/-- What a frame's check leaves of the count of violations. -/
theorem regFld_checkFrame (p : Port) (fin : FrameEnd) (body : List (Option Byte)) (d : Dev) :
    regFld (checkFrame takeFrame p fin body d) (cntOff p 0) 31 16 = regFld d (cntOff p 0) 31 16 := by
  have hrefused : regFld (refused p body d) (cntOff p 0) 31 16 = regFld d (cntOff p 0) 31 16 := (frame_refused p body d).regFld 31 16 (by simp)
  cases hc : body.all Option.isSome
  · rw [checkFrame_violated hc, hrefused]
  · rcases frameCause_cases (body.filterMap id) with h | h
    · rw [checkFrame_sound hc h]
      split
      · exact hrefused
      · split
        · rw [(frame_bump ..).regFld 31 16 (by cases p <;> decide), (frame_setAnswer ..).regFld 31 16 (by simp)]
        · split
          · exact (frame_setAnswer ..).regFld 31 16 (by simp)
          · rw [(frame_deliver ..).regFld 31 16 (by cases p <;> decide), (frame_setPort ..).regFld 31 16 (by simp)]
    · rw [checkFrame_bad hc (by omega), regFld_linkError p p _ 0 31 16 _ (by decide), regFld_errCounted_code _ _ h, hrefused]

theorem regFld_frameEnded (p : Port) (c : FrameChars) (d : Dev) :
    regFld (frameEnded p c d) (cntOff p 0) 31 16 = regFld d (cntOff p 0) 31 16 := by
  unfold frameEnded
  split
  · split
    · rfl
    · exact (frame_endCopy ..).regFld 31 16 (by simp)
    · exact regFld_checkFrame ..
  · rfl

/-- A frame with a violation among its bytes is refused where the hop stays UP. -/
theorem frameEnded_violated {p : Port} {c : FrameChars} {d : Dev} (hb : none ∈ c.body) (ha : c.fin ≠ .abort) (ht : c.fin ≠ .tone)
    (hu : (port (frameEnded p c d) p).st = .up) :
    (port (frameEnded p c d) p).ackDue.map Prod.fst = some false ∧ (port (frameEnded p c d) p).lastAlive = (port d p).lastAlive := by
  have hdirty : c.body.all Option.isSome = false := by
    rw [Bool.eq_false_iff]
    exact fun h => absurd (List.all_eq_true.mp h none hb) (by decide)
  by_cases hup : (port d p).st = .up
  · rw [frameEnded_check hup ha ht, checkFrame_violated hdirty, port_refused]
    exact ⟨rfl, rfl⟩
  · rw [frameEnded_down hup] at hu
    exact absurd hu hup

/-! ### A frame that ended with ABORT (R231) -/

/-- The copy of a frame for another position, of a type that goes on in any case. -/
theorem copyAborts_of {p : Port} {th : Nat} {f : Frame} {d : Dev} (hl : f.loc = false) (hd : f.dest ≠ d.rg.pos) (hs : f.src ≠ d.rg.pos)
    (h4 : f.typ ≠ 0x04) (hc : cutThrough d p (otherPort p) th = true) : copyAborts p th f d = true := by
  simp [copyAborts, hl, hd, hs, h4, hc]

theorem cutThrough_setPort {p : Port} {z : LinkPort} {d : Dev} (h : z.rate = (port d p).rate) (th : Nat) :
    cutThrough (setPort p z d) p (otherPort p) th = cutThrough d p (otherPort p) th := by
  simp only [cutThrough, toneOn, port_setPort_other, port_setPort, setPort_tn, h]

section
variable {p q : Port} {body : List (Option Byte)} {x : LinkPort} {d : Dev} {rd bad : Bool} {line : Time} {head : Option (Nat × Option Answer)}

theorem begun_clean (hc : body.all Option.isSome = true) : begun p body (setPort p (x.tookFrame rd line head bad) d) =
    (headerOk (body.filterMap id) && decide (x.lastAlive ≠ some (frameAlive body))) := by
  rw [begun, port_setPort, take_clean hc, Bool.true_and]
  rfl

theorem headerTime_took (hc : body.all Option.isSome = true) (hh : headerOk (body.filterMap id) = true) :
    headerTime p body (setPort p (x.tookFrame rd line head bad) d) = headerAt d.now x.rate (body.length - 7) := by
  rw [headerTime_clean hc hh, port_setPort, setPort_now]
  rfl

/-- Its copy ends with ABORT where it had begun. -/
theorem endCopy_spec {go : Bool} (hx : port d p = x) (hc : body.all Option.isSome = true) (hq : q = otherPort p)
    (hgo : go = (headerOk (body.filterMap id) && decide (x.lastAlive ≠ some (frameAlive body)) &&
      cutThrough d p q (headerAt d.now x.rate (body.length - 7)))) :
    (go = false → port (endCopy p body (setPort p (x.tookFrame rd line head bad) d)) q = port d q) ∧
    (go = true → (frameOf (body.filterMap id)).loc = false → d.rg.pos ≤ 62 → (frameOf (body.filterMap id)).dest ≠ d.rg.pos →
      (frameOf (body.filterMap id)).src ≠ d.rg.pos → (frameOf (body.filterMap id)).typ ∉ [0x04, 0x07] →
      ∃ m, (port (endCopy p body (setPort p (x.tookFrame rd line head bad) d)) q).sent = some m ∧ m.aborted = true ∧
        (port (endCopy p body (setPort p (x.tookFrame rd line head bad) d)) q).out = none ∧
        m.frame = some (frameBytes q (port d q).alive (frameOf (body.filterMap id)))) := by
  subst hq
  have hcut : ∀ th, cutThrough (setPort p (x.tookFrame rd line head bad) d) p (otherPort p) th = cutThrough d p (otherPort p) th :=
    cutThrough_setPort (z := x.tookFrame rd line head bad) (by rw [hx]; rfl)
  rw [endCopy_eq, begun_clean hc]
  refine ⟨fun hn => ?_, fun hy hl _ hd hs ht => ?_⟩
  · rw [if_neg, port_setPort_other]
    intro h
    obtain ⟨hb, hk⟩ := Bool.and_eq_true_iff.mp h
    obtain ⟨hh, hlast⟩ := Bool.and_eq_true_iff.mp hb
    obtain ⟨-, hthrough⟩ := Bool.and_eq_true_iff.mp hk
    rw [headerTime_took hc hh, hcut] at hthrough
    rw [hh, hlast, hthrough] at hgo
    exact absurd (hn.symm.trans hgo) (by decide)
  · rw [hy] at hgo
    obtain ⟨hb, hthrough⟩ := Bool.and_eq_true_iff.mp hgo.symm
    obtain ⟨hh, -⟩ := Bool.and_eq_true_iff.mp hb
    obtain ⟨h4, h7⟩ : (frameOf (body.filterMap id)).typ ≠ 0x04 ∧ (frameOf (body.filterMap id)).typ ≠ 0x07 := by simpa using ht
    obtain ⟨m, hm, -⟩ := sent_of_cutThrough hthrough
    have haborts : copyAborts p (headerAt d.now x.rate (body.length - 7)) (frameOf (body.filterMap id))
        (setPort p (x.tookFrame rd line head bad) d) = true :=
      copyAborts_of hl (by rwa [setPort_rg]) (by rwa [setPort_rg]) h4 (by rw [hcut, hthrough])
    obtain ⟨k, -, z, hz, hsent, hout, -, -⟩ := cutSend_at (th := headerAt d.now x.rate (body.length - 7)) (f := frameOf (body.filterMap id))
      (aborted := true) (d := setPort p (x.tookFrame rd line head bad) d) (q := otherPort p) (by rw [port_setPort_other]; exact hm)
    rw [headerTime_took hc hh, hb, haborts, if_pos (by decide), hz, port_setPort]
    rw [departing_plain h7, port_setPort_other] at hsent
    exact ⟨_, hsent, rfl, hout, rfl⟩

/-! ### A frame whose header or CRC fails (R229, R237, R245) -/

theorem frame_took (p : Port) (x : LinkPort) (d : Dev) (hx : port d p = x) :
    ChangesOnly [portPart p] [] d (setPort p (x.tookFrame rd line head bad) d) := frame_setPort_queue (by rw [hx]; rfl)

theorem frame_refused_took (hx : port d p = x) :
    ChangesOnly [.north, .south, .free] [] d (refused p body (setPort p (x.tookFrame rd line head bad) d)) :=
  ((frame_took p x d hx).mono (by cases p <;> decide)).trans (frame_refused ..)

theorem bad_spec {cause : Nat} (hx : port d p = x) (hu : x.st = .up) (hc : body.all Option.isSome = true) (hk : cause = 1 ∨ cause = 2) (e : Dev)
    (he : e = linkError p cause (refused p body (setPort p (x.tookFrame rd line head bad) d))) :
    (lasting d 30 (portIdx p) = true ∨ level d 30 (portIdx p) + 1 < bucketN d 30 →
      (port e p).ackDue = some (false, if headerOk (body.filterMap id) = true then ((body.filterMap id).getD 1 0).toNat % 64 else 0x3F,
        frameAlive body)) ∧
    (lasting d 30 (portIdx p) = false → bucketN d 30 ≤ level d 30 (portIdx p) + 1 →
      (port e p).st = .training ∧ (port e p).trial = max (rateLimit d p) (min 2 (x.rate + 1))) ∧
    level e 30 (portIdx p) = satNat 255 (level d 30 (portIdx p) + 1) ∧
    regFld e (cntOff p 0) 15 0 = satNat 65535 (regFld d (cntOff p 0) 15 0 + if cause = 1 then 1 else 0) ∧
    regFld e (cntOff p 2) 15 0 = satNat 65535 (regFld d (cntOff p 2) 15 0 + if cause = 2 then 1 else 0) ∧
    ChangesOnly (.north :: .south :: .free :: .rg :: evParts) [cntOff p 0, cntOff p 2, R.ringCnt] d e := by
  have hrefused := frame_refused_took (body := body) (rd := rd) (bad := bad) (line := line) (head := head) hx
  have hport := port_refused p body (setPort p (x.tookFrame rd line head bad) d)
  have hturn := hrefused.turnsLasting 30 (portIdx p) (by decide) (by simp)
  have hreg : errReg p cause = cntOff p 0 ∨ errReg p cause = cntOff p 2 := by
    unfold errReg
    split
    · exact .inr rfl
    · exact .inl rfl
  rw [port_setPort] at hport
  subst he
  refine ⟨fun h => ?_, fun hl hn => ?_, ?_, ?_, ?_, ?_⟩
  · have hstill := still_linkError (cause := cause) (hturn.trans (by
      rcases h with h | h
      · simp [turnsLasting, h]
      · simp [turnsLasting, h]))
    rw [hport] at hstill
    rw [← answerSrc_clean hc]
    exact (congrArg LinkPort.ackDue hstill :)
  · have hstill := still_linkError_down (cause := cause) (hturn.trans (by simp [turnsLasting, hl, hn])) (by rw [hport]; exact hu)
    rw [hport, rateLimit_congr hrefused p (by simp)] at hstill
    exact ⟨(congrArg LinkPort.st hstill :), (congrArg LinkPort.trial hstill :)⟩
  · rw [level_linkError, hrefused.level]
  · rw [regFld_linkError p p cause 0 15 0 _ (by decide), regFld_errCounted_crc p _ hk, hrefused.regFld 15 0 (by simp)]
  · rw [regFld_linkError p p cause 2 15 0 _ (by decide), regFld_errCounted_header p _ hk, hrefused.regFld 15 0 (by simp)]
  · refine (hrefused.mono (by decide) (by simp)).trans ((frame_linkError ..).mono (by cases p <;> decide) ?_)
    rcases hreg with h | h <;> simp [h]

/-! ### A frame that is accepted (R230 to R234, R246, R248) -/

/-- The port that has accepted a frame, its characters taken. -/
theorem frame_accepted {src al : Nat} (hx : port d p = x) :
    ChangesOnly [portPart p] [] d (setPort p ((x.tookFrame rd line head bad).accepts src al) d) := frame_setPort_queue (by rw [hx]; rfl)

/-- One for another position goes on by the other port. -/
theorem forward_spec {f : Frame} {th src al : Nat} (hx : port d p = x) (hl : f.loc = false) (hd : f.dest ≠ d.rg.pos) (hs : f.src ≠ d.rg.pos)
    (hb : f.dest ≠ 0x3F) (ht : f.typ ∉ [0x03, 0x04, 0x07, 0x09, 0x0A]) (e : Dev)
    (he : e = deliver takeFrame th p f (setPort p ((x.tookFrame rd line head bad).accepts src al) d)) :
    (cutThrough d p (otherPort p) th = true → (port e (otherPort p)).out = some f ∧
      ((port e (otherPort p)).sent.bind Burst.frame) = some (frameBytes (otherPort p) (port d (otherPort p)).alive f) ∧
      ChangesOnly [portPart p, portPart (otherPort p), .free] [] d e) ∧
    (cutThrough d p (otherPort p) th = false → Queued d e (otherPort p) f ∧ ChangesOnly [portPart p, .queues, .cyc] [R.ringCnt] d e) := by
  have h3 : f.typ ≠ 0x03 := by rintro h; simp [h] at ht
  have h4 : f.typ ≠ 0x04 := by rintro h; simp [h] at ht
  have h7 : f.typ ≠ 0x07 := by rintro h; simp [h] at ht
  have hframe := frame_accepted (rd := rd) (bad := bad) (line := line) (head := head) (src := src) (al := al) hx
  have hother : port (setPort p ((x.tookFrame rd line head bad).accepts src al) d) (otherPort p) = port d (otherPort p) := port_setPort_other ..
  rw [deliver_on hl (by rwa [setPort_rg]) (by rwa [setPort_rg]) hb h4, forward_eq h3,
    cutThrough_setPort (z := (x.tookFrame rd line head bad).accepts src al) (by rw [hx]; rfl)] at he
  refine ⟨fun hc => ?_, fun hc => ?_⟩
  · obtain ⟨m, hm, -⟩ := sent_of_cutThrough hc
    obtain ⟨k, -, z, hz, hsent, hout, hqueue, -⟩ := cutSend_at (th := th) (f := f) (aborted := false)
      (d := setPort p ((x.tookFrame rd line head bad).accepts src al) d) (by rw [hother]; exact hm)
    have hcopy := frame_cutSend (otherPort p) th f false (setPort p ((x.tookFrame rd line head bad).accepts src al) d)
    rw [if_pos hc] at he
    rw [he]
    refine ⟨?_, ?_, (hframe.mono (by cases p <;> decide)).trans (hcopy.mono (by cases p <;> decide))⟩
    · rw [hz, port_setPort, hout]
      rfl
    · rw [hz, port_setPort, hsent, departing_plain h7, hother]
      rfl
  · rw [if_neg (by simp [hc])] at he
    have hqueued := queued_enqueue (otherPort p) f (setPort p ((x.tookFrame rd line head bad).accepts src al) d)
    rw [Queued, hother, hframe.regFld 15 0 (by simp)] at hqueued
    rw [he]
    exact ⟨hqueued, (hframe.mono (by cases p <;> decide)).trans ((frame_enqueue ..).mono (by cases p <;> decide))⟩

/-- One for this position waits in the receive buffer, is a data error, or comes back. -/
theorem consumed_spec {f : Frame} {th src al : Nat} (hx : port d p = x) (h : f.loc = true ∨ (d.rg.pos ≤ 62 ∧ f.dest = d.rg.pos)) (e : Dev)
    (he : e = deliver takeFrame th p f (setPort p ((x.tookFrame rd line head bad).accepts src al) d)) :
    (payloadOk f = true → f.typ ∉ [0x01, 0x05, 0x10] → (port e p).rxBuf = x.rxBuf ++ [⟨f.typ, f.stat, BitVec.ofNat 64 th⟩]) ∧
    (payloadOk f = false → regFld e R.linkDataErr 15 0 = satNat 65535 (regFld d R.linkDataErr 15 0 + 1) ∧
      ChangesOnly [portPart p, .cyc] [R.linkDataErr] d e) ∧
    (f.loc = true → f.typ = 0x10 → x.queue.length < 32 → ∃ g, (port e p).queue = x.queue ++ [g] ∧ g.typ = 0x10 ∧ g.loc = true ∧
      g.pay = f.pay ∧ ChangesOnly [portPart p, .queues] [] d e) := by
  have hframe := frame_accepted (rd := rd) (bad := bad) (line := line) (head := head) (src := src) (al := al) hx
  rw [deliver_here (by rwa [setPort_rg])] at he
  refine ⟨fun hk ht => ?_, fun hk => ?_, fun hl ht hlen => ?_⟩
  · obtain ⟨h1, h5, h10⟩ : f.typ ≠ 0x01 ∧ f.typ ≠ 0x05 ∧ f.typ ≠ 0x10 := by simpa using ht
    have hbuf := port_buffer (p := p) (th := th) (f := f) (d := setPort p ((x.tookFrame rd line head bad).accepts src al) d)
      (by simp [unbuffered, h1, h5])
    have hstill := (frame_takeFrame p f (buffer p th f (setPort p ((x.tookFrame rd line head bad).accepts src al) d))).still p
      (by cases p <;> decide)
    rw [hbuf, port_setPort] at hstill
    rw [he, consume_taken hk h10]
    exact (congrArg LinkPort.rxBuf hstill :)
  · rw [consume_error hk] at he
    rw [he]
    refine ⟨?_, (hframe.mono (by cases p <;> decide)).trans ((frame_bump ..).mono (by cases p <;> decide))⟩
    rw [← hframe.regFld 15 0 (by simp)]
    exact regFld_bump_sat R.linkDataErr 15 0 1 _
  · have hk : payloadOk f = true := by simp [payloadOk, lenOk, reservedOk, ht]
    rw [consume_test hk ht hl, enqueue, port_setPort, if_pos (by exact hlen)] at he
    rw [he, port_setPort]
    exact ⟨_, rfl, rfl, rfl, rfl, (hframe.mono (by cases p <;> decide)).trans ((frame_setPort ..).mono (by cases p <;> decide))⟩

end

/-! ### FRAME_RX -/

section
variable {s u : State} {p : Port} {x y : LinkPort} {c : FrameChars} {b : List Byte} {al : Nat} {d : Dev} {rd bad : Bool} {line : Time}
  {head : Option (Nat × Option Answer)}

/-- A frame that ended with ABORT, without a violation. -/
theorem ends_abort (hx : port d p = x) (hy : y = x.tookFrame rd line head bad) (calm : Calm d) (hc : c.body.all Option.isSome = true)
    (hb : b = c.body.filterMap id) (hal : al = frameAlive c.body) (h : Ends s u (endCopy p c.body (setPort p y d))) :
    port u.dev p = y ∧ ChangesOnly [portPart p, portPart (otherPort p), .free] [] d u.dev ∧ u.hst = s.hst ∧
      ∀ (q : Port) (go : Bool), q = otherPort p →
        go = (headerOk b && decide (x.lastAlive ≠ some al) && cutThrough d p q (headerAt d.now x.rate (c.body.length - 7))) →
        (go = false → port u.dev q = port d q) ∧
        (go = true → (frameOf b).loc = false → d.rg.pos ≤ 62 → (frameOf b).dest ≠ d.rg.pos → (frameOf b).src ≠ d.rg.pos →
          (frameOf b).typ ∉ [0x04, 0x07] → ∃ m, (port u.dev q).sent = some m ∧ m.aborted = true ∧ (port u.dev q).out = none ∧
            m.frame = some (frameBytes q (port d q).alive (frameOf b))) := by
  subst hy hb hal
  have hframe : ChangesOnly [portPart p, portPart (otherPort p), .free] [] d (endCopy p c.body (setPort p (x.tookFrame rd line head bad) d)) :=
    ((frame_took p x d hx).mono (by cases p <;> decide)).trans ((frame_endCopy ..).mono (by cases p <;> decide))
  obtain ⟨hdev, hhst⟩ := h.quiet (hframe.calm calm (by cases p <;> decide) (by cases p <;> decide))
  rw [hdev]
  exact ⟨by rw [port_endCopy, port_setPort], hframe, hhst, fun q go hq hgo => endCopy_spec hx hc hq hgo⟩

/-- One whose header or CRC fails. -/
theorem ends_bad (hx : port d p = x) (hu : x.st = .up) (hy : y = x.tookFrame rd line head bad) (calm : Calm d)
    (hc : c.body.all Option.isSome = true) (hb : b = c.body.filterMap id) (hal : al = frameAlive c.body) (hk : frameCause b ≠ 0)
    (h : Ends s u (checkFrame takeFrame p c.fin c.body (setPort p y d))) :
    (lasting d 30 (portIdx p) = true ∨ level d 30 (portIdx p) + 1 < bucketN d 30 →
      (port u.dev p).ackDue = some (false, if headerOk b = true then (b.getD 1 0).toNat % 64 else 0x3F, al)) ∧
    (lasting d 30 (portIdx p) = false → bucketN d 30 ≤ level d 30 (portIdx p) + 1 →
      (port u.dev p).st = .training ∧ (port u.dev p).trial = max (rateLimit d p) (min 2 (x.rate + 1))) ∧
    level u.dev 30 (portIdx p) = satNat 255 (level d 30 (portIdx p) + 1) ∧
    regFld u.dev (cntOff p 0) 15 0 = satNat 65535 (regFld d (cntOff p 0) 15 0 + if frameCause b = 1 then 1 else 0) ∧
    regFld u.dev (cntOff p 2) 15 0 = satNat 65535 (regFld d (cntOff p 2) 15 0 + if frameCause b = 2 then 1 else 0) ∧
    ChangesOnly (.north :: .south :: .free :: .rg :: evParts) (cntOff p 0 :: cntOff p 2 :: evRegs) d u.dev ∧
    HostEvents s.hst u.hst := by
  subst hy hb hal
  rw [checkFrame_bad hc hk] at h
  obtain ⟨hack, hdown, hlevel, hcrc, hheader, hframe⟩ := bad_spec hx hu hc ((frameCause_cases _).resolve_left hk) _ rfl
  obtain ⟨hpost, hhost⟩ := h.posted (by rw [hframe.1 .ex (by decide), calm.2])
  have hstill := h.still p
  refine ⟨fun hl => (congrArg LinkPort.ackDue hstill :).trans (hack hl), fun hl hn => ?_, (hpost.level ..).trans hlevel,
    (hpost.frame.regFld 15 0 (by cases p <;> decide)).trans hcrc, (hpost.frame.regFld 15 0 (by cases p <;> decide)).trans hheader,
    (hframe.mono (by decide) (by simp [evRegs])).trans (hpost.frame.mono (by decide) (by simp)), hhost⟩
  obtain ⟨hst, htrial⟩ := hdown hl hn
  exact ⟨(congrArg LinkPort.st hstill :).trans hst, (congrArg LinkPort.trial hstill :).trans htrial⟩

/-- A sound one that broke off. -/
theorem ends_broken (hx : port d p = x) (hy : y = x.tookFrame rd line head bad) (calm : Calm d)
    (hc : c.body.all Option.isSome = true) (hb : b = c.body.filterMap id) (hal : al = frameAlive c.body) (hk : frameCause b = 0)
    (hf : c.fin = .other) (h : Ends s u (checkFrame takeFrame p c.fin c.body (setPort p y d))) :
    (port u.dev p).ackDue = some (false, (b.getD 1 0).toNat % 64, al) ∧ (port u.dev p).lastAlive = x.lastAlive ∧ u.hst = s.hst := by
  subst hy hb hal
  obtain ⟨hh, -⟩ := frameCause_zero hk
  rw [checkFrame_sound hc hk, if_pos (by simp [hf])] at h
  obtain ⟨hdev, hhst⟩ := h.quiet ((frame_refused_took hx).calm calm)
  rw [hdev, port_refused, port_setPort, answerSrc_clean hc, if_pos hh]
  exact ⟨rfl, rfl, hhst⟩

/-- A repeated ALIVE. -/
theorem ends_again (hx : port d p = x) (hy : y = x.tookFrame rd line head bad) (calm : Calm d)
    (hc : c.body.all Option.isSome = true) (hb : b = c.body.filterMap id) (hal : al = frameAlive c.body) (hk : frameCause b = 0)
    (hf : c.fin = .eof) (ha : x.lastAlive = some al) (h : Ends s u (checkFrame takeFrame p c.fin c.body (setPort p y d))) :
    port u.dev p = { y with ackDue := some (true, (frameOf b).src, al + 16 * (15 - al)) } ∧
    regFld u.dev (cntOff p 2) 31 16 = satNat 65535 (regFld d (cntOff p 2) 31 16 + 1) ∧
    ChangesOnly [portPart p, .cyc] [cntOff p 2] d u.dev ∧ u.hst = s.hst := by
  subst hy hb hal
  rw [checkFrame_sound hc hk, if_neg (by simp [hf]), port_setPort, if_pos (by exact ha), setAnswer_ack, port_setPort, setPort_setPort] at h
  have hset : ChangesOnly [portPart p] [] d (setPort p ((x.tookFrame rd line head bad).answers
      (true, (frameOf (c.body.filterMap id)).src, frameAlive c.body + 16 * (15 - frameAlive c.body))) d) :=
    frame_setPort_queue (by rw [hx]; rfl)
  have hframe := (hset.mono (qs := [portPart p, .cyc]) (us := [cntOff p 2]) (by simp) (by simp)).trans
    ((frame_bump (cntOff p 2) 31 16 1 _).mono (by simp) (by simp))
  obtain ⟨hdev, hhst⟩ := h.quiet (hframe.calm calm (by cases p <;> decide) (by cases p <;> decide))
  rw [hdev]
  refine ⟨?_, ?_, hframe, hhst⟩
  · cases p <;> rfl
  · rw [← hset.regFld 31 16 (by simp)]
    exact regFld_bump_sat (cntOff p 2) 31 16 1 _

/-- A good one that finds the receive buffer full. -/
theorem ends_busy (hx : port d p = x) (hy : y = x.tookFrame rd line head bad) (calm : Calm d)
    (hc : c.body.all Option.isSome = true) (hb : b = c.body.filterMap id) (hal : al = frameAlive c.body) (hk : frameCause b = 0)
    (hf : c.fin = .eof) (ha : x.lastAlive ≠ some al) (hn : 4 ≤ x.rxBuf.length)
    (h : Ends s u (checkFrame takeFrame p c.fin c.body (setPort p y d))) :
    port u.dev p = { y with ackDue := some (false, (frameOf b).src, al + 16) } ∧ ChangesOnly [portPart p] [] d u.dev ∧ u.hst = s.hst := by
  subst hy hb hal
  rw [checkFrame_sound hc hk, if_neg (by simp [hf]), port_setPort, if_neg (by exact ha), if_pos (by exact hn), setAnswer_nak, port_setPort,
    setPort_setPort] at h
  have hframe : ChangesOnly [portPart p] [] d (setPort p ((x.tookFrame rd line head bad).answers
      (false, (frameOf (c.body.filterMap id)).src, frameAlive c.body + 16 * 1)) d) := frame_setPort_queue (by rw [hx]; rfl)
  obtain ⟨hdev, hhst⟩ := h.quiet (hframe.calm calm (by cases p <;> decide) (by cases p <;> decide))
  rw [hdev]
  exact ⟨by rw [port_setPort]; rfl, hframe, hhst⟩

/-- A good one that is accepted is acknowledged, and passed on, kept, counted or returned. -/
theorem ends_good (hx : port d p = x) (hy : y = x.tookFrame rd line head bad) (calm : Calm d)
    (hc : c.body.all Option.isSome = true) (hb : b = c.body.filterMap id) (hal : al = frameAlive c.body) (hk : frameCause b = 0)
    (hf : c.fin = .eof) (ha : x.lastAlive ≠ some al) (hn : x.rxBuf.length < 4)
    (h : Ends s u (checkFrame takeFrame p c.fin c.body (setPort p y d))) :
    (port u.dev p).ackDue = some (true, (frameOf b).src, al + 16 * (15 - al)) ∧ (port u.dev p).lastAlive = some al ∧
    (∀ (q : Port) (th : Nat), q = otherPort p → th = headerAt d.now x.rate (c.body.length - 7) →
      (frameOf b).loc = false → d.rg.pos ≤ 62 → (frameOf b).dest ≠ d.rg.pos → (frameOf b).src ≠ d.rg.pos →
      (frameOf b).dest ≠ 0x3F → (frameOf b).typ ∉ [0x03, 0x04, 0x07, 0x09, 0x0A] →
      (cutThrough d p q th = true → (port u.dev q).out = some (frameOf b) ∧
        ((port u.dev q).sent.bind Burst.frame) = some (frameBytes q (port d q).alive (frameOf b)) ∧
        ChangesOnly [portPart p, portPart q, .free] [] d u.dev) ∧
      (cutThrough d p q th = false →
        ((port d q).queue.length < 32 → (port u.dev q).queue = (port d q).queue ++ [frameOf b]) ∧
        (32 ≤ (port d q).queue.length → regFld u.dev R.ringCnt 15 0 = satNat 65535 (regFld d R.ringCnt 15 0 + 1)) ∧
        ChangesOnly [portPart p, .queues, .cyc] [R.ringCnt] d u.dev)) ∧
    ((frameOf b).loc = true ∨ (d.rg.pos ≤ 62 ∧ (frameOf b).dest = d.rg.pos) →
      (payloadOk (frameOf b) = true → (frameOf b).typ ∉ [0x01, 0x05, 0x10] → (port u.dev p).rxBuf = x.rxBuf ++
        [⟨(frameOf b).typ, (frameOf b).stat, BitVec.ofNat 64 (headerAt d.now x.rate (c.body.length - 7))⟩]) ∧
      (payloadOk (frameOf b) = false → regFld u.dev R.linkDataErr 15 0 = satNat 65535 (regFld d R.linkDataErr 15 0 + 1) ∧
        ChangesOnly [portPart p, .cyc] [R.linkDataErr] d u.dev) ∧
      ((frameOf b).loc = true → (frameOf b).typ = 0x10 → x.queue.length < 32 → ∃ g, (port u.dev p).queue = x.queue ++ [g] ∧ g.typ = 0x10 ∧
        g.loc = true ∧ g.pay = (frameOf b).pay ∧ ChangesOnly [portPart p, .queues] [] d u.dev)) := by
  subst hy hb hal
  obtain ⟨hh, -⟩ := frameCause_zero hk
  have htime : headerTime p c.body (setPort p (x.tookFrame rd line head bad) d) = headerAt d.now x.rate (c.body.length - 7) :=
    headerTime_took hc hh
  rw [checkFrame_sound hc hk, if_neg (by simp [hf]), port_setPort, if_neg (by exact ha), if_neg (by exact Nat.not_le.mpr hn),
    htime, setPort_setPort] at h
  have hcore := core_of_still (h.still p)
  rw [core_deliver, port_setPort] at hcore
  refine ⟨(congrArg LinkPort.ackDue hcore :), (congrArg LinkPort.lastAlive hcore :), fun q th hq hth hl _ hd hsrc hbc ht => ?_, fun hhere => ?_⟩
  · subst hq hth
    obtain ⟨hcut, hqueue⟩ := forward_spec (th := headerAt d.now x.rate (c.body.length - 7)) hx hl hd hsrc hbc ht _ rfl
    refine ⟨fun hthrough => ?_, fun hthrough => ?_⟩
    · obtain ⟨hout, hsent, hframe⟩ := hcut hthrough
      rw [(h.quiet (hframe.calm calm (by cases p <;> decide) (by cases p <;> decide))).1]
      exact ⟨hout, hsent, hframe⟩
    · obtain ⟨⟨hroom, hfull⟩, hframe⟩ := hqueue hthrough
      rw [(h.quiet (hframe.calm calm (by cases p <;> decide) (by cases p <;> decide))).1]
      exact ⟨hroom, fun hlen => (hfull hlen).2, hframe⟩
  · obtain ⟨hkept, herr, hback⟩ := consumed_spec (th := headerAt d.now x.rate (c.body.length - 7)) hx hhere _ rfl
    refine ⟨fun hpay ht => (congrArg LinkPort.rxBuf (h.still p) :).trans (hkept hpay ht), fun hpay => ?_, fun hl ht hlen => ?_⟩
    · obtain ⟨hreg, hframe⟩ := herr hpay
      rw [(h.quiet (hframe.calm calm (by cases p <;> decide) (by cases p <;> decide))).1]
      exact ⟨hreg, hframe⟩
    · obtain ⟨g, hqueue, htyp, hloc, hpay, hframe⟩ := hback hl ht hlen
      rw [(h.quiet (hframe.calm calm (by cases p <;> decide) (by cases p <;> decide))).1]
      exact ⟨g, hqueue, htyp, hloc, hpay, hframe⟩

end

/-- Settles O40: FRAME_RX by how the frame ended and by what its check found. -/
theorem framesTaken : Obligations.FramesTaken := by
  unfold Obligations.FramesTaken
  intro s t p groups x y l c b al d hd hr calm hx hu hl hc hs hb hal hy
  obtain ⟨rd, head, bad, hy, heff⟩ : ∃ rd head bad, y = x.tookFrame rd d.now head bad ∧
      frameRx takeFrame p groups d = frameEnded p c (countBad p (if c.fin = .tone then c.head else l) (setPort p y d)) :=
    ⟨_, _, _, hy, hy ▸ frameRx_eq hx hu hl hc hs⟩
  have hset : ChangesOnly [portPart p] [] d (setPort p y d) := by
    rw [hy]
    exact frame_took p x d hx
  have hup : (port (setPort p y d) p).st = .up := by rw [port_setPort, hy]; exact hu
  obtain ⟨u, hexec, h⟩ := actAt_ends (s := s) (frameRx takeFrame p groups) hd hr
  rw [heff] at h
  have hal' : al = frameAlive c.body := by rw [hal, hb]; rfl
  refine ⟨u, hexec, ?_, fun _ hbody hst hna hnt => ?_, fun htone hhead => ?_, fun hgood => ?_⟩
  · rw [h.frame.regFld 31 16 (by cases p <;> decide), regFld_frameEnded, regFld_countBad, hset.regFld 31 16 (by simp)]
  · have hstill := h.still p
    obtain ⟨hack, hlast⟩ := frameEnded_violated hbody hna hnt ((congrArg LinkPort.st hstill :).symm.trans hst)
    rw [lastAlive_countBad, port_setPort] at hlast
    have hsame : y.lastAlive = x.lastAlive := by
      rw [hy]
      rfl
    exact ⟨(congrArg (fun z => z.ackDue.map Prod.fst) hstill :).trans hack, (congrArg LinkPort.lastAlive hstill :).trans (hlast.trans hsame)⟩
  · rw [if_pos htone, countBad_none hhead, frameEnded_tone htone] at h
    obtain ⟨hdev, hhst⟩ := h.quiet (hset.calm calm (by cases p <;> decide) (by cases p <;> decide))
    rw [hdev]
    exact ⟨port_setPort .., hset, hhst⟩
  · have hclean : c.body.all Option.isSome = true := by
      rw [hc]
      exact splitFrame_clean hgood
    refine ⟨fun hf => ?_, fun hf => ?_⟩
    · rw [if_neg (by simp [hf]), countBad_none hgood, frameEnded_abort hup hf] at h
      exact ends_abort hx hy calm hclean hb hal' h
    · have hna : c.fin ≠ .abort := by rcases hf with hf | hf <;> simp [hf]
      have hnt : c.fin ≠ .tone := by rcases hf with hf | hf <;> simp [hf]
      rw [if_neg hnt, countBad_none hgood, frameEnded_check hup hna hnt] at h
      exact ⟨fun hk => ends_bad hx hu hy calm hclean hb hal' hk h, fun hk hf => ends_broken hx hy calm hclean hb hal' hk hf h,
        fun hk hf ha => ends_again hx hy calm hclean hb hal' hk hf ha h, fun hk hf ha hn => ends_busy hx hy calm hclean hb hal' hk hf ha hn h,
        fun hk hf ha hn => ends_good hx hy calm hclean hb hal' hk hf ha hn h⟩

end Sys2Proof.Machine
end
